-- ==== Sys2Proof/Word.lean ====
section
/-! DEFINITION. Widths of Ballodon's registers and the plainest readings of them. -/

namespace Sys2Proof

/-- A 64-bit scalar register value (R8, R17). -/
abbrev Word := BitVec 64
/-- A vector register value: 256 lanes of 32 bits (R8). -/
abbrev Vec := BitVec 8192
/-- A predicate, or the lane mask a guard gives: one bit a lane (R18, R21). -/
abbrev Mask := BitVec 256
/-- One byte of memory. -/
abbrev Byte := BitVec 8
/-- A bundle of 384 bits (R12, R43). -/
abbrev Bundle := BitVec 384

end Sys2Proof
end

