-- ==== Sys2Proof/Syntax.lean ====
section
/-! DEFINITION. The steps of Ballodon: one constructor for each row of spec/opcode_table.json.
The rows of the functional units carry what their trigger's modifier says (R52, R64, R159, R202, R336, R437);
the rows that are machine events carry the agent they concern and, where they come from outside, their data. -/

namespace Sys2Proof

/-- Element types by their modifier code 0 to 7 (R52, R155). -/
inductive ElemType where
  | i8 | ui8 | i16 | ui16 | i32 | ui32 | f32 | bf16
  deriving DecidableEq, Repr

/-- The space an LS or CT address names: local, global (`.g`) or scalar memory (`.sm`) (R73). -/
inductive Space where
  | loc | glob | smem
  deriving DecidableEq, Repr

/-- The engines of a core whose operations have start delays (R49). -/
inductive Engine where
  | ma | vl | ce | fx
  deriving DecidableEq, Repr

/-- Who reaches into memory in R113: the cinch firmware of one die, to read or to write. -/
structure CinchAccess where
  die : BitVec 1
  wr : Bool
  deriving DecidableEq, Repr

/-- One step of the machine. -/
inductive Instr where
  /-- DIE_RESET (R407): The host resets a stopped die, which restores its slot table and counters to their reset state. -/
  | dieReset (die : BitVec 1)
  /-- ROLLBACK_FLOOR_RAISE (R459): The host raises the anti-rollback floor in one-time storage through the boot capability. -/
  | rollbackFloorRaise (floor : BitVec 32)
  /-- POWER_LIMIT_SET (R464): The host lowers a die's power limit, to no less than 400 W, through the boot capability. -/
  | powerLimitSet (die : BitVec 1) (watts : BitVec 16)
  /-- ATTEST_REQUEST (R460): The firmware's attestation service signs the host's nonce with the device identity key, burning a reservation bit before the first index of each block. -/
  | attestRequest (nonce : BitVec 256)
  /-- POWER_WINDOW_END (R464): At the end of each 1,024-cycle power window, a die that exceeded its limit delays MMA array starts in the next window. -/
  | powerWindowEnd (die : BitVec 1)
  /-- REGISTER_WRITE (R418): A host write to a package register that has no row of its own, such as NODEID, STRDL, PLANEUP, TSYNC, ERRBASE, SAVEPOOL or a counter domain, updates it or is ignored as its map states. -/
  | registerWrite (off : BitVec 20) (val : BitVec 64)
  /-- TROOT_WRITE (R256): A host write of TROOT sets the top table PA, and is ignored while any context is live. -/
  | trootWrite (val : BitVec 64)
  /-- TLBINV_ALL (R256): A TLBINV write of KIND 00 invalidates every translation of the package and sets BUSY until old translations are gone. -/
  | tlbinvAll (val : BitVec 64)
  /-- TLBINV_PAGE (R256): A TLBINV write of KIND 01 invalidates the 64 KiB page at VA. -/
  | tlbinvPage (val : BitVec 64)
  /-- TLBINV_LARGE_PAGE (R256): A TLBINV write of KIND 10 invalidates the 512 MiB page at VA. -/
  | tlbinvLargePage (val : BitVec 64)
  /-- FCRATE_WRITE (R422): A write of a code-rate register sets a flow class's k and m from the next stripe cut, or is ignored if invalid. -/
  | fcrateWrite (cls : BitVec 3) (val : BitVec 64)
  /-- ERRRP_WRITE (R386): A write of ERRRP advances the error ring's consumed count, and is ignored if it moves backward or past ERRWP. -/
  | errrpWrite (die : BitVec 1) (val : BitVec 32)
  /-- RRRP_WRITE (R435): The cinch firmware advances a decision log's drained count, which releases parties stalled on a full log. -/
  | rrrpWrite (die : BitVec 1) (val : BitVec 64)
  /-- QUEUE_CONFIG_WRITE (R418): A write of a queue's EN, BASE, LOG2N and DOMAIN fields enables or configures the queue under the field restrictions. -/
  | queueConfigWrite (q : BitVec 12) (val : BitVec 64)
  /-- QUEUE_TAIL_WRITE (R103): A TAIL doorbell write enqueues the covered entries with consecutive sequence values, or is ignored with a class E record if it moves TAIL backward or too far ahead. -/
  | queueTailWrite (q : BitVec 12) (val : BitVec 32)
  /-- HOST_MEM_ACCESS (R417): A host CXL.mem access reads or writes device HBM4E on the H path. -/
  | hostMemAccess (wr : Bool) (size : BitVec 2) (pa : BitVec 45) (val : BitVec 64)
  /-- D2D_FLIT_RETRY (R415): A die-to-die flit that fails its check is resent by link-level retry, and a link that cannot deliver after retry goes out of service. -/
  | d2dFlitRetry (delivered : Bool)
  /-- SLOT_BIND (R111): A bind record written with VALID 1 is checked and binds a rectangle to a queue with a lease, or is refused with a STATUS and class E record. -/
  | slotBind (die : BitVec 1) (slot : BitVec 6) (rec : BitVec 512)
  /-- SLOT_IDLE (R111): A bind record written with VALID 0 and a nonzero rectangle makes the slot idle, after the checks of refusal. -/
  | slotIdle (die : BitVec 1) (slot : BitVec 6) (rec : BitVec 512)
  /-- SLOT_EMPTY (R111): A bind record written with VALID 0 and WIDTH and HEIGHT 0 empties the slot, after the checks of refusal. -/
  | slotEmpty (die : BitVec 1) (slot : BitVec 6) (rec : BitVec 512)
  /-- PREEMPT_REQUEST (R402): A displaced binding, a time slice or the host driver requests pre-emption, setting STATUS.PREQ. -/
  | preemptRequest (core : BitVec 8) (forced : Bool)
  /-- LEASE_EXPIRY (R114): When a slot's lease expires and a fitting queue waits, the dispatch hardware pre-empts the slot and binds it to the next waiting queue in rotation order. -/
  | leaseExpiry (die : BitVec 1) (slot : BitVec 6)
  /-- SLOT_TAKE_WAITING (R114): An idle slot, or one whose queue is no longer runnable, takes the first fitting waiting queue in rotation order and advances rp. -/
  | slotTakeWaiting (die : BitVec 1) (slot : BitVec 6)
  /-- FORCED_PREEMPT_TIMEOUT (R112): Once 50,000 cycles have passed after a forced or time-slice request, pre-emption is taken at the next bundle boundary. -/
  | forcedPreemptTimeout (core : BitVec 8)
  /-- LAUNCH_VALIDATE (R105): When a launch becomes runnable, the dispatcher reads and validates its RCB tree, parameter blocks and images, or fails the launch with a completion store of SEQ + 2^63. -/
  | launchValidate (q : BitVec 12)
  /-- TASK_STAGE (R117): The dispatcher fills a free staged slot with the next task assigned to the core, by increasing index and placement rule. -/
  | taskStage (core : BitVec 8)
  /-- TASK_START (R97): A staged task starts when the running one ends, installing a non-resident image, copying the data image and setting the task start state. -/
  | taskStart (core : BitVec 8)
  /-- TIME_SLICE_YIELD (R123): A task sharing a physical core yields after 500,000 cycles at its next segment boundary, task end or park, or after 50,000 more cycles at a bundle boundary. -/
  | timeSliceYield (core : BitVec 8)
  /-- CONTEXT_SAVE (R402): At the chosen boundary, once operations have landed and accesses are performed, the core writes the save area and frees itself. -/
  | contextSave (core : BitVec 8)
  /-- CONTEXT_RESTORE (R405): The dispatcher checks the save area CRC, writes every item back, sets owner tags, resets the watchdog and resumes issue or parking. -/
  | contextRestore (core : BitVec 8)
  /-- REGION_COMPLETE (R106): When all tasks or children and all queued engine work have completed, the region performs a release store of its SEQ to COMPL, in order after its children and predecessor. -/
  | regionComplete (launch : BitVec 32) (region : BitVec 8)
  /-- FETCH (R22): The core decodes the index at PC as a dictionary entry or an escape literal, validating literals and raising an illegal-index, illegal-bundle or illegal-transport fault. -/
  | fetch (core : BitVec 8)
  /-- BUNDLE_ISSUE (R13): A bundle issues when the hold line is clear: it reads every source at the start, applies guards, and writes all destinations and triggers together at its end. -/
  | bundleIssue (core : BitVec 8)
  /-- ENGINE_OP_START (R49): A triggered engine operation starts after its delay and one cycle after the engine's previous start, and its captured operands are swapped into the active set. -/
  | engineOpStart (core : BitVec 8) (e : Engine)
  /-- RESULT_LANDING (R14): A result lands in y0 with y0 moving to y1 in trigger order, writing a reserved completion record where one is due and releasing any bundle held for it. -/
  | resultLanding (core : BitVec 8) (unit : BitVec 5)
  /-- TRAP_ENTRY (R35): At a bundle boundary once operations have landed, a precise or pending fault sets TRAPCAUSE, TRAPPC, TRAPINFO and INTRAP and jumps to the handler, or escalates to class C. -/
  | trapEntry (core : BitVec 8)
  /-- FREEZE_TIMEOUT (R29): When consecutive held cycles reach 2^WDLIM, the held bundle takes a freeze-timeout fault and the awaited operation is abandoned. -/
  | freezeTimeout (core : BitVec 8)
  /-- PAGE_WALK (R250): A TLB miss takes a walker and reads the page-table entries of the three levels, filling the TLBs or raising a translation or permission fault. -/
  | pageWalk (core : BitVec 8) (va : BitVec 48)
  /-- ECC_REREAD (R392): Within 64 cycles of an uncorrectable read, the word is read again, and it is written back corrected if the error is transient or its line is poisoned if persistent. -/
  | eccReread (core : BitVec 8) (hbm : Bool) (addr : BitVec 45)
  /-- REWIND (R395): The core waits for landing, discards the deferred queue and segment faults, restores shadowed items and reissues the segment-entry bundle, or raises rewind-exhausted after three. -/
  | rewind (core : BitVec 8)
  /-- SCRUB_WORD (R259): The background scrubber reads an on-chip word in an idle bank cycle, writes it back corrected, or poisons its line if a second read confirms a persistent error. -/
  | scrubWord (core : BitVec 8) (addr : BitVec 32)
  /-- FRAG_TIME_SYNC (R416): A received time-sync fragment is compared with local package time, and the package speeds or slows its count until its offset is zero. -/
  | fragTimeSync (plane : BitVec 4) (frag : BitVec 4608)
  /-- CWAIT_WAKE (R363): An add that brings a parked CWAIT's counter to its threshold ends the parking, and the value read lands as an acquire. -/
  | cwaitWake (core : BitVec 8)
  /-- CWAIT_TIMEOUT (R363): When a parked CWAIT's timeout expires, the last value read lands below the threshold and is not an acquire. -/
  | cwaitTimeout (core : BitVec 8)
  /-- MMA_ARRAY_START (R196): An MMA begins on the array at the later of its start and the previous MMA's completion less 24, and runs the prologue and its block-rows. -/
  | mmaArrayStart (core : BitVec 8)
  /-- MMA_COMPLETE (R195): The MMA completes at T, and the accumulator's busy bit clears at T + 1. -/
  | mmaComplete (core : BitVec 8)
  /-- MMA_REPLAY (R198): An MMA marked for replay reruns whole from its operand buffers at T + 1, or ends in a tile-check fault that halts MA once MAREP replays are spent. -/
  | mmaReplay (core : BitVec 8)
  /-- TILE_DRAIN_DONE (R218): A draining tile becomes empty once its busy bit clears and every copy-engine read of it has been performed. -/
  | tileDrainDone (core : BitVec 8) (tile : BitVec 6)
  /-- CE_RECORD_READ (R289): A channel reads the next 128-byte transfer record of its chain and checks it, halting under R298 on failure. -/
  | ceRecordRead (core : BitVec 8) (ch : BitVec 2)
  /-- CE_PREWAIT_MET (R296): A record's pre-wait completes as an acquire once its counter reaches PRETHR, and the record proceeds. -/
  | cePrewaitMet (core : BitVec 8) (ch : BitVec 2)
  /-- CE_RING_CLAIM (R302): A record with a ring-slot destination claims slot CLAIM once the ring has room, and CLAIM advances. -/
  | ceRingClaim (core : BitVec 8) (ch : BitVec 2)
  /-- CE_WAIT_TIMEOUT (R296): A pre-wait or ring claim still waiting after 2^(WDLIM + 4) cycles ends the record as ill-formed. -/
  | ceWaitTimeout (core : BitVec 8) (ch : BitVec 2)
  /-- CE_RECORD_COMPLETE (R297): After its transfer, a record writes STATUS and BYTES, clears OWN, performs its post-add release, publishes its ring slot and makes its destination tile ready. -/
  | ceRecordComplete (core : BitVec 8) (ch : BitVec 2)
  /-- TABLE_LOAD_APPLY (R315): Once its standby copy is unbound, a table load writes and validates the image in a stack, making it current with a new generation or refusing it. -/
  | tableLoadApply (stack : BitVec 4)
  /-- XLANE_JOB_START (R308): A transducer lane starts its next job, checks the JCB and waits on its pre-wait. -/
  | xlaneJobStart (lane : BitVec 9)
  /-- XLANE_PREWAIT_MET (R308): A job's pre-wait completes as an acquire, and the job binds its tables and starts to run. -/
  | xlanePrewaitMet (lane : BitVec 9)
  /-- XLANE_TRANSITION (R312): The lane performs one transition, consuming a nibble or byte, gathering and acting on the entry's action. -/
  | xlaneTransition (lane : BitVec 9)
  /-- XLANE_WAIT_TIMEOUT (R310): A job's pre-wait still waiting after 2^(WDLIM + 4) cycles fails the job with 0x12. -/
  | xlaneWaitTimeout (lane : BitVec 9)
  /-- XLANE_JOB_END (R308): A completed or failed job writes back its counts and STATUS, clears OWN and, on success, performs its post-add release. -/
  | xlaneJobEnd (lane : BitVec 9)
  /-- SE_JOB_START (R325): A stack engine starts its next job, checks the job block and waits on its pre-wait. -/
  | seJobStart (eng : BitVec 5)
  /-- SE_PREWAIT_MET (R325): A stack-engine job's pre-wait completes as an acquire, and the job begins its column blocks. -/
  | sePrewaitMet (eng : BitVec 5)
  /-- SE_COLUMN_BLOCK (R325): The engine computes one column block's raw image with residue checks and one recomputation, writes it and advances DONE. -/
  | seColumnBlock (eng : BitVec 5)
  /-- SE_WAIT_TIMEOUT (R328): A stack-engine pre-wait still waiting after 2^(WDLIM + 4) cycles fails the job with 0x12. -/
  | seWaitTimeout (eng : BitVec 5)
  /-- SE_JOB_END (R326): A stack-engine job writes STATUS and DONE, clears OWN and, on success, performs its post-add release. -/
  | seJobEnd (eng : BitVec 5)
  /-- FX_QUEUE_DEPART (R438): An FX operation leaves its queue when its flow's window allows, takes its sequence number and is passed to the die's fabric interface. -/
  | fxQueueDepart (core : BitVec 8)
  /-- STRIPE_SEND (R423): The fabric interface cuts a stripe, computes its parity, and sends its fragments on rotated planes that are not erased, or holds it while too many planes are erased. -/
  | stripeSend (die : BitVec 1)
  /-- FRAG_DATA (R425): A received data fragment is checked, allocated a decode buffer or NAKed busy, and the stripe is decoded and ACKed once k fragments are present. -/
  | fragData (plane : BitVec 4) (frag : BitVec 4608)
  /-- FRAG_RESERVED_TYPE (R419): A fragment of reserved TYPE is discarded. -/
  | fragReservedType (plane : BitVec 4) (frag : BitVec 4608)
  /-- STRIPE_DELIVER (R426): A decoded stripe is written at its target, in message order on an ordered flow, and a delivered message performs its remote counter add. -/
  | stripeDeliver (die : BitVec 1)
  /-- FRAG_ACK (R427): A received ACK frees the stripe in the retransmit store, and when a message is fully acknowledged its local counter add is made. -/
  | fragAck (plane : BitVec 4) (frag : BitVec 4608)
  /-- FRAG_NAK (R425): A received NAK schedules a busy resend after 2,048 cycles, or marks the stripe failed for retransmission. -/
  | fragNak (plane : BitVec 4) (frag : BitVec 4608)
  /-- STRIPE_BUSY_RESEND (R425): 2,048 cycles after a busy NAK, the sender resends the stripe whole with RETRY unchanged. -/
  | stripeBusyResend (die : BitVec 1) (id : BitVec 32)
  /-- STRIPE_DEADLINE (R427): If fewer than k fragments of an attempt arrive within STRDL, the receiver frees the buffer and sends a NAK. -/
  | stripeDeadline (die : BitVec 1) (id : BitVec 32)
  /-- ACK_TIMEOUT (R427): A stripe unacknowledged 2 × STRDL after its last fragment fails, and is resent once or ends in unrecoverable loss. -/
  | ackTimeout (die : BitVec 1) (id : BitVec 32)
  /-- FRAG_READ_REQUEST (R447): A read request at the target reads the named range under the receive entry's region and returns read-response stripes. -/
  | fragReadRequest (plane : BitVec 4) (frag : BitVec 4608)
  /-- FRAG_READ_RESPONSE (R447): Read-response stripes are decoded and land at LADDR as F-path writes, followed by the local counter add. -/
  | fragReadResponse (plane : BitVec 4) (frag : BitVec 4608)
  /-- FRAG_CONTRIBUTION (R430): A contribution copy is acknowledged at the root and folded into its key's partial, in contributor order for DET 1 or in any grouping on the path for DET 0. -/
  | fragContribution (plane : BitVec 4) (frag : BitVec 4608)
  /-- FRAG_CONTRIB_ACK (R429): A contribution ACK from the root marks that copy acknowledged at the contributor. -/
  | fragContribAck (plane : BitVec 4) (frag : BitVec 4608)
  /-- CONTRIB_RESEND_TIMEOUT (R429): An unacknowledged contribution copy is resent once after 2 × STRDL, and the contributing region takes 0x1E when neither copy is acknowledged. -/
  | contribResendTimeout (die : BitVec 1) (id : BitVec 32)
  /-- MERGED_PARTIAL_APPLY (R431): A key's merged partial arriving at the home is applied to each cell as one atomic update, and the window counter advances as a release. -/
  | mergedPartialApply (id : BitVec 32)
  /-- KEY_INCOMPLETE_TIMEOUT (R431): A key still incomplete at a root 2^24 cycles after first arrival is discarded, and the home region takes 0x1E. -/
  | keyIncompleteTimeout (id : BitVec 32)
  /-- REPLAY_WAIT_TIMEOUT (R436): A named replay winner that does not arrive within 2^WDLIM cycles while another party waits gives a replay-divergence fault. -/
  | replayWaitTimeout (core : BitVec 8)
  /-- ADD (R66): Integer add modulo 2^64. -/
  | add (u : Bool)
  /-- SUB (R66): Integer subtract modulo 2^64. -/
  | sub (u : Bool)
  /-- AND (R66): Bitwise and. -/
  | and (u : Bool)
  /-- OR (R66): Bitwise or. -/
  | or (u : Bool)
  /-- XOR (R66): Bitwise exclusive or. -/
  | xor (u : Bool)
  /-- ANDN (R66): a AND NOT b. -/
  | andn (u : Bool)
  /-- SHL (R66): Shift left by b<0..5>. -/
  | shl (u : Bool)
  /-- SHR (R66): Logical shift right. -/
  | shr (u : Bool)
  /-- SAR (R66): Arithmetic shift right. -/
  | sar (u : Bool)
  /-- ROL (R66): Rotate left by b<0..5>. -/
  | rol (u : Bool)
  /-- CEQ (R66): Lands 1 if a = b. -/
  | ceq (u : Bool)
  /-- CNE (R66): Lands 1 if a ≠ b. -/
  | cne (u : Bool)
  /-- CLT (R66): Signed less-than comparison. -/
  | clt (u : Bool)
  /-- CLTU (R66): Unsigned less-than comparison. -/
  | cltu (u : Bool)
  /-- CLE (R66): Signed less-or-equal comparison. -/
  | cle (u : Bool)
  /-- CLEU (R66): Unsigned less-or-equal comparison. -/
  | cleu (u : Bool)
  /-- MIN (R66): Signed minimum. -/
  | min (u : Bool)
  /-- MAX (R66): Signed maximum. -/
  | max (u : Bool)
  /-- MINU (R66): Unsigned minimum. -/
  | minu (u : Bool)
  /-- MAXU (R66): Unsigned maximum. -/
  | maxu (u : Bool)
  /-- SEL (R66): Selects a if c<0> = 1, else b. -/
  | sel (u : Bool)
  /-- CLZ (R66): Counts leading zero bits of b. -/
  | clz (u : Bool)
  /-- CTZ (R66): Counts trailing zero bits of b. -/
  | ctz (u : Bool)
  /-- POPC (R66): Counts the 1 bits of b. -/
  | popc (u : Bool)
  /-- SEXT (R66): Sign-extends a from bit sh. -/
  | sext (u : Bool)
  /-- ZEXT (R66): Zero-extends a from bit sh. -/
  | zext (u : Bool)
  /-- ADDSH (R66): a plus b shifted left by c<0..1>. -/
  | addsh (u : Bool)
  /-- BFX (R66): Extracts a bit field of a described by b. -/
  | bfx (u : Bool)
  /-- BFI (R66): Inserts c into a bit field of a described by b. -/
  | bfi (u : Bool)
  /-- FCVTIF (R71): Converts an integer to FP32 with the modifier's rounding. -/
  | fcvtif (ty : ElemType) (rm : BitVec 3)
  /-- FCVTFI (R71): Converts FP32 to an integer type, saturating and counting events in CONVCNT. -/
  | fcvtfi (ty : ElemType) (rm : BitVec 3)
  /-- LDB (R73, R74): Loads a sign-extended byte from a local, scalar-memory or global address. -/
  | ldb (sp : Space)
  /-- LDBU (R73, R74): Loads a zero-extended byte. -/
  | ldbu (sp : Space)
  /-- LDH (R73, R74): Loads a sign-extended halfword. -/
  | ldh (sp : Space)
  /-- LDHU (R73, R74): Loads a zero-extended halfword. -/
  | ldhu (sp : Space)
  /-- LDW (R73, R74): Loads a sign-extended word. -/
  | ldw (sp : Space)
  /-- LDWU (R73, R74): Loads a zero-extended word. -/
  | ldwu (sp : Space)
  /-- LDD (R73, R74): Loads a doubleword. -/
  | ldd (sp : Space)
  /-- STB (R73, R74): Stores a byte. -/
  | stb (sp : Space)
  /-- STH (R73, R74): Stores a halfword. -/
  | sth (sp : Space)
  /-- STW (R73, R74): Stores a word. -/
  | stw (sp : Space)
  /-- STD (R73, R74): Stores a doubleword. -/
  | std (sp : Space)
  /-- PREF (R79): Hints a global line toward the core, or is dropped. -/
  | pref (sp : Space)
  /-- AADD (R365): Atomic add, landing the old value. -/
  | aadd (sp : Space) (dbl : Bool) (uns : Bool)
  /-- AMAX (R365): Atomic maximum. -/
  | amax (sp : Space) (dbl : Bool) (uns : Bool)
  /-- AMIN (R365): Atomic minimum. -/
  | amin (sp : Space) (dbl : Bool) (uns : Bool)
  /-- AXCHG (R365): Atomic exchange. -/
  | axchg (sp : Space) (dbl : Bool) (uns : Bool)
  /-- ACAS (R365): Atomic compare and swap. -/
  | acas (sp : Space) (dbl : Bool) (uns : Bool)
  /-- AFADD (R365): Atomic FP32 add with RNE. -/
  | afadd (sp : Space) (dbl : Bool) (uns : Bool)
  /-- AAND (R365): Atomic bitwise and. -/
  | aand (sp : Space) (dbl : Bool) (uns : Bool)
  /-- AOR (R365): Atomic bitwise or. -/
  | aor (sp : Space) (dbl : Bool) (uns : Bool)
  /-- CRPOP (R88): Pops the oldest completion-ring record, or its header with .hdr, waiting on an empty ring. -/
  | crpop (hdr : Bool)
  /-- VADD (R164): Element-wise add. -/
  | vadd (u : Bool) (ty : ElemType) (md : BitVec 3)
  /-- VSUB (R164): Element-wise subtract. -/
  | vsub (u : Bool) (ty : ElemType) (md : BitVec 3)
  /-- VMUL (R164): Element-wise multiply. -/
  | vmul (u : Bool) (ty : ElemType) (md : BitVec 3)
  /-- VMIN (R164): Element-wise minimum. -/
  | vmin (u : Bool) (ty : ElemType)
  /-- VMAX (R164): Element-wise maximum. -/
  | vmax (u : Bool) (ty : ElemType)
  /-- VAND (R164): Bitwise and of vectors. -/
  | vand (u : Bool)
  /-- VOR (R164): Bitwise or of vectors. -/
  | vor (u : Bool)
  /-- VXOR (R164): Bitwise exclusive or of vectors. -/
  | vxor (u : Bool)
  /-- VANDN (R164): Vector a AND NOT b. -/
  | vandn (u : Bool)
  /-- VSHL (R164): Element-wise shift left. -/
  | vshl (u : Bool) (ty : ElemType)
  /-- VSHR (R164): Element-wise logical shift right. -/
  | vshr (u : Bool) (ty : ElemType)
  /-- VSAR (R164): Element-wise arithmetic shift right. -/
  | vsar (u : Bool) (ty : ElemType)
  /-- VCEQ (R164): Element-wise equality comparison. -/
  | vceq (u : Bool) (ty : ElemType)
  /-- VCNE (R164): Element-wise inequality comparison. -/
  | vcne (u : Bool) (ty : ElemType)
  /-- VCLT (R164): Element-wise less-than comparison. -/
  | vclt (u : Bool) (ty : ElemType)
  /-- VCLE (R164): Element-wise less-or-equal comparison. -/
  | vcle (u : Bool) (ty : ElemType)
  /-- VSEL (R164): Lane-wise select by c bit 0. -/
  | vsel (u : Bool)
  /-- VABS (R164): Element-wise absolute value. -/
  | vabs (u : Bool) (ty : ElemType) (sat : Bool)
  /-- VNEG (R164): Element-wise negation. -/
  | vneg (u : Bool) (ty : ElemType) (sat : Bool)
  /-- VCLAMP (R164): Element-wise clamp between lo and hi. -/
  | vclamp (u : Bool) (ty : ElemType)
  /-- VCVT (R165): Converts elements between types by part, counting events in CONVCNT. -/
  | vcvt (u : Bool) (src : ElemType) (dst : ElemType)
  /-- VIOTA (R166): Gives each element start + j. -/
  | viota (u : Bool) (ty : ElemType)
  /-- PAND (R167): Lane-wise predicate and. -/
  | pand (u : Bool)
  /-- POR (R167): Lane-wise predicate or. -/
  | por (u : Bool)
  /-- PXOR (R167): Lane-wise predicate exclusive or. -/
  | pxor (u : Bool)
  /-- PANDN (R167): Lane-wise predicate and-not. -/
  | pandn (u : Bool)
  /-- PNOT (R167): Lane-wise predicate not. -/
  | pnot (u : Bool)
  /-- PCNT (R167): Counts passing set lanes, broadcast. -/
  | pcnt (u : Bool) (cr : Bool)
  /-- PFIRST (R167): Finds the lowest passing set lane. -/
  | pfirst (u : Bool) (cr : Bool)
  /-- PSETN (R167): Sets lanes below n. -/
  | psetn (u : Bool)
  /-- PPACK (R168): Packs eight predicates into one vector. -/
  | ppack (u : Bool) (hi : Bool)
  /-- PUNPACK (R168): Unpacks a vector into eight predicates at landing. -/
  | punpack (u : Bool) (hi : Bool)
  /-- VFMA (R169): Fused a × b + c. -/
  | vfma (ty : ElemType) (rm : BitVec 3)
  /-- VFMS (R169): Fused a × b − c. -/
  | vfms (ty : ElemType) (rm : BitVec 3)
  /-- VFNMA (R169): Fused −(a × b) + c. -/
  | vfnma (ty : ElemType) (rm : BitVec 3)
  /-- VDIV (R171): Correctly rounded element division. -/
  | vdiv (ty : ElemType) (rm : BitVec 3)
  /-- VSQRT (R171): Correctly rounded square root. -/
  | vsqrt (ty : ElemType) (rm : BitVec 3)
  /-- VRCP (R171): Correctly rounded reciprocal. -/
  | vrcp (ty : ElemType) (rm : BitVec 3)
  /-- VRSQ (R171): Correctly rounded reciprocal square root. -/
  | vrsq (ty : ElemType) (rm : BitVec 3)
  /-- VEXP2 (R171): Correctly rounded 2^x. -/
  | vexp2 (ty : ElemType) (rm : BitVec 3)
  /-- VLOG2 (R171): Correctly rounded log2. -/
  | vlog2 (ty : ElemType) (rm : BitVec 3)
  /-- VTANH (R171): Correctly rounded tanh. -/
  | vtanh (ty : ElemType) (rm : BitVec 3)
  /-- VDOT4 (R170): Per-lane dot product of four bytes or two BF16 values plus c. -/
  | vdot4 (ty : ElemType) (md : BitVec 3)
  /-- VMAC (R169): Integer multiply-accumulate, wrapped or saturated. -/
  | vmac (ty : ElemType) (sat : Bool)
  /-- VSHUF (R172): Permutes elements by index vector. -/
  | vshuf (ty : ElemType)
  /-- VROT (R172): Rotates elements. -/
  | vrot (ty : ElemType)
  /-- VBCAST (R172): Broadcasts element s. -/
  | vbcast (ty : ElemType)
  /-- VZIP (R172): Interleaves halves of a and b. -/
  | vzip (ty : ElemType) (hi : Bool)
  /-- VUNZIP (R172): De-interleaves a and b. -/
  | vunzip (ty : ElemType) (hi : Bool)
  /-- VSLIDE (R172): Slides a, then c, by s elements. -/
  | vslide (ty : ElemType)
  /-- VPACK (R174): Quantises 256 FP32 elements into a block format under keeper scales, writing NaN-scale bytes. -/
  | vpack (fmt : BitVec 4)
  /-- VUNPACK (R175): Decodes a packed part to FP32 under keeper scales. -/
  | vunpack (fmt : BitVec 4)
  /-- VCOMPRESS (R173): Compresses selected lanes to the front, with their count. -/
  | vcompress (cr : Bool)
  /-- VACCRD (R178): Reads accumulator elements rounded or raw. -/
  | vaccrd (ty : ElemType) (rm : BitVec 3)
  /-- VACCWR (R179): Writes accumulator elements from FP32 or raw images. -/
  | vaccwr (ty : ElemType)
  /-- VPLANE (R177): Forms one bit plane of a block-row. -/
  | vplane (fmt : BitVec 4)
  /-- VLD (R342): Loads 1,024 bytes. -/
  | vld (g : Bool)
  /-- VST (R342): Stores 1,024 bytes under the guard. -/
  | vst (g : Bool)
  /-- VLDS (R343): Strided element load. -/
  | vlds (g : Bool) (ty : ElemType)
  /-- VSTS (R343): Strided element store. -/
  | vsts (g : Bool) (ty : ElemType)
  /-- VGATH (R348): Gathers elements through a descriptor, landing the out-of-bounds count. -/
  | vgath (g : Bool) (cr : Bool)
  /-- VSCAT (R349): Scatters elements through a descriptor. -/
  | vscat (g : Bool) (cr : Bool)
  /-- VSCATADD (R349): Scatters adds, one atomic update per distinct address. -/
  | vscatadd (g : Bool) (cr : Bool)
  /-- VLDZ (R350): Loads a compressed buffer, expanding it at point 3. -/
  | vldz (g : Bool)
  /-- VSTZ (R351): Stores a vector as a scheme-0 compressed buffer, or faults on overrun. -/
  | vstz (g : Bool) (ty : ElemType) (cr : Bool)
  /-- VRSUM (R182): Sums the passing elements. -/
  | vrsum (ty : ElemType) (cr : Bool)
  /-- VRMAX (R182): Maximum of the passing elements. -/
  | vrmax (ty : ElemType) (cr : Bool)
  /-- VRMIN (R182): Minimum of the passing elements. -/
  | vrmin (ty : ElemType) (cr : Bool)
  /-- VARGMAX (R182): Lane of the largest passing element. -/
  | vargmax (ty : ElemType) (cr : Bool)
  /-- VARGMIN (R182): Lane of the smallest passing element. -/
  | vargmin (ty : ElemType) (cr : Bool)
  /-- VSCAN (R183): Prefix sums over the passing lanes. -/
  | vscan (ty : ElemType) (cr : Bool) (ex : Bool)
  /-- VMERGE (R184): Merges two sorted key-payload streams. -/
  | vmerge (comb : BitVec 2) (dz : Bool) (cr : Bool) (pt : BitVec 2)
  /-- VSORT (R185): Sorts keys with their payloads. -/
  | vsort (ty : ElemType) (desc : Bool)
  /-- VTOPK (R186): Selects the k largest or smallest keys. -/
  | vtopk (ty : ElemType) (cr : Bool) (desc : Bool)
  /-- VUNIQ (R187): Finds the distinct keys. -/
  | vuniq (ty : ElemType) (cr : Bool)
  /-- KMOV (R227): Copies a whole keeper. -/
  | kmov (rebind : Bool)
  /-- KADDE (R228): Adds to the scale exponents of a keeper range. -/
  | kadde (rebind : Bool) (enc : BitVec 2)
  /-- KMAX (R229): Element-wise maximum of keepers. -/
  | kmax (rebind : Bool) (enc : BitVec 2)
  /-- KMIN (R229): Element-wise minimum of keepers. -/
  | kmin (rebind : Bool) (enc : BitVec 2)
  /-- KCVT (R230): Converts keeper entries between encodings. -/
  | kcvt (rebind : Bool) (enc : BitVec 2) (denc : BitVec 2)
  /-- KFOLD (R231): Folds a band scale into the block scales. -/
  | kfold (rebind : Bool) (enc : BitVec 2)
  /-- KAMAX (R232): Derives scales from amax values. -/
  | kamax (rebind : Bool) (enc : BitVec 2)
  /-- KGEN (R234): Lands a keeper's generation. -/
  | kgen (cr : Bool)
  /-- KLD (R227): Loads a keeper image from scratchpad. -/
  | kld (rebind : Bool)
  /-- CQUE (R353): Appends a chain head to a copy channel, or lands 1. -/
  | cque (g : Bool)
  /-- RINIT (R354): Checks a ring object and sets its pointers. -/
  | rinit (g : Bool)
  /-- RAWAIT (R355): Waits until a ring slot is published and lands its address. -/
  | rawait (g : Bool)
  /-- RREL (R356): Releases a ring slot in order. -/
  | rrel (g : Bool)
  /-- TDMK (R357): Validates a tensor descriptor and writes its SEAL. -/
  | tdmk (g : Bool)
  /-- XJOB (R358): Queues a transducer job, or lands 1. -/
  | xjob (g : Bool)
  /-- XTAB (R359): Sends a table load to the named stacks. -/
  | xtab (g : Bool)
  /-- SEJOB (R358): Queues a stack-engine job, or lands 1. -/
  | sejob (g : Bool)
  /-- FWRITE (R446): Queues a fabric write message. -/
  | fwrite (g : Bool)
  /-- FREAD (R447): Queues a fabric read. -/
  | fread (g : Bool)
  /-- FRED (R451): Queues one contribution to a reduction window. -/
  | fred (g : Bool)
  /-- FRWIN_REGISTER (R450): Mode 0 registers a reduction window. -/
  | frwinRegister (g : Bool)
  /-- FRWIN_REMOVE (R450): Mode 1 removes a reduction window. -/
  | frwinRemove (g : Bool)
  /-- ACCESS_PERFORMED (R271): An issued memory access (a queued store, load, atomic, scatter, engine or point-0 read) is performed at its home in its unit's order within finite time, which can complete a FENCE or QMARK, make a TMARK-closed tile ready or discard a narrow write into poison. -/
  | accessPerformed (core : BitVec 8)
  /-- CINCH_MEMORY_ACCESS (R113): A cinch firmware access to a page of region memory outside its own memory, the slot tables, queue state and snapshots is refused, returns zero and writes an error record. -/
  | cinchMemoryAccess (by_ : CinchAccess) (addr : BitVec 48)
  /-- PACKAGE_RESET (R458): Package reset starts package time at 0, and each die's boot ROM runs bring-up: remap table, training, descriptor key, image verification, installation and firmware start. -/
  | packageReset
  /-- TLBINV_COMPLETE (R256): An invalidation completes once no TLB holds the old translation, old walks have ended and old accesses are performed, and BUSY clears. -/
  | tlbinvComplete
  /-- DRAIN_WINDOW_OPEN (R332): 256 cycles before each curry slot, no new global request is accepted on any path until the slot ends. -/
  | drainWindowOpen
  /-- CURRY_SLOT_START (R331): A refresh or long slot starts at its calendar time, or up to 128 cycles late after overruns, and performs its refresh, scrub, calibration, retraining and sweep work. -/
  | currySlotStart
  /-- CURRY_SLOT_END (R332): At the scheduled end of a slot, global requests are accepted again and held bundles and stalled engines proceed. -/
  | currySlotEnd
  /-- PLANE_ERASE_START (R334): From 256 cycles before a long slot, senders treat the retrained plane's fragments as erased. -/
  | planeEraseStart
  /-- PLANE_ERASE_END (R334): 256 cycles after the long slot ends, the retrained plane counts as in service again for sending. -/
  | planeEraseEnd
  /-- TIME_SYNC_SEND (R416): Every 2^20 cycles, the time master sends a time-sync fragment on every plane in service. -/
  | timeSyncSend
  /-- TIME_SKEW_ALARM (R416): A package whose offset from the master stays above 5 cycles for 2^24 cycles writes a class E error record. -/
  | timeSkewAlarm
  /-- MUL (R67): Low 64 bits of the product. -/
  | mul
  /-- MULH (R67): High 64 bits of the signed product. -/
  | mulh
  /-- MULHU (R67): High 64 bits of the unsigned product. -/
  | mulhu
  /-- DIV (R67): Signed division, with a divide-by-zero fault for a zero divisor. -/
  | div
  /-- DIVU (R67): Unsigned division, with a divide-by-zero fault for a zero divisor. -/
  | divu
  /-- REM (R67): Signed remainder, with a divide-by-zero fault for a zero divisor. -/
  | rem
  /-- REMU (R67): Unsigned remainder, with a divide-by-zero fault for a zero divisor. -/
  | remu
  /-- FADD (R70): FP32 add rounded by FPSTAT.RM. -/
  | fadd
  /-- FSUB (R70): FP32 subtract. -/
  | fsub
  /-- FMUL (R70): FP32 multiply. -/
  | fmul
  /-- FMA (R70): FP32 fused multiply-add, rounded once. -/
  | fma
  /-- FDIV (R70): FP32 divide. -/
  | fdiv
  /-- FSQRT (R70): FP32 square root. -/
  | fsqrt
  /-- FMIN (R70): FP32 minimum. -/
  | fmin
  /-- FMAX (R70): FP32 maximum. -/
  | fmax
  /-- FCEQ (R70): FP32 equality comparison. -/
  | fceq
  /-- FCLT (R70): FP32 less-than comparison. -/
  | fclt
  /-- FCLE (R70): FP32 less-or-equal comparison. -/
  | fcle
  /-- FCLASS (R70): Classifies an FP32 value into one bit. -/
  | fclass
  /-- QMARK (R77): Places an ordering marker in both LS queues. -/
  | qmark
  /-- FENCE (R78): Holds later accesses on the named paths until earlier ones are performed at the named scope. -/
  | fence
  /-- BR (R81): Relative branch. -/
  | br
  /-- JMP (R81): Absolute jump. -/
  | jmp
  /-- CALL (R81): Relative call writing g31. -/
  | call
  /-- CALLI (R81): Absolute call writing g31. -/
  | calli
  /-- RET (R81): Returns to the absolute target b. -/
  | ret
  /-- LOOP (R81): Decrements the rotation bases and LOOPC, and branches while LOOPC was above 1. -/
  | loop
  /-- LSET (R81): Sets LOOPC and clears ROTB and ROTP. -/
  | lset
  /-- ENTER (R81): Checks the stack limits, saves the link, frame pointer and vsp, and allocates a frame. -/
  | enter
  /-- LEAVE (R81): Restores ssp, g31, vsp and g29 from the frame. -/
  | leave
  /-- TRAP (R81): Raises a software trap after the bundle takes effect. -/
  | trap
  /-- HALT (R81): Waits for landing and store drain, ends any segment, takes pending faults, then ends the task and frees its context. -/
  | halt
  /-- CADD (R361): Adds to a counter as a release over the named paths and scope, saturating with a counter-overflow fault. -/
  | cadd
  /-- CWAIT (R361): Reads a counter, landing the value as an acquire if at threshold, or parks the task. -/
  | cwait
  /-- CREAD (R361): Lands a counter value without ordering. -/
  | cread
  /-- MVST (R86): Reads a state register. -/
  | mvst
  /-- MVTS (R86): Writes a state register, with holds and field restrictions as mapped. -/
  | mvts
  /-- PBW (R87): Writes a parameter-block word. -/
  | pbw
  /-- CURQ_START (R89): With b = 0, lands the start time of the next curry slot. -/
  | curqStart
  /-- CURQ_DESC (R89): With b = 1, lands the next curry slot's length and kind. -/
  | curqDesc
  /-- GRPINC (R90): Atomically raises the launch's group count and lands the previous count. -/
  | grpinc
  /-- LAUNCH (R91): Submits a region control block to a submission queue and lands its sequence value, or 0 when full. -/
  | launch
  /-- ERET (R93): Waits for landing, clears INTRAP and returns to TRAPPC. -/
  | eret
  /-- RLOG (R94): Lands a value, logging it when recording or taking the logged value when replaying. -/
  | rlog
  /-- VEXPAND (R173): Expands packed lanes to selected positions. -/
  | vexpand
  /-- VLDT (R345): Reads a 1 KiB part of a ready tile. -/
  | vldt
  /-- VSTT (R346): Writes a program-filled tile, computing the occupancy header for plane-major tiles. -/
  | vstt
  /-- MMA (R209): Starts C += A·B into an accumulator under the PCW, after the issue and start checks. -/
  | mma
  /-- MDRAIN (R211): Rounds an accumulator into an output tile. -/
  | mdrain
  /-- MSAVE (R212): Writes an accumulator's raw image. -/
  | msave
  /-- MLOAD (R212): Replaces an accumulator from a checked raw image. -/
  | mload
  /-- MRAWADD (R212): Adds a checked raw image into an accumulator. -/
  | mrawadd
  /-- MZERO (R213): Zeroes an accumulator and clears its invalid mark. -/
  | mzero
  /-- MCHK (R213): Lands a digest of an accumulator. -/
  | mchk
  /-- MCLR (R207): Clears MA's halt. -/
  | mclr
  /-- MSEED (R213): Sets an accumulator's tag. -/
  | mseed
  /-- KBIND (R233): Binds a tile to a keeper's current generation. -/
  | kbind
  /-- KUNBIND (R233): Removes a tile's buckle. -/
  | kunbind
  /-- KREBIND (R233): Moves a current buckle to another keeper. -/
  | krebind
  /-- KST (R227): Stores a keeper image to scratchpad. -/
  | kst
  /-- TCFG (R215): Configures a tile entry. -/
  | tcfg
  /-- TSTATE (R218): Lands a word of a tile entry. -/
  | tstate
  /-- TREL (R218): Releases a ready tile to draining. -/
  | trel
  /-- TMARK_OPEN (R219): Mode 0 moves an empty tile to filling by the program. -/
  | tmarkOpen
  /-- TMARK_CLOSE (R219): Mode 1 makes a program-filled tile ready after earlier stores are performed. -/
  | tmarkClose
  /-- TMARK_REOPEN (R219): Mode 2 moves a ready tile back to filling by the program. -/
  | tmarkReopen
  /-- THAND (R235): Hands a buffer to another core of the cluster, with a fence and a counter release. -/
  | thand
  /-- TTAKE (R236): Takes the oldest inbound handle into a slot, or regains an owned buffer. -/
  | ttake
  /-- CSTAT (R353): Lands a channel's status word. -/
  | cstat
  /-- CCLR_RETRY (R299): Mode 0 retries the failing record of a halted channel. -/
  | cclrRetry
  /-- CCLR_ABANDON_CHAIN (R299): Mode 1 abandons the failing chain and resumes at the next head. -/
  | cclrAbandonChain
  /-- CCLR_ABANDON_ALL (R299): Mode 2 abandons every queued chain of the channel. -/
  | cclrAbandonAll
  /-- FFLOW_OPEN (R442): Mode 0 opens a send flow. -/
  | fflowOpen
  /-- FFLOW_ACCEPT (R442): Mode 1 opens a receive entry bound to the region. -/
  | fflowAccept
  /-- FFLOW_CLOSE_SEND (R443): Mode 2 closes a send flow once every message is acknowledged. -/
  | fflowCloseSend
  /-- FFLOW_CLOSE_RECV (R442): Mode 3 closes a receive entry. -/
  | fflowCloseRecv
  /-- FCADD (R449): Queues a remote counter add as a release. -/
  | fcadd
  /-- FRATE (R452): Sets a send flow's code. -/
  | frate
  deriving DecidableEq, Repr

end Sys2Proof
end

