-- ==== Sys2Proof/WellFormed.lean ====
section
/-! DEFINITION. Which values of the fields of an Instr the spec accepts (R52, R53, R64, R159, R202, R336, R437). -/

namespace Sys2Proof

/-- The floating element types (R52). -/
def ElemType.isFloat : ElemType → Bool
  | .f32 | .bf16 => true
  | _ => false

/-- VADD, VSUB, VMUL (R164): a rounding code 0 to 3 for floats; for integers bit 3 is `.sat`. -/
def arithMod (ty : ElemType) (md : BitVec 3) : Bool :=
  if ty.isFloat then md.ult 4 else md.ult 2

/-- VDOT4 (R170): `.i8` and `.ui8` with or without `.sat`, `.bf16` with a rounding code 0 to 3. -/
def dot4Mod (ty : ElemType) (md : BitVec 3) : Bool :=
  match ty with
  | .i8 | .ui8 => md.ult 2
  | .bf16 => md.ult 4
  | _ => false

/-- VACCRD (R178): f32 or bf16 with a rounding code 0 to 4, or `.raw` (type 5, bits 3 to 5 zero). -/
def accrdMod (ty : ElemType) (rm : BitVec 3) : Bool :=
  match ty with
  | .f32 | .bf16 => rm.ult 5
  | .ui32 => rm == 0
  | _ => false

/-- The types VS accepts: 4, 5 and 6 (R159, R180). -/
def vsType : ElemType → Bool
  | .i32 | .ui32 | .f32 => true
  | _ => false

/-- The check of every constructor: false marks a term that names no step of the machine. -/
def Instr.wellFormed : Instr → Bool
  | .packageReset => true
  | .dieReset _ => true
  | .rollbackFloorRaise _ => true
  | .powerLimitSet _ _ => true
  | .attestRequest _ => true
  | .powerWindowEnd _ => true
  | .registerWrite _ _ => true
  | .trootWrite _ => true
  | .tlbinvAll _ => true
  | .tlbinvPage _ => true
  | .tlbinvLargePage _ => true
  | .tlbinvComplete => true
  | .fcrateWrite _ _ => true
  | .errrpWrite _ _ => true
  | .rrrpWrite _ _ => true
  | .queueConfigWrite _ _ => true
  | .queueTailWrite _ _ => true
  | .hostMemAccess _ _ _ _ => true
  | .d2dFlitRetry _ => true
  | .slotBind _ _ _ => true
  | .slotIdle _ _ _ => true
  | .slotEmpty _ _ _ => true
  | .preemptRequest _ _ => true
  | .leaseExpiry _ _ => true
  | .slotTakeWaiting _ _ => true
  | .forcedPreemptTimeout _ => true
  | .launchValidate _ => true
  | .taskStage _ => true
  | .taskStart _ => true
  | .timeSliceYield _ => true
  | .contextSave _ => true
  | .contextRestore _ => true
  | .regionComplete _ _ => true
  | .fetch _ => true
  | .bundleIssue _ => true
  | .engineOpStart _ _ => true
  | .resultLanding _ unit => unit.ule 23 && !(unit.ult 5)
  | .trapEntry _ => true
  | .freezeTimeout _ => true
  | .pageWalk _ _ => true
  | .eccReread _ _ _ => true
  | .rewind _ => true
  | .scrubWord _ _ => true
  | .drainWindowOpen => true
  | .currySlotStart => true
  | .currySlotEnd => true
  | .planeEraseStart => true
  | .planeEraseEnd => true
  | .timeSyncSend => true
  | .fragTimeSync _ frag => frag.extractLsb' 0 4 == 5
  | .timeSkewAlarm => true
  | .cwaitWake _ => true
  | .cwaitTimeout _ => true
  | .mmaArrayStart _ => true
  | .mmaComplete _ => true
  | .mmaReplay _ => true
  | .tileDrainDone _ _ => true
  | .ceRecordRead _ _ => true
  | .cePrewaitMet _ _ => true
  | .ceRingClaim _ _ => true
  | .ceWaitTimeout _ _ => true
  | .ceRecordComplete _ _ => true
  | .tableLoadApply stack => stack.ult 12
  | .xlaneJobStart lane => lane.ult 384
  | .xlanePrewaitMet lane => lane.ult 384
  | .xlaneTransition lane => lane.ult 384
  | .xlaneWaitTimeout lane => lane.ult 384
  | .xlaneJobEnd lane => lane.ult 384
  | .seJobStart eng => eng.ult 24
  | .sePrewaitMet eng => eng.ult 24
  | .seColumnBlock eng => eng.ult 24
  | .seWaitTimeout eng => eng.ult 24
  | .seJobEnd eng => eng.ult 24
  | .fxQueueDepart _ => true
  | .stripeSend _ => true
  | .fragData _ frag => frag.extractLsb' 0 4 == 0
  | .fragReservedType _ frag => !((frag.extractLsb' 0 4).ult 8)
  | .stripeDeliver _ => true
  | .fragAck _ frag => frag.extractLsb' 0 4 == 1
  | .fragNak _ frag => frag.extractLsb' 0 4 == 2
  | .stripeBusyResend _ _ => true
  | .stripeDeadline _ _ => true
  | .ackTimeout _ _ => true
  | .fragReadRequest _ frag => frag.extractLsb' 0 4 == 6
  | .fragReadResponse _ frag => frag.extractLsb' 0 4 == 7
  | .fragContribution _ frag => frag.extractLsb' 0 4 == 3
  | .fragContribAck _ frag => frag.extractLsb' 0 4 == 4
  | .contribResendTimeout _ _ => true
  | .mergedPartialApply _ => true
  | .keyIncompleteTimeout _ => true
  | .replayWaitTimeout _ => true
  | .add _ => true
  | .sub _ => true
  | .and _ => true
  | .or _ => true
  | .xor _ => true
  | .andn _ => true
  | .shl _ => true
  | .shr _ => true
  | .sar _ => true
  | .rol _ => true
  | .ceq _ => true
  | .cne _ => true
  | .clt _ => true
  | .cltu _ => true
  | .cle _ => true
  | .cleu _ => true
  | .min _ => true
  | .max _ => true
  | .minu _ => true
  | .maxu _ => true
  | .sel _ => true
  | .clz _ => true
  | .ctz _ => true
  | .popc _ => true
  | .sext _ => true
  | .zext _ => true
  | .addsh _ => true
  | .bfx _ => true
  | .bfi _ => true
  | .mul => true
  | .mulh => true
  | .mulhu => true
  | .div => true
  | .divu => true
  | .rem => true
  | .remu => true
  | .fadd => true
  | .fsub => true
  | .fmul => true
  | .fma => true
  | .fdiv => true
  | .fsqrt => true
  | .fmin => true
  | .fmax => true
  | .fceq => true
  | .fclt => true
  | .fcle => true
  | .fcvtif ty rm => !ty.isFloat && rm.ult 4
  | .fcvtfi ty rm => !ty.isFloat && rm.ult 4
  | .fclass => true
  | .ldb _ => true
  | .ldbu _ => true
  | .ldh _ => true
  | .ldhu _ => true
  | .ldw _ => true
  | .ldwu _ => true
  | .ldd _ => true
  | .stb _ => true
  | .sth _ => true
  | .stw _ => true
  | .std _ => true
  | .qmark => true
  | .fence => true
  | .pref _ => true
  | .br => true
  | .jmp => true
  | .call => true
  | .calli => true
  | .ret => true
  | .loop => true
  | .lset => true
  | .enter => true
  | .leave => true
  | .trap => true
  | .halt => true
  | .cadd => true
  | .cwait => true
  | .cread => true
  | .aadd _ _ uns => !uns
  | .amax _ _ _ => true
  | .amin _ _ _ => true
  | .axchg _ _ uns => !uns
  | .acas _ _ uns => !uns
  | .afadd _ dbl uns => !uns && !dbl
  | .aand _ _ uns => !uns
  | .aor _ _ uns => !uns
  | .mvst => true
  | .mvts => true
  | .pbw => true
  | .crpop _ => true
  | .curqStart => true
  | .curqDesc => true
  | .grpinc => true
  | .launch => true
  | .eret => true
  | .rlog => true
  | .vadd _ ty md => arithMod ty md
  | .vsub _ ty md => arithMod ty md
  | .vmul _ ty md => arithMod ty md
  | .vmin _ _ => true
  | .vmax _ _ => true
  | .vand _ => true
  | .vor _ => true
  | .vxor _ => true
  | .vandn _ => true
  | .vshl _ ty => !ty.isFloat
  | .vshr _ ty => !ty.isFloat
  | .vsar _ ty => !ty.isFloat
  | .vceq _ _ => true
  | .vcne _ _ => true
  | .vclt _ _ => true
  | .vcle _ _ => true
  | .vsel _ => true
  | .vabs _ ty sat => !(ty.isFloat && sat)
  | .vneg _ ty sat => !(ty.isFloat && sat)
  | .vclamp _ _ => true
  | .vcvt _ _ _ => true
  | .viota _ ty => !ty.isFloat
  | .pand _ => true
  | .por _ => true
  | .pxor _ => true
  | .pandn _ => true
  | .pnot _ => true
  | .pcnt _ _ => true
  | .pfirst _ _ => true
  | .psetn _ => true
  | .ppack _ _ => true
  | .punpack _ _ => true
  | .vfma ty rm => ty.isFloat && rm.ult 4
  | .vfms ty rm => ty.isFloat && rm.ult 4
  | .vfnma ty rm => ty.isFloat && rm.ult 4
  | .vdiv ty rm => ty.isFloat && rm.ult 4
  | .vsqrt ty rm => ty.isFloat && rm.ult 4
  | .vrcp ty rm => ty.isFloat && rm.ult 4
  | .vrsq ty rm => ty.isFloat && rm.ult 4
  | .vexp2 ty rm => ty.isFloat && rm.ult 4
  | .vlog2 ty rm => ty.isFloat && rm.ult 4
  | .vtanh ty rm => ty.isFloat && rm.ult 4
  | .vdot4 ty md => dot4Mod ty md
  | .vmac ty _ => !ty.isFloat
  | .vshuf _ => true
  | .vrot _ => true
  | .vbcast _ => true
  | .vzip _ _ => true
  | .vunzip _ _ => true
  | .vslide _ => true
  | .vpack fmt => fmt != 0 && fmt.ule 8
  | .vunpack fmt => fmt != 0 && fmt.ule 8
  | .vexpand => true
  | .vcompress _ => true
  | .vaccrd ty rm => accrdMod ty rm
  | .vaccwr ty => ty == .f32 || ty == .ui32
  | .vplane fmt => fmt != 0 && fmt.ule 7
  | .vld _ => true
  | .vst _ => true
  | .vlds _ _ => true
  | .vsts _ _ => true
  | .vgath _ _ => true
  | .vscat _ _ => true
  | .vscatadd _ _ => true
  | .vldz _ => true
  | .vstz _ _ _ => true
  | .vldt => true
  | .vstt => true
  | .vrsum ty _ => vsType ty
  | .vrmax ty _ => vsType ty
  | .vrmin ty _ => vsType ty
  | .vargmax ty _ => vsType ty
  | .vargmin ty _ => vsType ty
  | .vscan ty _ _ => vsType ty
  | .vmerge comb _ _ pt => comb != 3 && pt != 3
  | .vsort ty _ => vsType ty
  | .vtopk ty _ _ => vsType ty
  | .vuniq ty _ => vsType ty
  | .mma => true
  | .mdrain => true
  | .msave => true
  | .mload => true
  | .mrawadd => true
  | .mzero => true
  | .mchk => true
  | .mclr => true
  | .mseed => true
  | .kmov _ => true
  | .kadde _ enc => enc != 3
  | .kmax _ enc => enc != 3
  | .kmin _ enc => enc != 3
  | .kcvt _ enc denc => enc != 3 && denc != 3 && enc != denc
  | .kfold _ enc => enc.ult 2
  | .kamax _ enc => enc.ult 2
  | .kbind => true
  | .kunbind => true
  | .krebind => true
  | .kgen _ => true
  | .kld _ => true
  | .kst => true
  | .tcfg => true
  | .tstate => true
  | .trel => true
  | .tmarkOpen => true
  | .tmarkClose => true
  | .tmarkReopen => true
  | .thand => true
  | .ttake => true
  | .cque _ => true
  | .cstat => true
  | .cclrRetry => true
  | .cclrAbandonChain => true
  | .cclrAbandonAll => true
  | .rinit _ => true
  | .rawait _ => true
  | .rrel _ => true
  | .tdmk _ => true
  | .xjob _ => true
  | .xtab _ => true
  | .sejob _ => true
  | .fflowOpen => true
  | .fflowAccept => true
  | .fflowCloseSend => true
  | .fflowCloseRecv => true
  | .fwrite _ => true
  | .fread _ => true
  | .fcadd => true
  | .fred _ => true
  | .frate => true
  | .frwinRegister _ => true
  | .frwinRemove _ => true
  | .accessPerformed _ => true
  | .cinchMemoryAccess _ _ => true

end Sys2Proof
end

