-- ==== Sys2Proof/Decode.lean ====
section
/-! DEFINITION. Decoding of a trigger's destination word (R47, R51, R52) and, by the model's own numbering, of the
machine events, with the encoder that gives the words back. An instruction word is a number:
bits 0 to 20 are the trigger's DEST, bits 21 and 22 the selector of an opcode whose row depends on a mode operand
(CURQ, TMARK, CCLR, FFLOW, FRWIN); bit 23 marks a machine event, numbered in bits 24 to 31, its arguments from bit 32. -/

namespace Sys2Proof

/-- `len` bits of `w` from bit `lo`, as a number (the notation x<lo..hi>). -/
def field (w lo len : Nat) : Nat := w / 2 ^ lo % 2 ^ len

/-- Bit `i` of `w`. -/
def bitOf (w i : Nat) : Bool := w / 2 ^ i % 2 == 1

/-- Type codes of R52. -/
def ElemType.code : ElemType → Nat
  | .i8 => 0 | .ui8 => 1 | .i16 => 2 | .ui16 => 3 | .i32 => 4 | .ui32 => 5 | .f32 => 6 | .bf16 => 7

/-- The type of a code; only the low three bits of the code are used. -/
def ElemType.ofCode (n : Nat) : ElemType :=
  match n % 8 with
  | 0 => .i8 | 1 => .ui8 | 2 => .i16 | 3 => .ui16 | 4 => .i32 | 5 => .ui32 | 6 => .f32 | _ => .bf16

/-- The space bits of LS and CT triggers: bit 0 `.g`, bit 1 `.sm` (R64, R336). -/
def Space.code : Space → Nat
  | .loc => 0 | .glob => 1 | .smem => 2

/-- The space of the two modifier bits; both set is refused by the decoder's check against the encoder. -/
def Space.ofCode (n : Nat) : Space :=
  match n with
  | 0 => .loc | 1 => .glob | _ => .smem

/-- Engine numbers of the engine register window (R242). -/
def Engine.code : Engine → Nat
  | .ma => 0 | .vl => 1 | .ce => 2 | .fx => 3

/-- The engine of a number. -/
def Engine.ofCode (n : Nat) : Engine :=
  match n with
  | 0 => .ma | 1 => .vl | 2 => .ce | _ => .fx

/-- DEST of a trigger: unit_id * 0x1_0000 + 3 * 0x4000 + opcode * 0x40 + modifier (R47). -/
def trigWord (unit op m : Nat) : Nat := unit * 2 ^ 16 + 3 * 2 ^ 14 + op * 2 ^ 6 + m

/-- The model's own word of a machine event (log 7). -/
def eventWord (n a : Nat) : Nat := 2 ^ 23 + n * 2 ^ 24 + a * 2 ^ 32

/-- Why a word names no instruction. -/
inductive DecodeError where
  /-- Bits 14 and 15 of DEST do not name the trigger port (R47). -/
  | notTrigger
  /-- A register-file unit or a reserved unit id 24 to 31 (R47, R53). -/
  | badUnit
  /-- Opcode 0x00 or beyond the unit's map (R51, R53). -/
  | badOpcode
  /-- A modifier the instruction does not accept, or a nonzero unused bit (R52, R53). -/
  | badModifier
  /-- No event of the model's numbering, or an argument outside its range. -/
  | badEvent
  deriving DecidableEq, Repr

/-- The IA opcodes of R51, with the modifier and the mode operand's selector. -/
def candIa (u : Bool) (op _m _sel : Nat) : Option Instr :=
  match op with
  | 1 => some (.add u)
  | 2 => some (.sub u)
  | 3 => some (.and u)
  | 4 => some (.or u)
  | 5 => some (.xor u)
  | 6 => some (.andn u)
  | 7 => some (.shl u)
  | 8 => some (.shr u)
  | 9 => some (.sar u)
  | 10 => some (.rol u)
  | 11 => some (.ceq u)
  | 12 => some (.cne u)
  | 13 => some (.clt u)
  | 14 => some (.cltu u)
  | 15 => some (.cle u)
  | 16 => some (.cleu u)
  | 17 => some (.min u)
  | 18 => some (.max u)
  | 19 => some (.minu u)
  | 20 => some (.maxu u)
  | 21 => some (.sel u)
  | 22 => some (.clz u)
  | 23 => some (.ctz u)
  | 24 => some (.popc u)
  | 25 => some (.sext u)
  | 26 => some (.zext u)
  | 27 => some (.addsh u)
  | 28 => some (.bfx u)
  | 29 => some (.bfi u)
  | _ => none

/-- The IM opcodes of R51, with the modifier and the mode operand's selector. -/
def candIm (op _m _sel : Nat) : Option Instr :=
  match op with
  | 1 => some (.mul)
  | 2 => some (.mulh)
  | 3 => some (.mulhu)
  | 4 => some (.div)
  | 5 => some (.divu)
  | 6 => some (.rem)
  | 7 => some (.remu)
  | _ => none

/-- The FS opcodes of R51, with the modifier and the mode operand's selector. -/
def candFs (op m _sel : Nat) : Option Instr :=
  match op with
  | 1 => some (.fadd)
  | 2 => some (.fsub)
  | 3 => some (.fmul)
  | 4 => some (.fma)
  | 5 => some (.fdiv)
  | 6 => some (.fsqrt)
  | 7 => some (.fmin)
  | 8 => some (.fmax)
  | 9 => some (.fceq)
  | 10 => some (.fclt)
  | 11 => some (.fcle)
  | 12 => some (.fcvtif (ElemType.ofCode (field m 0 3)) (BitVec.ofNat 3 (field m 3 3)))
  | 13 => some (.fcvtfi (ElemType.ofCode (field m 0 3)) (BitVec.ofNat 3 (field m 3 3)))
  | 14 => some (.fclass)
  | _ => none

/-- The LS opcodes of R51, with the modifier and the mode operand's selector. -/
def candLs (op m _sel : Nat) : Option Instr :=
  match op with
  | 1 => some (.ldb (Space.ofCode (field m 0 2)))
  | 2 => some (.ldbu (Space.ofCode (field m 0 2)))
  | 3 => some (.ldh (Space.ofCode (field m 0 2)))
  | 4 => some (.ldhu (Space.ofCode (field m 0 2)))
  | 5 => some (.ldw (Space.ofCode (field m 0 2)))
  | 6 => some (.ldwu (Space.ofCode (field m 0 2)))
  | 7 => some (.ldd (Space.ofCode (field m 0 2)))
  | 8 => some (.stb (Space.ofCode (field m 0 2)))
  | 9 => some (.sth (Space.ofCode (field m 0 2)))
  | 10 => some (.stw (Space.ofCode (field m 0 2)))
  | 11 => some (.std (Space.ofCode (field m 0 2)))
  | 12 => some (.qmark)
  | 13 => some (.fence)
  | 14 => some (.pref (Space.ofCode (field m 0 2)))
  | _ => none

/-- The BC opcodes of R51, with the modifier and the mode operand's selector. -/
def candBc (op _m _sel : Nat) : Option Instr :=
  match op with
  | 1 => some (.br)
  | 2 => some (.jmp)
  | 3 => some (.call)
  | 4 => some (.calli)
  | 5 => some (.ret)
  | 6 => some (.loop)
  | 7 => some (.lset)
  | 8 => some (.enter)
  | 9 => some (.leave)
  | 10 => some (.trap)
  | 11 => some (.halt)
  | _ => none

/-- The CT opcodes of R51, with the modifier and the mode operand's selector. -/
def candCt (op m _sel : Nat) : Option Instr :=
  match op with
  | 1 => some (.cadd)
  | 2 => some (.cwait)
  | 3 => some (.cread)
  | 4 => some (.aadd (Space.ofCode (field m 0 2)) (bitOf m 2) (bitOf m 3))
  | 5 => some (.amax (Space.ofCode (field m 0 2)) (bitOf m 2) (bitOf m 3))
  | 6 => some (.amin (Space.ofCode (field m 0 2)) (bitOf m 2) (bitOf m 3))
  | 7 => some (.axchg (Space.ofCode (field m 0 2)) (bitOf m 2) (bitOf m 3))
  | 8 => some (.acas (Space.ofCode (field m 0 2)) (bitOf m 2) (bitOf m 3))
  | 9 => some (.afadd (Space.ofCode (field m 0 2)) (bitOf m 2) (bitOf m 3))
  | 10 => some (.aand (Space.ofCode (field m 0 2)) (bitOf m 2) (bitOf m 3))
  | 11 => some (.aor (Space.ofCode (field m 0 2)) (bitOf m 2) (bitOf m 3))
  | _ => none

/-- The SY opcodes of R51, with the modifier and the mode operand's selector. -/
def candSy (op m sel : Nat) : Option Instr :=
  match op with
  | 1 => some (.mvst)
  | 2 => some (.mvts)
  | 3 => some (.pbw)
  | 4 => some (.crpop (bitOf m 0))
  | 5 => match sel with | 0 => some (.curqStart) | 1 => some (.curqDesc) | _ => none
  | 6 => some (.grpinc)
  | 7 => some (.launch)
  | 8 => some (.eret)
  | 9 => some (.rlog)
  | _ => none

/-- The VA opcodes of R51, with the modifier and the mode operand's selector. -/
def candVa (u : Bool) (op m _sel : Nat) : Option Instr :=
  match op with
  | 1 => some (.vadd u (ElemType.ofCode (field m 0 3)) (BitVec.ofNat 3 (field m 3 3)))
  | 2 => some (.vsub u (ElemType.ofCode (field m 0 3)) (BitVec.ofNat 3 (field m 3 3)))
  | 3 => some (.vmul u (ElemType.ofCode (field m 0 3)) (BitVec.ofNat 3 (field m 3 3)))
  | 4 => some (.vmin u (ElemType.ofCode (field m 0 3)))
  | 5 => some (.vmax u (ElemType.ofCode (field m 0 3)))
  | 6 => some (.vand u)
  | 7 => some (.vor u)
  | 8 => some (.vxor u)
  | 9 => some (.vandn u)
  | 10 => some (.vshl u (ElemType.ofCode (field m 0 3)))
  | 11 => some (.vshr u (ElemType.ofCode (field m 0 3)))
  | 12 => some (.vsar u (ElemType.ofCode (field m 0 3)))
  | 13 => some (.vceq u (ElemType.ofCode (field m 0 3)))
  | 14 => some (.vcne u (ElemType.ofCode (field m 0 3)))
  | 15 => some (.vclt u (ElemType.ofCode (field m 0 3)))
  | 16 => some (.vcle u (ElemType.ofCode (field m 0 3)))
  | 17 => some (.vsel u)
  | 18 => some (.vabs u (ElemType.ofCode (field m 0 3)) (bitOf m 3))
  | 19 => some (.vneg u (ElemType.ofCode (field m 0 3)) (bitOf m 3))
  | 20 => some (.vclamp u (ElemType.ofCode (field m 0 3)))
  | 21 => some (.vcvt u (ElemType.ofCode (field m 0 3)) (ElemType.ofCode (field m 3 3)))
  | 22 => some (.viota u (ElemType.ofCode (field m 0 3)))
  | 23 => some (.pand u)
  | 24 => some (.por u)
  | 25 => some (.pxor u)
  | 26 => some (.pandn u)
  | 27 => some (.pnot u)
  | 28 => some (.pcnt u (bitOf m 3))
  | 29 => some (.pfirst u (bitOf m 3))
  | 30 => some (.psetn u)
  | 31 => some (.ppack u (bitOf m 0))
  | 32 => some (.punpack u (bitOf m 0))
  | _ => none

/-- The VM opcodes of R51, with the modifier and the mode operand's selector. -/
def candVm (op m _sel : Nat) : Option Instr :=
  match op with
  | 1 => some (.vfma (ElemType.ofCode (field m 0 3)) (BitVec.ofNat 3 (field m 3 3)))
  | 2 => some (.vfms (ElemType.ofCode (field m 0 3)) (BitVec.ofNat 3 (field m 3 3)))
  | 3 => some (.vfnma (ElemType.ofCode (field m 0 3)) (BitVec.ofNat 3 (field m 3 3)))
  | 4 => some (.vdiv (ElemType.ofCode (field m 0 3)) (BitVec.ofNat 3 (field m 3 3)))
  | 5 => some (.vsqrt (ElemType.ofCode (field m 0 3)) (BitVec.ofNat 3 (field m 3 3)))
  | 6 => some (.vrcp (ElemType.ofCode (field m 0 3)) (BitVec.ofNat 3 (field m 3 3)))
  | 7 => some (.vrsq (ElemType.ofCode (field m 0 3)) (BitVec.ofNat 3 (field m 3 3)))
  | 8 => some (.vexp2 (ElemType.ofCode (field m 0 3)) (BitVec.ofNat 3 (field m 3 3)))
  | 9 => some (.vlog2 (ElemType.ofCode (field m 0 3)) (BitVec.ofNat 3 (field m 3 3)))
  | 10 => some (.vtanh (ElemType.ofCode (field m 0 3)) (BitVec.ofNat 3 (field m 3 3)))
  | 11 => some (.vdot4 (ElemType.ofCode (field m 0 3)) (BitVec.ofNat 3 (field m 3 3)))
  | 12 => some (.vmac (ElemType.ofCode (field m 0 3)) (bitOf m 3))
  | _ => none

/-- The VP opcodes of R51, with the modifier and the mode operand's selector. -/
def candVp (op m _sel : Nat) : Option Instr :=
  match op with
  | 1 => some (.vshuf (ElemType.ofCode (field m 0 3)))
  | 2 => some (.vrot (ElemType.ofCode (field m 0 3)))
  | 3 => some (.vbcast (ElemType.ofCode (field m 0 3)))
  | 4 => some (.vzip (ElemType.ofCode (field m 0 3)) (bitOf m 3))
  | 5 => some (.vunzip (ElemType.ofCode (field m 0 3)) (bitOf m 3))
  | 6 => some (.vslide (ElemType.ofCode (field m 0 3)))
  | 7 => some (.vpack (BitVec.ofNat 4 (field m 0 4)))
  | 8 => some (.vunpack (BitVec.ofNat 4 (field m 0 4)))
  | 9 => some (.vexpand)
  | 10 => some (.vcompress (bitOf m 3))
  | 11 => some (.vaccrd (ElemType.ofCode (field m 0 3)) (BitVec.ofNat 3 (field m 3 3)))
  | 12 => some (.vaccwr (ElemType.ofCode (field m 0 3)))
  | 13 => some (.vplane (BitVec.ofNat 4 (field m 0 4)))
  | _ => none

/-- The VL opcodes of R51, with the modifier and the mode operand's selector. -/
def candVl (op m _sel : Nat) : Option Instr :=
  match op with
  | 1 => some (.vld (bitOf m 0))
  | 2 => some (.vst (bitOf m 0))
  | 3 => some (.vlds (bitOf m 0) (ElemType.ofCode (field m 1 3)))
  | 4 => some (.vsts (bitOf m 0) (ElemType.ofCode (field m 1 3)))
  | 5 => some (.vgath (bitOf m 0) (bitOf m 4))
  | 6 => some (.vscat (bitOf m 0) (bitOf m 4))
  | 7 => some (.vscatadd (bitOf m 0) (bitOf m 4))
  | 8 => some (.vldz (bitOf m 0))
  | 9 => some (.vstz (bitOf m 0) (ElemType.ofCode (field m 1 3)) (bitOf m 4))
  | 10 => some (.vldt)
  | 11 => some (.vstt)
  | _ => none

/-- The VS opcodes of R51, with the modifier and the mode operand's selector. -/
def candVs (op m _sel : Nat) : Option Instr :=
  match op with
  | 1 => some (.vrsum (ElemType.ofCode (field m 0 3)) (bitOf m 3))
  | 2 => some (.vrmax (ElemType.ofCode (field m 0 3)) (bitOf m 3))
  | 3 => some (.vrmin (ElemType.ofCode (field m 0 3)) (bitOf m 3))
  | 4 => some (.vargmax (ElemType.ofCode (field m 0 3)) (bitOf m 3))
  | 5 => some (.vargmin (ElemType.ofCode (field m 0 3)) (bitOf m 3))
  | 6 => some (.vscan (ElemType.ofCode (field m 0 3)) (bitOf m 3) (bitOf m 4))
  | 7 => some (.vmerge (BitVec.ofNat 2 (field m 0 2)) (bitOf m 2) (bitOf m 3) (BitVec.ofNat 2 (field m 4 2)))
  | 8 => some (.vsort (ElemType.ofCode (field m 0 3)) (bitOf m 4))
  | 9 => some (.vtopk (ElemType.ofCode (field m 0 3)) (bitOf m 3) (bitOf m 4))
  | 10 => some (.vuniq (ElemType.ofCode (field m 0 3)) (bitOf m 3))
  | _ => none

/-- The MA opcodes of R51, with the modifier and the mode operand's selector. -/
def candMa (op _m _sel : Nat) : Option Instr :=
  match op with
  | 1 => some (.mma)
  | 2 => some (.mdrain)
  | 3 => some (.msave)
  | 4 => some (.mload)
  | 5 => some (.mrawadd)
  | 6 => some (.mzero)
  | 7 => some (.mchk)
  | 8 => some (.mclr)
  | 9 => some (.mseed)
  | _ => none

/-- The KP opcodes of R51, with the modifier and the mode operand's selector. -/
def candKp (op m _sel : Nat) : Option Instr :=
  match op with
  | 1 => some (.kmov (bitOf m 0))
  | 2 => some (.kadde (bitOf m 0) (BitVec.ofNat 2 (field m 1 2)))
  | 3 => some (.kmax (bitOf m 0) (BitVec.ofNat 2 (field m 1 2)))
  | 4 => some (.kmin (bitOf m 0) (BitVec.ofNat 2 (field m 1 2)))
  | 5 => some (.kcvt (bitOf m 0) (BitVec.ofNat 2 (field m 1 2)) (BitVec.ofNat 2 (field m 4 2)))
  | 6 => some (.kfold (bitOf m 0) (BitVec.ofNat 2 (field m 1 2)))
  | 7 => some (.kamax (bitOf m 0) (BitVec.ofNat 2 (field m 1 2)))
  | 8 => some (.kbind)
  | 9 => some (.kunbind)
  | 10 => some (.krebind)
  | 11 => some (.kgen (bitOf m 3))
  | 12 => some (.kld (bitOf m 0))
  | 13 => some (.kst)
  | _ => none

/-- The TT opcodes of R51, with the modifier and the mode operand's selector. -/
def candTt (op _m sel : Nat) : Option Instr :=
  match op with
  | 1 => some (.tcfg)
  | 2 => some (.tstate)
  | 3 => some (.trel)
  | 4 => match sel with | 0 => some (.tmarkOpen) | 1 => some (.tmarkClose) | 2 => some (.tmarkReopen) | _ => none
  | 5 => some (.thand)
  | 6 => some (.ttake)
  | _ => none

/-- The CE opcodes of R51, with the modifier and the mode operand's selector. -/
def candCe (op m sel : Nat) : Option Instr :=
  match op with
  | 1 => some (.cque (bitOf m 0))
  | 2 => some (.cstat)
  | 3 => match sel with | 0 => some (.cclrRetry) | 1 => some (.cclrAbandonChain) | 2 => some (.cclrAbandonAll) | _ => none
  | 4 => some (.rinit (bitOf m 0))
  | 5 => some (.rawait (bitOf m 0))
  | 6 => some (.rrel (bitOf m 0))
  | 7 => some (.tdmk (bitOf m 0))
  | 8 => some (.xjob (bitOf m 0))
  | 9 => some (.xtab (bitOf m 0))
  | 10 => some (.sejob (bitOf m 0))
  | _ => none

/-- The FX opcodes of R51, with the modifier and the mode operand's selector. -/
def candFx (op m sel : Nat) : Option Instr :=
  match op with
  | 1 => match sel with | 0 => some (.fflowOpen) | 1 => some (.fflowAccept) | 2 => some (.fflowCloseSend) | 3 => some (.fflowCloseRecv) | _ => none
  | 2 => some (.fwrite (bitOf m 0))
  | 3 => some (.fread (bitOf m 0))
  | 4 => some (.fcadd)
  | 5 => some (.fred (bitOf m 0))
  | 6 => some (.frate)
  | 7 => match sel with | 0 => some (.frwinRegister (bitOf m 0)) | 1 => some (.frwinRemove (bitOf m 0)) | _ => none
  | _ => none

/-- The candidate of a trigger word, by unit id (R8, R51). -/
def candTrigger (unit op m sel : Nat) : Except DecodeError (Option Instr) :=
  match unit with
  | 5 => .ok (candIa false op m sel)
  | 6 => .ok (candIa true op m sel)
  | 7 => .ok (candIm op m sel)
  | 8 => .ok (candFs op m sel)
  | 9 => .ok (candLs op m sel)
  | 10 => .ok (candBc op m sel)
  | 11 => .ok (candCt op m sel)
  | 12 => .ok (candSy op m sel)
  | 13 => .ok (candVa false op m sel)
  | 14 => .ok (candVa true op m sel)
  | 15 => .ok (candVm op m sel)
  | 16 => .ok (candVp op m sel)
  | 17 => .ok (candVl op m sel)
  | 18 => .ok (candVs op m sel)
  | 19 => .ok (candMa op m sel)
  | 20 => .ok (candKp op m sel)
  | 21 => .ok (candTt op m sel)
  | 22 => .ok (candCe op m sel)
  | 23 => .ok (candFx op m sel)
  | _ => .error .badUnit

/-- The model's own numbering of the machine events (log 7): event `n` with its arguments packed in `a`. -/
def candEvent (n a : Nat) : Option Instr :=
  match n with
  | 0 => some (.packageReset)
  | 1 => some (.dieReset (BitVec.ofNat 1 (field a 0 1)))
  | 2 => some (.rollbackFloorRaise (BitVec.ofNat 32 (field a 0 32)))
  | 3 => some (.powerLimitSet (BitVec.ofNat 1 (field a 0 1)) (BitVec.ofNat 16 (field a 1 16)))
  | 4 => some (.attestRequest (BitVec.ofNat 256 (field a 0 256)))
  | 5 => some (.powerWindowEnd (BitVec.ofNat 1 (field a 0 1)))
  | 6 => some (.registerWrite (BitVec.ofNat 20 (field a 0 20)) (BitVec.ofNat 64 (field a 20 64)))
  | 7 => some (.trootWrite (BitVec.ofNat 64 (field a 0 64)))
  | 8 => some (.tlbinvAll (BitVec.ofNat 64 (field a 0 64)))
  | 9 => some (.tlbinvPage (BitVec.ofNat 64 (field a 0 64)))
  | 10 => some (.tlbinvLargePage (BitVec.ofNat 64 (field a 0 64)))
  | 11 => some (.tlbinvComplete)
  | 12 => some (.fcrateWrite (BitVec.ofNat 3 (field a 0 3)) (BitVec.ofNat 64 (field a 3 64)))
  | 13 => some (.errrpWrite (BitVec.ofNat 1 (field a 0 1)) (BitVec.ofNat 32 (field a 1 32)))
  | 14 => some (.rrrpWrite (BitVec.ofNat 1 (field a 0 1)) (BitVec.ofNat 64 (field a 1 64)))
  | 15 => some (.queueConfigWrite (BitVec.ofNat 12 (field a 0 12)) (BitVec.ofNat 64 (field a 12 64)))
  | 16 => some (.queueTailWrite (BitVec.ofNat 12 (field a 0 12)) (BitVec.ofNat 32 (field a 12 32)))
  | 17 => some (.hostMemAccess (bitOf a 0) (BitVec.ofNat 2 (field a 1 2)) (BitVec.ofNat 45 (field a 3 45)) (BitVec.ofNat 64 (field a 48 64)))
  | 18 => some (.d2dFlitRetry (bitOf a 0))
  | 19 => some (.slotBind (BitVec.ofNat 1 (field a 0 1)) (BitVec.ofNat 6 (field a 1 6)) (BitVec.ofNat 512 (field a 7 512)))
  | 20 => some (.slotIdle (BitVec.ofNat 1 (field a 0 1)) (BitVec.ofNat 6 (field a 1 6)) (BitVec.ofNat 512 (field a 7 512)))
  | 21 => some (.slotEmpty (BitVec.ofNat 1 (field a 0 1)) (BitVec.ofNat 6 (field a 1 6)) (BitVec.ofNat 512 (field a 7 512)))
  | 22 => some (.preemptRequest (BitVec.ofNat 8 (field a 0 8)) (bitOf a 8))
  | 23 => some (.leaseExpiry (BitVec.ofNat 1 (field a 0 1)) (BitVec.ofNat 6 (field a 1 6)))
  | 24 => some (.slotTakeWaiting (BitVec.ofNat 1 (field a 0 1)) (BitVec.ofNat 6 (field a 1 6)))
  | 25 => some (.forcedPreemptTimeout (BitVec.ofNat 8 (field a 0 8)))
  | 26 => some (.launchValidate (BitVec.ofNat 12 (field a 0 12)))
  | 27 => some (.taskStage (BitVec.ofNat 8 (field a 0 8)))
  | 28 => some (.taskStart (BitVec.ofNat 8 (field a 0 8)))
  | 29 => some (.timeSliceYield (BitVec.ofNat 8 (field a 0 8)))
  | 30 => some (.contextSave (BitVec.ofNat 8 (field a 0 8)))
  | 31 => some (.contextRestore (BitVec.ofNat 8 (field a 0 8)))
  | 32 => some (.regionComplete (BitVec.ofNat 32 (field a 0 32)) (BitVec.ofNat 8 (field a 32 8)))
  | 33 => some (.fetch (BitVec.ofNat 8 (field a 0 8)))
  | 34 => some (.bundleIssue (BitVec.ofNat 8 (field a 0 8)))
  | 35 => some (.engineOpStart (BitVec.ofNat 8 (field a 0 8)) (Engine.ofCode (field a 8 2)))
  | 36 => some (.resultLanding (BitVec.ofNat 8 (field a 0 8)) (BitVec.ofNat 5 (field a 8 5)))
  | 37 => some (.trapEntry (BitVec.ofNat 8 (field a 0 8)))
  | 38 => some (.freezeTimeout (BitVec.ofNat 8 (field a 0 8)))
  | 39 => some (.pageWalk (BitVec.ofNat 8 (field a 0 8)) (BitVec.ofNat 48 (field a 8 48)))
  | 40 => some (.eccReread (BitVec.ofNat 8 (field a 0 8)) (bitOf a 8) (BitVec.ofNat 45 (field a 9 45)))
  | 41 => some (.rewind (BitVec.ofNat 8 (field a 0 8)))
  | 42 => some (.scrubWord (BitVec.ofNat 8 (field a 0 8)) (BitVec.ofNat 32 (field a 8 32)))
  | 43 => some (.drainWindowOpen)
  | 44 => some (.currySlotStart)
  | 45 => some (.currySlotEnd)
  | 46 => some (.planeEraseStart)
  | 47 => some (.planeEraseEnd)
  | 48 => some (.timeSyncSend)
  | 49 => some (.fragTimeSync (BitVec.ofNat 4 (field a 0 4)) (BitVec.ofNat 4608 (field a 4 4608)))
  | 50 => some (.timeSkewAlarm)
  | 51 => some (.cwaitWake (BitVec.ofNat 8 (field a 0 8)))
  | 52 => some (.cwaitTimeout (BitVec.ofNat 8 (field a 0 8)))
  | 53 => some (.mmaArrayStart (BitVec.ofNat 8 (field a 0 8)))
  | 54 => some (.mmaComplete (BitVec.ofNat 8 (field a 0 8)))
  | 55 => some (.mmaReplay (BitVec.ofNat 8 (field a 0 8)))
  | 56 => some (.tileDrainDone (BitVec.ofNat 8 (field a 0 8)) (BitVec.ofNat 6 (field a 8 6)))
  | 57 => some (.ceRecordRead (BitVec.ofNat 8 (field a 0 8)) (BitVec.ofNat 2 (field a 8 2)))
  | 58 => some (.cePrewaitMet (BitVec.ofNat 8 (field a 0 8)) (BitVec.ofNat 2 (field a 8 2)))
  | 59 => some (.ceRingClaim (BitVec.ofNat 8 (field a 0 8)) (BitVec.ofNat 2 (field a 8 2)))
  | 60 => some (.ceWaitTimeout (BitVec.ofNat 8 (field a 0 8)) (BitVec.ofNat 2 (field a 8 2)))
  | 61 => some (.ceRecordComplete (BitVec.ofNat 8 (field a 0 8)) (BitVec.ofNat 2 (field a 8 2)))
  | 62 => some (.tableLoadApply (BitVec.ofNat 4 (field a 0 4)))
  | 63 => some (.xlaneJobStart (BitVec.ofNat 9 (field a 0 9)))
  | 64 => some (.xlanePrewaitMet (BitVec.ofNat 9 (field a 0 9)))
  | 65 => some (.xlaneTransition (BitVec.ofNat 9 (field a 0 9)))
  | 66 => some (.xlaneWaitTimeout (BitVec.ofNat 9 (field a 0 9)))
  | 67 => some (.xlaneJobEnd (BitVec.ofNat 9 (field a 0 9)))
  | 68 => some (.seJobStart (BitVec.ofNat 5 (field a 0 5)))
  | 69 => some (.sePrewaitMet (BitVec.ofNat 5 (field a 0 5)))
  | 70 => some (.seColumnBlock (BitVec.ofNat 5 (field a 0 5)))
  | 71 => some (.seWaitTimeout (BitVec.ofNat 5 (field a 0 5)))
  | 72 => some (.seJobEnd (BitVec.ofNat 5 (field a 0 5)))
  | 73 => some (.fxQueueDepart (BitVec.ofNat 8 (field a 0 8)))
  | 74 => some (.stripeSend (BitVec.ofNat 1 (field a 0 1)))
  | 75 => some (.fragData (BitVec.ofNat 4 (field a 0 4)) (BitVec.ofNat 4608 (field a 4 4608)))
  | 76 => some (.fragReservedType (BitVec.ofNat 4 (field a 0 4)) (BitVec.ofNat 4608 (field a 4 4608)))
  | 77 => some (.stripeDeliver (BitVec.ofNat 1 (field a 0 1)))
  | 78 => some (.fragAck (BitVec.ofNat 4 (field a 0 4)) (BitVec.ofNat 4608 (field a 4 4608)))
  | 79 => some (.fragNak (BitVec.ofNat 4 (field a 0 4)) (BitVec.ofNat 4608 (field a 4 4608)))
  | 80 => some (.stripeBusyResend (BitVec.ofNat 1 (field a 0 1)) (BitVec.ofNat 32 (field a 1 32)))
  | 81 => some (.stripeDeadline (BitVec.ofNat 1 (field a 0 1)) (BitVec.ofNat 32 (field a 1 32)))
  | 82 => some (.ackTimeout (BitVec.ofNat 1 (field a 0 1)) (BitVec.ofNat 32 (field a 1 32)))
  | 83 => some (.fragReadRequest (BitVec.ofNat 4 (field a 0 4)) (BitVec.ofNat 4608 (field a 4 4608)))
  | 84 => some (.fragReadResponse (BitVec.ofNat 4 (field a 0 4)) (BitVec.ofNat 4608 (field a 4 4608)))
  | 85 => some (.fragContribution (BitVec.ofNat 4 (field a 0 4)) (BitVec.ofNat 4608 (field a 4 4608)))
  | 86 => some (.fragContribAck (BitVec.ofNat 4 (field a 0 4)) (BitVec.ofNat 4608 (field a 4 4608)))
  | 87 => some (.contribResendTimeout (BitVec.ofNat 1 (field a 0 1)) (BitVec.ofNat 32 (field a 1 32)))
  | 88 => some (.mergedPartialApply (BitVec.ofNat 32 (field a 0 32)))
  | 89 => some (.keyIncompleteTimeout (BitVec.ofNat 32 (field a 0 32)))
  | 90 => some (.replayWaitTimeout (BitVec.ofNat 8 (field a 0 8)))
  | 91 => some (.accessPerformed (BitVec.ofNat 8 (field a 0 8)))
  | 92 => some (.cinchMemoryAccess ⟨BitVec.ofNat 1 (field a 0 1), bitOf a 1⟩ (BitVec.ofNat 48 (field a 2 48)))
  | _ => none

/-- The word of an instruction (R47, R51, R52, R64, R159, R202, R336, R437; events by log 7). -/
def encode : Instr → Nat
  | .packageReset => eventWord 0 (0)
  | .dieReset die => eventWord 1 (die.toNat)
  | .rollbackFloorRaise floor => eventWord 2 (floor.toNat)
  | .powerLimitSet die watts => eventWord 3 (die.toNat + watts.toNat * 2 ^ 1)
  | .attestRequest nonce => eventWord 4 (nonce.toNat)
  | .powerWindowEnd die => eventWord 5 (die.toNat)
  | .registerWrite off val => eventWord 6 (off.toNat + val.toNat * 2 ^ 20)
  | .trootWrite val => eventWord 7 (val.toNat)
  | .tlbinvAll val => eventWord 8 (val.toNat)
  | .tlbinvPage val => eventWord 9 (val.toNat)
  | .tlbinvLargePage val => eventWord 10 (val.toNat)
  | .tlbinvComplete => eventWord 11 (0)
  | .fcrateWrite cls val => eventWord 12 (cls.toNat + val.toNat * 2 ^ 3)
  | .errrpWrite die val => eventWord 13 (die.toNat + val.toNat * 2 ^ 1)
  | .rrrpWrite die val => eventWord 14 (die.toNat + val.toNat * 2 ^ 1)
  | .queueConfigWrite q val => eventWord 15 (q.toNat + val.toNat * 2 ^ 12)
  | .queueTailWrite q val => eventWord 16 (q.toNat + val.toNat * 2 ^ 12)
  | .hostMemAccess wr size pa val => eventWord 17 (wr.toNat + size.toNat * 2 ^ 1 + pa.toNat * 2 ^ 3 + val.toNat * 2 ^ 48)
  | .d2dFlitRetry delivered => eventWord 18 (delivered.toNat)
  | .slotBind die slot rec => eventWord 19 (die.toNat + slot.toNat * 2 ^ 1 + rec.toNat * 2 ^ 7)
  | .slotIdle die slot rec => eventWord 20 (die.toNat + slot.toNat * 2 ^ 1 + rec.toNat * 2 ^ 7)
  | .slotEmpty die slot rec => eventWord 21 (die.toNat + slot.toNat * 2 ^ 1 + rec.toNat * 2 ^ 7)
  | .preemptRequest core forced => eventWord 22 (core.toNat + forced.toNat * 2 ^ 8)
  | .leaseExpiry die slot => eventWord 23 (die.toNat + slot.toNat * 2 ^ 1)
  | .slotTakeWaiting die slot => eventWord 24 (die.toNat + slot.toNat * 2 ^ 1)
  | .forcedPreemptTimeout core => eventWord 25 (core.toNat)
  | .launchValidate q => eventWord 26 (q.toNat)
  | .taskStage core => eventWord 27 (core.toNat)
  | .taskStart core => eventWord 28 (core.toNat)
  | .timeSliceYield core => eventWord 29 (core.toNat)
  | .contextSave core => eventWord 30 (core.toNat)
  | .contextRestore core => eventWord 31 (core.toNat)
  | .regionComplete launch region => eventWord 32 (launch.toNat + region.toNat * 2 ^ 32)
  | .fetch core => eventWord 33 (core.toNat)
  | .bundleIssue core => eventWord 34 (core.toNat)
  | .engineOpStart core e => eventWord 35 (core.toNat + e.code * 2 ^ 8)
  | .resultLanding core unit => eventWord 36 (core.toNat + unit.toNat * 2 ^ 8)
  | .trapEntry core => eventWord 37 (core.toNat)
  | .freezeTimeout core => eventWord 38 (core.toNat)
  | .pageWalk core va => eventWord 39 (core.toNat + va.toNat * 2 ^ 8)
  | .eccReread core hbm addr => eventWord 40 (core.toNat + hbm.toNat * 2 ^ 8 + addr.toNat * 2 ^ 9)
  | .rewind core => eventWord 41 (core.toNat)
  | .scrubWord core addr => eventWord 42 (core.toNat + addr.toNat * 2 ^ 8)
  | .drainWindowOpen => eventWord 43 (0)
  | .currySlotStart => eventWord 44 (0)
  | .currySlotEnd => eventWord 45 (0)
  | .planeEraseStart => eventWord 46 (0)
  | .planeEraseEnd => eventWord 47 (0)
  | .timeSyncSend => eventWord 48 (0)
  | .fragTimeSync plane frag => eventWord 49 (plane.toNat + frag.toNat * 2 ^ 4)
  | .timeSkewAlarm => eventWord 50 (0)
  | .cwaitWake core => eventWord 51 (core.toNat)
  | .cwaitTimeout core => eventWord 52 (core.toNat)
  | .mmaArrayStart core => eventWord 53 (core.toNat)
  | .mmaComplete core => eventWord 54 (core.toNat)
  | .mmaReplay core => eventWord 55 (core.toNat)
  | .tileDrainDone core tile => eventWord 56 (core.toNat + tile.toNat * 2 ^ 8)
  | .ceRecordRead core ch => eventWord 57 (core.toNat + ch.toNat * 2 ^ 8)
  | .cePrewaitMet core ch => eventWord 58 (core.toNat + ch.toNat * 2 ^ 8)
  | .ceRingClaim core ch => eventWord 59 (core.toNat + ch.toNat * 2 ^ 8)
  | .ceWaitTimeout core ch => eventWord 60 (core.toNat + ch.toNat * 2 ^ 8)
  | .ceRecordComplete core ch => eventWord 61 (core.toNat + ch.toNat * 2 ^ 8)
  | .tableLoadApply stack => eventWord 62 (stack.toNat)
  | .xlaneJobStart lane => eventWord 63 (lane.toNat)
  | .xlanePrewaitMet lane => eventWord 64 (lane.toNat)
  | .xlaneTransition lane => eventWord 65 (lane.toNat)
  | .xlaneWaitTimeout lane => eventWord 66 (lane.toNat)
  | .xlaneJobEnd lane => eventWord 67 (lane.toNat)
  | .seJobStart eng => eventWord 68 (eng.toNat)
  | .sePrewaitMet eng => eventWord 69 (eng.toNat)
  | .seColumnBlock eng => eventWord 70 (eng.toNat)
  | .seWaitTimeout eng => eventWord 71 (eng.toNat)
  | .seJobEnd eng => eventWord 72 (eng.toNat)
  | .fxQueueDepart core => eventWord 73 (core.toNat)
  | .stripeSend die => eventWord 74 (die.toNat)
  | .fragData plane frag => eventWord 75 (plane.toNat + frag.toNat * 2 ^ 4)
  | .fragReservedType plane frag => eventWord 76 (plane.toNat + frag.toNat * 2 ^ 4)
  | .stripeDeliver die => eventWord 77 (die.toNat)
  | .fragAck plane frag => eventWord 78 (plane.toNat + frag.toNat * 2 ^ 4)
  | .fragNak plane frag => eventWord 79 (plane.toNat + frag.toNat * 2 ^ 4)
  | .stripeBusyResend die id => eventWord 80 (die.toNat + id.toNat * 2 ^ 1)
  | .stripeDeadline die id => eventWord 81 (die.toNat + id.toNat * 2 ^ 1)
  | .ackTimeout die id => eventWord 82 (die.toNat + id.toNat * 2 ^ 1)
  | .fragReadRequest plane frag => eventWord 83 (plane.toNat + frag.toNat * 2 ^ 4)
  | .fragReadResponse plane frag => eventWord 84 (plane.toNat + frag.toNat * 2 ^ 4)
  | .fragContribution plane frag => eventWord 85 (plane.toNat + frag.toNat * 2 ^ 4)
  | .fragContribAck plane frag => eventWord 86 (plane.toNat + frag.toNat * 2 ^ 4)
  | .contribResendTimeout die id => eventWord 87 (die.toNat + id.toNat * 2 ^ 1)
  | .mergedPartialApply id => eventWord 88 (id.toNat)
  | .keyIncompleteTimeout id => eventWord 89 (id.toNat)
  | .replayWaitTimeout core => eventWord 90 (core.toNat)
  | .add u => trigWord (5 + u.toNat) 1 (0)
  | .sub u => trigWord (5 + u.toNat) 2 (0)
  | .and u => trigWord (5 + u.toNat) 3 (0)
  | .or u => trigWord (5 + u.toNat) 4 (0)
  | .xor u => trigWord (5 + u.toNat) 5 (0)
  | .andn u => trigWord (5 + u.toNat) 6 (0)
  | .shl u => trigWord (5 + u.toNat) 7 (0)
  | .shr u => trigWord (5 + u.toNat) 8 (0)
  | .sar u => trigWord (5 + u.toNat) 9 (0)
  | .rol u => trigWord (5 + u.toNat) 10 (0)
  | .ceq u => trigWord (5 + u.toNat) 11 (0)
  | .cne u => trigWord (5 + u.toNat) 12 (0)
  | .clt u => trigWord (5 + u.toNat) 13 (0)
  | .cltu u => trigWord (5 + u.toNat) 14 (0)
  | .cle u => trigWord (5 + u.toNat) 15 (0)
  | .cleu u => trigWord (5 + u.toNat) 16 (0)
  | .min u => trigWord (5 + u.toNat) 17 (0)
  | .max u => trigWord (5 + u.toNat) 18 (0)
  | .minu u => trigWord (5 + u.toNat) 19 (0)
  | .maxu u => trigWord (5 + u.toNat) 20 (0)
  | .sel u => trigWord (5 + u.toNat) 21 (0)
  | .clz u => trigWord (5 + u.toNat) 22 (0)
  | .ctz u => trigWord (5 + u.toNat) 23 (0)
  | .popc u => trigWord (5 + u.toNat) 24 (0)
  | .sext u => trigWord (5 + u.toNat) 25 (0)
  | .zext u => trigWord (5 + u.toNat) 26 (0)
  | .addsh u => trigWord (5 + u.toNat) 27 (0)
  | .bfx u => trigWord (5 + u.toNat) 28 (0)
  | .bfi u => trigWord (5 + u.toNat) 29 (0)
  | .mul => trigWord 7 1 (0)
  | .mulh => trigWord 7 2 (0)
  | .mulhu => trigWord 7 3 (0)
  | .div => trigWord 7 4 (0)
  | .divu => trigWord 7 5 (0)
  | .rem => trigWord 7 6 (0)
  | .remu => trigWord 7 7 (0)
  | .fadd => trigWord 8 1 (0)
  | .fsub => trigWord 8 2 (0)
  | .fmul => trigWord 8 3 (0)
  | .fma => trigWord 8 4 (0)
  | .fdiv => trigWord 8 5 (0)
  | .fsqrt => trigWord 8 6 (0)
  | .fmin => trigWord 8 7 (0)
  | .fmax => trigWord 8 8 (0)
  | .fceq => trigWord 8 9 (0)
  | .fclt => trigWord 8 10 (0)
  | .fcle => trigWord 8 11 (0)
  | .fcvtif ty rm => trigWord 8 12 (ty.code + rm.toNat * 8)
  | .fcvtfi ty rm => trigWord 8 13 (ty.code + rm.toNat * 8)
  | .fclass => trigWord 8 14 (0)
  | .ldb sp => trigWord 9 1 (sp.code)
  | .ldbu sp => trigWord 9 2 (sp.code)
  | .ldh sp => trigWord 9 3 (sp.code)
  | .ldhu sp => trigWord 9 4 (sp.code)
  | .ldw sp => trigWord 9 5 (sp.code)
  | .ldwu sp => trigWord 9 6 (sp.code)
  | .ldd sp => trigWord 9 7 (sp.code)
  | .stb sp => trigWord 9 8 (sp.code)
  | .sth sp => trigWord 9 9 (sp.code)
  | .stw sp => trigWord 9 10 (sp.code)
  | .std sp => trigWord 9 11 (sp.code)
  | .qmark => trigWord 9 12 (0)
  | .fence => trigWord 9 13 (0)
  | .pref sp => trigWord 9 14 (sp.code)
  | .br => trigWord 10 1 (0)
  | .jmp => trigWord 10 2 (0)
  | .call => trigWord 10 3 (0)
  | .calli => trigWord 10 4 (0)
  | .ret => trigWord 10 5 (0)
  | .loop => trigWord 10 6 (0)
  | .lset => trigWord 10 7 (0)
  | .enter => trigWord 10 8 (0)
  | .leave => trigWord 10 9 (0)
  | .trap => trigWord 10 10 (0)
  | .halt => trigWord 10 11 (0)
  | .cadd => trigWord 11 1 (0)
  | .cwait => trigWord 11 2 (0)
  | .cread => trigWord 11 3 (0)
  | .aadd sp dbl uns => trigWord 11 4 (sp.code + dbl.toNat * 4 + uns.toNat * 8)
  | .amax sp dbl uns => trigWord 11 5 (sp.code + dbl.toNat * 4 + uns.toNat * 8)
  | .amin sp dbl uns => trigWord 11 6 (sp.code + dbl.toNat * 4 + uns.toNat * 8)
  | .axchg sp dbl uns => trigWord 11 7 (sp.code + dbl.toNat * 4 + uns.toNat * 8)
  | .acas sp dbl uns => trigWord 11 8 (sp.code + dbl.toNat * 4 + uns.toNat * 8)
  | .afadd sp dbl uns => trigWord 11 9 (sp.code + dbl.toNat * 4 + uns.toNat * 8)
  | .aand sp dbl uns => trigWord 11 10 (sp.code + dbl.toNat * 4 + uns.toNat * 8)
  | .aor sp dbl uns => trigWord 11 11 (sp.code + dbl.toNat * 4 + uns.toNat * 8)
  | .mvst => trigWord 12 1 (0)
  | .mvts => trigWord 12 2 (0)
  | .pbw => trigWord 12 3 (0)
  | .crpop hdr => trigWord 12 4 (hdr.toNat)
  | .curqStart => trigWord 12 5 (0)
  | .curqDesc => trigWord 12 5 (0) + 1 * 2 ^ 21
  | .grpinc => trigWord 12 6 (0)
  | .launch => trigWord 12 7 (0)
  | .eret => trigWord 12 8 (0)
  | .rlog => trigWord 12 9 (0)
  | .vadd u ty md => trigWord (13 + u.toNat) 1 (ty.code + md.toNat * 8)
  | .vsub u ty md => trigWord (13 + u.toNat) 2 (ty.code + md.toNat * 8)
  | .vmul u ty md => trigWord (13 + u.toNat) 3 (ty.code + md.toNat * 8)
  | .vmin u ty => trigWord (13 + u.toNat) 4 (ty.code)
  | .vmax u ty => trigWord (13 + u.toNat) 5 (ty.code)
  | .vand u => trigWord (13 + u.toNat) 6 (0)
  | .vor u => trigWord (13 + u.toNat) 7 (0)
  | .vxor u => trigWord (13 + u.toNat) 8 (0)
  | .vandn u => trigWord (13 + u.toNat) 9 (0)
  | .vshl u ty => trigWord (13 + u.toNat) 10 (ty.code)
  | .vshr u ty => trigWord (13 + u.toNat) 11 (ty.code)
  | .vsar u ty => trigWord (13 + u.toNat) 12 (ty.code)
  | .vceq u ty => trigWord (13 + u.toNat) 13 (ty.code)
  | .vcne u ty => trigWord (13 + u.toNat) 14 (ty.code)
  | .vclt u ty => trigWord (13 + u.toNat) 15 (ty.code)
  | .vcle u ty => trigWord (13 + u.toNat) 16 (ty.code)
  | .vsel u => trigWord (13 + u.toNat) 17 (0)
  | .vabs u ty sat => trigWord (13 + u.toNat) 18 (ty.code + sat.toNat * 8)
  | .vneg u ty sat => trigWord (13 + u.toNat) 19 (ty.code + sat.toNat * 8)
  | .vclamp u ty => trigWord (13 + u.toNat) 20 (ty.code)
  | .vcvt u src dst => trigWord (13 + u.toNat) 21 (src.code + dst.code * 8)
  | .viota u ty => trigWord (13 + u.toNat) 22 (ty.code)
  | .pand u => trigWord (13 + u.toNat) 23 (0)
  | .por u => trigWord (13 + u.toNat) 24 (0)
  | .pxor u => trigWord (13 + u.toNat) 25 (0)
  | .pandn u => trigWord (13 + u.toNat) 26 (0)
  | .pnot u => trigWord (13 + u.toNat) 27 (0)
  | .pcnt u cr => trigWord (13 + u.toNat) 28 (cr.toNat * 8)
  | .pfirst u cr => trigWord (13 + u.toNat) 29 (cr.toNat * 8)
  | .psetn u => trigWord (13 + u.toNat) 30 (0)
  | .ppack u hi => trigWord (13 + u.toNat) 31 (hi.toNat)
  | .punpack u hi => trigWord (13 + u.toNat) 32 (hi.toNat)
  | .vfma ty rm => trigWord 15 1 (ty.code + rm.toNat * 8)
  | .vfms ty rm => trigWord 15 2 (ty.code + rm.toNat * 8)
  | .vfnma ty rm => trigWord 15 3 (ty.code + rm.toNat * 8)
  | .vdiv ty rm => trigWord 15 4 (ty.code + rm.toNat * 8)
  | .vsqrt ty rm => trigWord 15 5 (ty.code + rm.toNat * 8)
  | .vrcp ty rm => trigWord 15 6 (ty.code + rm.toNat * 8)
  | .vrsq ty rm => trigWord 15 7 (ty.code + rm.toNat * 8)
  | .vexp2 ty rm => trigWord 15 8 (ty.code + rm.toNat * 8)
  | .vlog2 ty rm => trigWord 15 9 (ty.code + rm.toNat * 8)
  | .vtanh ty rm => trigWord 15 10 (ty.code + rm.toNat * 8)
  | .vdot4 ty md => trigWord 15 11 (ty.code + md.toNat * 8)
  | .vmac ty sat => trigWord 15 12 (ty.code + sat.toNat * 8)
  | .vshuf ty => trigWord 16 1 (ty.code)
  | .vrot ty => trigWord 16 2 (ty.code)
  | .vbcast ty => trigWord 16 3 (ty.code)
  | .vzip ty hi => trigWord 16 4 (ty.code + hi.toNat * 8)
  | .vunzip ty hi => trigWord 16 5 (ty.code + hi.toNat * 8)
  | .vslide ty => trigWord 16 6 (ty.code)
  | .vpack fmt => trigWord 16 7 (fmt.toNat)
  | .vunpack fmt => trigWord 16 8 (fmt.toNat)
  | .vexpand => trigWord 16 9 (0)
  | .vcompress cr => trigWord 16 10 (cr.toNat * 8)
  | .vaccrd ty rm => trigWord 16 11 (ty.code + rm.toNat * 8)
  | .vaccwr ty => trigWord 16 12 (ty.code)
  | .vplane fmt => trigWord 16 13 (fmt.toNat)
  | .vld g => trigWord 17 1 (g.toNat)
  | .vst g => trigWord 17 2 (g.toNat)
  | .vlds g ty => trigWord 17 3 (g.toNat + ty.code * 2)
  | .vsts g ty => trigWord 17 4 (g.toNat + ty.code * 2)
  | .vgath g cr => trigWord 17 5 (g.toNat + cr.toNat * 16)
  | .vscat g cr => trigWord 17 6 (g.toNat + cr.toNat * 16)
  | .vscatadd g cr => trigWord 17 7 (g.toNat + cr.toNat * 16)
  | .vldz g => trigWord 17 8 (g.toNat)
  | .vstz g ty cr => trigWord 17 9 (g.toNat + ty.code * 2 + cr.toNat * 16)
  | .vldt => trigWord 17 10 (0)
  | .vstt => trigWord 17 11 (0)
  | .vrsum ty cr => trigWord 18 1 (ty.code + cr.toNat * 8)
  | .vrmax ty cr => trigWord 18 2 (ty.code + cr.toNat * 8)
  | .vrmin ty cr => trigWord 18 3 (ty.code + cr.toNat * 8)
  | .vargmax ty cr => trigWord 18 4 (ty.code + cr.toNat * 8)
  | .vargmin ty cr => trigWord 18 5 (ty.code + cr.toNat * 8)
  | .vscan ty cr ex => trigWord 18 6 (ty.code + cr.toNat * 8 + ex.toNat * 16)
  | .vmerge comb dz cr pt => trigWord 18 7 (comb.toNat + dz.toNat * 4 + cr.toNat * 8 + pt.toNat * 16)
  | .vsort ty desc => trigWord 18 8 (ty.code + desc.toNat * 16)
  | .vtopk ty cr desc => trigWord 18 9 (ty.code + cr.toNat * 8 + desc.toNat * 16)
  | .vuniq ty cr => trigWord 18 10 (ty.code + cr.toNat * 8)
  | .mma => trigWord 19 1 (0)
  | .mdrain => trigWord 19 2 (0)
  | .msave => trigWord 19 3 (0)
  | .mload => trigWord 19 4 (0)
  | .mrawadd => trigWord 19 5 (0)
  | .mzero => trigWord 19 6 (0)
  | .mchk => trigWord 19 7 (0)
  | .mclr => trigWord 19 8 (0)
  | .mseed => trigWord 19 9 (0)
  | .kmov rebind => trigWord 20 1 (rebind.toNat)
  | .kadde rebind enc => trigWord 20 2 (rebind.toNat + enc.toNat * 2)
  | .kmax rebind enc => trigWord 20 3 (rebind.toNat + enc.toNat * 2)
  | .kmin rebind enc => trigWord 20 4 (rebind.toNat + enc.toNat * 2)
  | .kcvt rebind enc denc => trigWord 20 5 (rebind.toNat + enc.toNat * 2 + denc.toNat * 16)
  | .kfold rebind enc => trigWord 20 6 (rebind.toNat + enc.toNat * 2)
  | .kamax rebind enc => trigWord 20 7 (rebind.toNat + enc.toNat * 2)
  | .kbind => trigWord 20 8 (0)
  | .kunbind => trigWord 20 9 (0)
  | .krebind => trigWord 20 10 (0)
  | .kgen cr => trigWord 20 11 (cr.toNat * 8)
  | .kld rebind => trigWord 20 12 (rebind.toNat)
  | .kst => trigWord 20 13 (0)
  | .tcfg => trigWord 21 1 (0)
  | .tstate => trigWord 21 2 (0)
  | .trel => trigWord 21 3 (0)
  | .tmarkOpen => trigWord 21 4 (0)
  | .tmarkClose => trigWord 21 4 (0) + 1 * 2 ^ 21
  | .tmarkReopen => trigWord 21 4 (0) + 2 * 2 ^ 21
  | .thand => trigWord 21 5 (0)
  | .ttake => trigWord 21 6 (0)
  | .cque g => trigWord 22 1 (g.toNat)
  | .cstat => trigWord 22 2 (0)
  | .cclrRetry => trigWord 22 3 (0)
  | .cclrAbandonChain => trigWord 22 3 (0) + 1 * 2 ^ 21
  | .cclrAbandonAll => trigWord 22 3 (0) + 2 * 2 ^ 21
  | .rinit g => trigWord 22 4 (g.toNat)
  | .rawait g => trigWord 22 5 (g.toNat)
  | .rrel g => trigWord 22 6 (g.toNat)
  | .tdmk g => trigWord 22 7 (g.toNat)
  | .xjob g => trigWord 22 8 (g.toNat)
  | .xtab g => trigWord 22 9 (g.toNat)
  | .sejob g => trigWord 22 10 (g.toNat)
  | .fflowOpen => trigWord 23 1 (0)
  | .fflowAccept => trigWord 23 1 (0) + 1 * 2 ^ 21
  | .fflowCloseSend => trigWord 23 1 (0) + 2 * 2 ^ 21
  | .fflowCloseRecv => trigWord 23 1 (0) + 3 * 2 ^ 21
  | .fwrite g => trigWord 23 2 (g.toNat)
  | .fread g => trigWord 23 3 (g.toNat)
  | .fcadd => trigWord 23 4 (0)
  | .fred g => trigWord 23 5 (g.toNat)
  | .frate => trigWord 23 6 (0)
  | .frwinRegister g => trigWord 23 7 (g.toNat)
  | .frwinRemove g => trigWord 23 7 (g.toNat) + 1 * 2 ^ 21
  | .accessPerformed core => eventWord 91 (core.toNat)
  | .cinchMemoryAccess by_ addr => eventWord 92 (by_.die.toNat + by_.wr.toNat * 2 ^ 1 + addr.toNat * 2 ^ 2)

/-- Decodes an instruction word. Total; every refusal is named (R47, R51 to R53). -/
def decode (w : Nat) : Except DecodeError Instr :=
  if bitOf w 23 then
    match candEvent (field w 24 8) (w / 2 ^ 32) with
    | none => .error .badEvent
    | some i => if i.wellFormed && encode i == w then .ok i else .error .badEvent
  else if field w 14 2 != 3 then .error .notTrigger
  else
    match candTrigger (field w 16 5) (field w 6 8) (field w 0 6) (field w 21 2) with
    | .error e => .error e
    | .ok none => .error .badOpcode
    | .ok (some i) => if i.wellFormed && encode i == w then .ok i else .error .badModifier

/-- The instruction of a word, or none where the decoder refuses it. -/
def decodeWord? (w : Nat) : Option Instr :=
  match decode w with
  | .ok i => some i
  | .error _ => none

/-- The host's question: the table's words are the instruction words themselves (log 7). -/
def decodeTableWord (_nbits w : Nat) : Option Instr := decodeWord? w

/-- The selector that a run-time mode operand gives: CURQ reads b (R89), TMARK a<0..1> (R219), CCLR a (R299),
FFLOW b (R442), FRWIN b<8> (R450). A mode beyond the table's rows keeps the last row, whose meaning checks it. -/
def selectorOf (dest : Nat) (a b : Nat) : Nat :=
  if field dest 14 2 != 3 then 0
  else match field dest 16 5, field dest 6 8 with
  | 12, 5 => min b 1
  | 21, 4 => min (a % 4) 2
  | 22, 3 => min a 2
  | 23, 1 => min b 3
  | 23, 7 => b / 256 % 2
  | _, _ => 0

/-- The instruction that a trigger's DEST and its operands a and b name. -/
def decodeTrigger (dest : Nat) (a b : Nat) : Except DecodeError Instr :=
  decode (dest + selectorOf dest a b * 2 ^ 21)

end Sys2Proof
end

