-- ==== Sys2Proof/Machine/State.lean ====
section
/-! DEFINITION. The state of one Ballodon package: every register, memory, table and queue the spec names,
the reasons a step can stop, and the state after package power-on. Plain data throughout. -/

namespace Sys2Proof.Machine

/-- Why the machine stops. The spec's own faults are no stops: they are next states (R35, R381). -/
inductive Fault where
  /-- Nothing is pending: every core is idle and no input has arrived (raised by step; safe). -/
  | idle
  /-- The thermal trip removed power (R465; raised by step; safe). -/
  | poweredOff
  deriving DecidableEq, Repr

/-- Why a step has no meaning here. -/
inductive Refusal where
  /-- The instruction has no meaning yet (raised by the dispatcher's arms; safe). -/
  | notModelled (mnemonic : String)
  /-- A pending trigger's destination word names no instruction (raised by step; safe: validation refuses
  such a bundle, R53, so no run from reset meets it). -/
  | undecodable (dest : Nat)
  deriving DecidableEq, Repr

/-- Memory as (address, byte) pairs: addresses rise, no listed byte is zero, an unlisted byte reads zero
(what unwritten memory holds is notes/assumptions/4.md). -/
abbrev Memory := List Host.Cell

/-- The ports and result pair of one functional unit (R14, R48); scalar ports use the low 64 bits. -/
structure Ports where
  a : Vec
  b : Vec
  c : Vec
  y0 : Vec
  y1 : Vec
  deriving DecidableEq, Repr

/-- The active set of an engine and its two status bits in the register window (R50, R242). -/
structure EngineSet where
  a : Vec
  b : Vec
  c : Vec
  shadow : Bool
  running : Nat
  deriving DecidableEq, Repr

/-- A reserved completion-ring entry; `out` is the finished record (VALUE, UNIT, OPCODE) waiting for its turn (R10, R11). -/
structure RingEntry where
  seq : Nat
  out : Option (Nat × Nat × Nat)
  deriving DecidableEq, Repr

/-- Completion-ring positions (R10, R11): records written and popped since it was last emptied, entries reserved in
trigger order, and the record sequence number. -/
structure Ring where
  written : Nat
  popped : Nat
  reserved : List RingEntry
  seq : BitVec 16
  deriving DecidableEq, Repr

/-- Tile states (R216). -/
inductive TileState where
  | empty | filling | ready | draining
  deriving DecidableEq, Repr

/-- Who fills a filling tile (R214). -/
inductive Filler where
  | program | copyEngine | matrix
  deriving DecidableEq, Repr

/-- A tile entry (R214): word 0, the fields of word 1, and the counts behind BUSY and draining (R200, R218). -/
structure Tile where
  word : Word
  state : TileState
  busy : Nat
  reads : Nat
  buckle : Option (Nat × BitVec 16)
  stale : Bool
  cfg : Bool
  filler : Filler
  deriving DecidableEq, Repr

/-- A keeper (R220): scale bytes, band entries, generation, and the reads and writes R225 orders. -/
structure Keeper where
  bytes : Vec
  band : BitVec 256
  gen : BitVec 16
  writes : Nat
  readers : Nat
  deriving DecidableEq, Repr

/-- Classes of an accumulator element or contribution (R144, R146). -/
inductive AccClass where
  | fin | pinf | ninf | nan
  deriving DecidableEq, Repr

/-- An accumulator element: class, significand S and exponent E (R146). -/
structure AccEl where
  cls : AccClass
  s : Int
  e : Int
  deriving DecidableEq, Repr

/-- An accumulator: elements by 32i + j, tag (R152), band pair (R210), invalid mark (R206), last profile (R212) and the
MA sequence numbers of the operations that hold it busy (R200). -/
structure Acc where
  els : Vector AccEl 1024
  tag : BitVec 16
  bandA : BitVec 16
  bandB : BitVec 16
  invalid : Bool
  lastProfile : Nat
  busy : List Nat
  deriving DecidableEq, Repr

/-- The task-visible state that a segment shadows and a context save writes (R388, R404). -/
structure Arch where
  g : Vector Word 32
  o : Vector Word 8
  v : Vector Vec 64
  vo : Vector Vec 8
  p : Vector Mask 16
  f : Vector Bool 16
  units : Vector Ports 19
  active : Vector EngineSet 4
  pb : Vector Word 32
  st : Vector Word 24
  srSeq : BitVec 32
  maSeq : BitVec 32
  ring : Ring
  tiles : Vector Tile 64
  keepers : Vector Keeper 64
  accs : Vector Acc 4
  maHalt : Bool
  slots : Vector (Option Word) 8
  rvPass : Option Nat
  deriving DecidableEq, Repr

/-- Pages in a TLB (R255): virtual page, its frame and attributes as walked. -/
structure TlbEntry where
  large : Bool
  vpage : Nat
  pte : Word
  deriving DecidableEq, Repr

/-- What a triggered operation carries from its bundle (R13, R14, R21, R49): where it was triggered, its operands as captured, the guard
as a lane mask, registers it reads at the bundle's start, the translations made for it (R75), and where it stands in its handling. -/
structure Trig where
  core : Nat
  unit : Nat
  slot : Nat
  dest : Nat
  pc : Nat
  nextPc : Nat
  seq : Nat
  t0 : Nat
  u0 : Nat
  delay : Nat
  mask : Option Mask
  a : Vec
  b : Vec
  c : Vec
  aux : Vec
  srSeq : BitVec 32
  maSeq : BitVec 32
  tlb : List TlbEntry
  head : BitVec 1024 := 0
  inTrap : Bool
  checked : Bool
  released : Bool
  stage : Nat
  deriving DecidableEq, Repr

/-- Effects that come about when a result lands (R10, R14, R33, R138, R168, R221). -/
inductive Post where
  | gpr (n : Nat) (v : Word)
  | flag (n : Nat) (v : Bool)
  | pred (n : Nat) (v : Mask)
  | fpFlags (bits : Nat)
  | conv (sat flush nan : Nat)
  | record (value unit opcode : Nat)
  | fault (code : Nat) (info : Word) (slot : Nat)
  | keeper (k : Nat) (bmask : BitVec 1024) (bytes : Vec) (dmask : BitVec 16) (band : BitVec 256) (rebind : Bool)
  | bind (tile : Nat) (buckle : Option (Nat × BitVec 16))
  | accFree (k : Nat) (seq : Nat)
  | tileReady (tile : Nat)
  | tileRead (tile : Nat)
  deriving DecidableEq, Repr

/-- A triggered operation that has not landed (R14, R26, R65): in unheld cycles its bound, in package time when it may
land, whether its outcome is known, whether its result is abandoned (R399), and what it lands. -/
structure Flight where
  unit : Nat
  seq : Nat
  slot : Nat
  bound : Nat
  due : Nat
  ready : Bool
  lands : Bool
  dropped : Bool
  y0 : Vec
  y1 : Option Vec
  mask : Option Mask
  regs : List Nat
  preds : List Nat
  posts : List Post
  cause : Nat
  deferred : Bool
  inTrap : Bool
  deriving DecidableEq, Repr

/-- Where bytes live: a core's local arrays, a physical address, or a physical address read through a point-0
expander (R241, R248, R254, R267). -/
inductive Loc where
  | arr (core addr : Nat)
  | pa (addr : Nat)
  | expand (addr : Nat)
  deriving DecidableEq, Repr

/-- A run of bytes of one access and the bit of the register value at which it starts. -/
structure Piece where
  at_ : Loc
  n : Nat
  bit : Nat
  deriving DecidableEq, Repr

/-- Read-modify-write operations performed at home (R266, R365). -/
inductive Amo where
  | add | max (uns : Bool) | min (uns : Bool) | xchg | cas | fadd | and | or
  deriving DecidableEq, Repr

/-- What an access does when it is performed (R270): `planes` writes elements into a plane-major block-row (R346), `unzip` expands
a compressed buffer of a given header (R350), `keeper` loads a keeper's image (R227), and `window` is an atomic on a cell of a reduction
window, with the number of its contribution once that is on its way to the home (R280, R432). -/
inductive AccessKind where
  | load (bytes : Nat) (signed : Bool) (fan : List (Nat × Nat))
  | store (data : Vec)
  | amo (op : Amo) (b c : Word)
  | scatAdd (ty : ElemType) (data : Vec)
  | planes (fmt half : Nat) (data : Vec) (mask : Option Mask)
  | unzip (header addr slot : Nat)
  | keeper (kd : Nat) (rebind : Bool)
  | window (win cell : Nat) (v : Word) (sent : Option Nat)
  | marker
  deriving DecidableEq, Repr

/-- An access in a path's queue (R77, R268, R273). `bound` are the code tables, as (stack, table id, generation), that a read through a COMP
page bound as it was issued (R315, R319). -/
structure Access where
  path : Nat
  seq : Nat
  unit : Nat
  slot : Nat
  kind : AccessKind
  pieces : List Piece
  due : Nat
  inTrap : Bool
  bound : List (Nat × Nat × Nat) := []
  deriving DecidableEq, Repr

/-- A FENCE that has not completed (R78, R274). -/
structure FenceWait where
  seq : Nat
  paths : BitVec 8
  scope : Nat
  deriving DecidableEq, Repr

/-- A fault waiting for a boundary or a named point (R382, R383); `tag` is the owner tag that a record of it would show (R385). -/
structure PendFault where
  code : Nat
  info : Word
  slot : Nat
  seq : Nat
  ready : Bool
  inSeg : Bool
  tag : Nat := 0
  deriving DecidableEq, Repr

/-- A fault about to be delivered (R34, R35). With no pc, TRAPPC is the pc then standing (R36). -/
structure TrapReq where
  code : Nat
  info : Word
  slot : Nat
  blevel : Bool
  pc : Option Nat
  inTrap : Bool
  tag : Nat := 0
  tile : Bool := false
  deriving DecidableEq, Repr

/-- What a core is doing (R30, R35, R37, R84, R402). -/
inductive Flow where
  | idle | running | returning | halting | trapping | rewinding | parked | saving
  deriving DecidableEq, Repr

/-- The context a core runs (R97, R117, R252). -/
structure Ctx where
  id : Nat
  launch : Nat
  region : Nat
  task : Nat
  grp : Nat
  x : Nat
  y : Nat
  ordinal : Nat
  core : Nat
  domain : Nat
  spadk : Nat
  lockg : Nat
  wdlim : Nat
  key : Nat
  det : Bool
  image : Nat
  started : Nat
  deriving DecidableEq, Repr

/-- A parked CWAIT (R363). -/
structure Park where
  handle : Nat
  thr : Nat
  until_ : Option Nat
  seq : Nat
  last : Nat
  deriving DecidableEq, Repr

/-- A pre-emption request (R402): forced or not, when its time limit began, whether that has passed, whether a time-slice alone asks
for it, and whether it has a limit (R112, R123). -/
structure Preempt where
  forced : Bool
  since : Nat
  due : Bool
  slice : Bool
  timed : Bool
  deriving DecidableEq, Repr

/-- An open static schedule segment (R387, R395): its entry, rewinds and first trigger, the whole task-visible state at entry as its
shadow, the handles taken in it, whether its entry bundle is to be reissued, and whether its end has come and its deferred queue is
being performed. -/
structure Segment where
  id : Nat
  entry : Nat
  rewinds : Nat
  first : Nat
  shadow : Arch
  taken : List Word
  again : Bool
  closing : Bool
  deriving DecidableEq, Repr

/-- The bundle between FETCH and BUNDLE_ISSUE (R22). -/
structure Fetched where
  bits : Bundle
  size : Nat
  deriving DecidableEq, Repr

/-- The operation that reads a word in error, or writes a poisoned target (R258, R392, R394): core, context, trigger, slot, whether it
was triggered in a trap handler, and the accumulator of an MMA. -/
structure Who where
  core : Nat
  ctx : Nat
  seq : Nat
  slot : Nat
  inTrap : Bool
  acc : Option Nat
  deriving DecidableEq, Repr

/-- A 64-bit word in error (R258, R392): its word number, whether a second read fails too, whether a full write has replaced it since,
whether ECC corrects it when it is read, and the consumers of the zero that an uncorrectable one landed as. -/
structure Upset where
  word : Nat
  persistent : Bool
  healed : Bool
  correctable : Bool
  users : List Who
  deriving DecidableEq, Repr

/-- A handle delivered to a core (R235) waits here until TTAKE takes it. -/
abbrev Handle := Word

/-- A window slot whose buffer is being handed on (R235): accesses of triggers before `since` still reach it. -/
structure Parted where
  since : Nat
  slot : Nat
  handle : Handle
  deriving DecidableEq, Repr

/-- Who holds a buffer that was handed out (R235, R237): nobody yet, its owner's own inbound queue, the inbound queue of a core that
runs no task, or a context. -/
inductive Holder where
  | away
  | home
  | core (c : Nat)
  | ctx (id : Nat)
  deriving DecidableEq, Repr

/-- A range of this core's scratchpad that another task holds (R235, R237); until its handle is delivered only accesses of triggers from
`since` on are refused. -/
structure HandedOut where
  basek : Nat
  lenk : Nat
  since : Nat
  holder : Holder
  deriving DecidableEq, Repr

/-- An MMA from its start to its completion (R195 to R198): its trigger and MA sequence numbers, operands, array start, completion
and last accumulate as package times, whether it still holds its tiles, the keepers its prologue still reads, the accumulator as it
stood, and its replays. `start` is its start under R49, `bufs` the residues of its operand buffers, kept where its cells are checked
(R197). -/
structure MmaOp where
  seq : Nat
  slot : Nat
  pc : Nat
  maSeq : BitVec 32
  inTrap : Bool
  acc : Nat
  tileA : Nat
  tileB : Nat
  pcw : Nat
  start : Nat
  bufs : List (List (List Nat) × List (List Nat))
  began : Option Nat
  complete : Nat
  lastAcc : Nat
  tilesHeld : Bool
  keeps : List Nat
  before : Option Acc
  limit : Nat
  replays : Nat
  marked : Bool
  digits : List Nat
  mr : Nat
  mc : Nat
  badBlock : Nat
  deriving DecidableEq, Repr

/-- An address operand of an engine: a device VA or a local address of the queuing core (R290, R324, R352). -/
structure EAddr where
  glob : Bool
  addr : Nat
  deriving DecidableEq, Repr

/-- A chain head in a channel's queue with the context that queued it and its CQUE (R274, R288, R300). -/
structure Head where
  addr : EAddr
  owner : Ctx
  seq : Nat
  deriving DecidableEq, Repr

/-- What a channel is doing (R289, R298, R299). -/
inductive ChanStage where
  | idle | reading | prewait | claim | transfer | ending | halted
  deriving DecidableEq, Repr

/-- A copy-engine channel (R288, R289, R299). `record` is the copy of the current record; `slot` the claimed ring slot. -/
structure Channel where
  heads : List Head
  stage : ChanStage
  recAddr : EAddr
  record : BitVec 1024
  code : Nat
  slot : Nat
  since : Nat
  filling : Bool
  deriving DecidableEq, Repr

/-- An FX operation in a core's queue (R438): its operands and its copy of the block. -/
structure FxOp where
  op : Nat
  owner : Ctx
  flow : Nat
  a : Word
  b : Word
  c : Word
  glob : Bool
  block : BitVec 512
  seq : Nat
  deriving DecidableEq, Repr

/-- One core. `undef` are results that have landed before their bound in unheld cycles: the unit, 32 and a general register, or 64 and a
physical predicate, with the bound (R26). `walk` is the 64 KiB page being walked, `walked` what the walks for the waiting bundle have
given, none for a fault (R255). `rewind` is the address of the error
that calls for a rewind, with its owner tag (R395). `cellFaults` are the checks of the array that will meet errors of its cells: for each its block, and the
cells with what their residues are off by (R197). -/
structure Core where
  arch : Arch
  pc : Nat
  flow : Flow
  fetched : Option Fetched
  ctx : Option Ctx
  staged : Option Ctx
  heldTotal : Nat
  held : Nat
  holdInfo : Word
  trigSeq : Nat
  flights : List Flight
  undef : List (Nat × Nat)
  lastLand : List (Nat × Nat)
  portAt : Option Nat
  captured : Vector (List Trig) 4
  engLast : Vector Nat 4
  accesses : List Access
  fences : List FenceWait
  released : List Nat
  defq : List Trig
  seg : Option Segment
  pend : List PendFault
  trapReq : Option TrapReq
  park : Option Park
  preq : Option Preempt
  rewind : Option (Nat × Nat)
  outRewind : List Nat
  replayWait : Option (Nat × Nat × Nat)
  dict : List Bundle
  idx : List (BitVec 16)
  imageAddr : Nat
  imageCrc : Nat
  maQ : List MmaOp
  arrayFree : Nat
  cellFaults : List (Nat × List (Nat × Nat))
  chans : Vector Channel 4
  fxQ : List FxOp
  tlb : List TlbEntry
  walk : Option Nat
  walked : List (Nat × Option TlbEntry)
  inbound : List Handle
  handedOut : List HandedOut
  parted : List Parted
  tags : List (Nat × Nat)
  poison : List Nat
  upsets : List Upset
  regError : Bool
  deriving DecidableEq, Repr

/-- A registered table copy (R314): generation, kind, value width, state words and entries. -/
structure TableCopy where
  gen : Nat
  code : Bool
  vw : Nat
  states : List Nat
  entries : List Nat
  deriving DecidableEq, Repr

/-- One table id of a stack (R314, R315). -/
structure TableId where
  cur : Option TableCopy
  standby : Option TableCopy
  gen : Nat
  deriving DecidableEq, Repr

/-- A table load waiting at a stack (R315, R359); one that has been applied or refused still owes its counter add. -/
structure TableLoad where
  applied : Bool
  id : Nat
  image : EAddr
  ctr : Option Nat
  owner : Ctx
  seq : Nat
  deriving DecidableEq, Repr

/-- The table store of a stack (R314). -/
structure Stack where
  tables : Vector TableId 16
  loads : List TableLoad
  deriving DecidableEq, Repr

/-- A job of a transducer lane or stack engine: the copied block, its address, its queuing context and trigger (R274, R305, R309,
R323). -/
structure Job where
  addr : EAddr
  block : BitVec 1024
  owner : Ctx
  seq : Nat
  deriving DecidableEq, Repr

/-- Stages of a lane's or engine's running job (R308, R325). -/
inductive JobStage where
  | idle | prewait | run | ending | adding
  deriving DecidableEq, Repr

/-- A transducer lane (R305, R312). `tgen` and `cgen` are the bound generations, `xlat` the translations made at the job's start
(R307). -/
structure Lane where
  jobs : List Job
  stage : JobStage
  state : Nat
  cursor : Nat
  holds : Nat
  acc : Nat
  apos : Nat
  outlen : Nat
  sats : Nat
  flushes : Nat
  nans : Nat
  tgen : Nat
  cgen : Nat
  status : Nat
  since : Nat
  xlat : List TlbEntry
  deriving DecidableEq, Repr

/-- A stack engine (R323, R325). -/
structure StackEngine where
  jobs : List Job
  stage : JobStage
  block : Nat
  status : Nat
  since : Nat
  mismatches : Nat
  deriving DecidableEq, Repr

/-- A bound region of the dispatcher: launch and index in its visiting order. -/
structure RegionRef where
  launch : Nat
  idx : Nat
  deriving DecidableEq, Repr

/-- A send flow entry (R420, R423, R442). -/
structure SendFlow where
  flow : Nat
  node : Nat
  die : Nat
  cls : Nat
  ord : Bool
  region : RegionRef
  rot : Nat
  nextSeq : Nat
  code : Option (Nat × Nat)
  deriving DecidableEq, Repr

/-- A message that is being sent, or that waits for its answer (R420, R423, R446, R447): its header fields, its bytes, the next stripe
to cut and whether all are cut, and the local add due. Kind 0 is data, 6 a read request, 7 a read response; of a request, `got` and
`last` say which stripes of the answer have landed. `owner` is the context it is sent for, `oseq` its trigger. -/
structure Message where
  id : Nat
  flow : Nat
  seq : Nat
  kind : Nat
  owner : Ctx
  oseq : Nat
  data : Nat
  len : Nat
  laddr : EAddr
  daddr : Nat
  ctr : Nat
  cinc : Nat
  cscope : Nat
  cen : Bool
  ring : Bool
  comp : Bool
  rnode : Nat
  rdie : Nat
  cls : Nat
  ord : Bool
  rate : Option (Nat × Nat)
  rot : Nat
  cut : Nat
  whole : Bool
  lctr : Option (Nat × Nat)
  got : List Nat
  last : Option Nat
  deriving DecidableEq, Repr

/-- A stripe in the retransmit store (R427): its message, its code, and whether it has failed once; `wait` says that it is to be sent
again. -/
structure SentStripe where
  id : Nat
  msg : Nat
  stripe : Nat
  k : Nat
  m : Nat
  retry : Bool
  wait : Bool
  deriving DecidableEq, Repr

/-- A receive flow entry (R420, R426, R443): messages below `low` are delivered, and of the window from there on the stripes written,
the last stripe's number, the messages done and the ring slots claimed. `comp` keeps the stored bytes of compressed messages
(message, offset, count, bytes), `admitted` the message that a logged order lets in (R282). -/
structure RecvFlow where
  node : Nat
  die : Nat
  flow : Nat
  region : RegionRef
  domain : Nat
  low : Nat
  delivered : List (Nat × Nat)
  lastStripe : List (Nat × Nat)
  done : List Nat
  slot : List (Nat × Nat)
  comp : List (Nat × Nat × Nat × Nat)
  admitted : Option Nat
  deriving DecidableEq, Repr

/-- How far a region has been served by a die's fabric interface, and the flow served last (R421). -/
structure Share where
  region : RegionRef
  pass : Nat
  last : Nat
  deriving DecidableEq, Repr

/-- A stripe decode buffer (R425): the header of its first fragment, the fragments present, and where it stands;
`ring` and `comp` are RINGD and COMPR of its message (R446). -/
structure DecodeBuf where
  id : Nat
  header : BitVec 512
  frags : List (Nat × BitVec 4096)
  decoded : Bool
  ring : Bool
  comp : Bool
  deriving DecidableEq, Repr

/-- A reduction window (R428). -/
structure Window where
  id : Nat
  base : Nat
  cells : Nat
  isInt : Bool
  op : Nat
  det : Bool
  ctr : Nat
  cscope : Nat
  region : RegionRef
  domain : Nat
  deriving DecidableEq, Repr

/-- Values contributed to one key on one plane, as the root switch holds them (R430): by contributor in order of arrival, those
already folded in a logged order, and the value folded so far. A single cell sent by an atomic stands alone (R432). -/
structure Partial where
  id : Nat
  plane : Nat
  window : Nat
  round : Nat
  block : Nat
  count : Nat
  parts : List (Nat × BitVec 4096)
  order : List Nat
  acc : Option (BitVec 4096)
  complete : Bool
  cell : Option Nat
  owner : Option (Nat × Nat)
  deriving DecidableEq, Repr

/-- A contribution sent and not acknowledged on both planes (R429). -/
structure SentContribution where
  id : Nat
  frag : BitVec 4608
  planes : List Nat
  resent : Bool
  acked : Bool
  owner : Ctx
  oseq : Nat
  deriving DecidableEq, Repr

/-- One die's share of the package: slots, rings, fabric interface, limits. -/
structure Slot where
  bound : Bool
  present : Bool
  queue : Nat
  force : Bool
  col : Nat
  row : Nat
  width : Nat
  height : Nat
  lease : Nat
  expiry : Nat
  status : Nat
  deriving DecidableEq, Repr

/-- The decision log's registers of one die (R433); `taken` are the entries a replay has used (R436). -/
structure LogRegs where
  base : Nat
  cnt : Nat
  wp : Nat
  rp : Nat
  ctl : Nat
  truncated : Bool
  taken : List Nat
  deriving DecidableEq, Repr

/-- One compute die. `arrayFrom` is when each core's array may next start while the die throttles (R464). -/
structure Die where
  slots : Vector Slot 64
  rp : Nat
  remap : Vector (Nat × Bool) 128
  errWp : BitVec 32
  errRp : BitVec 32
  errDropped : Nat
  stopped : Bool
  limit : Nat
  power : Nat
  throttled : Bool
  arrayFrom : Vector Nat 128
  hot : Bool
  tlb2 : List (Nat × TlbEntry)
  serial : Vector (BitVec 32) 16
  domains : List (Nat × Nat)
  sends : List SendFlow
  recvs : List RecvFlow
  messages : List Message
  stripes : List SentStripe
  bufs : List DecodeBuf
  contributions : List SentContribution
  shares : List Share
  nextId : Nat
  late : Nat
  crcErr : Nat
  noBuf : Nat
  nak : Nat
  retx : Nat
  log : LogRegs
  overruns : List Nat
  linkUp : Bool
  tableError : Bool
  deriving DecidableEq, Repr

/-- Registers of one submission queue and the dispatcher's count on it (R103, R418). -/
structure Queue where
  en : Bool
  base : Nat
  log2n : Nat
  domain : Nat
  tail : Nat
  head : Nat
  nextSeq : Nat
  deriving DecidableEq, Repr

/-- An item of the boot image (R458, R459): its kind (0 firmware, 1 microcode, 2 a transducer table image), its version, the PA that the image
names for a table image, its bytes, and its signature. -/
structure BootItem where
  kind : Nat
  version : Nat
  pa : Nat
  bytes : Nat
  data : Nat
  signature : Nat
  deriving DecidableEq, Repr

/-- What the sensors of a die or a stack read (R465): degrees Celsius, millivolts, watts. -/
structure Sense where
  temperature : Nat
  voltage : Nat
  power : Nat
  deriving DecidableEq, Repr

/-- The package's registers and shared memory-side state; `sensors` are those of the two dies and then of the stacks, `trainFails` says that a
link does not train (R458), `fuse` lists the defective physical cores, die 1's from 136 on, `image` is the
boot flash's contents and `hostImage` the image in host memory that the boot capability names (R458), `rootKey` is the fused public key of
Yelwin's firmware root (R459), `idKey` and `idSeed` are the device identity key (R460), `joined` says that this package has taken the time master's time (R416), and `attestLeft` counts the unused leaf indices of the block burned last; `ringFilled` are ring slots filled ahead of an earlier claim, by the home of
their ring object (R302). -/
structure Pkg where
  nodeId : Nat
  launched : Bool
  troot : Nat
  tlbinv : Word
  allocBase : Nat
  errBase : Vector Nat 2
  savePool : Vector Nat 2
  strdl : Nat
  planeUp : BitVec 16
  tsync : Nat
  fcrate : Vector (Nat × Nat) 8
  hostSize : Nat
  hbmPoison : List Nat
  hbmUpsets : List Upset
  windows : List Window
  partials : List Partial
  nextPartial : Nat
  doneKeys : List (Nat × Nat × Nat)
  ringFilled : List (Loc × Nat)
  boot : Word
  bootOk : Bool
  fuse : List Nat
  image : List BootItem
  hostImage : List BootItem
  rootKey : Nat
  idKey : Nat
  idSeed : Nat
  keyDraw : Nat
  floor : Nat
  attestBlocks : Nat
  attestLeft : Nat
  erased : Option Nat
  draining : Bool
  slotStart : Nat
  skewSince : Option Nat
  skew : Int
  joined : Bool
  sensors : Vector Sense 14
  trainFails : Bool
  tripped : Bool
  expEvents : List (Nat × Nat)
  deriving DecidableEq, Repr

/-- A region with its fields resolved (R99, R100) and how far it has come (R95, R96, R106). -/
structure Region where
  addr : Nat
  parent : Option Nat
  leaf : Bool
  fdom : Bool
  det : Bool
  order : Bool
  overlap : Bool
  prio : Nat
  profile : Nat
  cscope : Nat
  rrmode : Nat
  logpol : Nat
  version : Nat
  compl : Nat
  srseed : Word
  tieseed : Word
  cores : Nat
  spadk : Nat
  cntq : Nat
  fshare : Nat
  wdlim : Nat
  qbase : Nat
  qcnt : Nat
  image : Nat
  g : Nat
  x : Nat
  y : Nat
  pb : Vector Word 32
  pblen : Nat
  sstop : Nat
  sslim : Nat
  vstop : Nat
  vslim : Nat
  ddies : Nat
  dwidth : Nat
  dheight : Nat
  lockg : Nat
  issued : Nat
  ended : Nat
  failed : Bool
  stored : Bool
  deriving DecidableEq, Repr

/-- Where a launch stands (R104 to R106). -/
inductive LaunchState where
  | queued | runnable | started | retired
  deriving DecidableEq, Repr

/-- A launch: its queue, sequence value, root, the region that launched it, and its tree once validated. -/
structure Launch where
  id : Nat
  queue : Nat
  seq : Nat
  root : Nat
  from_ : Option RegionRef
  state : LaunchState
  validated : Bool
  failed : Bool
  ownsLog : Bool
  regions : List Region
  deriving DecidableEq, Repr

/-- A saved context (R404, R405): its core as saved, where its save area lies, and whether a time-slice took it from its core, to
which alone it returns (R123). -/
structure Saved where
  ctx : Ctx
  core : Core
  area : Nat
  die : Nat
  pinned : Bool
  deriving DecidableEq, Repr

/-- A region control block as read, with its parameter block (R99, R108): its address and its 512 and 256 bytes. -/
structure Rcb where
  addr : Nat
  bits : BitVec 4096
  pb : BitVec 2048
  deriving DecidableEq, Repr

/-- The dispatcher (R103 to R108, R114 to R120); the snapshot used last comes first, and `returned` are tasks taken back from staged
slots before they started. -/
structure Disp where
  queues : List (Nat × Queue)
  launches : List Launch
  snapshots : List (Nat × List Rcb)
  saved : List Saved
  returned : List Ctx
  nextCtx : Nat
  nextLaunch : Nat
  deriving DecidableEq, Repr

/-- What a pending step is: a machine event, or a triggered operation of a core. -/
inductive What where
  | ev (i : Instr)
  | op (t : Trig)
  deriving DecidableEq, Repr

/-- A pending step: the package time and priority at which it comes due (notes/assumptions/1.md). -/
structure Item where
  at_ : Nat
  prio : Nat
  what : What
  deriving DecidableEq, Repr

/-- A party waiting on a counter (R277, R296): the step to post when the counter reaches the threshold. -/
structure CtrWaiter where
  handle : Nat
  thr : Nat
  ev : Instr
  deriving DecidableEq, Repr

/-- The machine. -/
structure State where
  time : Nat
  agenda : List Item
  cur : Trig
  fresh : Nat
  cores : Vector Core 256
  lmem : Vector Memory 256
  mem : Memory
  ctrs : List (Nat × Nat)
  dies : Vector Die 2
  hbm : Vector Stack 12
  lanes : Vector Lane 384
  engines : Vector StackEngine 24
  pkg : Pkg
  disp : Disp
  waiters : List CtrWaiter
  tx : List (Nat × BitVec 4608)
  outbox : List (Nat × Nat)
  deriving DecidableEq, Repr

/-- Ports and result entries before any write: zero (R97; before a task notes/assumptions/3.md). -/
def Ports.reset : Ports := ⟨0, 0, 0, 0, 0⟩

/-- An engine's active set before any operation. -/
def EngineSet.reset : EngineSet := ⟨0, 0, 0, false, 0⟩

/-- An unconfigured tile entry (R97, R214). -/
def Tile.reset : Tile := ⟨0, .empty, 0, 0, none, false, false, .program⟩

/-- A keeper at task start (R97, R220). -/
def Keeper.reset : Keeper := ⟨0, 0, 0, 0, 0⟩

/-- The zero element: S = 0, E = -2048, finite (R146). -/
def AccEl.zero : AccEl := ⟨.fin, 0, -2048⟩

/-- Accumulator n at task start (R97, R152, R210, R212); 0x3F80 is BF16 1.0. -/
def Acc.reset (n : Nat) : Acc :=
  ⟨Vector.replicate 1024 AccEl.zero, BitVec.ofNat 16 n, 0x3F80, 0x3F80, false, 1, []⟩

/-- State registers with the resets of R32; registers that a launch sets are zero before it. -/
def stReset : Vector Word 24 :=
  #v[0, 0, 0, 0, 0, 0, 0, 0, 0, 0, 0, 0, 0, 0, 0, 2, 0, 0, 0, 0, 0, 0x3FC00, 6, 0]

/-- The task-visible state before any task. -/
def Arch.reset : Arch where
  g := Vector.replicate 32 0
  o := Vector.replicate 8 0
  v := Vector.replicate 64 0
  vo := Vector.replicate 8 0
  p := Vector.replicate 16 0
  f := Vector.replicate 16 false
  units := Vector.replicate 19 Ports.reset
  active := Vector.replicate 4 EngineSet.reset
  pb := Vector.replicate 32 0
  st := stReset
  srSeq := 0
  maSeq := 0
  ring := ⟨0, 0, [], 0⟩
  tiles := Vector.replicate 64 Tile.reset
  keepers := Vector.replicate 64 Keeper.reset
  accs := #v[Acc.reset 0, Acc.reset 1, Acc.reset 2, Acc.reset 3]
  maHalt := false
  slots := Vector.replicate 8 none
  rvPass := none

/-- An idle channel (R288). -/
def Channel.reset : Channel := ⟨[], .idle, ⟨false, 0⟩, 0, 0, 0, 0, false⟩

/-- A core that runs no task. -/
def Core.reset : Core where
  arch := Arch.reset
  pc := 0
  flow := .idle
  fetched := none
  ctx := none
  staged := none
  heldTotal := 0
  held := 0
  holdInfo := 0
  trigSeq := 0
  flights := []
  undef := []
  lastLand := []
  portAt := none
  captured := Vector.replicate 4 []
  engLast := Vector.replicate 4 0
  accesses := []
  fences := []
  released := []
  defq := []
  seg := none
  pend := []
  trapReq := none
  park := none
  preq := none
  rewind := none
  outRewind := []
  replayWait := none
  dict := []
  idx := []
  imageAddr := 0
  imageCrc := 0
  maQ := []
  arrayFree := 0
  cellFaults := []
  chans := Vector.replicate 4 Channel.reset
  fxQ := []
  tlb := []
  walk := none
  walked := []
  inbound := []
  handedOut := []
  parted := []
  tags := []
  poison := []
  upsets := []
  regError := false

/-- The trigger a step stands for when it stands for none. -/
def Trig.none : Trig where
  core := 0
  unit := 0
  slot := 0
  dest := 0
  pc := 0
  nextPc := 0
  seq := 0
  t0 := 0
  u0 := 0
  delay := 0
  mask := Option.none
  a := 0
  b := 0
  c := 0
  aux := 0
  srSeq := 0
  maSeq := 0
  tlb := []
  inTrap := false
  checked := false
  released := false
  stage := 0

/-- An empty slot of the slot table (R109). -/
def Slot.empty : Slot := ⟨false, false, 0, false, 0, 0, 0, 0, 0, 0, 0⟩

/-- Slot s at die reset: slots 0 to 15 are idle and hold the clusters, the others are empty (R109). -/
def Slot.reset (s : Nat) : Slot :=
  if s < 16 then ⟨false, true, 0, false, 4 * (s % 4), 2 * (s / 4), 4, 2, 0, 0, 0⟩ else Slot.empty

/-- A die at reset (R109, R386, R407, R433, R463). -/
def Die.reset : Die where
  slots := Vector.ofFn (fun i => Slot.reset i.val)
  rp := 0
  remap := Vector.ofFn (fun i => (i.val, false))
  errWp := 0
  errRp := 0
  errDropped := 0
  stopped := false
  limit := 950
  power := 0
  throttled := false
  arrayFrom := Vector.replicate 128 0
  hot := false
  tlb2 := []
  serial := Vector.replicate 16 0
  domains := []
  sends := []
  recvs := []
  messages := []
  stripes := []
  bufs := []
  contributions := []
  shares := []
  nextId := 0
  late := 0
  crcErr := 0
  noBuf := 0
  nak := 0
  retx := 0
  log := ⟨0, 0, 0, 0, 0, false, []⟩
  overruns := []
  linkUp := true
  tableError := false

/-- The package registers at reset (R256, R418, R422, R459). DESIGN CHOICE: the fuse map, which R2 leaves to the part, names no core as
defective, and the boot flash holds a firmware and a microcode item (notes/assumptions/9.md). -/
def Pkg.reset : Pkg where
  nodeId := 0
  launched := false
  troot := 0
  tlbinv := 0
  allocBase := 0
  errBase := Vector.replicate 2 0
  savePool := Vector.replicate 2 0
  strdl := 50000
  planeUp := 0xFFFF
  tsync := 0
  fcrate := Vector.replicate 8 (12, 4)
  hostSize := 2 ^ 44
  hbmPoison := []
  hbmUpsets := []
  windows := []
  partials := []
  nextPartial := 0
  doneKeys := []
  ringFilled := []
  boot := 0
  bootOk := false
  fuse := []
  image := [⟨0, 0, 0, 0, 0, 0⟩, ⟨1, 0, 0, 0, 0, 0⟩]
  hostImage := []
  rootKey := 0
  idKey := 0
  idSeed := 0
  keyDraw := 0
  floor := 0
  attestBlocks := 0
  attestLeft := 0
  erased := none
  draining := false
  slotStart := 0
  skewSince := none
  skew := 0
  joined := false
  sensors := Vector.replicate 14 ⟨0, 0, 0⟩
  trainFails := false
  tripped := false
  expEvents := []

/-- The machine at package power-on, before PACKAGE_RESET runs: that event alone is pending (R458). -/
def State.reset : State where
  time := 0
  agenda := [⟨0, 2, .ev .packageReset⟩]
  cur := Trig.none
  fresh := 0
  cores := Vector.replicate 256 Core.reset
  lmem := Vector.replicate 256 []
  mem := []
  ctrs := []
  dies := Vector.replicate 2 Die.reset
  hbm := Vector.replicate 12 ⟨Vector.replicate 16 ⟨none, none, 0⟩, []⟩
  lanes := Vector.replicate 384 ⟨[], .idle, 0, 0, 0, 0, 0, 0, 0, 0, 0, 0, 0, 0, 0, []⟩
  engines := Vector.replicate 24 ⟨[], .idle, 0, 0, 0, 0⟩
  pkg := Pkg.reset
  disp := ⟨[], [], [], [], [], 1, 0⟩
  waiters := []
  tx := []
  outbox := []

end Sys2Proof.Machine
end

