-- ==== Sys2Proof/Machine/Bits.lean ====
section
/-! DEFINITION. Bit fields, lanes, CRC-32C, Philox4x32-10 and tables of fixed size. -/

namespace Sys2Proof.Machine

/-- Element i of a fixed table, or d past its end. -/
def nth {α : Type} {n : Nat} (v : Vector α n) (i : Nat) (d : α) : α :=
  if h : i < n then v[i] else d

/-- The table with f applied to element i; past the end nothing changes. -/
def updAt {α : Type} {n : Nat} (v : Vector α n) (i : Nat) (f : α → α) : Vector α n :=
  if h : i < n then v.set i (f v[i]) else v

/-- Bit i of a number as 0 or 1. -/
def bit (x i : Nat) : Nat := x / 2 ^ i % 2

/-- The two's-complement value of the low w bits of x. -/
def sint (x w : Nat) : Int :=
  let u := x % 2 ^ w
  if u < 2 ^ (w - 1) then (u : Int) else (u : Int) - 2 ^ w

/-- The low w bits of an integer in two's complement. -/
def enc (x : Int) (w : Nat) : Nat := (x % (2 ^ w : Int)).toNat

/-- Number of bits of x: 0 for 0. -/
def bitlen (x : Nat) : Nat := if x = 0 then 0 else Nat.log2 x + 1

/-- The number whose bits i < n are f i. -/
def ofBits (n : Nat) (f : Nat → Bool) : Nat :=
  (List.range n).foldr (fun i acc => acc * 2 + (if f i then 1 else 0)) 0

/-- The number whose w-bit digits j < n are f j (each taken modulo 2^w). -/
def ofDigits (n w : Nat) (f : Nat → Nat) : Nat :=
  (List.range n).foldr (fun j acc => acc * 2 ^ w + f j % 2 ^ w) 0

/-- Digit j of width w. -/
def digit (x w j : Nat) : Nat := x / 2 ^ (w * j) % 2 ^ w

/-- A vector from its n elements of w bits. -/
def vecOf (n w : Nat) (f : Nat → Nat) : Vec := BitVec.ofNat 8192 (ofDigits n w f)

/-- Lane l of a vector (R8). -/
def lane (v : Vec) (l : Nat) : Nat := digit v.toNat 32 l

/-- Every lane receives bits 0 to 31 of x (R9). -/
def broadcast (x : Nat) : Vec := vecOf 256 32 (fun _ => x)

/-- A scalar as port contents. -/
def wide (x : Nat) : Vec := BitVec.ofNat 8192 (x % 2 ^ 64)

/-- The scalar in a port. -/
def low (v : Vec) : Nat := v.toNat % 2 ^ 64

/-- A lane mask applied: lanes of `new` where the mask is 1, of `old` elsewhere (R21). -/
def blend (m : Mask) (new old : Vec) : Vec :=
  vecOf 256 32 (fun l => if m.getLsbD l then lane new l else lane old l)

/-- Byte i of a little-endian number. -/
def byteAt (x i : Nat) : Nat := digit x 8 i

/-- One step of CRC-32C over one bit (reflected polynomial 0x82F63B78). -/
def crcBit (c : Nat) : Nat := if c % 2 = 1 then (c / 2) ^^^ 0x82F63B78 else c / 2

/-- CRC-32C of one more byte. -/
def crcByte (c b : Nat) : Nat :=
  crcBit (crcBit (crcBit (crcBit (crcBit (crcBit (crcBit (crcBit (c ^^^ b))))))))

/-- f n, written so that whoever evaluates it computes n before f. -/
def computed {α : Type} (n : Nat) (f : Nat → α) : α :=
  match n with
  | 0 => f 0
  | k + 1 => f (k + 1)

/-- CRC-32C register c after the n low bytes of x, lowest first. -/
def crcLoop : Nat → Nat → Nat → Nat
  | 0, _, c => c
  | n + 1, x, c => computed (crcByte c (x % 256)) fun d => computed (x / 256) fun y => crcLoop n y d

/-- CRC-32C of the n low bytes of x (R55, R213, R385, R419). -/
def crc32c (n x : Nat) : Nat := crcLoop n x 0xFFFFFFFF ^^^ 0xFFFFFFFF

/-- One round of Philox4x32 on counter words and key words (R151). -/
def philoxRound (x : (Nat × Nat × Nat × Nat) × (Nat × Nat)) : (Nat × Nat × Nat × Nat) × (Nat × Nat) :=
  let (c0, c1, c2, c3) := x.1
  let (k0, k1) := x.2
  let p0 := 0xD2511F53 * c0
  let p1 := 0xCD9E8D57 * c2
  (((p1 / 2 ^ 32) ^^^ c1 ^^^ k0, p1 % 2 ^ 32, (p0 / 2 ^ 32) ^^^ c3 ^^^ k1, p0 % 2 ^ 32),
   ((k0 + 0x9E3779B9) % 2 ^ 32, (k1 + 0xBB67AE85) % 2 ^ 32))

/-- Philox4x32-10 (R151): the four output words of a 64-bit key and a counter. -/
def philox (key c0 c1 c2 c3 : Nat) : Nat × Nat × Nat × Nat :=
  ((List.range 10).foldl (fun x _ => philoxRound x)
    ((c0 % 2 ^ 32, c1 % 2 ^ 32, c2 % 2 ^ 32, c3 % 2 ^ 32), (key % 2 ^ 32, key / 2 ^ 32 % 2 ^ 32))).1

/-- Association-list lookup. -/
def assoc (l : List (Nat × Nat)) (k : Nat) : Option Nat := (l.find? (fun p => p.1 = k)).map (·.2)

/-- Association-list update, one entry a key. -/
def assocSet (l : List (Nat × Nat)) (k v : Nat) : List (Nat × Nat) := (k, v) :: l.filter (fun p => p.1 ≠ k)

/-- SPACE of a tensor descriptor (R261): local. -/
def dLocal (d : Nat) : Bool := bit d 55 = 1

end Sys2Proof.Machine
end

