-- ==== Sys2Proof/Machine/Numerics.lean ====
section
/-! DEFINITION. Numbers exactly: the formats of R124 to R133, rounding under R134 and R135, FP32 and BF16 arithmetic, and the
correctly rounded functions of R171 (working precision: notes/assumptions/10.md). -/

namespace Sys2Proof.Machine

/-- An exact value: a NaN (quiet or signalling), an infinity, or (-1)^neg * m * 2^e. -/
inductive Num where
  | nan (sig : Bool)
  | inf (neg : Bool)
  | fin (neg : Bool) (m : Nat) (e : Int)
  deriving DecidableEq, Repr

/-- Formats a conversion may read or write (R124, R134). -/
inductive Fmt where
  | f32 | bf16 | e2m1 | e2m3 | e3m2 | e4m3 | e5m2 | mxint8 | bsf4 | e3m5
  deriving DecidableEq, Repr

/-- Mantissa bits and bias of the formats with an exponent (R125). -/
def Fmt.layout : Fmt → Nat × Nat
  | .f32 => (23, 127) | .bf16 => (7, 127) | .e2m1 => (1, 1) | .e2m3 => (3, 1) | .e3m2 => (2, 3)
  | .e4m3 => (3, 7) | .e5m2 => (2, 15) | .mxint8 => (0, 0) | .bsf4 => (1, 1) | .e3m5 => (5, 0)

/-- Element bits (R124). -/
def Fmt.width : Fmt → Nat
  | .f32 => 32 | .bf16 => 16 | .e2m1 => 4 | .e2m3 => 6 | .e3m2 => 6 | .e4m3 => 8 | .e5m2 => 8 | .mxint8 => 8
  | .bsf4 => 4 | .e3m5 => 8

/-- Code of the largest finite magnitude (R125, R126, R131, R136). -/
def Fmt.maxCode : Fmt → Nat
  | .f32 => 0x7F7FFFFF | .bf16 => 0x7F7F | .e2m1 => 7 | .e2m3 => 0x1F | .e3m2 => 0x1F | .e4m3 => 0x7E | .e5m2 => 0x7B
  | .mxint8 => 127 | .bsf4 => 7 | .e3m5 => 0xFE

/-- The canonical NaN of a format that has one (R128). -/
def Fmt.nanCode : Fmt → Nat
  | .f32 => 0x7FC00000 | .bf16 => 0x7FC0 | .e4m3 => 0x7F | .e5m2 => 0x7F | _ => 0

/-- The format of a code of R124. -/
def Fmt.ofCode (n : Nat) : Fmt :=
  match n with
  | 1 => .e2m1 | 2 => .e2m3 | 3 => .e3m2 | 4 => .e4m3 | 5 => .e5m2 | 6 => .mxint8 | 7 => .bsf4 | 8 => .bf16 | _ => .f32

/-- Magnitude of a BSF4 code in quarters: 0.5 is 2, 0.75 is 3 (R126). -/
def bsf4Quarters (code : Nat) : Nat :=
  match code with
  | 0 => 0 | 1 => 3 | 2 => 4 | 3 => 6 | 4 => 8 | 5 => 12 | 6 => 16 | 7 => 24 | 8 => 2 | 9 => 3 | 10 => 4 | 11 => 6
  | 12 => 8 | 13 => 12 | 14 => 16 | _ => 24

/-- The value of an element code (R125 to R127). -/
def Fmt.decode (f : Fmt) (code : Nat) : Num :=
  match f with
  | .mxint8 => let n := sint code 8; .fin (decide (n < 0)) n.natAbs (-6)
  | .bsf4 => .fin (decide (8 ≤ code % 16)) (bsf4Quarters (code % 16)) (-2)
  | .e3m5 => if code % 256 = 0 then .fin false 0 0 else if code % 256 = 255 then .nan false
      else .fin false (32 + code % 32) (((code / 32 % 8 : Nat) : Int) - 8)
  | _ =>
    let (mb, bias) := f.layout
    let w := f.width
    let neg := bit code (w - 1) = 1
    let x := code / 2 ^ mb % 2 ^ (w - 1 - mb)
    let m := code % 2 ^ mb
    let top := 2 ^ (w - 1 - mb) - 1
    if (f = .f32 ∨ f = .bf16 ∨ f = .e5m2) ∧ x = top then
      if m = 0 then .inf neg else .nan (decide (bit m (mb - 1) = 0))
    else if f = .e4m3 ∧ x = 15 ∧ m = 7 then .nan false
    else .fin neg ((if x = 0 then 0 else 2 ^ mb) + m) (((max x 1 : Nat) : Int) - (bias : Int) - (mb : Int))

/-- Whether the upper candidate is taken, (a - lo) / (hi - lo) being num / den strictly between 0 and 1 (R134). -/
def takeHi (rm rbits : Nat) (neg : Bool) (num den : Nat) (loEven hiEven : Bool) : Bool :=
  match rm with
  | 0 => if 2 * num < den then false else if 2 * num > den then true else hiEven && !loEven
  | 1 => false
  | 2 => !neg
  | 3 => neg
  | _ => decide (num * 65536 / den + rbits ≥ 65536)

/-- m * 2^e as a fraction. -/
def frac (m : Nat) (e : Int) : Nat × Nat :=
  if 0 ≤ e then (m * 2 ^ e.toNat, 1) else (m, 2 ^ (-e).toNat)

/-- A magnitude rounded onto the code sequence of a floating format with mb mantissa bits and smallest exponent field 1 at
exponent emin (R134): the code, and whether it was exact. m is not zero. -/
def roundCode (mb : Nat) (emin : Int) (rm rbits : Nat) (neg : Bool) (m : Nat) (e : Int) : Nat × Bool :=
  let lg : Int := (Nat.log2 m : Int) + e
  let q : Int := max lg emin - (mb : Int)
  let (n, d) := frac m (e - q)
  let lo := n / d
  let rem := n % d
  let base := if lo < 2 ^ mb then lo else (q + (mb : Int) - emin + 1).toNat * 2 ^ mb + (lo - 2 ^ mb)
  if rem = 0 then (base, true)
  else (base + (takeHi rm rbits neg rem d (base % 2 = 0) (base % 2 = 1)).toNat, false)

/-- The magnitudes of BSF4 in quarters for one sign, lowest first, with their codes; beyond 6 the sequence goes on (R134). -/
def bsf4Set (neg : Bool) : List (Nat × Nat) :=
  (if neg then [(0, 0), (2, 8)] else [(0, 0)]) ++ [(3, 1), (4, 2), (6, 3), (8, 4), (12, 5), (16, 6), (24, 7), (32, 8)]

/-- Rounding into BSF4 (R126, R134). The code is the magnitude's without the sign but for -0.5, which is 8; 8 without
sign stands for the first magnitude past 6. -/
def roundBsf4 (rm rbits : Nat) (neg : Bool) (m : Nat) (e : Int) : Nat × Bool × Bool :=
  let (n, d) := frac m (e + 2)
  if n ≥ 32 * d then (8, false, true) else
  let set := bsf4Set neg
  match set.find? (fun p => p.1 * d = n) with
  | some p => (p.2, true, false)
  | none =>
    let lo := (set.filter fun p => p.1 * d < n).getLast?.getD (0, 0)
    let hi := (set.find? fun p => n < p.1 * d).getD (32, 8)
    let up := takeHi rm rbits neg (n - lo.1 * d) ((hi.1 - lo.1) * d) (lo.2 % 2 = 0) (hi.2 % 2 = 0)
    ((if up then hi.2 else lo.2), false, up && hi.1 = 32)

/-- A code with the events of R138 it counts. -/
structure Conv where
  code : Nat
  sat : Nat := 0
  flush : Nat := 0
  nan : Nat := 0
  inexact : Bool := false
  deriving DecidableEq, Repr

/-- Conversion into an element format under R134 and R135, with the overflow bit where the operation has one. A NaN into a
format without one gives code zero: the caller writes the scale (R136). -/
def convert (f : Fmt) (rm rbits : Nat) (ovf : Bool) (x : Num) : Conv :=
  let w := f.width
  let sgn := fun (neg : Bool) (c : Nat) => if neg then c + 2 ^ (w - 1) else c
  let big := fun (neg : Bool) => if f = .mxint8 then (if neg then 129 else 127) else sgn neg f.maxCode
  let infCode := if f = .f32 then 0x7F800000 else if f = .bf16 then 0x7F80 else 0x7C
  match x with
  | .nan _ => { code := f.nanCode, nan := 1 }
  | .inf neg =>
    match f with
    | .f32 | .bf16 | .e5m2 => { code := sgn neg infCode }
    | .e4m3 => if ovf then { code := 0x7F, nan := 1 } else { code := big neg, sat := 1 }
    | _ => { code := big neg, sat := 1 }
  | .fin neg m e =>
    let keepSign := f = .f32 ∨ f = .bf16
    if m = 0 then { code := if keepSign then sgn neg 0 else 0 }
    else
      match f with
      | .bsf4 =>
        let (c, ex, past) := roundBsf4 rm rbits neg m e
        if past then { code := big neg, sat := 1, inexact := true }
        else if c = 0 then { code := 0, flush := 1, inexact := true }
        else { code := if neg ∧ c < 8 then c + 8 else c, inexact := !ex }
      | .mxint8 =>
        let (n, d) := frac m (e + 6)
        let lo := n / d
        let r := n % d
        let v := if r = 0 then lo else lo + (takeHi rm rbits neg r d (lo % 2 = 0) (lo % 2 = 1)).toNat
        if v > 127 then { code := big neg, sat := 1, inexact := true }
        else if v = 0 then { code := 0, flush := 1, inexact := true }
        else { code := if neg then 256 - v else v, inexact := decide (r ≠ 0) }
      | _ =>
        let (mb, bias) := f.layout
        let (c, ex) := roundCode mb (1 - (bias : Int)) rm rbits neg m e
        if c > f.maxCode then
          if ovf then
            (if f = .e4m3 then { code := 0x7F, nan := 1, inexact := true }
             else if f = .f32 ∨ f = .bf16 ∨ f = .e5m2 then { code := sgn neg infCode, inexact := true }
             else { code := big neg, sat := 1, inexact := true })
          else { code := big neg, sat := 1, inexact := true }
        else if c = 0 then { code := if keepSign then sgn neg 0 else 0, flush := 1, inexact := true }
        else { code := sgn neg c, inexact := !ex }

/-- Conversion to an integer type of w bits (R135): NaN gives 0 and counts as a saturation. -/
def convertInt (w : Nat) (signed : Bool) (rm rbits : Nat) (x : Num) : Conv :=
  let hiV : Int := if signed then 2 ^ (w - 1) - 1 else 2 ^ w - 1
  let loV : Int := if signed then -(2 ^ (w - 1)) else 0
  match x with
  | .nan _ => { code := 0, sat := 1 }
  | .inf neg => { code := enc (if neg then loV else hiV) w, sat := 1 }
  | .fin neg m e =>
    let (n, d) := frac m e
    let lo := n / d
    let r := n % d
    let v := if r = 0 then lo else lo + (takeHi rm rbits neg r d (lo % 2 = 0) (lo % 2 = 1)).toNat
    let z : Int := if neg then -(v : Int) else v
    if z > hiV then { code := enc hiV w, sat := 1, inexact := true }
    else if z < loV then { code := enc loV w, sat := 1, inexact := true }
    else { code := enc z w, flush := if m ≠ 0 ∧ v = 0 then 1 else 0, inexact := decide (r ≠ 0) }

/-- An integer as an exact value. -/
def Num.ofInt (z : Int) : Num := .fin (decide (z < 0)) z.natAbs 0

/-- The sign of a value; a NaN counts as positive. -/
def Num.neg? : Num → Bool
  | .nan _ => false
  | .inf n => n
  | .fin n _ _ => n

/-- The value with its sign turned. -/
def Num.negate : Num → Num
  | .nan s => .nan s
  | .inf n => .inf (!n)
  | .fin n m e => .fin (!n) m e

/-- A NaN of either kind. -/
def Num.isNan : Num → Bool
  | .nan _ => true
  | _ => false

/-- A signalling NaN (R69). -/
def Num.isSig : Num → Bool
  | .nan s => s
  | _ => false

/-- A zero of either sign. -/
def Num.isZero : Num → Bool
  | .fin _ m _ => m = 0
  | _ => false

/-- The integer m * 2^(e - b) of a finite value, b being at most e. -/
def Num.scaled (neg : Bool) (m : Nat) (e b : Int) : Int :=
  let v : Int := (m * 2 ^ (e - b).toNat : Nat)
  if neg then -v else v

/-- An exact sum. An exact zero of opposite signs is +0, or -0 when `rd` says the rounding is toward minus infinity. -/
def Num.add (rd : Bool) (x y : Num) : Num :=
  match x, y with
  | .nan s, .nan t => .nan (s || t)
  | .nan s, _ => .nan s
  | _, .nan s => .nan s
  | .inf a, .inf b => if a = b then .inf a else .nan false
  | .inf a, _ => .inf a
  | _, .inf b => .inf b
  | .fin a m e, .fin b n f =>
    let g := min e f
    let z := Num.scaled a m e g + Num.scaled b n f g
    if z = 0 then .fin (if m = 0 ∧ n = 0 ∧ a = b then a else rd) 0 0
    else .fin (decide (z < 0)) z.natAbs g

/-- An exact product; 0 times an infinity is a NaN. -/
def Num.mul (x y : Num) : Num :=
  match x, y with
  | .nan s, .nan t => .nan (s || t)
  | .nan s, _ => .nan s
  | _, .nan s => .nan s
  | .inf a, .inf b => .inf (a != b)
  | .inf a, .fin b n _ => if n = 0 then .nan false else .inf (a != b)
  | .fin a m _, .inf b => if m = 0 then .nan false else .inf (a != b)
  | .fin a m e, .fin b n f => .fin (a != b) (m * n) (e + f)

/-- A quotient to 128 bits more than its operands with a sticky last bit, so that every rounding of it is that of the exact
quotient. A finite nonzero value over zero is an infinity; 0 over 0 and infinity over infinity are NaN. -/
def Num.div (x y : Num) : Num :=
  match x, y with
  | .nan s, .nan t => .nan (s || t)
  | .nan s, _ => .nan s
  | _, .nan s => .nan s
  | .inf _, .inf _ => .nan false
  | .inf a, .fin b _ _ => .inf (a != b)
  | .fin a _ _, .inf b => .fin (a != b) 0 0
  | .fin a m e, .fin b n f =>
    if n = 0 then (if m = 0 then .nan false else .inf (a != b))
    else if m = 0 then .fin (a != b) 0 0
    else
      let k := 128 + bitlen n
      let q := m * 2 ^ k / n
      .fin (a != b) (2 * q + (if m * 2 ^ k % n = 0 then 0 else 1)) (e - f - (k : Int) - 1)

/-- One step of the integer square root: sets bit i of r when its square stays within n. -/
def isqrtStep (n : Nat) (r i : Nat) : Nat := if (r + 2 ^ i) * (r + 2 ^ i) ≤ n then r + 2 ^ i else r

/-- The integer square root of n. -/
def isqrt (n : Nat) : Nat :=
  (List.range (bitlen n / 2 + 1)).foldr (fun i r => isqrtStep n r i) 0

/-- A square root with a sticky last bit; a negative nonzero value gives a NaN, -0 gives -0. -/
def Num.sqrt (x : Num) : Num :=
  match x with
  | .nan s => .nan s
  | .inf neg => if neg then .nan false else .inf false
  | .fin neg m e =>
    if m = 0 then .fin neg 0 0
    else if neg then .nan false
    else
      let k : Nat := 160 + (if e % 2 = 0 then 0 else 1)
      let n := m * 2 ^ k
      let r := isqrt n
      .fin false (2 * r + (if r * r = n then 0 else 1)) ((e - (k : Int)) / 2 - 1)

/-- The order of two values that are not NaN, -0 and +0 being equal. -/
def Num.lt (x y : Num) : Bool :=
  match x, y with
  | .nan _, _ => false
  | _, .nan _ => false
  | .inf a, .inf b => a && !b
  | .inf a, _ => a
  | _, .inf b => !b
  | .fin a m e, .fin b n f =>
    let g := min e f
    decide (Num.scaled a m e g < Num.scaled b n f g)

/-- Equality of values; a NaN equals nothing, -0 equals +0. -/
def Num.eq (x y : Num) : Bool := !x.isNan && !y.isNan && !x.lt y && !y.lt x

/-- Working precision of the functions below, in bits after the point. -/
def fnBits : Nat := 512

/-- ln 2 in fixed point: 2 * atanh(1/3). -/
def ln2Fixed : Nat :=
  (List.range 180).foldl (fun acc k => acc + 2 ^ (fnBits + 1) / ((2 * k + 1) * 3 ^ (2 * k + 1))) 0

/-- exp of a fixed-point r in [0, 1), by its power series. -/
def expFixed (r : Nat) : Nat :=
  ((List.range 110).foldl (fun (p : Nat × Nat) k => (p.1 * r / 2 ^ fnBits / (k + 1), p.2 + p.1)) (2 ^ fnBits, 0)).2

/-- A finite value in fixed point, rounded down. -/
def fixedOf (neg : Bool) (m : Nat) (e : Int) : Int :=
  let v : Int := (frac m (e + fnBits)).1 / (frac m (e + fnBits)).2
  if neg then -v else v

/-- 2^x (R171); exact where x is an integer. -/
def Num.exp2 (x : Num) : Num :=
  match x with
  | .nan s => .nan s
  | .inf neg => if neg then .fin false 0 0 else .inf false
  | .fin neg m e =>
    if m = 0 then .fin false 1 0
    else if (Nat.log2 m : Int) + e ≥ 10 then (if neg then .fin false 1 (-2000) else .fin false 1 2000)
    else
      let v := fixedOf neg m e
      let i := v / ((2 ^ fnBits : Nat) : Int)
      let f := (v % ((2 ^ fnBits : Nat) : Int)).toNat
      if f = 0 then .fin false 1 i
      else .fin false (2 * expFixed (f * ln2Fixed / 2 ^ fnBits) + 1) (i - (fnBits : Int) - 1)

/-- ln of m / 2^(log2 m) in fixed point: 2 * atanh((m - p) / (m + p)). -/
def lnFixed (m : Nat) : Nat :=
  let p := 2 ^ Nat.log2 m
  let z := (m - p) * 2 ^ fnBits / (m + p)
  let z2 := z * z / 2 ^ fnBits
  2 * ((List.range 180).foldl (fun (q : Nat × Nat) k => (q.1 * z2 / 2 ^ fnBits, q.2 + q.1 / (2 * k + 1))) (z, 0)).2

/-- log2 x (R171); exact where x is a power of two. Zero gives minus infinity, a negative value a NaN. -/
def Num.log2 (x : Num) : Num :=
  match x with
  | .nan s => .nan s
  | .inf neg => if neg then .nan false else .inf false
  | .fin neg m e =>
    if m = 0 then .inf true
    else if neg then .nan false
    else
      let i : Int := (Nat.log2 m : Int) + e
      if m = 2 ^ Nat.log2 m then Num.ofInt i
      else
        let z : Int := i * ((2 ^ fnBits : Nat) : Int) + ((lnFixed m * 2 ^ fnBits / ln2Fixed : Nat) : Int)
        .fin (decide (z < 0)) (2 * z.natAbs + 1) (-(fnBits : Int) - 1)

/-- tanh x (R171). -/
def Num.tanh (x : Num) : Num :=
  match x with
  | .nan s => .nan s
  | .inf neg => .fin neg 1 0
  | .fin neg m e =>
    let lg := (Nat.log2 m : Int) + e
    if m = 0 then .fin neg 0 0
    else if lg < -40 then .fin neg (m * 2 ^ 60 - 1) (e - 60)
    else if lg ≥ 6 then .fin neg (2 ^ 100 - 1) (-100)
    else
      let r := (fixedOf false m (e + 1)).toNat
      let i := r / ln2Fixed
      let p := expFixed (r % ln2Fixed) * 2 ^ i
      let one := 2 ^ fnBits
      .fin neg (2 * ((p - one) * 2 ^ fnBits / (p + one)) + 1) (-(fnBits : Int) - 1)

/-- The reciprocal (R171); a zero gives an infinity of its sign. -/
def Num.rcp (x : Num) : Num := Num.div (.fin false 1 0) x

/-- The reciprocal square root (R171); -0 gives minus infinity, +0 plus infinity. -/
def Num.rsq (x : Num) : Num :=
  match x with
  | .fin neg m e =>
    if m = 0 then .inf neg
    else if neg then .nan false
    else
      let k := 2 * bitlen m + 200
      let k := if (k : Int) % 2 = e % 2 then k else k + 1
      let n := 2 ^ k / m
      let r := isqrt n
      .fin false (2 * r + (if r * r * m = 2 ^ k then 0 else 1)) ((-e - (k : Int)) / 2 - 1)
  | .inf neg => if neg then .nan false else .fin false 0 0
  | .nan s => .nan s

/-- FP32 of the low 32 bits. -/
def f32 (x : Nat) : Num := Fmt.f32.decode (x % 2 ^ 32)

/-- A value rounded to FP32 or BF16 as IEEE 754 rounds a result: overflow goes to infinity or to the largest finite value
by the direction of rounding (R69, R162). -/
def roundIeee (f : Fmt) (rm : Nat) (x : Num) : Nat :=
  let w := f.width
  let sgn := fun (neg : Bool) (c : Nat) => if neg then c + 2 ^ (w - 1) else c
  match x with
  | .nan _ => f.nanCode
  | .inf neg => sgn neg (f.maxCode + 1)
  | .fin neg m e =>
    if m = 0 then sgn neg 0
    else
      let (mb, bias) := f.layout
      let (c, _) := roundCode mb (1 - (bias : Int)) rm 0 neg m e
      if c > f.maxCode then
        (if rm = 1 ∨ rm = 2 ∧ neg ∨ rm = 3 ∧ !neg then sgn neg f.maxCode else sgn neg (f.maxCode + 1))
      else sgn neg c

/-- Element width in bits of a type code (R52, R155). -/
def tyWidth : ElemType → Nat
  | .i8 | .ui8 => 8
  | .i16 | .ui16 | .bf16 => 16
  | .i32 | .ui32 | .f32 => 32

/-- A signed integer type. -/
def tySigned : ElemType → Bool
  | .i8 | .i16 | .i32 => true
  | _ => false

/-- The floating format of a type. -/
def tyFmt : ElemType → Fmt
  | .bf16 => .bf16
  | _ => .f32

/-- A float type. -/
def tyFloat : ElemType → Bool
  | .f32 | .bf16 => true
  | _ => false

/-- The integer an element of an integer type holds. -/
def tyInt (ty : ElemType) (x : Nat) : Int :=
  if tySigned ty then sint x (tyWidth ty) else ((x % 2 ^ tyWidth ty : Nat) : Int)

/-- The exact value of an element. -/
def tyNum (ty : ElemType) (x : Nat) : Num :=
  if tyFloat ty then (tyFmt ty).decode (x % 2 ^ tyWidth ty) else Num.ofInt (tyInt ty x)

/-- An element converted between types (R134, R135, R165). -/
def cvtElem (src dst : ElemType) (rm rbits : Nat) (ovf : Bool) (x : Nat) : Conv :=
  if tyFloat dst then convert (tyFmt dst) rm rbits ovf (tyNum src x)
  else convertInt (tyWidth dst) (tySigned dst) rm rbits (tyNum src x)

/-- Clamps an integer to a type's range (R163). -/
def tyClamp (ty : ElemType) (z : Int) : Int :=
  let w := tyWidth ty
  if tySigned ty then max (-(2 ^ (w - 1))) (min z (2 ^ (w - 1) - 1)) else max 0 (min z (2 ^ w - 1))

/-- FP32 addition rounded once with RNE, as atomics and reduction windows add (R365, R430). -/
def addF32 (a b : Nat) : Nat := roundIeee .f32 0 (Num.add false (f32 a) (f32 b))

end Sys2Proof.Machine
end

