-- ==== Sys2Proof/Config.lean ====
section
/-! DEFINITION. What stepping A1 fixes, and the values the spec leaves free (notes/assumptions/5.md).
A free value is an opaque constant: nothing can evaluate it, so a claim holds for every value of it. -/

namespace Sys2Proof.Config

/-- Encoding hash of stepping A1 (R54). -/
def encHash : Nat := 0x7D310C9AE5B42F68
/-- Forced pre-emption limit in cycles (R112, R123). -/
def forceCycles : Nat := 50000
/-- Time a running task keeps a shared physical core (R123). -/
def sliceCycles : Nat := 500000
/-- Lease the fallback rule grants (R114). -/
def leaseCycles : Nat := 5000000

/-- FREE VALUE. A value no rule states, of 8,192 bits or as many of them as its place has: y0 and y1 before the bound (R26), LEAVE's
registers (R83), PUNPACK's predicates (R168), and the others of notes/assumptions/5.md. -/
opaque freeVec : Nat → BitVec 8192
/-- FREE VALUE. A choice between two orders the spec allows: whether a load goes before an earlier store of its queue (R77, R273). -/
opaque freeBit : Nat → Bool
/-- FREE VALUE. The bank half of an HBM word, by its number: no rule says which words of a stack stand in which half (R331). -/
opaque bankHalf : Nat → Bool
/-- FREE VALUE. The package's descriptor key after its n-th draw, which the boot ROM makes and no program can read (R263, R458). -/
opaque descKey : Nat → BitVec 64
/-- FREE VALUE. The SHA-256 digest of a number of bytes (R459, R460); the standard that defines it is outside the spec. -/
opaque sha256 : Nat → Nat → BitVec 256
/-- FREE VALUE. Whether an HSS signature of two levels verifies (R459), by the public key, the message and the signature; RFC 8554 is outside
the spec. -/
opaque signatureOk : Nat → Nat → Nat → Bool
/-- FREE VALUE. The HSS signature that a private seed makes with a leaf index over a message of so many bytes (R460). -/
opaque hssSign : Nat → Nat → Nat → Nat → Nat
/-- FREE VALUE. RINGD and COMPR of a message from another package, by its source node, source die, flow id and sequence number: the
fragment header of R419 has no field for them (R445, R446). -/
opaque remoteMarks : Nat → Nat → Nat → Nat → Bool × Bool
end Sys2Proof.Config
end

