-- ==== Sys2Proof/Machine/Ops.lean ====
section
/-! DEFINITION. The effects a step is made of, and the shared operations: memory, landing, faults, taking an exception
and returning from one, error records, counters. A meaning is a Prog run on the state; only `Eff.apply` touches it. -/

namespace Sys2Proof.Machine

/-- One effect on the state. The functions are parts of a meaning, never of a state. -/
inductive Eff where
  | core (c : Nat) (f : Core → Core)
  | lput (c a n v : Nat)
  | gput (a n v : Nat)
  | ctrAdd (h inc : Nat)
  | ctrClear (die : Nat)
  | pkg (f : Pkg → Pkg)
  | die (d : Nat) (f : Die → Die)
  | stack (i : Nat) (f : Stack → Stack)
  | lane (i : Nat) (f : Lane → Lane)
  | engine (i : Nat) (f : StackEngine → StackEngine)
  | disp (f : Disp → Disp)
  | post (at_ prio : Nat) (w : What)
  | purge (p : Item → Bool)
  | fresh (n : Nat)
  | waiters (f : List CtrWaiter → List CtrWaiter)
  | send (plane : Nat) (frag : BitVec 4608)
  | out (tag v : Nat)
  | restart
  | advance (t : Nat)

/-- A step's meaning: effects in order, where a later part may look at the state the earlier ones left. -/
inductive Prog where
  | done
  | seq (e : Eff) (k : Prog)
  | get (f : State → Prog)

/-- The order of pending steps: package time, then priority (notes/assumptions/1.md). -/
def Item.key (i : Item) : Nat := i.at_ * 8 + i.prio

/-- Puts an item in its place, after the items of equal key. -/
def insertItem (x : Item) : List Item → List Item
  | [] => [x]
  | y :: r => if x.key < y.key then x :: y :: r else y :: insertItem x r

/-- The canonical form of a memory: addresses rise strictly and no zero byte is listed. -/
abbrev Memory.wf (m : Memory) : Prop :=
  m.Pairwise (fun x y => x.1 < y.1) ∧ ∀ x ∈ m, x.2 ≠ 0

/-- The cells of the n low bytes of v at a, zero bytes left out. -/
def memCells (a n v : Nat) : Memory :=
  (List.range n).filterMap fun i =>
    let b := BitVec.ofNat 8 (digit v 8 i)
    if b = 0 then none else some (a + i, b)

/-- Writes the n low bytes of v at a, little-endian. -/
def memPut (m : Memory) (a n v : Nat) : Memory :=
  m.filter (fun x => decide (x.1 < a)) ++ memCells a n v ++ m.filter (fun x => decide (a + n ≤ x.1))

/-- The byte at an address: an unlisted one reads as zero (notes/assumptions/4.md). -/
def memByte (m : Memory) (a : Nat) : BitVec 8 :=
  match m.find? (fun x => x.1 = a) with
  | some x => x.2
  | none => 0

/-- The n bytes at a as a little-endian number. -/
def memRead (m : Memory) (a n : Nat) : Nat :=
  m.foldl (fun acc x => if a ≤ x.1 ∧ x.1 < a + n then acc + x.2.toNat * 2 ^ (8 * (x.1 - a)) else acc) 0

/-- The value of a counter, by its die and index as one number (R275). -/
def ctrValue (l : List (Nat × Nat)) (h : Nat) : Nat := (assoc l h).getD 0

/-- Adds to a counter; the sum sticks at 2^64 - 1 (R362). -/
def ctrPlus (l : List (Nat × Nat)) (h inc : Nat) : List (Nat × Nat) :=
  assocSet l h (min (ctrValue l h + inc) (2 ^ 64 - 1))

/-- The state after package reset: HBM and host memory contents, one-time storage, the fuse map and the boot image stay;
everything else is as at power-on, with nothing pending (R458). -/
def State.restarted (s : State) : State :=
  { State.reset with
    agenda := []
    mem := s.mem
    tx := s.tx
    outbox := s.outbox
    fresh := s.fresh
    pkg := { Pkg.reset with
      fuse := s.pkg.fuse, image := s.pkg.image, hostImage := s.pkg.hostImage, rootKey := s.pkg.rootKey, idKey := s.pkg.idKey, idSeed := s.pkg.idSeed,
      floor := s.pkg.floor, keyDraw := s.pkg.keyDraw + 1,
      attestBlocks := s.pkg.attestBlocks, sensors := s.pkg.sensors, trainFails := s.pkg.trainFails, hostSize := s.pkg.hostSize } }

/-- What one effect does. -/
def Eff.apply (e : Eff) (s : State) : State :=
  match e with
  | .core c f => { s with cores := updAt s.cores c f }
  | .lput c a n v => { s with lmem := updAt s.lmem c (fun m => memPut m a n v) }
  | .gput a n v => { s with mem := memPut s.mem a n v }
  | .ctrAdd h inc => { s with ctrs := ctrPlus s.ctrs h inc }
  | .ctrClear d => { s with ctrs := s.ctrs.filter (fun x => decide (x.1 / 2 ^ 16 ≠ d)) }
  | .pkg f => { s with pkg := f s.pkg }
  | .die d f => { s with dies := updAt s.dies d f }
  | .stack i f => { s with hbm := updAt s.hbm i f }
  | .lane i f => { s with lanes := updAt s.lanes i f }
  | .engine i f => { s with engines := updAt s.engines i f }
  | .disp f => { s with disp := f s.disp }
  | .post t p w => { s with agenda := insertItem ⟨max t s.time, p % 8, w⟩ s.agenda }
  | .purge p => { s with agenda := s.agenda.filter (fun x => !p x) }
  | .fresh n => { s with fresh := s.fresh + n }
  | .waiters f => { s with waiters := f s.waiters }
  | .send p x => { s with tx := s.tx ++ [(p, x)] }
  | .out t v => { s with outbox := s.outbox ++ [(t, v)] }
  | .restart => s.restarted
  | .advance t => { s with
      time := max s.time t
      agenda := (s.agenda.map fun x => { x with at_ := max x.at_ t }).foldl (fun l x => insertItem x l) [] }

/-- Runs a meaning. -/
def Prog.run : Prog → State → State
  | .done, s => s
  | .seq e k, s => k.run (e.apply s)
  | .get f, s => (f s).run s

/-- One meaning after another. -/
def Prog.andThen : Prog → Prog → Prog
  | .done, q => q
  | .seq e k, q => .seq e (k.andThen q)
  | .get f, q => .get (fun s => (f s).andThen q)

/-- One effect as a meaning. -/
def Prog.eff (e : Eff) : Prog := .seq e .done

/-- Meanings in order. -/
def Prog.all : List Prog → Prog
  | [] => .done
  | p :: r => p.andThen (Prog.all r)

/-- A meaning under a condition. -/
def Prog.when_ (c : Bool) (p : Prog) : Prog := if c then p else .done

/-- The meaning for each element, in order. -/
def Prog.each {α : Type} (l : List α) (f : α → Prog) : Prog := Prog.all (l.map f)

/-- A step's outcome: the state its meaning leaves. -/
def ran (p : Prog) (s : State) : Host.Outcome State Fault Refusal := .next (p.run s)

/-- Changes one core. -/
def setCore (c : Nat) (f : Core → Core) : Prog := .eff (.core c f)

/-- Changes the task-visible state of one core. -/
def setArch (c : Nat) (f : Arch → Arch) : Prog := .eff (.core c (fun k => { k with arch := f k.arch }))

/-- A change made by the operation of trigger `seq`: one of a trigger before the open segment changes the shadow as well, so that a
rewind keeps it (R388; notes/assumptions/18.md). -/
def Core.updArch (k : Core) (seq : Nat) (f : Arch → Arch) : Core :=
  { k with
    arch := f k.arch
    seg := k.seg.map fun (g : Segment) => if seq < g.first then { g with shadow := f g.shadow } else g }

/-- Changes the task-visible state of a core for the operation of trigger `seq`. -/
def setArchAt (c seq : Nat) (f : Arch → Arch) : Prog := .eff (.core c (fun k => k.updArch seq f))

/-- A machine event n cycles from now. -/
def postEv (n prio : Nat) (i : Instr) : Prog := .get fun s => .eff (.post (s.time + n) prio (.ev i))

/-- A machine event at a package time. -/
def postAt (t prio : Nat) (i : Instr) : Prog := .eff (.post t prio (.ev i))

/-- A triggered operation n cycles from now. -/
def postOp (n : Nat) (t : Trig) : Prog := .get fun s => .eff (.post (s.time + n) 2 (.op t))

/-- Core c of the state. -/
def State.core (s : State) (c : Nat) : Core := nth s.cores c Core.reset

/-- Die d of the state. -/
def State.die (s : State) (d : Nat) : Die := nth s.dies d Die.reset

/-- A core number in an event. -/
def coreBV (c : Nat) : BitVec 8 := BitVec.ofNat 8 c

/-- The die of a core: cores 0 to 127 are on die 0 (R2). -/
def dieOf (c : Nat) : Nat := c / 128

/-- Logical column and row of a core (R2, R122). -/
def colOf (c : Nat) : Nat := c % 16

/-- See colOf. -/
def rowOf (c : Nat) : Nat := c % 128 / 16

/-- LCOORD: column, row, die (R32). -/
def lcoord (c : Nat) : Nat := colOf c + 16 * rowOf c + 128 * dieOf c

/-- Cluster of a core on its die (R109) and its position in it (R235). -/
def clusterOf (c : Nat) : Nat := colOf c / 4 + 4 * (rowOf c / 2)

/-- See clusterOf. -/
def posOf (c : Nat) : Nat := colOf c % 4 + 4 * (rowOf c % 2)

/-- The core at a position of the cluster of core c (R235). -/
def coreAtPos (c p : Nat) : Nat :=
  dieOf c * 128 + (rowOf c / 2 * 2 + p / 4 % 2) * 16 + (colOf c / 4 * 4 + p % 4)

/-- Unheld cycles of a core: package time less its held cycles (R26). -/
def unheld (s : State) (c : Nat) : Nat := s.time - (s.core c).heldTotal

/-- State register i as stored. -/
def Arch.sr (a : Arch) (i : Nat) : Word := nth a.st i 0

/-- Writes state register i as stored. -/
def Arch.setSr (a : Arch) (i : Nat) (v : Word) : Arch := { a with st := updAt a.st i (fun _ => v) }

/-- A word with bits lo to lo + len - 1 replaced. -/
def setBits (w : Word) (lo len v : Nat) : Word :=
  BitVec.ofNat 64 (w.toNat - field w.toNat lo len * 2 ^ lo + v % 2 ^ len * 2 ^ lo)

/-- STATUS.INTRAP (R32). -/
def Arch.inTrap (a : Arch) : Bool := (a.sr 0).getLsbD 0

/-- Sets STATUS.INTRAP. -/
def Arch.setInTrap (a : Arch) (b : Bool) : Arch := a.setSr 0 (setBits (a.sr 0) 0 1 b.toNat)

/-- Sets STATUS.SEGACT (R387). -/
def Arch.setSegAct (a : Arch) (b : Bool) : Arch := a.setSr 0 (setBits (a.sr 0) 8 1 b.toNat)

/-- Sets STATUS.PREQ (R402). -/
def Arch.setPreq (a : Arch) (b : Bool) : Arch := a.setSr 0 (setBits (a.sr 0) 7 1 b.toNat)

/-- CRSIZE and CRBASE in use (R32). -/
def Arch.crSize (a : Arch) : Nat := field (a.sr 22).toNat 0 4

/-- See crSize. -/
def Arch.crBase (a : Arch) : Nat := (a.sr 21).toNat

/-- The ports of a functional unit 5 to 23. -/
def Arch.unit (a : Arch) (u : Nat) : Ports := nth a.units (u - 5) Ports.reset

/-- Changes the ports of a functional unit. -/
def Arch.setUnit (a : Arch) (u : Nat) (f : Ports → Ports) : Arch := { a with units := updAt a.units (u - 5) f }

/-- The engine index of a unit, for MA, VL, CE and FX (R50, R242). -/
def engineOf (u : Nat) : Option Nat :=
  match u with
  | 19 => some 0 | 17 => some 1 | 22 => some 2 | 23 => some 3 | _ => none

/-- Every triggered operation has landed, but for what a deferred one keeps back (R31, R389, R390). -/
def Core.quiet (k : Core) : Bool :=
  k.flights.all (fun f => f.deferred || f.ready && (k.flights.any fun g => g.deferred && g.unit = f.unit))
  && k.captured.all (·.isEmpty) && k.maQ.isEmpty

/-- A result that has landed has not reached its bound in unheld cycles: it is read as undefined until then (R26). The key is a unit, 32
and a general register, or 64 and a physical predicate. -/
def Core.early (k : Core) (key now : Nat) : Bool := k.undef.any fun p => p.1 = key && decide (now < p.2)

/-- A result of the unit is awaited past its bound (R27). -/
def unitAwaited (s : State) (c u : Nat) : Bool :=
  (s.core c).flights.any fun f => f.unit = u && f.lands && f.bound ≤ unheld s c

/-- Where a region stands: its launch and its entry. -/
def launchOf (s : State) (r : RegionRef) : Option Launch := s.disp.launches.find? (fun l => l.id = r.launch)

/-- The region of a reference. -/
def regionOf (s : State) (r : RegionRef) : Option Region := (launchOf s r).bind (fun l => l.regions[r.idx]?)

/-- The region of a context (R97). -/
def Ctx.ref (x : Ctx) : RegionRef := ⟨x.launch, x.region⟩

/-- Changes one region. -/
def setRegion (r : RegionRef) (f : Region → Region) : Prog :=
  .eff (.disp fun d => { d with launches := d.launches.map fun l =>
    if l.id = r.launch then { l with regions := l.regions.mapIdx fun i x => if i = r.idx then f x else x } else l })

/-- The enclosing fault domain of entry i: the nearest region with FDOM, or the root (R107). -/
def domainRoot (rs : List Region) : Nat → Nat → Nat
  | 0, _ => 0
  | fuel + 1, i =>
    match rs[i]? with
    | none => 0
    | some r => if r.fdom then i else match r.parent with | none => i | some p => domainRoot rs fuel p

/-- Entry i lies in the subtree of entry d. -/
def inSubtree (rs : List Region) (d : Nat) : Nat → Nat → Bool
  | 0, i => i = d
  | fuel + 1, i => i = d || match (rs[i]?).bind (·.parent) with | none => false | some p => inSubtree rs d fuel p

/-- The logical core that shares a core's physical core, where one does (R122, R123). -/
def partnerOf (s : State) (c : Nat) : Option Nat :=
  let d := dieOf c
  let e := nth (s.die d).remap (c % 128) (0, false)
  if !e.2 then none
  else ((List.range 128).find? fun l => l != c % 128 && (nth (s.die d).remap l (0, false)).1 = e.1).map (· + 128 * d)

/-- The physical core of a logical core runs no task of the other that shares it (R123). -/
def pairFree (s : State) (c : Nat) : Bool :=
  match partnerOf s c with
  | none => true
  | some p => (s.core p).ctx.isNone

/-- A core waits to run a task: a staged one, or one that a time-slice saved (R123). -/
def hasWork (s : State) (c : Nat) : Bool :=
  (s.core c).staged.isSome || s.disp.saved.any fun y => y.pinned && y.ctx.core = c

/-- The task that a core has ready comes back from a time-slice, or, where none can, starts. -/
def wakeCore (c : Nat) : Prog := .get fun s =>
  (Prog.when_ (s.disp.saved.any fun y => y.pinned && y.ctx.core = c) (postEv 1 2 (.contextRestore (coreBV c)))).andThen
    (Prog.when_ (s.core c).staged.isSome (postEv 1 2 (.taskStart (coreBV c))))

/-- A core has become free: of two that share a physical core, the other goes first once this one has run its slice (R117, R123). -/
def coreFreed (c : Nat) (started : Nat) : Prog := .get fun s =>
  match partnerOf s c with
  | none => wakeCore c
  | some p => if started + Config.sliceCycles ≤ s.time then (wakeCore p).andThen (wakeCore c) else (wakeCore c).andThen (wakeCore p)

/-- An error record's contents (R385). -/
structure ErrRec where
  code : Nat
  cls : Nat
  corr : Bool := false
  esc : Bool := false
  source : Nat
  inst : Nat := 0
  die : Nat := 0
  ctx : Nat := 0
  pc : Nat := 0
  slot : Nat := 0
  blevel : Bool := false
  seg : Option Nat := none
  addr : Nat := 0
  version : Nat := 0
  info : Nat := 0
  seq : Nat := 0
  detail : Nat := 0
  pcore : Nat := 0

/-- The low 60 bytes of an error record at a package time, with the count of dropped records (R385). -/
def ErrRec.image (r : ErrRec) (time dropped : Nat) : Nat :=
  r.code % 256 + r.cls * 2 ^ 8 + r.corr.toNat * 2 ^ 10 + r.esc.toNat * 2 ^ 11 + r.source * 2 ^ 12 +
  r.inst % 512 * 2 ^ 16 + r.die % 2 * 2 ^ 25 + r.ctx % 2 ^ 32 * 2 ^ 32 + time % 2 ^ 64 * 2 ^ 64 +
  r.pc % 2 ^ 15 * 2 ^ 128 + r.slot % 8 * 2 ^ 143 + r.blevel.toNat * 2 ^ 146 +
  (match r.seg with | none => 0 | some i => 2 ^ 147 + i % 64 * 2 ^ 148) +
  r.addr % 2 ^ 48 * 2 ^ 160 + r.version % 2 ^ 16 * 2 ^ 208 + r.info % 2 ^ 64 * 2 ^ 224 + r.seq % 2 ^ 32 * 2 ^ 288 +
  r.detail % 2 ^ 64 * 2 ^ 320 + r.pcore % 256 * 2 ^ 384 + dropped % 2 ^ 16 * 2 ^ 400

/-- The record of a core's fault, with what the core's context fills in (R385). -/
def coreRecord (s : State) (c code cls : Nat) (info : Nat) : ErrRec :=
  let k := s.core c
  { code := code, cls := cls, source := 0, inst := c % 128, die := dieOf c,
    ctx := (k.ctx.map (·.id)).getD 0, pc := k.pc, seg := k.seg.map (·.id),
    version := ((k.ctx.bind fun x => regionOf s x.ref).map (·.version)).getD 0, info := info,
    pcore := (nth (s.die (dieOf c)).remap (c % 128) (0, false)).1 }

/-- The core that a core event concerns. -/
def coreOfEvent : Instr → Option Nat
  | .fetch c | .bundleIssue c | .engineOpStart c _ | .resultLanding c _ | .trapEntry c | .freezeTimeout c
  | .rewind c | .accessPerformed c | .mmaArrayStart c | .mmaComplete c | .mmaReplay c | .cwaitWake c
  | .cwaitTimeout c | .contextSave c | .forcedPreemptTimeout c | .timeSliceYield c | .pageWalk c _
  | .replayWaitTimeout c => some c.toNat
  | _ => none

/-- The pending step belongs to the task on core c. -/
def Item.ofCore (c : Nat) (x : Item) : Bool :=
  match x.what with
  | .op t => t.core = c
  | .ev i => coreOfEvent i = some c

/-- A core whose task has gone: nothing pending, in flight or held remains, memories and code stay (R84, R107). -/
def Core.clear (k : Core) : Core :=
  { k with
    flow := .idle, fetched := none, ctx := none, held := 0, holdInfo := 0, flights := [], undef := [], lastLand := [], portAt := none,
    captured := Vector.replicate 4 [], accesses := [], fences := [], released := [], defq := [], seg := none,
    pend := [], trapReq := none, park := none, preq := none, rewind := none, outRewind := [], replayWait := none,
    maQ := [], inbound := [], parted := [], walk := none, walked := [],
    arch := { k.arch with slots := Vector.replicate 8 none } }

/-- Tasks end, of contexts `ids` and on `cores`: the buffers they hold return to their owners' direct access, as do their own that no
other task holds (R237). -/
def returnBuffers (ids cores : List Nat) : Prog := .get fun s =>
  let back := fun (d : Nat) (h : HandedOut) => match h.holder with
    | .ctx i => ids.contains i
    | .away | .home => cores.contains d
    | .core _ => false
  Prog.each (List.range 256) fun d => Prog.when_ (!(s.core d).handedOut.isEmpty) (setCore d fun k =>
    { k with handedOut := k.handedOut.filter fun h => !back d h })

/-- A task of context `id` starts on core c: what waits in the core's inbound queue is its own (R235, R237). -/
def inherit_ (c id : Nat) : Prog := .get fun s =>
  Prog.each (List.range 256) fun d => Prog.when_ (!(s.core d).handedOut.isEmpty) (setCore d fun k =>
    { k with handedOut := k.handedOut.map fun h => if h.holder = .core c then { h with holder := .ctx id } else h })

/-- A channel without the chains of the contexts in `gone`; a running one stops before its next write (R107, R298). -/
def Channel.drop (gone : Ctx → Bool) (ch : Channel) : Channel :=
  let first := (ch.heads.head?.map fun h => gone h.owner).getD false
  { ch with heads := ch.heads.filter (fun h => !gone h.owner), stage := if first then .idle else ch.stage,
            filling := if first then false else ch.filling }

/-- Jobs without those of the contexts in `gone`. -/
def Lane.drop (gone : Ctx → Bool) (l : Lane) : Lane :=
  let first := (l.jobs.head?.map fun j => gone j.owner).getD false
  { l with jobs := l.jobs.filter (fun j => !gone j.owner), stage := if first then .idle else l.stage }

/-- See Lane.drop. -/
def StackEngine.drop (gone : Ctx → Bool) (e : StackEngine) : StackEngine :=
  let first := (e.jobs.head?.map fun j => gone j.owner).getD false
  { e with jobs := e.jobs.filter (fun j => !gone j.owner), stage := if first then .idle else e.stage }

/-- The cores of a slot's rectangle on die d, by row, then column (R109, R118). -/
def slotCores (d : Nat) (x : Slot) : List Nat :=
  (List.range x.height).flatMap fun r => (List.range x.width).map fun c => d * 128 + (x.row + r) * 16 + x.col + c

/-- The slots of a die that bind queue q, by number. -/
def slotsOf (s : State) (d q : Nat) : List Slot :=
  (s.die d).slots.toList.filter fun x => x.present && x.bound && x.queue = q

/-- The cores of a queue's bound rectangles: die, row and column ascending within each slot (R118). -/
def queueCores (s : State) (q : Nat) : List Nat :=
  [0, 1].flatMap fun d => (slotsOf s d q).flatMap (slotCores d)

/-- The dispatcher looks at the cores of a queue. -/
def kickQueue (q : Nat) : Prog := .get fun s =>
  Prog.each (queueCores s q) fun c => postEv 1 3 (.taskStage (coreBV c))

/-- Every task and engine job of the fault domain around region r ends in class C; its regions are failed and complete once
their work has stopped (R107). -/
def domainEnd (r : RegionRef) : Prog := .get fun s =>
  match launchOf s r with
  | none => .done
  | some l =>
    let root := domainRoot l.regions l.regions.length r.idx
    let inside := fun (i : Nat) => inSubtree l.regions root l.regions.length i
    let gone := fun (x : Ctx) => x.launch = l.id && inside x.region
    let cores := (List.range 256).filter fun c => ((s.core c).ctx.map gone).getD false
    Prog.all [
      returnBuffers ((cores.filterMap fun c => (s.core c).ctx.map (·.id)) ++ (s.disp.saved.filter fun y => gone y.ctx).map (·.ctx.id)) cores,
      .eff (.purge fun x => cores.any fun c => x.ofCore c),
      Prog.each (List.range 256) (fun c => setCore c fun k =>
        let k := { k with staged := k.staged.filter (fun x => !gone x), chans := k.chans.map (Channel.drop gone),
                          fxQ := k.fxQ.filter (fun q => !gone q.owner) }
        if (k.ctx.map gone).getD false then k.clear else k),
      Prog.each (List.range 384) (fun i => .eff (.lane i (Lane.drop gone))),
      Prog.each (List.range 24) (fun i => .eff (.engine i (StackEngine.drop gone))),
      .eff (.disp fun d => { d with
        saved := d.saved.filter (fun x => !gone x.ctx)
        returned := d.returned.filter (fun x => !gone x)
        launches := d.launches.map fun m => if m.id = l.id then
          { m with regions := m.regions.mapIdx fun i x =>
              if inside i then { x with failed := true, issued := x.g * x.x * x.y, ended := x.g * x.x * x.y } else x }
          else m }),
      Prog.each (List.range 384) (fun i => postEv 1 2 (.xlaneJobStart (BitVec.ofNat 9 i))),
      Prog.each (List.range 24) (fun i => postEv 1 2 (.seJobStart (BitVec.ofNat 5 i))),
      Prog.each (List.range 12) (fun i => postEv 1 2 (.tableLoadApply (BitVec.ofNat 4 i))),
      Prog.each cores (fun c => Prog.all [coreFreed c 0, postEv 1 3 (.taskStage (coreBV c))]),
      kickQueue l.queue,
      Prog.each (List.range l.regions.length) (fun i => Prog.when_ (inside i)
        (postEv 1 3 (.regionComplete (BitVec.ofNat 32 l.id) (BitVec.ofNat 8 i))))]

/-- A physical address is populated (R248). -/
def populated (s : State) (pa : Nat) : Bool :=
  decide (pa < 12 * 2 ^ 36) || (decide (2 ^ 44 ≤ pa) && decide (pa < 2 ^ 44 + s.pkg.hostSize) && decide (pa < 2 ^ 45))

/-- The contexts of a die end in class C, and it takes no launch and no bind record (R407). -/
def dieEnds (d : Nat) : Prog := Prog.all [
  .eff (.die d fun y => { y with stopped := true }),
  Prog.each (List.range 128) fun l => .get fun s =>
    Prog.each ((s.core (128 * d + l)).ctx.toList ++ (s.core (128 * d + l)).staged.toList) fun x => domainEnd x.ref,
  .get fun s => Prog.each (s.disp.saved.filter fun y => y.die = d) fun y => domainEnd y.ctx.ref]

/-- The die that holds a physical address: stacks 0 to 5 on die 0, 6 to 11 on die 1 (R248); host memory counts to die 0. -/
def dieOfPa (pa : Nat) : Nat := if pa < 12 * 2 ^ 36 then pa / 2 ^ 36 / 6 else 0

/-- The die-to-die link does not carry from one die to another: it is out of service, or the other die has stopped (R407, R415). -/
def linkDown (s : State) (d e : Nat) : Bool := d != e && (!(s.die 0).linkUp || !(s.die 1).linkUp || (s.die e).stopped)

/-- A home of the other die, in its HBM or in an array of its cores, that the link does not reach from die d. -/
def homeCut (s : State) (d : Nat) (l : Loc) : Bool :=
  match l with
  | .arr c _ => linkDown s d (dieOf c)
  | .pa a | .expand a => decide (a < 12 * 2 ^ 36) && linkDown s d (dieOfPa a)

/-- Writes an error record into its die's ring, or drops and counts it when the ring is full (R386); a ring that cannot be written stops
the die (R407). -/
def putRecord (r : ErrRec) : Prog := .get fun s =>
  let d := s.die r.die
  let at_ := nth s.pkg.errBase r.die 0 + 64 * (d.errWp.toNat % 4096)
  if (d.errWp - d.errRp).toNat = 4096 then
    .eff (.die r.die fun d => { d with errDropped := min (d.errDropped + 1) 0xFFFF })
  else if !populated s at_ || homeCut s r.die (.pa at_) then Prog.when_ (!d.stopped) (dieEnds r.die)
  else
    let low := r.image s.time d.errDropped
    Prog.all [
      .eff (.gput at_ 64 (low + crc32c 60 low * 2 ^ 480)),
      .eff (.die r.die fun d => { d with errWp := d.errWp + 1, errDropped := 0 })]

/-- Writes an error record, and after it, where reads of its context through COMP pages have counted conversion events since the last one,
a record of those (R322). DESIGN CHOICE: it has code 0x16, CORR and SOURCE 3, and DETAIL holds the counts as CONVCNT does
(notes/assumptions/25.md). -/
def errorRecord (r : ErrRec) : Prog := .get fun s =>
  match s.pkg.expEvents.find? fun p => p.1 = r.ctx with
  | none => putRecord r
  | some p => Prog.all [
      putRecord r,
      .eff (.pkg fun y => { y with expEvents := y.expEvents.filter fun q => q.1 ≠ r.ctx }),
      putRecord { r with
        code := 0x16
        cls := 1
        corr := true
        esc := false
        source := 3
        inst := 0
        info := 0
        detail := p.2 }]

/-- A context on core c ends in class C: error record, then the end of its domain (R35, R107, R381). -/
def contextEnd (c : Nat) (rec : State → ErrRec) : Prog := .get fun s =>
  match (s.core c).ctx with
  | none => .done
  | some x => (errorRecord (rec s)).andThen (domainEnd x.ref)

/-- The address that a record of an escalated fault shows (R384, R385): that of the codes whose TRAPINFO is one. -/
def faultAddr (code : Nat) (i : Word) : Nat :=
  match code with
  | 0x08 | 0x09 | 0x0A | 0x0B | 0x0C | 0x1C | 0x23 => i.toNat
  | 0x1A => field i.toNat 16 45
  | 0x1B => i.toNat % 2 ^ 63
  | _ => 0

/-- A fault joins the pending ones; a 17th ends the context (R383), and one of an operation triggered in a trap handler
escalates (R35, R381). -/
def addPending (c : Nat) (p : PendFault) (inTrap : Bool) : Prog := .get fun s =>
  let k := s.core c
  if inTrap || k.pend.length ≥ 16 then
    contextEnd c fun s => { coreRecord s c p.code 2 p.info.toNat with
      esc := true, slot := p.slot, addr := faultAddr p.code p.info, detail := p.tag }
  else setCore c fun k => { k with pend := k.pend ++ [{ p with inSeg := k.seg.isSome }] }

/-- The core that runs a context. -/
def coreOf (s : State) (id : Nat) : Option Nat := (List.range 256).find? fun c => ((s.core c).ctx.map fun x => decide (x.id = id)).getD false

/-- A saved context ends in class C: its record, then the end of its domain (R107, R396). -/
def savedEnd (y : Saved) (code info : Nat) (esc : Bool) (addr detail slot : Nat) : Prog := .get fun s =>
  Prog.all [
    errorRecord {
      code := code
      cls := 2
      esc := esc
      source := 0
      inst := y.ctx.core % 128
      die := dieOf y.ctx.core
      ctx := y.ctx.id
      pc := y.core.pc
      slot := slot
      seg := y.core.seg.map (·.id)
      addr := addr
      version := ((regionOf s y.ctx.ref).map (·.version)).getD 0
      info := info
      detail := detail },
    domainEnd y.ctx.ref]

/-- Changes the core that a saved context left (R403). -/
def setSaved (id : Nat) (f : Core → Core) : Prog :=
  .eff (.disp fun d => { d with saved := d.saved.map fun (z : Saved) => if z.ctx.id = id then { z with core := f z.core } else z })

/-- A fault joins the pending ones of a context wherever it is: on a core, or saved (R383, R403). -/
def pendFor (w : Who) (code : Nat) (i : Word) (ready : Bool) (tag : Nat) : Prog := .get fun s =>
  let p : PendFault := { code := code, info := i, slot := w.slot, seq := w.seq, ready := ready, inSeg := false, tag := tag }
  match coreOf s w.ctx with
  | some c => addPending c p w.inTrap
  | none => match s.disp.saved.find? fun y => y.ctx.id = w.ctx with
    | none => .done
    | some y =>
      if w.inTrap || y.core.pend.length ≥ 16 then savedEnd y code i.toNat true (faultAddr code i) tag w.slot
      else setSaved w.ctx fun k => { k with pend := k.pend ++ [{ p with inSeg := k.seg.isSome }] }

/-- The pending faults of code 0x1A and, where `all` says so, 0x1C become deliverable at a named point (R382, R384). -/
def pointReached (c : Nat) (all : Bool) : Prog := setCore c fun k =>
  { k with pend := k.pend.map fun p =>
      if p.code = 0x1C || all && p.code = 0x1A then { p with ready := true } else p }

/-- Starts the delivery of a precise fault: the core stops issuing and TRAP_ENTRY follows (R34, R35). -/
def raise (c : Nat) (r : TrapReq) : Prog := Prog.all [
  setCore c fun k => { k with trapReq := some r, flow := .trapping, fetched := none },
  postEv 0 2 (.trapEntry (coreBV c))]

/-- An ownership fault of an operation whose TRAPINFO names a tile, not an address (R384): VLDT and VSTT of VL, MMA and MDRAIN of MA,
TCFG of TT. -/
def tileFault (t : Trig) (code : Nat) : Bool :=
  let op := field t.dest 6 8
  code = 0x0C && (t.unit = 17 && (op = 10 || op = 11) || t.unit = 19 && op ≤ 2 || t.unit = 21 && op = 1)

/-- A precise fault of the bundle of trigger t, taken before it (R35, R382). -/
def raiseBefore (t : Trig) (code : Nat) (info : Word) : Prog :=
  raise t.core { code := code, info := info, slot := t.slot, blevel := false, pc := some t.pc, inTrap := t.inTrap, tile := tileFault t code }

/-- The next bundle boundary of a core; an earlier posted one is replaced. -/
def nextFetch (c n : Nat) : Prog := Prog.all [
  .eff (.purge fun x => decide (x.what = .ev (.fetch (coreBV c))) || decide (x.what = .ev (.bundleIssue (coreBV c)))),
  postEv n 4 (.fetch (coreBV c))]

/-- Taking a precise fault at a boundary where every operation has landed (R35): TRAPCAUSE, TRAPPC, TRAPINFO, INTRAP and
the pc change, or the fault escalates and the context ends in class C. -/
def takeTrap (c : Nat) (r : TrapReq) : Prog := .get fun s =>
  let k := s.core c
  let base := k.arch.sr 1
  if !base.getLsbD 63 || k.arch.inTrap || r.inTrap then
    contextEnd c fun s => { coreRecord s c r.code 2 r.info.toNat with
      esc := true, slot := r.slot, blevel := r.blevel, pc := r.pc.getD k.pc, addr := if r.tile then 0 else faultAddr r.code r.info,
      detail := r.tag }
  else Prog.all [
    setCore c (fun k => { k with
      trapReq := none
      flow := .running
      pc := field base.toNat 0 15
      arch := (((k.arch.setSr 2 (BitVec.ofNat 64 (r.code + r.slot * 2 ^ 8 + r.blevel.toNat * 2 ^ 11))).setSr 3
        (BitVec.ofNat 64 (r.pc.getD k.pc))).setSr 4 r.info).setInTrap true }),
    nextFetch c 1]

/-- The return from a trap once every operation has landed (R37): INTRAP clears and the pc becomes TRAPPC. -/
def returnFromTrap (c : Nat) : Prog := Prog.all [
  setCore c (fun k => { k with flow := .running, pc := (k.arch.sr 3).toNat % 2 ^ 64, arch := k.arch.setInTrap false }),
  nextFetch c 0]

/-- A counter's home in the model: die and index of a handle (R275). -/
def ctrHome (h : Nat) : Nat := h % 2 ^ 17

/-- Adds to a counter and wakes the parties whose threshold it reaches (R275, R277). The flag of the result says that the sum
would pass 2^64 - 1, which `sat` answers (R362). -/
def counterAdd (h inc : Nat) (sat : Prog) : Prog := .get fun s =>
  let old := ctrValue s.ctrs (ctrHome h)
  let new := min (old + inc) (2 ^ 64 - 1)
  Prog.all [
    .eff (.ctrAdd (ctrHome h) inc),
    Prog.each (s.waiters.filter fun w => ctrHome w.handle = ctrHome h && w.thr ≤ new) (fun w => postEv 0 1 w.ev),
    .eff (.waiters fun l => l.filter fun w => !(ctrHome w.handle = ctrHome h && w.thr ≤ new)),
    Prog.when_ (old + inc ≥ 2 ^ 64) sat]

/-- A counter handle names a counter of the package (R360). -/
def ctrNamed (s : State) (h : Nat) : Bool := field h 17 15 = s.pkg.nodeId

/-- The counter's domain admits a context of domain d (R360). -/
def ctrAllowed (s : State) (h d : Nat) : Bool :=
  let cd := (assoc (s.die (bit h 16)).domains (h % 2 ^ 16)).getD 0
  cd = 0 || cd = d

end Sys2Proof.Machine
end

