-- ==== Sys2Proof/Machine/Compress.lean ====
section
/-! DEFINITION. Transition tables (R311 to R313) and compressed buffers (R317 to R322). -/

namespace Sys2Proof.Machine

/-- Where a walk through a transition table stands (R312). -/
structure Walk where
  s : Nat
  c : Nat
  holds : Nat
  acc : Nat
  apos : Nat
  deriving DecidableEq, Repr

/-- What one transition does: complete, fail with a code and data, or go on; with the bytes it emits and its CVT events. -/
inductive WalkStep where
  | complete (w : Walk) (emit : List Nat)
  | fail (w : Walk) (code data : Nat) (emit : List Nat)
  | next (w : Walk) (emit : List Nat) (sat flush nan : Nat)
  deriving DecidableEq, Repr

/-- The n low bytes of x, lowest first. -/
def bytesOf (n x : Nat) : List Nat := (List.range n).map (byteAt x)

/-- A little-endian number from bytes. -/
def ofBytes (l : List Nat) : Nat := l.foldr (fun b acc => acc * 256 + b % 256) 0

/-- One transition (R312, R313). `nib` gives nibble c of the input, `inlen` its bytes; ity, oty, rm and ovf are CVT's fields,
ct the code table when the job has one. -/
def transition (t : TableCopy) (ct : Option TableCopy) (ity oty : ElemType) (rm : Nat) (ovf : Bool)
    (nib : Nat → Nat) (inlen : Nat) (w : Walk) : WalkStep :=
  let sw := t.states[w.s]?.getD 0
  let isWide := bit sw 0 = 1
  let uw := if isWide then 8 else 4
  if w.c + uw / 4 > 2 * inlen then .complete w []
  else
    let u := if isWide then nib w.c + 16 * nib (w.c + 1) else nib w.c
    let e := t.entries[field sw 16 16 + u]?.getD 0
    let nxt := field e 0 10
    let action := field e 10 4
    let lit := bytesOf (field e 14 2) (field e 16 16)
    let w1 : Walk := if action = 5 then { w with holds := w.holds + 1 } else { w with holds := 0, c := w.c + uw / 4 }
    if action = 5 ∧ w1.holds > 16 then .fail w1 0x12 0 []
    else
      let gathers := decide (1 ≤ action ∧ action ≤ 4)
      if gathers ∧ w1.apos + uw > 32 then .fail w1 0x12 0 []
      else
        let w2 : Walk := if gathers then { w1 with acc := w1.acc + u * 2 ^ w1.apos, apos := w1.apos + uw } else w1
        let cleared : Walk := { w2 with acc := 0, apos := 0, s := nxt }
        match action with
        | 0 | 1 | 5 => .next { w2 with s := nxt } lit 0 0 0
        | 2 =>
          match ct with
          | none => .fail w2 0x12 0 []
          | some k =>
            let i := w2.acc % 4096
            if i ≥ k.entries.length then .fail w2 0x12 0 []
            else .next cleared (bytesOf k.vw (k.entries[i]?.getD 0)) 0 0 0
        | 3 =>
          let r := cvtElem ity oty rm 0 ovf (w2.acc % 2 ^ tyWidth ity)
          .next cleared (bytesOf (tyWidth oty / 8) r.code) r.sat r.flush r.nan
        | 4 => .next cleared (List.replicate (w2.acc % 65536) (field e 16 8)) 0 0 0
        | 6 => .complete { w2 with s := nxt } []
        | 7 => .fail w2 0x12 (field e 16 16) []
        | _ => .fail w2 0x12 0 []

/-- Counts of saturations, flushes and NaNs. -/
abbrev Events := Nat × Nat × Nat

/-- Two counts together. -/
def addEvents (a b : Events) : Events := (a.1 + b.1, a.2.1 + b.2.1, a.2.2 + b.2.2)

/-- A whole walk over an input, for scheme 3: its output bytes with the events of its conversions, or none where it fails or passes `cap`
bytes. The fuel bounds the transitions: each consumes a nibble or is one of at most 16 consecutive HOLDs. -/
def walkAll (t : TableCopy) (ct : Option TableCopy) (ity oty : ElemType) (rm : Nat) (ovf : Bool) (input inlen cap : Nat) :
    Nat → Walk → List Nat → Events → Option (List Nat × Events)
  | 0, _, _, _ => none
  | fuel + 1, w, out, n =>
    match transition t ct ity oty rm ovf (digit input 4) inlen w with
    | .complete _ e => some (out ++ e, n)
    | .fail .. => none
    | .next w' e sat flush nan =>
      if (out ++ e).length > cap then none
      else walkAll t ct ity oty rm ovf input inlen cap fuel w' (out ++ e) (addEvents n (sat, flush, nan))

/-- A table of a stack that holds a generation (R315). -/
def TableId.copyOf (t : TableId) (g : Nat) : Option TableCopy :=
  match t.cur with
  | some k => if k.gen = g then some k else t.standby.filter (fun k => k.gen = g)
  | none => none

/-- Header fields of a compressed buffer (R317). -/
def chdr (h lo len : Nat) : Nat := field h lo len

/-- The header breaks R317: wrong magic, a reserved field or value, or a field its scheme does not use. -/
def headerBad (h : Nat) : Bool :=
  let scheme := chdr h 32 4
  let ew := chdr h 40 2
  chdr h 0 32 != 0x5A434C42 || scheme > 3 || bit h 39 != 0 || ew = 3 || chdr h 42 22 != 0 ||
  chdr h 64 32 = 0 || chdr h 64 32 > 2 ^ 24 || chdr h 96 32 > chdr h 128 32 || chdr h 128 32 % 64 != 0 ||
  bit h 191 != 0 || bit h 199 != 0 || chdr h 210 302 != 0 ||
  (scheme ≥ 2 && (chdr h 36 2 != 0 || ew != 0)) ||
  (scheme ≤ 1 && chdr h 160 50 != 0) ||
  (scheme = 2 && (chdr h 164 4 != 0 || chdr h 184 4 > 11 || chdr h 188 22 != 0)) ||
  (scheme = 3 && (chdr h 184 4 != 0 || chdr h 195 3 > 3))

/-- Scheme 0 (R320): the expanded bytes as a number, or none where the payload does not expand to ULEN from CLEN. -/
def expandMask (ulen clen w payload : Nat) : Option Nat :=
  let n := ulen / w
  if ulen % w != 0 || n = 0 || n > 65536 then none else
  let maskBytes := (n + 7) / 8
  let mask := payload / 2 ^ 32 % 2 ^ n
  let stored := (List.range n).filter (fun j => bit mask j = 1)
  let v := stored.length
  if field payload 0 16 != v || field payload 16 16 != n - 1 || clen != 4 + maskBytes + v * w then none
  else
    let vals := payload / 2 ^ (8 * (4 + maskBytes))
    some (((List.range n).foldl (fun (p : Nat × Nat) j =>
      if bit mask j = 1 then (p.1 + digit vals (8 * w) p.2 * 2 ^ (8 * w * j), p.2 + 1) else p) (0, 0)).1)

/-- Scheme 1 (R321): run-length control bytes, on at most `fuel` of them. -/
def expandRuns (w : Nat) : Nat → List Nat → List Nat → Option (List Nat)
  | 0, [], out => some out
  | 0, _ :: _, _ => none
  | _ + 1, [], out => some out
  | fuel + 1, b :: rest, out =>
    let n := b % 128 + 1
    if b ≥ 128 then
      if rest.length < w then none
      else expandRuns w fuel (rest.drop w) (out ++ (List.replicate n (rest.take w)).flatten)
    else if rest.length < n * w then none
    else expandRuns w fuel (rest.drop (n * w)) (out ++ rest.take (n * w))

/-- Scheme 2 (R322): indices of iw bits through a code table. -/
def expandCodes (k : TableCopy) (ulen clen iw payload : Nat) : Option Nat :=
  if k.vw = 0 then none else
  let n := ulen / k.vw
  if ulen % k.vw != 0 || clen != (n * iw + 7) / 8 then none
  else if (List.range n).any (fun i => digit payload iw i ≥ k.entries.length) then none
  else some (ofDigits n (8 * k.vw) (fun i => k.entries[digit payload iw i]?.getD 0))

/-- The walk over the payload of a scheme-3 buffer, as its header sets it up (R322). -/
def walkBuffer (k : TableCopy) (ct : Option TableCopy) (h payload : Nat) : Option (List Nat × Events) :=
  walkAll k ct (ElemType.ofCode (chdr h 188 3)) (ElemType.ofCode (chdr h 192 3)) (chdr h 195 3) (bit h 198 = 1) payload
    (chdr h 96 32) (chdr h 64 32) (34 * (chdr h 96 32 + 1)) ⟨chdr h 200 10, 0, 0, 0, 0⟩ [] (0, 0, 0)

/-- The conversion events of a scheme-3 buffer (R322). -/
def bufferEvents (ts : Vector TableId 16) (h payload : Nat) : Events :=
  let ct := if chdr h 164 4 = 15 then none else (nth ts (chdr h 164 4) ⟨none, none, 0⟩).cur
  match (nth ts (chdr h 160 4) ⟨none, none, 0⟩).copyOf (chdr h 168 16) with
  | none => (0, 0, 0)
  | some k => ((walkBuffer k ct h payload).map (·.2)).getD (0, 0, 0)

/-- A buffer's expansion (R317 to R322): the ULEN bytes as a number, or the fault code 0x12 or 0x15. `tables` is the store of
the stack that expands it; no store serves points 1 to 3, where schemes 2 and 3 are not legal. -/
def expandBuffer (tables : Option (Vector TableId 16)) (h payload : Nat) : Except Nat Nat :=
  let ulen := chdr h 64 32
  let clen := chdr h 96 32
  let ew := 2 ^ chdr h 40 2
  let orBad (o : Option Nat) : Except Nat Nat := match o with | some v => .ok v | none => .error 0x12
  if headerBad h then .error 0x12 else
  match chdr h 32 4 with
  | 0 => orBad (expandMask ulen clen ew payload)
  | 1 => orBad ((expandRuns ew clen (bytesOf clen payload) []).bind fun l => if l.length = ulen then some (ofBytes l) else none)
  | sch =>
    match tables with
    | none => .error 0x12
    | some ts =>
      match (nth ts (chdr h 160 4) ⟨none, none, 0⟩).copyOf (chdr h 168 16) with
      | none => .error 0x15
      | some k =>
        if sch = 2 then (if k.code then orBad (expandCodes k ulen clen (chdr h 184 4 + 1) payload) else .error 0x12)
        else if k.code || decide (k.states.length ≤ chdr h 200 10) then .error 0x12
        else
          let ct := if chdr h 164 4 = 15 then none else (nth ts (chdr h 164 4) ⟨none, none, 0⟩).cur
          if chdr h 164 4 != 15 && !((ct.map (·.code)).getD false) then .error 0x12
          else orBad ((walkBuffer k ct h payload).bind fun l => if l.1.length = ulen then some (ofBytes l.1) else none)

/-- A stream expanded at a point (R318), from `read off n`, which gives the stored bytes: its bytes and their count, or a fault.
Buffers marked for other points pass as stored. The fuel bounds the buffers, the cap the expanded length; a buffer that the `avail` bytes
of the stream's store cut off is malformed. -/
def expandStream (tables : Option (Vector TableId 16)) (point cap avail : Nat) (read : Nat → Nat → Nat) :
    Nat → Nat → Nat → Nat → Except Nat (Nat × Nat)
  | 0, _, _, _ => .error 0x12
  | fuel + 1, off, len, acc =>
    let h := read off 64
    if avail < off + 64 || headerBad h || decide (avail < off + 64 + (if chdr h 36 2 = point then chdr h 96 32 else chdr h 128 32)) then
      .error 0x12
    else
      let rcap := chdr h 128 32
      let piece : Except Nat (Nat × Nat) :=
        if chdr h 36 2 = point then
          match expandBuffer tables h (read (off + 64) (chdr h 96 32)) with
          | .ok v => .ok (v, chdr h 64 32)
          | .error c => .error c
        else .ok (read off (64 + rcap), 64 + rcap)
      match piece with
      | .error c => .error c
      | .ok (v, n) =>
        if len + n > cap then .error 0x12
        else if bit h 38 = 1 then .ok (acc + v * 2 ^ (8 * len), len + n)
        else expandStream tables point cap avail read fuel (off + 64 + rcap) (len + n) (acc + v * 2 ^ (8 * len))

/-- The headers of a stream with their offsets, as far as they are well formed and lie within its store (R318). -/
def streamHeaders (avail : Nat) (read : Nat → Nat → Nat) : Nat → Nat → List (Nat × Nat)
  | 0, _ => []
  | fuel + 1, off =>
    let h := read off 64
    if avail < off + 64 || headerBad h then []
    else (off, h) :: (if bit h 38 = 1 then [] else streamHeaders avail read fuel (off + 64 + chdr h 128 32))

end Sys2Proof.Machine
end

