-- ==== Sys2Proof/Machine/Mem.lean ====
section
/-! DEFINITION. The local and global address spaces: ranges and ownership (R241, R247), translation (R250 to R255), reads and
writes at the home of bytes with owner tags and poison (R257, R258), and the register window (R242). -/

namespace Sys2Proof.Machine

/-- What the check of an operation says (R28, R34, R75): it may issue, its bundle holds for a cause of R401 with the unit and
number concerned, it waits for a page walk (R255), it waits for a second read of a word in error under what it must read first
(R347, R392), or it faults with a code and TRAPINFO. -/
inductive Verdict where
  | go
  | hold (cause unit num : Nat)
  | walk (va : Nat)
  | unread (at_ : Loc) (n : Nat)
  | bad (code : Nat) (info : Word)
  deriving DecidableEq, Repr

/-- TRAPINFO from a number. -/
def info (n : Nat) : Word := BitVec.ofNat 64 n

/-- The scratchpad limit of the task on core c (R98); without a task the whole scratchpad. -/
def spadLimit (s : State) (c : Nat) : Nat := ((s.core c).ctx.map fun x => x.spadk * 1024).getD 0x400000

/-- A range of core c's scratchpad that the core has handed on (R235). -/
def handedOn (s : State) (c a n : Nat) : Bool :=
  (s.core c).handedOut.any fun h => decide (a < (h.basek + h.lenk) * 1024) && decide (h.basek * 1024 < a + n)

/-- Handle fields (R235). -/
def handleBase (h : Word) : Nat := field h.toNat 0 12

/-- See handleBase. -/
def handleLen (h : Word) : Nat := field h.toNat 12 11

/-- See handleBase. -/
def handleOwner (h : Word) : Nat := field h.toNat 23 3

/-- The state as the accesses of core c's trigger `seq` find it: what a later THAND has handed on stays reachable until its handle is
delivered (R235). -/
def asOf (s : State) (c seq : Nat) : State :=
  { s with cores := updAt s.cores c fun k =>
      if k.handedOut.isEmpty && k.parted.isEmpty then k
      else { k with
        handedOut := k.handedOut.filter fun h => !(h.holder = .away && decide (seq < h.since))
        arch := { k.arch with slots := k.parted.foldl (fun (l : Vector (Option Word) 8) p =>
          if seq < p.since then updAt l p.slot (fun _ => some p.handle) else l) k.arch.slots } } }

/-- Checks a local access of n bytes on a path (R241, R75 items 2, 4 and 5) by core c and names its home: the fault code or the
place. Paths: 0 S, 1 V, 2 M, 3 C. `lim` is the scratchpad limit. -/
def localHome (s : State) (c path : Nat) (write : Bool) (lim a n : Nat) : Except Nat Loc :=
  if a + n ≤ 0x400000 then
    (if a + n > lim then .error 0x09
     else if handedOn s c a n then .error 0x0C
     else .ok (.arr c a))
  else if 0x400000 ≤ a ∧ a + n ≤ 0x440000 then
    (if path = 0 ∨ path = 3 then .ok (.arr c a) else .error 0x09)
  else if 0x480000 ≤ a ∧ a + n ≤ 0x480100 then
    (if path = 0 ∨ path = 1 then (if write then .error 0x0B else .ok (.arr c a)) else .error 0x09)
  else if 0x500000 ≤ a ∧ a + n ≤ 0x510000 then
    (if path = 0 then (if write then .error 0x0B else .ok (.arr c a)) else .error 0x09)
  else if 0x800000 ≤ a ∧ a + n ≤ 0x1000000 then
    let sl := (a - 0x800000) / 0x100000
    let off := a % 0x100000
    if off + n > 0x100000 then .error 0x09
    else match nth (s.core c).arch.slots sl none with
      | none => .error 0x0C
      | some h =>
        if off + n > handleLen h * 1024 then .error 0x09
        else .ok (.arr (coreAtPos c (handleOwner h)) (handleBase h * 1024 + off))
  else .error 0x09

/-- The offset a layout attribute gives within a 64 KiB frame (R253). -/
def layoutOffset (lay o : Nat) : Nat :=
  if lay = 1 then o % 256 + field o 11 5 * 2 ^ 8 + field o 8 3 * 2 ^ 13 else o

/-- FRAME of a table entry, in place (R250). -/
def frameOf (e : Nat) : Nat := field e 16 29 * 2 ^ 16

/-- Reserved bits and values of a leaf entry (R251). -/
def leafReserved (e : Nat) : Bool :=
  field e 6 2 ≥ 2 || field e 8 2 ≥ 2 || field e 10 6 != 0 || field e 45 3 != 0 || field e 60 4 != 0

/-- Reserved bits of a non-leaf entry (R251). -/
def tableReserved (e : Nat) : Bool := field e 1 15 != 0 || field e 45 19 != 0

/-- The walk of R250: the leaf entry and whether its page is large, or a translation fault DESIGN CHOICE: an entry in a
poisoned line is used as it is stored (notes/assumptions/30.md). -/
def walkTables (s : State) (va : Nat) : Option (Nat × Bool) :=
  let rd := fun (a : Nat) => memRead s.mem a 8
  let e1 := rd (s.pkg.troot + 8 * field va 42 6)
  if bit e1 0 = 0 ∨ bit e1 1 = 1 ∨ tableReserved e1 then none
  else
    let e2 := rd (frameOf e1 + 8 * field va 29 13)
    if bit e2 0 = 0 then none
    else if bit e2 1 = 1 then
      (if leafReserved e2 ∨ field e2 6 4 ≠ 0 ∨ field e2 16 13 ≠ 0 then none else some (e2, true))
    else if tableReserved e2 then none
    else
      let e3 := rd (frameOf e2 + 8 * field va 16 13)
      if bit e3 0 = 0 ∨ bit e3 1 = 0 ∨ leafReserved e3 then none else some (e3, false)

/-- The physical address through a leaf entry (R250, R253), or none where it is unpopulated or a host page lacks HC. -/
def paThrough (s : State) (pte : Nat) (large : Bool) (va : Nat) : Option Nat :=
  let pa := if large then frameOf pte + va % 2 ^ 29 else frameOf pte + layoutOffset (field pte 8 2) (va % 2 ^ 16)
  if !populated s pa || (decide (2 ^ 44 ≤ pa) && bit pte 5 = 0) then none else some pa

/-- The permission check of R252. -/
def pagePermits (pte domain : Nat) (read write amo : Bool) : Bool :=
  (!read || bit pte 2 = 1) && (!write || bit pte 3 = 1) && (!amo || bit pte 4 = 1) &&
  (field pte 48 12 = 0 || field pte 48 12 = domain)

/-- An entry translates an address. -/
def TlbEntry.covers (e : TlbEntry) (va : Nat) : Bool := e.vpage = if e.large then va / 2 ^ 29 else va / 2 ^ 16

/-- The translations a core has at hand: its first-level TLB, and the walks made for the bundle that waits (R75, R255). -/
def Core.translations (k : Core) : List TlbEntry := k.tlb ++ k.walked.filterMap (·.2)

/-- A translation that core c has for an address (R255). -/
def tlbHit (s : State) (c va : Nat) : Option TlbEntry := (s.core c).translations.find? (·.covers va)

/-- The walk of an address's page for the waiting bundle has found no translation. -/
def walkFailed (k : Core) (va : Nat) : Bool := k.walked.any fun p => p.1 = va / 2 ^ 16 && p.2.isNone

/-- The state as a triggered operation sees it: with the translations made before its bundle issued (R75, R256), and with what later
bundles hand on (R235). -/
def Trig.sees (t : Trig) (s : State) : State :=
  let s := asOf s t.core t.seq
  { s with cores := updAt s.cores t.core fun k => { k with tlb := t.tlb ++ k.tlb } }

/-- The pieces of a byte run that stay within one 64-byte line, as (offset, length): at most n / 64 + 2 of them. -/
def lineRuns (a n : Nat) : List (Nat × Nat) :=
  (List.range (n / 64 + 2)).filterMap fun i =>
    let lo := if i = 0 then a else (a / 64 + i) * 64
    let hi := min (a + n) ((a / 64 + i + 1) * 64)
    if lo < hi then some (lo - a, hi - lo) else none

/-- The home of global bytes through a leaf entry; reads through a COMP page go through the expander (R254) DESIGN CHOICE:
a read-modify-write acts on the raw bytes of such a page (notes/assumptions/30.md). -/
def globalHome (pte pa va : Nat) (large write raw : Bool) : Loc :=
  if !write && !raw && !large && field pte 6 2 = 1 then .expand (frameOf pte + va % 2 ^ 16) else .pa pa

/-- Checks an access of a core path and names its homes (R75, R250 to R255): pieces as (home, offset, length). A global access
holds during a drain window or slot (R332) and waits for a walk on a first-level miss. -/
def coreAccess (s : State) (c path : Nat) (glob write amo : Bool) (a n : Nat) : Except Verdict (List (Loc × Nat × Nat)) :=
  if !glob then
    match localHome s c path write (spadLimit s c) a n with
    | .ok l => .ok [(l, 0, n)]
    | .error e => .error (.bad e (info a))
  else if s.pkg.draining then .error (.hold 5 0 0)
  else if a + n > 2 ^ 48 then .error (.bad 0x0A (info a))
  else
    let dom := ((s.core c).ctx.map (·.domain)).getD 0
    (lineRuns a n).foldr (fun (r : Nat × Nat) acc =>
      let va := a + r.1
      match acc, tlbHit s c va with
      | .error (.walk v), _ => .error (.walk v)
      | _, none => if walkFailed (s.core c) va then .error (.bad 0x0A (info a)) else .error (.walk va)
      | acc, some e =>
        match paThrough s e.pte.toNat e.large va with
        | none => .error (.bad 0x0A (info a))
        | some pa =>
          match acc with
          | .error v => .error v
          | .ok l =>
            if pagePermits e.pte.toNat dom (!write || amo) (write || amo) amo
            then .ok ((globalHome e.pte.toNat pa va e.large write false, r.1, r.2) :: l)
            else .error (.bad 0x0B (info a))) (.ok [])

/-- A TLB keeps n entries; a new one takes the place of the oldest (notes/assumptions/12.md). -/
def tlbPut {α : Type} [DecidableEq α] (n : Nat) (e : α) (l : List α) : List α := (e :: l.filter (· ≠ e)).take n

/-- The translation of an address that the cluster's second-level TLB or the tables give (R250, R255); a faulting one is not kept. -/
def walked (s : State) (c va : Nat) : Option TlbEntry :=
  let cl := clusterOf c
  match (s.die (dieOf c)).tlb2.find? fun p => p.1 = cl && p.2.covers va with
  | some p => some p.2
  | none => match walkTables s va with
    | none => none
    | some (pte, large) =>
      if (paThrough s pte large va).isNone then none
      else some ⟨large, if large then va / 2 ^ 29 else va / 2 ^ 16, info pte⟩

/-- A translation of core c's cluster goes into both TLBs (R255). -/
def tlbKeep (c : Nat) (e : TlbEntry) : Prog :=
  let cl := clusterOf c
  Prog.all [
    setCore c (fun k => { k with tlb := tlbPut 192 e k.tlb }),
    .eff (.die (dieOf c) fun d => { d with
      tlb2 := tlbPut 4096 (cl, e) (d.tlb2.filter (·.1 = cl)) ++ d.tlb2.filter (·.1 ≠ cl) })]

/-- The leaf entry that an engine's access for a context of core c finds: in the TLBs of that core, or by a walk (R255). -/
def engineLeaf (s : State) (c va : Nat) : Option (Nat × Bool) :=
  (((s.core c).tlb.find? (·.covers va)).or (walked s c va)).map fun e => (e.pte.toNat, e.large)

/-- The translations of some pages that core c's copy engine is about to use are fetched into the TLBs (R255). -/
def translateFor (c : Nat) (vas : List Nat) : Prog :=
  Prog.each vas fun va => .get fun s =>
    if (s.core c).tlb.any (·.covers va) then .done
    else match walked s c va with
      | none => .done
      | some e => tlbKeep c e

/-- The homes of an engine's access for a context (R252, R290, R307, R325): local addresses of its core on path C, or device
VAs; `raw` ignores COMP. `made` are translations made before, which a transducer job uses (R307). -/
def engineAccess (s : State) (x : Ctx) (ea : EAddr) (write raw : Bool) (n : Nat) (made : Option (List TlbEntry) := none) :
    Except Nat (List (Loc × Nat × Nat)) :=
  if !ea.glob then
    match localHome s x.core 3 write (x.spadk * 1024) ea.addr n with
    | .ok l => .ok [(l, 0, n)]
    | .error e => .error e
  else if ea.addr + n > 2 ^ 48 then .error 0x0A
  else
    (lineRuns ea.addr n).foldr (fun (r : Nat × Nat) acc =>
      let va := ea.addr + r.1
      let leaf := match made with
        | none => engineLeaf s x.core va
        | some l => (l.find? (·.covers va)).map fun e => (e.pte.toNat, e.large)
      match leaf with
      | none => .error 0x0A
      | some (pte, large) =>
        match paThrough s pte large va with
        | none => .error 0x0A
        | some pa =>
          match acc with
          | .error e => .error e
          | .ok l =>
            if pagePermits pte x.domain (!write) write false then .ok ((globalHome pte pa va large write raw, r.1, r.2) :: l)
            else .error 0x0B) (.ok [])

/-- The engine whose ports a block of the register window shows (R242). -/
def windowUnit (e : Nat) : Nat :=
  match e with
  | 0 => 19 | 1 => 17 | 2 => 22 | _ => 23

/-- Byte o of the engine register window (R242). -/
def windowByte (k : Core) (o : Nat) : Nat :=
  let e := o / 0x1000
  let r := o % 0x1000
  if e > 3 then 0 else
  let p := k.arch.unit (windowUnit e)
  let act := nth k.arch.active e EngineSet.reset
  let scal := fun (v : Vec) (vector : Bool) (i : Nat) => if vector then 0 else byteAt (low v) i
  let aV := false
  let bV := e = 1
  let cV := e = 0
  let vecA := if e = 0 then act.c.toNat else if e = 1 then act.b.toNat else 0
  let vecS := if e = 0 then p.c.toNat else if e = 1 then p.b.toNat else 0
  if r < 8 then scal act.a aV r
  else if r < 0x10 then scal act.b bV (r - 8)
  else if r < 0x18 then scal act.c cV (r - 0x10)
  else if r = 0x18 then (if act.running = 0 then 0 else 1) + (if act.shadow then 2 else 0)
  else if r < 0x20 then 0
  else if r < 0x28 then scal p.a aV (r - 0x20)
  else if r < 0x30 then scal p.b bV (r - 0x28)
  else if r < 0x38 then scal p.c cV (r - 0x30)
  else if 0x400 ≤ r ∧ r < 0x800 then byteAt vecA (r - 0x400)
  else if 0x800 ≤ r ∧ r < 0xC00 then byteAt vecS (r - 0x800)
  else 0

/-- The expanded stream of a COMP page's frame (R319): its bytes and length, or a fault. -/
def frameStream (s : State) (frame : Nat) : Except Nat (Nat × Nat) :=
  let store := nth s.hbm (frame / 2 ^ 36) ⟨Vector.replicate 16 ⟨none, none, 0⟩, []⟩
  expandStream (some store.tables) 0 65536 65536 (fun off n => memRead s.mem (frame + off) (min n (65536 - off))) 1024 0 0 0

/-- The headers of the stream in a frame (R319). -/
def frameHeaders (s : State) (frame : Nat) : List (Nat × Nat) :=
  streamHeaders 65536 (fun off n => memRead s.mem (frame + off) (min n (65536 - off))) 1024 0

/-- The stored bytes of a frame's stream, which every read of it takes in (R319): a buffer for a later point is passed on with all of its
payload area (R318). -/
def frameStored (s : State) (frame : Nat) : Nat :=
  (frameHeaders s frame).foldl (fun n p => max n (p.1 + 64 + (if chdr p.2 36 2 = 0 then chdr p.2 96 32 else chdr p.2 128 32))) 64

/-- The conversion events of a read of a frame's stream (R322). -/
def frameEvents (s : State) (frame : Nat) : Events :=
  let store := nth s.hbm (frame / 2 ^ 36) ⟨Vector.replicate 16 ⟨none, none, 0⟩, []⟩
  (frameHeaders s frame).foldl (fun n p =>
    if chdr p.2 36 2 = 0 && chdr p.2 32 4 = 3 then
      addEvents n (bufferEvents store.tables p.2 (memRead s.mem (frame + p.1 + 64) (chdr p.2 96 32)))
    else n) (0, 0, 0)

/-- The code tables that the scheme-3 buffers of a frame's stream bind as a read of it is issued: those then current (R315, R319, R322). -/
def frameCodes (s : State) (frame : Nat) : List (Nat × Nat × Nat) :=
  let stack := frame / 2 ^ 36
  let store := nth s.hbm stack ⟨Vector.replicate 16 ⟨none, none, 0⟩, []⟩
  ((frameHeaders s frame).filterMap fun p =>
    if chdr p.2 36 2 = 0 && chdr p.2 32 4 = 3 && chdr p.2 164 4 != 15 then
      (nth store.tables (chdr p.2 164 4) ⟨none, none, 0⟩).cur.map fun k => (stack, chdr p.2 164 4, k.gen)
    else none).dedup

/-- A table id whose copy of a generation counts as the current one. -/
def TableId.asOf (t : TableId) (g : Nat) : TableId :=
  if t.standby.any fun k => k.gen = g then { t with cur := t.standby, standby := t.cur } else t

/-- The state as a read sees it that is bound to some code tables (R315, R319). -/
def State.boundTo (s : State) (l : List (Nat × Nat × Nat)) : State :=
  { s with hbm := l.foldl (fun h b => updAt h b.1 fun y => { y with tables := updAt y.tables b.2.1 fun t => t.asOf b.2.2 }) s.hbm }

/-- A context has read frames through COMP pages: their conversion events count until its next error record (R322). -/
def noteEvents (ctx : Nat) (frames : List Nat) : Prog := .get fun s =>
  let n := frames.foldl (fun n f => addEvents n (frameEvents s f)) (0, 0, 0)
  Prog.when_ (n != (0, 0, 0)) (.eff (.pkg fun p =>
    let old := ((p.expEvents.find? fun q => q.1 = ctx).map (·.2)).getD 0
    { p with expEvents := (ctx,
        min (field old 0 16 + n.1) 0xFFFF + min (field old 16 16 + n.2.1) 0xFFFF * 2 ^ 16 + min (field old 32 16 + n.2.2) 0xFFFF * 2 ^ 32) ::
      p.expEvents.filter fun q => q.1 ≠ ctx }))

/-- The table ids and generations that the point-0 buffers of a frame's stream name (R315, R319). -/
def frameTables (s : State) (frame : Nat) : List (Nat × Nat) :=
  (frameHeaders s frame).filterMap fun p =>
    if chdr p.2 36 2 = 0 && decide (2 ≤ chdr p.2 32 4) then some (chdr p.2 160 4, chdr p.2 168 16) else none

/-- The n bytes at a home. -/
def readLoc (s : State) (l : Loc) (n : Nat) : Nat :=
  match l with
  | .arr c a =>
    if 0x480000 ≤ a ∧ a < 0x480100 then
      ofDigits n 8 (fun i => byteAt (nth (s.core c).arch.pb ((a - 0x480000 + i) / 8) 0).toNat ((a + i) % 8))
    else if 0x500000 ≤ a then ofDigits n 8 (fun i => windowByte (s.core c) (a - 0x500000 + i))
    else memRead (nth s.lmem c []) a n
  | .pa a => memRead s.mem a n
  | .expand a =>
    match frameStream s (a - a % 65536) with
    | .ok (v, len) => v % 2 ^ (8 * len) / 2 ^ (8 * (a % 65536)) % 2 ^ (8 * n)
    | .error _ => 0

/-- The fault of a read through an expander (R318, R319). -/
def expandFault (s : State) (l : Loc) : Option Nat :=
  match l with
  | .expand a => match frameStream s (a - a % 65536) with | .ok _ => none | .error c => some c
  | _ => none

/-- The value of an access gathered from its pieces, offset by offset. -/
def readPieces (s : State) (l : List (Loc × Nat × Nat)) : Nat :=
  l.foldl (fun acc (x : Loc × Nat × Nat) => acc + readLoc s x.1 x.2.2 * 2 ^ (8 * x.2.1)) 0

/-- The words (arrays) or lines (HBM) a run of bytes touches. -/
def unitsOf (a n size : Nat) : List Nat := (List.range ((a + n - 1) / size + 1 - a / size)).map (· + a / size)

/-- A read of the word finds an uncorrectable error (R392). -/
def Upset.shows (u : Upset) : Bool := !u.healed && !u.correctable

/-- Uncorrectable data under a read at a home: none, some false for a transient error, some true for a persistent one or
poison (R258, R392). -/
def readError (s : State) (l : Loc) (n : Nat) : Option Bool :=
  let look := fun (poison : List Nat) (ups : List Upset) (words units : List Nat) =>
    if units.any poison.contains then some true
    else match ups.find? (fun u => words.contains u.word && u.shows) with
      | some u => some u.persistent
      | none => none
  match l with
  | .arr c a =>
    let k := s.core c
    if k.poison.isEmpty && k.upsets.isEmpty then none else look k.poison k.upsets (unitsOf a n 8) (unitsOf a n 8)
  | .pa a =>
    if s.pkg.hbmPoison.isEmpty && s.pkg.hbmUpsets.isEmpty then none
    else look s.pkg.hbmPoison s.pkg.hbmUpsets (unitsOf a n 8) (unitsOf a n 64)
  | .expand a =>
    let f := a - a % 65536
    if s.pkg.hbmPoison.isEmpty && s.pkg.hbmUpsets.isEmpty then none
    else look s.pkg.hbmPoison s.pkg.hbmUpsets (unitsOf f (frameStored s f) 8) (unitsOf f (frameStored s f) 64)

/-- The home's owner tag (R257): none in HBM. -/
def ownerTag (s : State) (l : Loc) : Option Nat :=
  match l with
  | .arr c a => assoc (s.core c).tags (a / 64)
  | _ => none

/-- What an operation reads before its bundle issues meets an error: it waits for the second read (R258, R392). -/
def readCheck (s : State) (l : List (Loc × Nat × Nat)) : Verdict :=
  match l.find? fun x => (readError s x.1 x.2.2).isSome with
  | some x => .unread x.1 x.2.2
  | none => .go

/-- The side bank has no address (R246): the model numbers the words of keeper n's image (R227) from here on in its core's arrays, where
no access reaches. -/
def keeperBase (n : Nat) : Nat := 0x600000 + 2048 * n

/-- Where the model numbers the words of dictionary memory and of index memory, which have no local address either, in their core's
arrays (R257): entry i of the dictionary from byte 48 * i on, index i at byte 2 * i. -/
def dictBase : Nat := 0x620000

/-- See dictBase. -/
def indexBase : Nat := 0x650000

/-- A word of a core's arrays is poisoned or shows an uncorrectable error (R258, R392). -/
def Core.wordBad (k : Core) (w : Nat) : Bool := k.poison.contains w || k.upsets.any fun u => u.word = w && u.shows

/-- The words of keeper n that are in error: of the bytes 0 to 127, of the band entries 128 to 131, of the generation 132 (R246, R257). -/
def keeperErrors (k : Core) (n : Nat) : List Nat :=
  if k.poison.isEmpty && k.upsets.isEmpty then []
  else (List.range 133).filter fun i => k.wordBad (keeperBase n / 8 + i)

/-- A keeper as it is read: words in error as zero (R246, R392). -/
def Keeper.blank (x : Keeper) (words : List Nat) : Keeper :=
  if words.isEmpty then x
  else { x with
    bytes := BitVec.ofNat 8192 (ofDigits 128 64 fun i => if words.contains i then 0 else digit x.bytes.toNat 64 i)
    band := BitVec.ofNat 256 (ofDigits 4 64 fun i => if words.contains (128 + i) then 0 else digit x.band.toNat 64 i)
    gen := if words.contains 132 then 0 else x.gen }

/-- Keeper n of core c as it is read. -/
def keeperNow (s : State) (c n : Nat) : Keeper :=
  (nth (s.core c).arch.keepers n Keeper.reset).blank (keeperErrors (s.core c) n)

/-- The home of the first word in error under a read (R392). -/
def errorWord (s : State) (l : Loc) (n : Nat) : Loc :=
  let first := fun (a : Nat) (f : Nat → Loc) =>
    ((((unitsOf a n 8).map fun w => f (w * 8)).find? fun l => (readError s l 8).isSome).getD l)
  match l with
  | .arr c a => first a (.arr c)
  | .pa a => first a .pa
  | .expand a =>
    let f := a - a % 65536
    (((unitsOf f (frameStored s f) 8).map fun w => Loc.pa (w * 8)).find? fun l => (readError s l 8).isSome).getD l

/-- A full write of some words replaces what was in error there; readers of before still learn of it (R258, R392). -/
def healUpsets (full : Nat → Bool) (l : List Upset) : List Upset :=
  l.filterMap fun u => if !full u.word then some u else if u.users.isEmpty then none else some { u with persistent := false, healed := true }

/-- The second read of R392 of the word at a home, within 64 cycles. -/
def reread (l : Loc) : Prog :=
  match l with
  | .arr c a => postEv 40 2 (.eccReread (coreBV c) false (BitVec.ofNat 45 a))
  | .pa a | .expand a => postEv 40 2 (.eccReread 0 true (BitVec.ofNat 45 a))

/-- Notes that an operation consumed a word that landed as zero (R392, R394). -/
def consume (l : Loc) (n : Nat) (w : Who) : Prog :=
  let mark := fun (words : List Nat) (u : Upset) =>
    if words.contains u.word then { u with users := u.users ++ [w] } else u
  match l with
  | .arr c a => Prog.all [
      setCore c fun k => { k with upsets := k.upsets.map (mark (unitsOf a n 8)) },
      .get fun s => Prog.each (((s.core c).upsets.filter fun u => (unitsOf a n 8).contains u.word)) fun u => reread (.arr c (u.word * 8))]
  | .pa a | .expand a => .get fun s =>
    let words := match l with
      | .expand _ => unitsOf (a - a % 65536) (frameStored s (a - a % 65536)) 8
      | _ => unitsOf a n 8
    Prog.all [
      .eff (.pkg fun p => { p with hbmUpsets := p.hbmUpsets.map (mark words) }),
      .get fun s => Prog.each (s.pkg.hbmUpsets.filter fun u => words.contains u.word) fun u => reread (.pa (u.word * 8))]

/-- The contexts whose CTXID bits 0 to 15 equal an owner tag (R396): the cores that run them. -/
def tagHolders (s : State) (tag : Nat) : List Nat :=
  (List.range 256).filter fun c => ((s.core c).ctx.map fun x => decide (x.id % 65536 = tag)).getD false

/-- Ends, in class C with 0x1B, the context an owner tag names, on a core or saved, unless it is context `except_` (R258, R396). -/
def endTagged (tag : Option Nat) (addr : Nat) (except_ : Option Nat) : Prog := .get fun s =>
  match tag with
  | none => .done
  | some t =>
    if (except_.map fun e => decide (e % 65536 = t)).getD false then .done
    else Prog.all [
      Prog.each (tagHolders s t) fun c => contextEnd c fun s => { coreRecord s c 0x1B 2 addr with addr := addr, detail := t },
      Prog.each (s.disp.saved.filter fun y => y.ctx.id % 65536 = t) fun y => savedEnd y 0x1B addr false addr t 0]

/-- Writes n bytes at a home for a context (R257, R258). A narrow write whose untouched bytes are poisoned is discarded: the
writing context, if any, has 0x1C pending, and on-chip the tagged owner ends. -/
def writeLoc (l : Loc) (n v : Nat) (ctxId : Nat) (writer : Option Who) : Prog := .get fun s =>
  let blame := fun (a : Nat) => match writer with
    | some w => pendFor w 0x1C (info a) false ((ownerTag s l).getD 0)
    | none => .done
  match l with
  | .arr c a =>
    let k := s.core c
    let partial_ := fun (w : Nat) => decide (w * 8 < a) || decide (a + n < w * 8 + 8)
    if !(k.poison.isEmpty && k.upsets.isEmpty) && (unitsOf a n 8).any (fun w => partial_ w && k.wordBad w) then
      (blame a).andThen (endTagged (ownerTag s l) a (writer.map (·.ctx)))
    else Prog.all [
      .eff (.lput c a n v),
      setCore c fun k => { k with
        tags := (unitsOf a n 64).foldl (fun t ln => assocSet t ln (ctxId % 65536)) k.tags
        poison := k.poison.filter fun w => !((unitsOf a n 8).contains w && !partial_ w)
        upsets := healUpsets (fun w => (unitsOf a n 8).contains w && !partial_ w) k.upsets }]
  | .pa a | .expand a =>
    let partial_ := fun (w : Nat) => decide (w * 64 < a) || decide (a + n < w * 64 + 64)
    if (unitsOf a n 64).any (fun w => partial_ w && s.pkg.hbmPoison.contains w) then blame a
    else Prog.all [
      .eff (.gput a n v),
      Prog.when_ (!(s.pkg.hbmPoison.isEmpty && s.pkg.hbmUpsets.isEmpty)) (.eff (.pkg fun p => { p with
        hbmPoison := p.hbmPoison.filter fun w => !((unitsOf a n 64).contains w && !partial_ w)
        hbmUpsets := healUpsets (fun w => (unitsOf a n 64).contains (w / 8) && !partial_ (w / 8)) p.hbmUpsets }))]

/-- A write of n bytes at a home that replaces the bits of `mask`. -/
structure MaskedWrite where
  at_ : Loc
  n : Nat
  mask : Nat
  deriving DecidableEq, Repr

/-- The bits of byte b of a core's arrays, or of physical memory, that some writes replace. -/
def replacedBits (l : List MaskedWrite) (place : Option Nat) (b : Nat) : Nat :=
  l.foldl (fun m x =>
    let one := fun (a : Nat) => if decide (a ≤ b) && decide (b < a + x.n) then m ||| (x.mask / 2 ^ (8 * (b - a)) % 256) else m
    match x.at_ with
    | .arr c a => if place = some c then one a else m
    | .pa a | .expand a => if place.isNone then one a else m) 0

/-- The writes together replace the whole word of n bytes. -/
def replacesWord (l : List MaskedWrite) (place : Option Nat) (n w : Nat) : Bool :=
  (List.range n).all fun i => replacedBits l place (w * n + i) = 255

/-- Writes that one operation makes piece by piece replace some words, or lines of HBM, in full: what was in error there is so no
longer, and readers of before still learn of it (R258). -/
def healWhole (l : List MaskedWrite) : Prog := .get fun s =>
  let cores := (l.filterMap fun x => match x.at_ with
    | .arr c _ => some c
    | _ => none).dedup.filter fun c => !((s.core c).poison.isEmpty && (s.core c).upsets.isEmpty)
  Prog.all [
    Prog.each cores (fun c => setCore c fun k => { k with
      poison := k.poison.filter fun w => !replacesWord l (some c) 8 w
      upsets := healUpsets (replacesWord l (some c) 8) k.upsets }),
    Prog.when_ (!(s.pkg.hbmPoison.isEmpty && s.pkg.hbmUpsets.isEmpty)) (.eff (.pkg fun p => { p with
      hbmPoison := p.hbmPoison.filter fun w => !replacesWord l none 64 w
      hbmUpsets := healUpsets (fun w => replacesWord l none 64 (w / 8)) p.hbmUpsets }))]

/-- All bits of n bytes. -/
def allBits (n : Nat) : Nat := 2 ^ (8 * n) - 1

/-- Writes the bytes of v to an access's pieces in order. -/
def writePieces (l : List (Loc × Nat × Nat)) (v ctxId : Nat) (writer : Option Who) : Prog :=
  Prog.each l fun x => writeLoc x.1 x.2.2 (v / 2 ^ (8 * x.2.1) % 2 ^ (8 * x.2.2)) ctxId writer

end Sys2Proof.Machine
end

