-- ==== Sys2Proof/Machine/Flags.lean ====
section
/-! DEFINITION. The flag computations: FPSTAT's sticky flags and their fault (R33, R69, R70), CONVCNT and its thresholds
(R71, R138). -/

namespace Sys2Proof.Machine

/-- The exception flags of a scalar FP result, in FPSTAT.FLAGS order (R32). -/
structure FpFlags where
  invalid : Bool := false
  divZero : Bool := false
  overflow : Bool := false
  underflow : Bool := false
  inexact : Bool := false
  deriving DecidableEq, Repr

/-- FLAGS bits 0 to 4. -/
def FpFlags.bits (f : FpFlags) : Nat :=
  f.invalid.toNat + 2 * f.divZero.toNat + 4 * f.overflow.toNat + 8 * f.underflow.toNat + 16 * f.inexact.toNat

/-- A scalar FP32 result with its overflow, underflow and inexact flags (R69): overflow by the rounded magnitude, underflow
for a result that is tiny after rounding and inexact. -/
def fsRound (rm : Nat) (x : Num) : Nat × FpFlags :=
  match x with
  | .nan _ => (0x7FC00000, {})
  | .inf n => (roundIeee .f32 rm (.inf n), {})
  | .fin neg m e =>
    if m = 0 then (roundIeee .f32 rm x, {})
    else
      let (c, exact) := roundCode 23 (-126) rm 0 neg m e
      let (u, _) := roundCode 23 (-2000) rm 0 neg m e
      let ovf := decide (c > 0x7F7FFFFF)
      let tiny := decide (u < (2000 - 126 + 1) * 2 ^ 23)
      (roundIeee .f32 rm x, { overflow := ovf, underflow := tiny && !exact, inexact := ovf || !exact })

/-- FPSTAT.RM, the rounding mode of FS (R32). -/
def Arch.fsRm (a : Arch) : Nat := field (a.sr 14).toNat 16 3

/-- FLAGS joined with new bits (R70). -/
def Arch.orFlags (a : Arch) (b : Nat) : Arch :=
  a.setSr 14 (setBits (a.sr 14) 0 5 (field (a.sr 14).toNat 0 5 ||| b))

/-- A raised flag is enabled (R33). -/
def Arch.fpEnabled (a : Arch) (b : Nat) : Bool := field (a.sr 14).toNat 8 5 &&& b != 0

/-- Raises FP flags at landing; an enabled one makes 0x17 pending (R33, R72). -/
def raiseFp (c seq slot bits : Nat) (inTrap : Bool) : Prog := Prog.all [
  setArchAt c seq (fun a => a.orFlags bits),
  .get fun s => Prog.when_ ((s.core c).arch.fpEnabled bits)
    (addPending c { code := 0x17, info := info bits, slot := slot, seq := seq, ready := true, inSeg := false } inTrap)]

/-- CONVCNT after events; each count sticks at 0xFFFF (R32, R138). -/
def convAdd (w : Word) (sat flush nan : Nat) : Word :=
  let n := w.toNat
  BitVec.ofNat 64 (min (field n 0 16 + sat) 0xFFFF + min (field n 16 16 + flush) 0xFFFF * 2 ^ 16 +
    min (field n 32 16 + nan) 0xFFFF * 2 ^ 32)

/-- A count exceeds its nonzero threshold (R138). -/
def convOver (cnt thr : Word) : Bool :=
  [0, 16, 32].any fun i => field thr.toNat i 16 != 0 && decide (field cnt.toNat i 16 > field thr.toNat i 16)

/-- A converting operation lands: its events are counted, and a count then above its threshold makes 0x16 pending, even where the
operation adds nothing to it (R138). -/
def countConv (c seq slot sat flush nan : Nat) (inTrap : Bool) : Prog :=
  Prog.all [
  setArchAt c seq (fun a => a.setSr 12 (convAdd (a.sr 12) sat flush nan)),
  .get fun s =>
    let a := (s.core c).arch
    Prog.when_ (convOver (a.sr 12) (a.sr 13))
      (addPending c { code := 0x16, info := a.sr 12, slot := slot, seq := seq, ready := true, inSeg := false } inTrap)]

end Sys2Proof.Machine
end

