-- ==== Sys2Proof/Machine/Land.lean ====
section
/-! DEFINITION. Operations in flight and their landing: R14, R26, R27, R65, completion records (R10, R11), keeper writes
(R221, R223). -/

namespace Sys2Proof.Machine

/-- The instruction a trigger stands for. -/
def Trig.instr (t : Trig) : Option Instr :=
  match decodeTrigger t.dest (low t.a) (low t.b) with
  | .ok i => Option.some i
  | .error _ => Option.none

/-- A delayed or deferred operation that makes global requests of its own as it starts or is released (R332). -/
def globalOp (i : Instr) : Bool :=
  match i with
  | .vld g | .vst g | .vlds g _ | .vsts g _ | .vgath g _ | .vscat g _ | .vscatadd g _ | .vldz g | .vstz g _ _ | .rinit g
  | .rawait g | .rrel g | .tdmk g | .xjob g | .xtab g | .sejob g => g
  | _ => false

/-- A gather or scatter, whose descriptor's SPACE chooses where its elements lie (R347). -/
def gathers (i : Instr) : Bool :=
  match i with
  | .vgath .. | .vscat .. | .vscatadd .. => true
  | _ => false

/-- The operation of a trigger makes global requests of its own, by `.g` or by the SPACE of the descriptor that its bundle read. -/
def Trig.global (t : Trig) : Bool := t.instr.any fun i => globalOp i || gathers i && !dLocal t.head.toNat

/-- The operation of a trigger waits until global requests are accepted again (R332). -/
def Trig.drained (t : Trig) (s : State) : Bool := s.pkg.draining && t.global

/-- The flight of a trigger with bound L; a released deferred operation counts from its release (R389). -/
def flightOf (t : Trig) (now bound : Nat) : Flight where
  unit := t.unit
  seq := t.seq
  slot := t.slot
  bound := t.u0 + bound
  due := (if t.released then now else t.t0) + bound
  ready := true
  lands := true
  dropped := false
  y0 := 0
  y1 := none
  mask := t.mask
  regs := []
  preds := []
  posts := []
  cause := 1
  deferred := false
  inTrap := t.inTrap

/-- What an abandoned operation still does when it lands: it frees what it holds, but gives no result (R399). -/
def Post.kept : Post → Bool
  | .gpr _ _ | .flag _ _ | .pred _ _ | .record _ _ _ => false
  | _ => true

/-- A flight whose result is abandoned (R29, R399). -/
def Flight.drop (f : Flight) : Flight :=
  { f with lands := false, dropped := true, regs := [], preds := [], posts := f.posts.filter Post.kept }

/-- Puts a flight in trigger order, or replaces the one this trigger already has; what is abandoned stays so. -/
def putFlight (k : Core) (f : Flight) : Core :=
  if k.flights.any (fun g => g.unit = f.unit && g.seq = f.seq) then
    { k with flights := k.flights.map fun g => if g.unit = f.unit && g.seq = f.seq then (if g.dropped then f.drop else f) else g }
  else { k with flights := k.flights ++ [f] }

/-- Starts or replaces a flight; a ready one gets its landing event. -/
def addFlight (c : Nat) (f : Flight) : Prog := Prog.all [
  setCore c (fun k => putFlight k f),
  Prog.when_ f.ready (postAt f.due 1 (.resultLanding (coreBV c) (BitVec.ofNat 5 f.unit)))]

/-- The result of a trigger lands after its bound with effects of its own (R14, R26). -/
def land (t : Trig) (bound : Nat) (y0 : Vec) (posts : List Post) : Prog := .get fun s =>
  addFlight t.core { flightOf t s.time bound with y0 := y0, posts := posts }

/-- Two results land together (R157). -/
def land2 (t : Trig) (bound : Nat) (y0 y1 : Vec) (posts : List Post) : Prog := .get fun s =>
  addFlight t.core { flightOf t s.time bound with y0 := y0, y1 := some y1, posts := posts }

/-- An operation that lands nothing is complete after its bound (R65). -/
def finish (t : Trig) (bound : Nat) (posts : List Post) : Prog := .get fun s =>
  addFlight t.core { flightOf t s.time bound with lands := false, posts := posts }

/-- An operation whose outcome is awaited; `cause` is the freeze cause its reader holds for (R27, R401). -/
def await_ (t : Trig) (bound : Nat) (lands : Bool) (cause : Nat) : Prog := .get fun s =>
  addFlight t.core { flightOf t s.time bound with lands := lands, ready := false, cause := cause }

/-- The awaited outcome of trigger (unit, seq) of core c is known: it may land from now on. -/
def settle (c unit seq : Nat) (f : Flight → Flight) : Prog := .get fun s =>
  match (s.core c).flights.find? (fun g => g.unit = unit && g.seq = seq) with
  | none => .done
  | some g => addFlight c { f g with ready := true, deferred := false, due := max s.time g.due }

/-- A deferred operation takes its place in the deferred queue and in its unit's order (R389). -/
def deferOp (t : Trig) (bound : Nat) (lands : Bool) : Prog := Prog.all [
  .get fun s => addFlight t.core { flightOf t s.time bound with lands := lands, ready := false, cause := 9, deferred := true },
  setCore t.core fun k => { k with
    defq := k.defq.filter (fun x => decide (x.seq ≤ t.seq)) ++ t :: k.defq.filter (fun x => decide (t.seq < x.seq)) }]

/-- The operation must be deferred: it stands in a segment and has not been released (R389). -/
def mustDefer (s : State) (t : Trig) : Bool := (s.core t.core).seg.isSome && !t.released

/-- Reserves a completion-ring entry for a trigger (R11). -/
def Core.reserveRing (k : Core) (seq : Nat) : Core :=
  let r := k.arch.ring
  { k with arch := { k.arch with ring := { r with reserved := r.reserved ++ [⟨seq, none⟩] } } }

/-- The completion ring has no free entry (R11). -/
def Core.ringFull (k : Core) : Bool :=
  let r := k.arch.ring
  decide (2 ^ k.arch.crSize ≤ r.written - r.popped + r.reserved.length)

/-- A completion record's 16 bytes (R10). -/
def recordBytes (value unit opcode : Nat) (seq : BitVec 16) : Nat :=
  value % 2 ^ 64 + unit * 2 ^ 64 + opcode * 2 ^ 72 + seq.toNat * 2 ^ 80 + 2 ^ 127

/-- The trigger before which records may be written: inside a segment its first, and as it closes the next one whose deferred effect is
due (R389, R390). -/
def Core.recordLimit (k : Core) : Option Nat := k.seg.bind fun g => if g.closing then k.defq.head?.map (·.seq) else some g.first

/-- Writes the finished records at the front of the ring's reservations, in trigger order (R11), as far as a segment lets them
(R389). -/
def flushRing (c : Nat) : Prog := .get fun s =>
  let k := s.core c
  let r := k.arch.ring
  let early := fun (e : RingEntry) => e.out.isSome && ((k.recordLimit.map fun n => decide (e.seq < n)).getD true)
  let outs := (r.reserved.takeWhile early)
  let id := (k.ctx.map (·.id)).getD 0
  Prog.all [
    Prog.each outs.zipIdx (fun p =>
      match p.1.out with
      | none => .done
      | some (v, u, o) =>
        writeLoc (.arr c (0x400000 + k.arch.crBase + 16 * ((r.written + p.2) % 2 ^ k.arch.crSize))) 16
          (recordBytes v u o (r.seq + BitVec.ofNat 16 p.2)) id
          (some { core := c, ctx := id, seq := p.1.seq, slot := 0, inTrap := false, acc := none })),
    Prog.when_ (outs.any fun e => e.out.any fun o => o.2.1 != 18) (setCore c fun k => { k with portAt := some s.time }),
    setArchAt c 0 fun a => { a with ring := { a.ring with
      written := a.ring.written + outs.length, reserved := a.ring.reserved.drop outs.length,
      seq := a.ring.seq + BitVec.ofNat 16 outs.length } }]

/-- The record of trigger `seq` is finished (R10). -/
def finishRecord (c seq value unit opcode : Nat) : Prog := Prog.all [
  setArch c (fun a => { a with ring := { a.ring with
    reserved := a.ring.reserved.map fun e => if e.seq = seq then { e with out := some (value, unit, opcode) } else e } }),
  flushRing c]

/-- The bytes of a keeper write put over a keeper's (R221): those its mask names. -/
def mergeBytes (m : BitVec 1024) (new old : Vec) : Vec :=
  vecOf 1024 8 fun i => digit (if m.getLsbD i then new else old).toNat 8 i

/-- The band entries of a keeper write put over a keeper's. -/
def mergeBand (m : BitVec 16) (new old : BitVec 256) : BitVec 256 :=
  BitVec.ofNat 256 (ofDigits 16 16 fun i => digit (if m.getLsbD i then new else old).toNat 16 i)

/-- A keeper write lands (R221, R223): contents, generation, rebinding, stale marks. -/
def keeperWrite (a : Arch) (k : Nat) (bm : BitVec 1024) (bytes : Vec) (dm : BitVec 16) (band : BitVec 256) (rebind : Bool) : Arch :=
  let g := (nth a.keepers k Keeper.reset).gen
  let g' := g + 1
  { a with
    keepers := updAt a.keepers k fun x => { x with
      bytes := mergeBytes bm bytes x.bytes, band := mergeBand dm band x.band, gen := g', writes := x.writes - 1 }
    tiles := a.tiles.map fun t =>
      if t.buckle = some (k, g') then { t with stale := true }
      else if rebind && t.buckle = some (k, g) then { t with buckle := some (k, g') } else t }

/-- The words of a keeper that a write touches, or, with `whole`, writes in full: the generation always. DESIGN CHOICE: it advances from
the generation that the keeper had, also where that word was in error (notes/assumptions/30.md). -/
def writtenWord (bm : BitVec 1024) (dm : BitVec 16) (whole : Bool) (i : Nat) : Bool :=
  let parts := if i < 128 then (List.range 8).map fun j => bm.getLsbD (8 * i + j) else (List.range 4).map fun j => dm.getLsbD (4 * (i - 128) + j)
  i = 132 || if whole then parts.all id else parts.any id

/-- A keeper write lands (R221, R223, R246, R258): a word written whole is no longer in error; where only a part of a word in error is
written, that part is discarded and the writer has 0x1C pending, with the keeper's number for an address (notes/assumptions/20.md). -/
def keeperLand (c : Nat) (w : Who) (k : Nat) (bm : BitVec 1024) (bytes : Vec) (dm : BitVec 16) (band : BitVec 256) (rebind : Bool) :
    Prog := .get fun s =>
  let errs := keeperErrors (s.core c) k
  let whole := errs.filter (writtenWord bm dm true)
  let lost := errs.filter fun i => writtenWord bm dm false i && !whole.contains i
  let bm' := if lost.isEmpty then bm else bm &&& BitVec.ofNat 1024 (ofBits 1024 fun i => !lost.contains (i / 8))
  let dm' := if lost.isEmpty then dm else dm &&& BitVec.ofNat 16 (ofBits 16 fun i => !lost.contains (128 + i / 4))
  let healed := fun (x : Nat) => whole.any fun i => x = keeperBase k / 8 + i
  Prog.all [
    setArchAt c w.seq (fun a => keeperWrite a k bm' bytes dm' band rebind),
    Prog.when_ (!whole.isEmpty) (setCore c fun k => { k with
      poison := k.poison.filter fun x => !healed x
      upsets := healUpsets healed k.upsets }),
    Prog.when_ (!lost.isEmpty) (pendFor w 0x1C (info k) false 0)]

/-- Changes tile n. -/
def Arch.setTile (a : Arch) (n : Nat) (f : Tile → Tile) : Arch := { a with tiles := updAt a.tiles n f }

/-- Changes accumulator n. -/
def Arch.setAcc (a : Arch) (n : Nat) (f : Acc → Acc) : Arch := { a with accs := updAt a.accs n f }

/-- Physical number of the vector register named n (R19). -/
def Arch.physV (a : Arch) (n : Nat) : Nat := if n < 32 then n else 32 + (n - 32 + field (a.sr 7).toNat 0 5) % 32

/-- Physical number of the predicate named n (R19). -/
def Arch.physP (a : Arch) (n : Nat) : Nat := if n < 8 then n else 8 + (n - 8 + field (a.sr 8).toNat 0 3) % 8

/-- An operation of an engine has completed (R242); of other units nothing changes. -/
def Arch.engineDone (a : Arch) (u : Nat) : Arch :=
  match engineOf u with
  | some e => { a with active := updAt a.active e fun x => { x with running := x.running - 1 } }
  | none => a

/-- What comes about when a result lands, beyond y0 and y1. -/
def applyPost (c : Nat) (f : Flight) (p : Post) : Prog :=
  match p with
  | .gpr n v => setArchAt c f.seq fun a => { a with g := updAt a.g n fun _ => v }
  | .flag n v => setArchAt c f.seq fun a => { a with f := updAt a.f n fun _ => v }
  | .pred n v => setArchAt c f.seq fun a => { a with p := updAt a.p n fun old => match f.mask with
      | none => v
      | some m => (v &&& m) ||| (old &&& ~~~m) }
  | .fpFlags b => raiseFp c f.seq f.slot b f.inTrap
  | .conv s fl n => countConv c f.seq f.slot s fl n f.inTrap
  | .record v u o => finishRecord c f.seq v u o
  | .fault code i slot =>
    addPending c { code := code, info := i, slot := slot, seq := f.seq, ready := true, inSeg := false } f.inTrap
  | .keeper k bm b dm bd rb => .get fun s =>
    let id := ((s.core c).ctx.map (·.id)).getD 0
    keeperLand c { core := c, ctx := id, seq := f.seq, slot := f.slot, inTrap := f.inTrap, acc := none } k bm b dm bd rb
  | .bind t b => setArchAt c f.seq fun a => a.setTile t fun x => { x with buckle := b, stale := false }
  | .accFree k seq => setArchAt c f.seq fun a => a.setAcc k fun x => { x with busy := x.busy.filter (· ≠ seq) }
  | .tileReady t => setArchAt c f.seq fun a => a.setTile t fun x => { x with state := .ready }
  | .tileRead t => setArchAt c f.seq fun a => a.setTile t fun x => { x with reads := x.reads - 1 }

/-- y0 and y1 when a result lands (R14, R21, R157): a masked lane of y0 keeps its contents; with one result the previous y0
moves whole to y1, with two the second result goes to y1 under the same mask. -/
def landPorts (f : Flight) (p : Ports) : Ports :=
  let mix := fun (new old : Vec) => match f.mask with | none => new | some m => blend m new old
  { p with
    y0 := mix f.y0 p.y0
    y1 := match f.y1 with | none => p.y0 | some v => mix v p.y1 }

/-- A result of g waits for operation f of its unit, triggered before it, to land or to be complete; of KP every operation waits for the
one before it (R14, R65, R225). -/
def ordered (f g : Flight) : Bool := f.unit = g.unit && (g.lands || f.unit = 20)

/-- The operations that no earlier one keeps from landing. -/
def landable (pre : List Flight) : List Flight → List Flight
  | [] => []
  | f :: r => if pre.any (ordered · f) then landable (pre ++ [f]) r else f :: landable (pre ++ [f]) r

/-- The operation of a unit that lands now: its outcome is known and its time has come. -/
def dueFlight (k : Core) (u time : Nat) : Option Flight :=
  (landable [] k.flights).find? fun f => f.unit = u && f.ready && decide (f.due ≤ time)

/-- What is undefined after the flight has landed at unheld cycle `now`: what it lands, until its bound, and what was before it (R26). -/
def Flight.early (f : Flight) (now : Nat) (l : List (Nat × Nat)) : List (Nat × Nat) :=
  let left := l.filter fun p => decide (now < p.2)
  if f.bound ≤ now then left
  else left ++ ((if f.lands then [f.unit] else []) ++ f.regs.map (32 + ·) ++ f.preds.map (64 + ·)).map fun n => (n, f.bound)

/-- An operation of a unit other than VS lands now and finishes the record of trigger `seq`. -/
def recordsNow (k : Core) (now seq : Nat) : Bool :=
  k.flights.any fun g => g.seq = seq && g.unit != 18 && (dueFlight k g.unit now).any (fun h => h.seq = seq) &&
    assoc k.lastLand g.unit != some now && g.posts.any fun p => match p with
      | .record _ _ _ => true
      | _ => false

/-- The completion-ring write port serves another unit's record in this cycle, whether that unit's landing has been looked at yet or
not (R27, R160). -/
def portTaken (k : Core) (now : Nat) : Bool :=
  k.portAt = some now ||
    (k.arch.ring.reserved.takeWhile fun e => e.out.isSome || recordsNow k now e.seq).any fun e =>
      recordsNow k now e.seq && (k.recordLimit.map fun n => decide (e.seq < n)).getD true

/-- A result of the unit waits a cycle: another one of it has landed in this one, or it is VS's and the completion-ring write port serves
another unit's record (R14, R160). -/
def landWaits (k : Core) (f : Flight) (now : Nat) : Bool :=
  f.lands && (assoc k.lastLand f.unit = some now || f.unit = 18 && portTaken k now)

/-- RESULT_LANDING (R14): an operation of the unit lands, at most one result a cycle; the next one follows in the next cycle. -/
def landHead (c u : Nat) : Prog := .get fun s =>
  let k := s.core c
  match dueFlight k u s.time with
  | none => .done
  | some f =>
    if landWaits k f s.time then postEv 1 1 (.resultLanding (coreBV c) (BitVec.ofNat 5 u))
    else
      Prog.all [
        setCore c (fun k =>
          let k := { k with
            flights := k.flights.filter fun g => !(g.unit = f.unit && g.seq = f.seq)
            undef := f.early (s.time - k.heldTotal) k.undef
            lastLand := if f.lands then assocSet k.lastLand u s.time else k.lastLand }
          k.updArch f.seq fun a => (if f.lands then a.setUnit u (landPorts f) else a).engineDone u),
        Prog.each f.posts (applyPost c f),
        .get fun s => match (s.core c).flights.find? fun g => g.unit = u with
          | none => .done
          | some g => Prog.when_ g.ready
              (postAt (max g.due (s.time + if g.lands then 1 else 0)) 1 (.resultLanding (coreBV c) (BitVec.ofNat 5 u)))]

/-- A deferred effect is being performed (R390). -/
def Core.performing (k : Core) : Bool := k.flights.any fun f => k.released.contains f.seq

/-- The segment is open and not yet closing: a rewind takes it back to its entry (R390, R395). -/
def Core.canRewind (k : Core) : Bool := k.rewind.isSome && (k.seg.map fun g => !g.closing).getD false

/-- One step of a segment's end once every operation has landed (R390): deferred effects and held-back records in trigger order, each after
the one before it has been performed, and last the segment closes. Each takes a trigger number, past those of the segment. -/
def segmentEnd (c : Nat) : Prog := .get fun s =>
  if (s.core c).performing then .done
  else Prog.all [
    setCore c (fun k => { k with seg := k.seg.map fun (g : Segment) => { g with closing := true } }),
    flushRing c,
    match (s.core c).defq with
    | t :: r => .get fun s => Prog.when_ (!t.drained s) <| Prog.all [
        setCore c (fun k => { k with released := t.seq :: k.released, defq := r, trigSeq := k.trigSeq + 1 }),
        postOp 0 { t with released := true, checked := true }]
    | [] => Prog.all [
        setCore c (fun k => { k with released := [], seg := none, arch := k.arch.setSegAct false }),
        pointReached c true]]

end Sys2Proof.Machine
end

