-- ==== Sys2Proof/Machine/Operands.lean ====
section
/-! DEFINITION. Bundles: slots and headers (R43 to R45), source and destination specifiers (R46 to R48), validation (R15, R16,
R23, R53), and what a transport reads (R9, R17 to R20, R26, R27). -/

namespace Sys2Proof.Machine

/-- Domains of registers and ports (R9, R48). -/
inductive Domain where
  | scalar | vector | neutral
  deriving DecidableEq, Repr

/-- The 46 bits of slot s (R43). -/
def slotBits (b : Bundle) (s : Nat) : Nat := field b.toNat (322 - 46 * s) 46

/-- Header bits (R43). -/
def hdrBits (b : Bundle) : Nat := field b.toNat 368 16

/-- KIND, ID and LONGLIT of the header. -/
def hdrKind (b : Bundle) : Nat := field (hdrBits b) 13 3

/-- See hdrKind. -/
def hdrId (b : Bundle) : Nat := field (hdrBits b) 6 6

/-- See hdrKind. -/
def longLit (b : Bundle) : Bool := bit (hdrBits b) 12 = 1

/-- The long literal (R44). -/
def literalOf (b : Bundle) : Nat := slotBits b 7 + slotBits b 6 % 2 ^ 18 * 2 ^ 46

/-- Fields of a transport (R45). -/
def tDelay (x : Nat) : Nat := field x 0 6

/-- See tDelay. -/
def tDest (x : Nat) : Nat := field x 6 21

/-- See tDelay. -/
def tSrc (x : Nat) : Nat := field x 27 13

/-- See tDelay. -/
def tGidx (x : Nat) : Nat := field x 40 4

/-- See tDelay. -/
def tGinv (x : Nat) : Bool := bit x 44 = 1

/-- See tDelay. -/
def tGen (x : Nat) : Bool := bit x 45 = 1

/-- Unit of a destination (R47). -/
def dUnit (d : Nat) : Nat := field d 16 5

/-- Register index of a register-file destination, or port (0 a, 1 b, 2 c, 3 trigger) in bits 14 and 15 (R47). -/
def dReg (d : Nat) : Nat := field d 6 10

/-- See dReg. -/
def dPort (d : Nat) : Nat := field d 14 2

/-- A trigger destination (R47). -/
def isTrig (x : Nat) : Bool := x != 0 && decide (5 ≤ dUnit (tDest x)) && dPort (tDest x) = 3

/-- Vector units, whose every port is in the vector domain (R48). -/
def vectorUnit (u : Nat) : Bool := u = 13 || u = 14 || u = 15 || u = 16 || u = 18 || u = 20

/-- Domain of a destination (R46 to R48). -/
def destDomain (d : Nat) : Domain :=
  let u := dUnit d
  if u < 2 then .scalar
  else if u < 4 then .vector
  else if u = 4 then (if dReg d < 16 then .vector else .scalar)
  else if vectorUnit u then .vector
  else if u = 17 then (if dPort d = 1 ∨ dPort d = 3 then .vector else .scalar)
  else if u = 19 then (if dPort d = 2 then .vector else .scalar)
  else .scalar

/-- A destination is legal (R47, R51, R52). -/
def destLegal (d : Nat) : Bool :=
  let u := dUnit d
  if u < 5 then
    field d 0 6 = 0 && decide (dReg d < (if u = 0 then 32 else if u = 1 then 8 else if u = 2 then 64 else if u = 3 then 8 else 32))
  else if u > 23 then false
  else if dPort d < 3 then field d 0 14 = 0
  else match decodeTrigger d 0 0 with
    | .ok _ => true
    | .error _ => false

/-- A source specifier is legal; class 7 index 0 needs the long literal (R44, R46). -/
def srcLegal (lit : Bool) (s : Nat) : Bool :=
  let i := s % 1024
  match s / 1024 with
  | 0 => i < 32
  | 1 => i < 8
  | 2 => i % 16 = 0 && decide (5 ≤ i / 32) && decide (i / 32 ≤ 23)
  | 3 => true
  | 4 => i < 64
  | 5 => i < 8
  | 6 => i < 32
  | _ => (i = 0 && lit) || i = 1 || (decide (16 ≤ i) && decide (i < 48))

/-- Domain of a source (R46, R48). -/
def srcDomain (s : Nat) : Domain :=
  let i := s % 1024
  match s / 1024 with
  | 0 | 1 => .scalar
  | 2 => if vectorUnit (i / 32) || i / 32 = 17 then .vector else .scalar
  | 3 => .neutral
  | 4 | 5 => .vector
  | 6 => if i < 16 then .vector else .scalar
  | _ => .neutral

/-- A transport breaks none of the rules of R53 that concern one transport. -/
def transportLegal (lit : Bool) (x : Nat) : Bool :=
  x = 0 ||
  ((tGen x || (tGidx x = 0 && !tGinv x)) && destLegal (tDest x) && srcLegal lit (tSrc x) &&
   (tDelay x = 0 || (isTrig x && (engineOf (dUnit (tDest x))).isSome)) &&
   (srcDomain (tSrc x) = .neutral || srcDomain (tSrc x) = destDomain (tDest x)))

/-- What a transport writes, for R15: a key for each register or port, the trigger port counting as port b; with the implicit
writes of CALL, CALLI, ENTER and LEAVE (R83). -/
def writeKeys (x : Nat) : List Nat :=
  let d := tDest x
  let u := dUnit d
  if x = 0 then []
  else if u < 5 then [u * 64 + dReg d]
  else
    let p := if dPort d = 3 then 1 else dPort d
    let implicit := if u = 10 ∧ dPort d = 3 then
      (match field d 6 8 with | 3 | 4 => [31] | 8 => [28, 29, 30] | 9 => [28, 29, 30, 31] | _ => []) else []
    (u * 64 + p) :: implicit

/-- Two transports name one destination (R15). -/
def sameDest (x y : Nat) : Bool := (writeKeys x).any fun k => (writeKeys y).contains k

/-- Guards that can never pass together: one register, opposite inverts (R15). -/
def opposed (x y : Nat) : Bool := tGen x && tGen y && tGidx x = tGidx y && tGinv x != tGinv y

/-- The transports of a bundle, slot by slot; with LONGLIT slots 6 and 7 are none. -/
def transports (b : Bundle) : List Nat := (List.range (if longLit b then 6 else 8)).map (slotBits b)

/-- Step 1 of R23: the header. -/
def headerLegal (b : Bundle) : Bool :=
  field (hdrBits b) 0 6 = 0 && decide (hdrKind b ≤ 2) && (hdrKind b != 0 || hdrId b = 0) &&
  (!longLit b || slotBits b 6 / 2 ^ 18 = 0)

/-- The lowest slot whose transport is illegal: step 2 of R23. -/
def badSlot (b : Bundle) : Option Nat :=
  ((transports b).zipIdx.find? fun p => !transportLegal (longLit b) p.1).map (·.2)

/-- Number of distinct source indices of a class range that a bundle reads. -/
def readCount (ts : List Nat) (cls lo hi : Nat) : Nat :=
  (((ts.filter (· ≠ 0)).map tSrc).filter fun s => s / 1024 = cls ∧ lo ≤ s % 1024 ∧ s % 1024 < hi).dedup.length

/-- Number of transports of a bundle that write a register file. -/
def writeCount (ts : List Nat) (u : Nat) : Nat := (ts.filter fun x => x ≠ 0 ∧ dUnit (tDest x) = u).length

/-- Step 3 of R23: R15's static part and the limits of R16. -/
def limitsLegal (b : Bundle) : Bool :=
  let ts := transports b
  let pairs := ts.zipIdx.all fun p => ts.zipIdx.all fun q =>
    decide (q.2 ≤ p.2) || !sameDest p.1 q.1 || (tGen p.1 && tGen q.1)
  pairs && decide (readCount ts 0 0 32 ≤ 4) && decide (writeCount ts 0 ≤ 2) &&
  decide (readCount ts 4 0 64 ≤ 3) && decide (writeCount ts 2 ≤ 2) &&
  decide (writeCount ts 1 ≤ 4) && decide (writeCount ts 3 ≤ 4) &&
  decide (readCount ts 6 0 32 ≤ 4) && decide (writeCount ts 4 ≤ 2) && decide (readCount ts 7 16 48 ≤ 2)

/-- The first breach of a bundle (R23): the fault code, slot, whether bundle-level, and the failing transport. -/
def validate (b : Bundle) : Option (Nat × Nat × Bool × Nat) :=
  if !headerLegal b then some (0x02, 0, true, 0)
  else match badSlot b with
    | some s => some (0x03, s, false, slotBits b s)
    | none => if limitsLegal b then none else some (0x02, 0, true, 0)

/-- An operation of MA, VL, CE or FX lands a result in y0 (R14). -/
def engineLands (i : Instr) : Bool :=
  match i with
  | .mchk | .vld _ | .vlds _ _ | .vldt | .vgath _ _ | .vscat _ _ | .vscatadd _ _ | .vldz _ | .vstz _ _ _ | .cque _ | .cstat | .rawait _
  | .xjob _ | .sejob _ | .fflowOpen | .fflowAccept | .fflowCloseSend | .fflowCloseRecv | .fwrite _ | .fread _ | .fcadd | .fred _
  | .frate | .frwinRegister _ | .frwinRemove _ => true
  | _ => false

/-- A triggered operation of the engine has not started and will land a result (R49). -/
def captureLands (k : Core) (u : Nat) : Bool :=
  ((engineOf u).map fun e => (nth k.captured e []).any fun t => t.instr.any engineLands).getD false

/-- Result entries of a unit are undefined while a triggered operation of it has not reached its bound, which for a delayed one counts
from its start, whether or not its result has landed meanwhile (R26, R49). -/
def unitUndefined (s : State) (c u : Nat) : Bool :=
  let k := s.core c
  k.flights.any (fun f => f.unit = u && f.lands && decide (unheld s c < f.bound)) || k.early u (unheld s c) || captureLands k u

/-- A general register that an operation will write at landing is undefined before its bound and awaited after it (R83). -/
def regPending (s : State) (c n : Nat) (undef : Bool) : Bool :=
  (s.core c).flights.any (fun f => f.regs.contains n && (decide (unheld s c < f.bound) == undef)) ||
    undef && (s.core c).early (32 + n) (unheld s c)

/-- The same for a predicate, by physical number (R168). -/
def predPending (s : State) (c n : Nat) (undef : Bool) : Bool :=
  (s.core c).flights.any (fun f => f.preds.contains n && (decide (unheld s c < f.bound) == undef)) ||
    undef && (s.core c).early (64 + n) (unheld s c)

/-- The completion ring has nothing to pop but records that the open segment holds back (R389). -/
def Core.heldBack (k : Core) : Bool :=
  decide (k.arch.ring.written ≤ k.arch.ring.popped) &&
  match k.seg, k.arch.ring.reserved.head? with
  | some g, some e => decide (g.first ≤ e.seq)
  | _, _ => false

/-- The freeze cause of the oldest awaited operation of a unit (R401): a CRPOP whose record is held back counts as cause 9. -/
def awaitCause (s : State) (c u : Nat) : Nat :=
  let k := s.core c
  ((k.flights.find? fun f => f.unit = u && f.lands).map fun f =>
    if f.ready then 1 else if u = 12 && f.cause = 1 && k.heldBack then 9 else f.cause).getD 1

/-- Why a source cannot be read yet, if it cannot: the cause and unit of the hold (R27). The flag that a CRPOP will write is read as it
stands, without a hold: no rule says that its reader waits (DESIGN CHOICE, notes/assumptions/20.md). -/
def srcHold (s : State) (c src : Nat) : Option (Nat × Nat) :=
  let i := src % 1024
  match src / 1024 with
  | 0 => if !regPending s c i true && regPending s c i false then some (1, 10) else none
  | 2 =>
    let u := i / 32
    if !unitUndefined s c u && unitAwaited s c u then some (awaitCause s c u, u) else none
  | 6 =>
    let n := (s.core c).arch.physP i
    if i < 16 && !predPending s c n true && predPending s c n false then some (1, 13) else none
  | _ => none

/-- One bit a lane from a mask, as a source reads it (R18). -/
def maskLanes (m : Mask) : Vec := vecOf 256 32 fun l => (m.getLsbD l).toNat

/-- The value a source gives; `vec` says that the destination is in the vector domain, where a neutral source is broadcast
(R9). Where the value is undefined it is free value `free` (R26, R83, R168). -/
def srcValue (s : State) (c : Nat) (vec : Bool) (lit src free : Nat) : Vec :=
  let a := (s.core c).arch
  let i := src % 1024
  let neutral := fun (x : Nat) => if vec then broadcast (x % 2 ^ 32) else wide x
  let fv := Config.freeVec free
  match src / 1024 with
  | 0 => if regPending s c i true then wide (low fv) else wide (nth a.g i 0).toNat
  | 1 => wide (nth a.o i 0).toNat
  | 2 =>
    let u := i / 32
    let p := a.unit u
    let scal := srcDomain src = .scalar
    if unitUndefined s c u then (if scal then wide (low fv) else fv)
    else if bit i 4 = 0 then p.y0 else p.y1
  | 3 => neutral (enc (sint i 10) 64)
  | 4 => nth a.v (a.physV i) 0
  | 5 => nth a.vo i 0
  | 6 =>
    if i < 16 then
      (if predPending s c (a.physP i) true then maskLanes (fv.extractLsb' 0 256) else maskLanes (nth a.p (a.physP i) 0))
    else wide (nth a.f (i - 16) false).toNat
  | _ => if i = 0 then neutral lit else if i = 1 then neutral 0 else neutral (nth a.pb (i - 16) 0).toNat

/-- A scalar guard passes (R20). -/
def guardFlag (s : State) (c x : Nat) : Bool :=
  !tGen x || (nth (s.core c).arch.f (tGidx x) false != tGinv x)

/-- The lanes in which a vector guard passes; none when unguarded (R20, R21). -/
def guardMask (s : State) (c x free : Nat) : Option Mask :=
  if !tGen x then none
  else
    let a := (s.core c).arch
    let n := a.physP (tGidx x)
    let m := if predPending s c n true then (Config.freeVec free).extractLsb' 0 256 else nth a.p n 0
    some (if tGinv x then ~~~m else m)

/-- The guard predicate is awaited (R27). -/
def guardHold (s : State) (c x : Nat) : Bool :=
  tGen x && destDomain (tDest x) = .vector &&
  (let n := (s.core c).arch.physP (tGidx x)
   !predPending s c n true && predPending s c n false)

/-- The lanes of a predicate value: bit 0 of each (R18). -/
def laneBits (v : Vec) : Mask := BitVec.ofNat 256 (ofBits 256 fun l => v.getLsbD (32 * l))

/-- The effect of one transport's write on a core's registers and ports (R14, R18, R21). `m` is the vector guard's mask. -/
def writeDest (a : Arch) (d : Nat) (m : Option Mask) (v : Vec) : Arch :=
  let n := dReg d
  let mix := fun (old : Vec) => match m with | none => v | some m => blend m v old
  match dUnit d with
  | 0 => { a with g := updAt a.g n fun _ => BitVec.ofNat 64 (low v) }
  | 1 => { a with o := updAt a.o n fun _ => BitVec.ofNat 64 (low v) }
  | 2 => { a with v := updAt a.v (a.physV n) mix }
  | 3 => { a with vo := updAt a.vo n mix }
  | 4 =>
    if n < 16 then
      { a with p := updAt a.p (a.physP n) fun old => match m with
          | none => laneBits v
          | some m => (laneBits v &&& m) ||| (old &&& ~~~m) }
    else { a with f := updAt a.f (n - 16) fun _ => v.getLsbD 0 }
  | u =>
    let vec := destDomain d = .vector
    let keep := fun (old : Vec) => if vec then mix old else wide (low v)
    let a := match engineOf u with
      | some e => if m = some 0 && dPort d < 3 then a else { a with active := updAt a.active e fun x => { x with shadow := true } }
      | none => a
    match dPort d with
    | 0 => a.setUnit u fun p => { p with a := keep p.a }
    | 1 => a.setUnit u fun p => { p with b := keep p.b }
    | 2 => a.setUnit u fun p => { p with c := keep p.c }
    | _ => a.setUnit u fun p => { p with b := if vec then v else wide (low v) }

end Sys2Proof.Machine
end

