-- ==== Sys2Proof/Machine/Record.lean ====
section
/-! DEFINITION. Record and replay: decision logs, decisions and their outcomes (R287, R433 to R436), and counter adds, which are
decisions (R275). -/

namespace Sys2Proof.Machine

/-- What a decision says: go on; wait and try again; a truncation marker (R436); or the context diverges, with expected and actual
winner. `log` says that an entry is appended, `use` which entry a replay consumes. -/
inductive Ruling where
  | go (log : Bool) (use : Option Nat)
  | wait (id : Nat)
  | marker (id : Nat)
  | diverge (id expected actual : Nat)
  deriving DecidableEq, Repr

/-- The RRMODE that applies to a context: 0 none, 1 recording, 2 replaying (R433). -/
def rrMode (s : State) (x : Ctx) : Nat := ((regionOf s x.ref).map (·.rrmode)).getD 0

/-- LOGPOL of a context's region: 0 stall, 1 stop (R435). -/
def logPolicy (s : State) (x : Ctx) : Nat := ((regionOf s x.ref).map (·.logpol)).getD 0

/-- The party key of a context's engine (R434): 0 task, 1 to 4 copy channels, 5 lane, 6 stack engine, 7 fabric. -/
def partyKey (s : State) (x : Ctx) (engine : Nat) : Nat :=
  x.key % 256 + dieOf x.core * 2 ^ 8 + s.pkg.nodeId % 2 ^ 15 * 2 ^ 9 + engine * 2 ^ 24

/-- Entry i of a die's log as a number of 128 bits (R433). -/
def logEntry (s : State) (d i : Nat) : Nat :=
  let g := (s.die d).log
  memRead s.mem (g.base + 16 * (i % 2 ^ g.cnt)) 16

/-- KIND, OBJECT and WINNER of an entry (R434). -/
def entryKind (e : Nat) : Nat := field e 0 4

/-- See entryKind. -/
def entryObject (e : Nat) : Nat := field e 8 48

/-- See entryKind. -/
def entryWinner (e : Nat) : Nat := field e 56 32

/-- The class of objects that entries of a kind name (R434): kinds 1 and 4 both name counters. -/
def objectClass (kind : Nat) : Nat := if kind = 4 then 1 else kind

/-- An entry decides about an object (R434, R436), whatever the kind of access it names. -/
def sameObject (kind object e : Nat) : Bool := entryObject e = object && objectClass (entryKind e) = objectClass kind

/-- A context with a party key's logical key, die and node runs on some core, or is saved (R436). -/
def partyLives (s : State) (p : Nat) : Bool :=
  let live := fun (x : Ctx) => x.key % 256 = p % 256 && dieOf x.core = bit p 8
  field p 9 15 != s.pkg.nodeId || (List.range 256).any (fun c => ((s.core c).ctx.map live).getD false) ||
    s.disp.saved.any fun y => live y.ctx

/-- An entry of a log is context x's own (R94, R434): its program values, and the decisions that it won as a task. -/
def ownEntry (s : State) (x : Ctx) (e : Nat) : Bool :=
  match entryKind e with
  | 5 => entryObject e = x.key % 2 ^ 48
  | 0 | 1 | 4 => entryWinner e = partyKey s x 0
  | _ => false

/-- The ruling on a decision of context x (R435, R436): its kind, object and own winner value; `mine` says that the winner names
a party. RLOG takes the context's next entry, which must be of its kind (R94); a winner that comes with an access of another kind diverges. -/
def ruling (s : State) (x : Ctx) (d kind object winner : Nat) (mine : Bool) : Ruling :=
  let g := (s.die d).log
  match rrMode s x with
  | 1 =>
    if g.truncated || g.ctl != 1 then .go false none
    else if g.wp - g.rp ≥ 2 ^ g.cnt then (if logPolicy s x = 0 then .wait g.wp else .go true none)
    else .go true none
  | 2 =>
    if g.truncated || g.ctl != 2 then .go false none
    else
      let left := (List.range g.wp).filter fun i => !g.taken.contains i
      let next := fun (e : Nat) => entryKind e = 6 || (if kind = 5 then ownEntry s x e else sameObject kind object e)
      match left.find? (fun i => next (logEntry s d i)) with
      | none => .diverge g.wp 0 winner
      | some i =>
        let e := logEntry s d i
        if entryKind e = 6 then .marker i
        else if kind = 5 && entryKind e != 5 then .diverge i (entryWinner e) winner
        else if entryKind e != kind && entryWinner e = winner then .diverge i (entryWinner e) winner
        else if entryKind e = kind && (!mine || entryWinner e = winner) then .go false (some i)
        else if kind != 2 && kind != 3 && !partyLives s (entryWinner e) then .diverge i (entryWinner e) winner
        else .wait i
  | _ => .go false none

/-- Appends an entry to a die's log, or the truncation marker when the log is full under the stop policy (R434, R435). -/
def appendLog (d kind object winner : Nat) : Prog := .get fun s =>
  let g := (s.die d).log
  let full := decide (g.wp - g.rp ≥ 2 ^ g.cnt)
  let e := if full then 6 + s.time % 2 ^ 40 * 2 ^ 88
    else kind + object % 2 ^ 48 * 2 ^ 8 + winner % 2 ^ 32 * 2 ^ 56 + s.time % 2 ^ 40 * 2 ^ 88
  Prog.all [
    .eff (.gput (g.base + 16 * (g.wp % 2 ^ g.cnt)) 16 e),
    .eff (.die d fun y => { y with log := { y.log with wp := y.log.wp + 1, truncated := full } })]

/-- The context on core c diverges from its log: class C with both winners in the record (R385, R436). -/
def diverged (c id expected actual : Nat) : Prog :=
  contextEnd c fun s => { coreRecord s c 0x1F 2 id with detail := expected % 2 ^ 32 + actual % 2 ^ 32 * 2 ^ 32 }

/-- A party that is not its context's core diverges, a fabric flow or a merge (R436): class C, with both winners in the record. -/
def partyDiverged (x : Ctx) (d id expected actual : Nat) : Prog := .get fun s => Prog.all [
  errorRecord { code := 0x1F, cls := 2, source := if x.id = 0 then 5 else 0, die := d, ctx := x.id, info := id,
                version := ((regionOf s x.ref).map (·.version)).getD 0, detail := expected % 2 ^ 32 + actual % 2 ^ 32 * 2 ^ 32 },
  domainEnd x.ref]

/-- A party of core c waits in a replay for entry `id` of die d's log; the first wait starts the divergence timer (R436). -/
def replayWaits (c d id : Nat) : Prog := .get fun s =>
  let k := s.core c
  if k.replayWait.isSome then .done
  else Prog.all [
    setCore c (fun k => { k with replayWait := some (s.time, d, id) }),
    postEv (2 ^ ((k.ctx.map (·.wdlim)).getD 22)) 3 (.replayWaitTimeout (coreBV c))]

/-- A replay has met a truncation marker: from then on the region runs unconstrained (R436). -/
def replayFree : Prog := Prog.each [0, 1] fun e => .eff (.die e fun y => { y with log := { y.log with truncated := true } })

/-- The decision id at which a replay meets a truncation marker with a decision of the task on core c, before its bundle issues (R384,
R436). -/
def markerMet (s : State) (c d kind object : Nat) : Option Nat := (s.core c).ctx.bind fun x =>
  match ruling s x d kind object (partyKey s x 0) true with
  | .marker id => some id
  | _ => none

/-- A decision of context x (R287): `go` once it may be made, `wait` to try again later; `inTrap` says that it was triggered in a trap
handler. A marker that is met only here, after the bundle has issued, gives the context 0x20, pending, and the region runs on
unconstrained (R436). -/
def decision (x : Ctx) (d kind object winner : Nat) (mine inTrap : Bool) (go : Prog) (wait : Prog) : Prog := .get fun s =>
  let c := x.core
  let holds := ((s.core c).ctx.map fun y => decide (y.id = x.id)).getD false
  match ruling s x d kind object winner mine with
  | .go log use => Prog.all [
      Prog.when_ log (appendLog d kind object winner),
      Prog.when_ use.isSome (.eff (.die d fun y => { y with log := { y.log with taken := use.getD 0 :: y.log.taken } })),
      Prog.when_ holds (setCore c fun k => { k with replayWait := none }),
      go]
  | .wait id => (Prog.when_ (holds && rrMode s x = 2) (replayWaits c d id)).andThen wait
  | .marker id => Prog.all [
      replayFree,
      Prog.when_ holds (addPending c { code := 0x20, info := BitVec.ofNat 64 id, slot := 0, seq := (s.core c).trigSeq, ready := true, inSeg := false } inTrap),
      go]
  | .diverge id e a => if holds then diverged c id e a else partyDiverged x d id e a

/-- REPLAY_WAIT_TIMEOUT (R436): the awaited winner has not arrived within 2^WDLIM cycles. -/
def replayTimeout (c : Nat) : Prog := .get fun s =>
  let k := s.core c
  match k.replayWait with
  | none => .done
  | some (since, d, id) =>
    let lim := 2 ^ ((k.ctx.map (·.wdlim)).getD 22)
    if s.time < since + lim then postAt (since + lim) 3 (.replayWaitTimeout (coreBV c))
    else
      let e := logEntry s d id
      diverged c id (entryWinner e) ((k.ctx.map fun x => partyKey s x 0).getD 0)

/-- A counter of the other die that the link does not reach from die d. -/
def ctrCut (s : State) (d h : Nat) : Bool := linkDown s d (bit h 16)

/-- The work of a context on core c needs the link and does not get it: the region ends with 0x1E (R407, R415).
There is no flow or stripe for INFO, which is 0 (R384). -/
def linkLost (c addr : Nat) : Prog := contextEnd c fun s => { coreRecord s c 0x1E 2 0 with addr := addr }

/-- A counter operation of core c reaches its die, or ends with 0x1E. -/
def ctrReach (c h : Nat) (go : Prog) : Prog := .get fun s =>
  if ctrCut s (dieOf c) h then linkLost c 0 else go

end Sys2Proof.Machine
end

