-- ==== Sys2Proof/Machine/Run.lean ====
section
/-! DEFINITION. How a triggered operation runs (R13, R14, R28, R34): its operands, its own check where its bundle has not already
made it, then its effect. -/

namespace Sys2Proof.Machine

/-- Operand a, b or c as a scalar (R14, R63). -/
def Trig.sa (t : Trig) : Nat := low t.a

/-- See sa. -/
def Trig.sb (t : Trig) : Nat := low t.b

/-- See sa. -/
def Trig.sc (t : Trig) : Nat := low t.c

/-- General register n as a bundle finds it at its start; a free value while it is undefined (R13, R83). -/
def bundleReg (s : State) (c n free : Nat) : Nat :=
  if regPending s c n true then low (Config.freeVec free) else (nth (s.core c).arch.g n 0).toNat

/-- The predicate named n as a bundle finds it at its start; free while it is undefined (R19, R168). -/
def bundlePred (s : State) (c n free : Nat) : Nat :=
  let a := (s.core c).arch
  if predPending s c (a.physP n) true then (Config.freeVec free).toNat % 2 ^ 256 else (nth a.p (a.physP n) 0).toNat

/-- The 64-byte block that an FX trigger names, as its bundle reads it on path S (R440); zero where its address is refused. -/
def blockAt (s : State) (c : Nat) (g : Bool) (a : Nat) : Nat :=
  match coreAccess s c 0 g false false a 64 with
  | .ok l => readPieces s l
  | .error _ => 0

/-- STATE's code (R214). -/
def TileState.code : TileState → Nat
  | .empty => 0 | .filling => 1 | .ready => 2 | .draining => 3

/-- FILLER's code (R214). -/
def Filler.code : Filler → Nat
  | .program => 0 | .copyEngine => 1 | .matrix => 2

/-- Word 1 of an entry (R214). -/
def Tile.word1 (x : Tile) : Nat :=
  x.state.code + (x.busy != 0).toNat * 2 ^ 2 + x.buckle.isSome.toNat * 2 ^ 3 + ((x.buckle.map (·.1)).getD 0) % 64 * 2 ^ 4 +
  x.stale.toNat * 2 ^ 10 + x.cfg.toNat * 2 ^ 11 + (if x.state = .filling then x.filler.code else 0) * 2 ^ 12 +
  ((x.buckle.map (·.2.toNat)).getD 0) * 2 ^ 16

/-- What an operation reads at its bundle's start without a transport (R13): g28 to g31 for BC (R83); the sixteen predicates by name,
then ROTP from bit 4096, for VA (R168); the index register that port c names for VL (R349); of TT the tile entry that port b names for
TSTATE (R218) and for THAND the first trigger of its bundle (R235); the block at `a` for FX (R440). -/
def bundleReads (s : State) (c dest a portB portC free : Nat) : Vec :=
  let k := (s.core c).arch
  match field dest 16 5 with
  | 10 => vecOf 4 64 fun i => bundleReg s c (28 + i) free
  | 13 | 14 => BitVec.ofNat 8192 (ofDigits 16 256 (fun i => bundlePred s c i free) + field (k.sr 8).toNat 0 3 * 2 ^ 4096)
  | 17 => nth k.v (k.physV (portC % 64)) 0
  | 21 => match field dest 6 8 with
    | 2 =>
      let x := nth k.tiles (portB % 64) Tile.reset
      BitVec.ofNat 8192 (x.word.toNat + x.word1 * 2 ^ 64)
    | 5 => wide (s.core c).trigSeq
    | _ => 0
  | 23 => match field dest 6 8 with
    | 2 | 3 | 7 => BitVec.ofNat 8192 (blockAt s c (bit dest 0 = 1) a)
    | _ => 0
  | _ => 0

/-- Such a register is awaited: the bundle holds (R27). -/
def bundleReadsHold (s : State) (c unit opcode : Nat) : Bool :=
  match unit with
  | 10 => (opcode = 8 || opcode = 9) && (List.range 4).any fun i =>
      !regPending s c (28 + i) true && regPending s c (28 + i) false
  | 13 | 14 => opcode = 0x1F && (List.range 16).any fun i =>
      let n := (s.core c).arch.physP i
      !predPending s c n true && predPending s c n false
  | _ => false

/-- The trigger before which a release covers accesses: its own, or, for a deferred release, one after every trigger
of the segment, whose end has counted it (R276, R285). -/
def Trig.covers (t : Trig) (s : State) : Nat := if t.released then (s.core t.core).trigSeq - 1 else t.seq

/-- The check of an operation that may always issue. -/
def always (_ : State) (_ : Trig) : Verdict := .go

/-- The core waits for the walk of a page (R75, R255); a walk under way is not started again. -/
def startWalk (c va : Nat) : Prog := .get fun s =>
  if (s.core c).walk = some (va / 2 ^ 16) then .done
  else Prog.all [
    setCore c (fun k => { k with walk := some (va / 2 ^ 16) }),
    postEv 200 3 (.pageWalk (coreBV c) (BitVec.ofNat 48 va))]

/-- What an operation does under its check's verdict: its effect, another try in the next cycle, or a precise fault. -/
def under (v : Verdict) (t : Trig) (body : Prog) : Prog :=
  match v with
  | .go => body
  | .hold _ _ _ | .unread .. => postOp 1 t
  | .walk va => (startWalk t.core va).andThen (postOp 1 t)
  | .bad code i => (Prog.when_ (code = 0x20) replayFree).andThen (raiseBefore t code i)

/-- A triggered operation: its unit, its check as its bundle issues (R34), and its effect. -/
structure Op where
  unit : Nat
  chk : State → Trig → Verdict
  body : State → Trig → Prog

/-- The operation of a unit with a check and an effect. -/
def opRun (unit : Nat) (chk : State → Trig → Verdict) (body : State → Trig → Prog) : Op := ⟨unit, chk, body⟩

/-- What an operation does: the check, unless its bundle made it, and the effect. -/
def Op.prog (o : Op) : Prog := .get fun s =>
  let t := { s.cur with unit := o.unit }
  let seen := t.sees s
  if t.checked then o.body seen t else under (o.chk seen t) t (o.body seen t)

/-- An operation's outcome. -/
def runOp (o : Op) (s : State) : Host.Outcome State Fault Refusal := ran o.prog s

/-- Two checks in order: a hold or walk of either goes before a fault, and the first one's fault before the second's (R34). -/
def Verdict.and (v w : Verdict) : Verdict :=
  match v, w with
  | .go, _ => w
  | .bad .., .hold .. | .bad .., .walk _ | .bad .., .unread .. => w
  | _, _ => v

/-- A check that means something only where the one before it passes. -/
def Verdict.then_ (v w : Verdict) : Verdict :=
  match v with
  | .go => w
  | _ => v

/-- A fault when a condition fails. -/
def need (ok : Bool) (code : Nat) (i : Nat) : Verdict := if ok then .go else .bad code (info i)

/-- The operation that a bundle waited for is abandoned (R29, R399): a result is discarded when it arrives, a wait for a record or a
ring ends, a reserved ring entry is released. -/
def abandon (c unit : Nat) : Prog := .get fun s =>
  let k := s.core c
  let waited := fun (f : Flight) =>
    (f.unit = unit && (f.lands || !f.regs.isEmpty) || unit = 13 && !f.preds.isEmpty) && decide (f.bound ≤ unheld s c)
  match k.flights.find? waited with
  | none => .done
  | some f =>
    let same := fun (g : Flight) => g.unit = f.unit && g.seq = f.seq
    let polls := !f.ready && !f.deferred && (unit = 12 || unit = 22 || unit = 21)
    Prog.all [
      Prog.when_ polls (.eff (.purge fun x => match x.what with
        | .op t => t.core = c && t.unit = unit && t.seq = f.seq
        | .ev _ => false)),
      setCore c (fun k =>
        let k := { k with
          flights := if polls then k.flights.filter (fun g => !same g) else k.flights.map fun g => if same g then g.drop else g }
        k.updArch f.seq fun a =>
          let a := { a with ring := { a.ring with reserved := a.ring.reserved.filter fun e => e.seq != f.seq } }
          if polls then a.engineDone unit else a),
      postEv 1 1 (.resultLanding (coreBV c) (BitVec.ofNat 5 unit))]

/-- The watchdog's limit in cycles (R29, R99). -/
def watchLimit (k : Core) : Nat := 2 ^ ((k.ctx.map (·.wdlim)).getD 22)

/-- A freeze timeout (R29, R399 to R401): what is waited for is abandoned, and the bundle at `pc` takes 0x19. TRAPCAUSE has SLOT 0 and
BLEVEL 0: no rule names their values for a held bundle (DESIGN CHOICE, notes/assumptions/20.md). -/
def freeze (c pc : Nat) : Prog := .get fun s =>
  let k := s.core c
  let cause := field k.holdInfo.toNat 8 8
  Prog.all [
    Prog.when_ (cause = 1 || cause = 9) (abandon c (field k.holdInfo.toNat 0 5)),
    flushRing c,
    setCore c (fun k => { k with held := 0, walk := none, walked := [] }),
    raise c { code := 0x19, info := k.holdInfo, slot := 0, blevel := false, pc := some pc, inTrap := k.arch.inTrap }]

/-- A cycle in which a segment entry, a HALT, an ERET or a trap entry waits for operations to land counts for the watchdog as a held one
does, though the clock of the engines runs on; at the limit the first operation awaited is abandoned and the bundle at `pc` takes
0x19 (R29, R88; notes/assumptions/23.md). -/
def countWait (c pc : Nat) (again : Prog) : Prog := .get fun s =>
  let k := s.core c
  let f := k.flights.find? fun f => !f.ready
  Prog.all [
    setCore c (fun k => { k with
      held := k.held + 1
      holdInfo := info ((f.map (·.unit)).getD 0 % 32 + 2 ^ 8) }),
    if watchLimit k ≤ k.held + 1 then freeze c pc else again]

end Sys2Proof.Machine
end

