-- ==== Sys2Proof/Machine/Agenda.lean ====
section
/-! DEFINITION. Which step comes next (notes/assumptions/1.md), and placing one instruction so that it is the next. -/

namespace Sys2Proof.Machine

/-- What a step finds: a reason to stop, or an instruction and the state it runs in. -/
inductive Due where
  | stop (f : Fault)
  | refuse (r : Refusal)
  | run (i : Instr) (s : State)
  deriving DecidableEq, Repr

/-- The instruction of the earliest pending item; package time moves to it. A triggered operation is decoded here from its
destination word, with a run-time mode operand from its captured operands (R47, R51, R52). -/
def dueItem (s : State) : Due :=
  if s.pkg.tripped then .stop .poweredOff
  else match s.agenda with
    | [] => .stop .idle
    | x :: rest =>
      let s1 := { s with time := max s.time x.at_, agenda := rest }
      match x.what with
      | .ev i => .run i { s1 with cur := Trig.none }
      | .op t =>
        match decodeTrigger t.dest (low t.a) (low t.b) with
        | .ok i => .run i { s1 with cur := t }
        | .error _ => .refuse (.undecodable t.dest)

/-- The trigger that stands for an instruction word placed from outside: on core 0 at the present time, its operands zero but
for the mode that selects among the rows of one opcode (notes/assumptions/8.md). -/
def placedTrig (s : State) (w : Nat) : Trig :=
  let sel := field w 21 2
  let m := if field w 16 5 = 23 ∧ field w 6 8 = 7 then sel * 256 else sel
  { Trig.none with
    unit := field w 16 5
    dest := w % 2 ^ 21
    seq := (s.core 0).trigSeq
    t0 := s.time
    u0 := unheld s 0
    aux := bundleReads s 0 w m m m s.fresh
    srSeq := (s.core 0).arch.srSeq
    maSeq := (s.core 0).arch.maSeq
    a := wide m
    b := wide m }

/-- The item that makes an instruction word the next step. -/
def placedItem (s : State) (w : Nat) : Item :=
  if bitOf w 23 then
    match decodeWord? w with
    | some i => ⟨s.time, 0, .ev i⟩
    | none => ⟨s.time, 0, .op { Trig.none with dest := 0 }⟩
  else ⟨s.time, 0, .op (placedTrig s w)⟩

end Sys2Proof.Machine
end

