-- ==== Sys2Proof/Machine/Alu.lean ====
section
/-! DEFINITION. The integer units: IA0 and IA1 (R66), IM (R67, R68). -/

namespace Sys2Proof.Machine

/-- An operation of IA0 or IA1: y0 lands within 1 cycle (R66). -/
def aluOp (u : Bool) (f : Nat → Nat → Nat → Nat) : Op :=
  opRun (if u then 6 else 5) always fun _ t => land t 1 (wide (f t.sa t.sb t.sc)) []

/-- A comparison lands 1 or 0 (R66). -/
def flagOf (b : Bool) : Nat := if b then 1 else 0

/-- The shift count b<0..5> (R66). -/
def shiftOf (b : Nat) : Nat := b % 64

/-- w of BFX and BFI: min(b<8..14>, 64) (R66). -/
def fieldWidth (b : Nat) : Nat := min (field b 8 7) 64

/-- Number of leading zero bits of a 64-bit value; 64 for zero (R66). -/
def leadingZeros (b : Nat) : Nat := 64 - bitlen b

/-- Number of trailing zero bits of a 64-bit value; 64 for zero (R66). -/
def trailingZeros (b : Nat) : Nat := ((List.range 64).find? fun i => bit b i = 1).getD 64

/-- Number of 1 bits (R66). -/
def popCount (n x : Nat) : Nat := ((List.range n).filter fun i => bit x i = 1).length

/-- a with bits sh + 1 to 63 equal to bit sh (R66). -/
def signFrom (a sh : Nat) : Nat := enc (sint a (sh + 1)) 64

/-- a with bits p to p + w - 1 replaced by the low w bits of c, within 64 bits (R66). -/
def insertField (a p w c : Nat) : Nat :=
  let n := min w (64 - p)
  a - field a p n * 2 ^ p + c % 2 ^ n * 2 ^ p

def opAdd (u : Bool) : Op := aluOp u fun a b _ => a + b
def execAdd (u : Bool) (s : State) : Host.Outcome State Fault Refusal := runOp (opAdd u) s
def opSub (u : Bool) : Op := aluOp u fun a b _ => a + 2 ^ 64 - b
def execSub (u : Bool) (s : State) : Host.Outcome State Fault Refusal := runOp (opSub u) s
def opAnd (u : Bool) : Op := aluOp u fun a b _ => a &&& b
def execAnd (u : Bool) (s : State) : Host.Outcome State Fault Refusal := runOp (opAnd u) s
def opOr (u : Bool) : Op := aluOp u fun a b _ => a ||| b
def execOr (u : Bool) (s : State) : Host.Outcome State Fault Refusal := runOp (opOr u) s
def opXor (u : Bool) : Op := aluOp u fun a b _ => a ^^^ b
def execXor (u : Bool) (s : State) : Host.Outcome State Fault Refusal := runOp (opXor u) s

/-- ANDN (R66): a AND NOT b. -/
def opAndn (u : Bool) : Op :=
  aluOp u fun a b _ => a &&& (2 ^ 64 - 1 - b)
def execAndn (u : Bool) (s : State) : Host.Outcome State Fault Refusal := runOp (opAndn u) s

/-- SHL (R66). -/
def opShl (u : Bool) : Op :=
  aluOp u fun a b _ => a * 2 ^ shiftOf b
def execShl (u : Bool) (s : State) : Host.Outcome State Fault Refusal := runOp (opShl u) s

/-- SHR (R66). -/
def opShr (u : Bool) : Op :=
  aluOp u fun a b _ => a / 2 ^ shiftOf b
def execShr (u : Bool) (s : State) : Host.Outcome State Fault Refusal := runOp (opShr u) s

/-- SAR (R66). -/
def opSar (u : Bool) : Op :=
  aluOp u fun a b _ => enc (sint a 64 / 2 ^ shiftOf b) 64
def execSar (u : Bool) (s : State) : Host.Outcome State Fault Refusal := runOp (opSar u) s

/-- ROL (R66). -/
def opRol (u : Bool) : Op :=
  aluOp u fun a b _ => a * 2 ^ shiftOf b % 2 ^ 64 + a / 2 ^ (64 - shiftOf b)
def execRol (u : Bool) (s : State) : Host.Outcome State Fault Refusal := runOp (opRol u) s

def opCeq (u : Bool) : Op :=
  aluOp u fun a b _ => flagOf (decide (a = b))
def execCeq (u : Bool) (s : State) : Host.Outcome State Fault Refusal := runOp (opCeq u) s
def opCne (u : Bool) : Op :=
  aluOp u fun a b _ => flagOf (decide (a ≠ b))
def execCne (u : Bool) (s : State) : Host.Outcome State Fault Refusal := runOp (opCne u) s
def opClt (u : Bool) : Op :=
  aluOp u fun a b _ => flagOf (decide (sint a 64 < sint b 64))
def execClt (u : Bool) (s : State) : Host.Outcome State Fault Refusal := runOp (opClt u) s
def opCltu (u : Bool) : Op :=
  aluOp u fun a b _ => flagOf (decide (a < b))
def execCltu (u : Bool) (s : State) : Host.Outcome State Fault Refusal := runOp (opCltu u) s
def opCle (u : Bool) : Op :=
  aluOp u fun a b _ => flagOf (decide (sint a 64 ≤ sint b 64))
def execCle (u : Bool) (s : State) : Host.Outcome State Fault Refusal := runOp (opCle u) s
def opCleu (u : Bool) : Op :=
  aluOp u fun a b _ => flagOf (decide (a ≤ b))
def execCleu (u : Bool) (s : State) : Host.Outcome State Fault Refusal := runOp (opCleu u) s
def opMin (u : Bool) : Op :=
  aluOp u fun a b _ => if sint a 64 ≤ sint b 64 then a else b
def execMin (u : Bool) (s : State) : Host.Outcome State Fault Refusal := runOp (opMin u) s
def opMax (u : Bool) : Op :=
  aluOp u fun a b _ => if sint a 64 ≤ sint b 64 then b else a
def execMax (u : Bool) (s : State) : Host.Outcome State Fault Refusal := runOp (opMax u) s
def opMinu (u : Bool) : Op := aluOp u fun a b _ => Nat.min a b
def execMinu (u : Bool) (s : State) : Host.Outcome State Fault Refusal := runOp (opMinu u) s
def opMaxu (u : Bool) : Op := aluOp u fun a b _ => Nat.max a b
def execMaxu (u : Bool) (s : State) : Host.Outcome State Fault Refusal := runOp (opMaxu u) s
def opSel (u : Bool) : Op :=
  aluOp u fun a b c => if bit c 0 = 1 then a else b
def execSel (u : Bool) (s : State) : Host.Outcome State Fault Refusal := runOp (opSel u) s

/-- CLZ (R66): leading zeros of b. -/
def opClz (u : Bool) : Op := aluOp u fun _ b _ => leadingZeros b
def execClz (u : Bool) (s : State) : Host.Outcome State Fault Refusal := runOp (opClz u) s
/-- CTZ (R66): trailing zeros of b. -/
def opCtz (u : Bool) : Op := aluOp u fun _ b _ => trailingZeros b
def execCtz (u : Bool) (s : State) : Host.Outcome State Fault Refusal := runOp (opCtz u) s
/-- POPC (R66). -/
def opPopc (u : Bool) : Op := aluOp u fun _ b _ => popCount 64 b
def execPopc (u : Bool) (s : State) : Host.Outcome State Fault Refusal := runOp (opPopc u) s
/-- SEXT (R66). -/
def opSext (u : Bool) : Op :=
  aluOp u fun a b _ => signFrom a (shiftOf b)
def execSext (u : Bool) (s : State) : Host.Outcome State Fault Refusal := runOp (opSext u) s
/-- ZEXT (R66). -/
def opZext (u : Bool) : Op :=
  aluOp u fun a b _ => a % 2 ^ (shiftOf b + 1)
def execZext (u : Bool) (s : State) : Host.Outcome State Fault Refusal := runOp (opZext u) s
/-- ADDSH (R66). -/
def opAddsh (u : Bool) : Op :=
  aluOp u fun a b c => a + b * 2 ^ (c % 4)
def execAddsh (u : Bool) (s : State) : Host.Outcome State Fault Refusal := runOp (opAddsh u) s
/-- BFX (R66). -/
def opBfx (u : Bool) : Op :=
  aluOp u fun a b _ => field a (shiftOf b) (fieldWidth b)
def execBfx (u : Bool) (s : State) : Host.Outcome State Fault Refusal := runOp (opBfx u) s
/-- BFI (R66). -/
def opBfi (u : Bool) : Op :=
  aluOp u fun a b c => insertField a (shiftOf b) (fieldWidth b) c
def execBfi (u : Bool) (s : State) : Host.Outcome State Fault Refusal := runOp (opBfi u) s

/-- A multiplication of IM (R67). -/
def mulOp (f : Nat → Nat → Nat) : Op := opRun 7 always fun _ t => land t 3 (wide (f t.sa t.sb)) []

/-- The check of a division (R68). -/
def divCheck (_ : State) (t : Trig) : Verdict := need (t.sb != 0) 0x07 t.sa

/-- A division of IM (R67, R68). -/
def divOp (f : Nat → Nat → Nat) : Op := opRun 7 divCheck fun _ t => land t 20 (wide (f t.sa t.sb)) []

/-- MUL (R67). -/
def opMul : Op := mulOp fun a b => a * b
def execMul (s : State) : Host.Outcome State Fault Refusal := runOp opMul s
/-- MULH (R67). -/
def opMulh : Op :=
  mulOp fun a b => enc (sint a 64 * sint b 64 / 2 ^ 64) 64
def execMulh (s : State) : Host.Outcome State Fault Refusal := runOp opMulh s
/-- MULHU (R67). -/
def opMulhu : Op := mulOp fun a b => a * b / 2 ^ 64
def execMulhu (s : State) : Host.Outcome State Fault Refusal := runOp opMulhu s
/-- DIV (R67): truncated toward zero. -/
def opDiv : Op :=
  divOp fun a b => enc (Int.tdiv (sint a 64) (sint b 64)) 64
def execDiv (s : State) : Host.Outcome State Fault Refusal := runOp opDiv s
/-- DIVU (R67). -/
def opDivu : Op := divOp fun a b => a / b
def execDivu (s : State) : Host.Outcome State Fault Refusal := runOp opDivu s
/-- REM (R67): the sign of the dividend. -/
def opRem : Op :=
  divOp fun a b => enc (Int.tmod (sint a 64) (sint b 64)) 64
def execRem (s : State) : Host.Outcome State Fault Refusal := runOp opRem s
/-- REMU (R67). -/
def opRemu : Op := divOp fun a b => a % b
def execRemu (s : State) : Host.Outcome State Fault Refusal := runOp opRemu s

end Sys2Proof.Machine
end

