-- ==== Sys2Proof/Machine/Accum.lean ====
section
/-! DEFINITION. Block products and the window accumulator (R142 to R150). -/

namespace Sys2Proof.Machine

/-- An element of a block as R142 takes it: sign, significand, exponent, or a special class. -/
structure BlockEl where
  neg : Bool
  m : Nat
  q : Int
  inf : Bool
  nan : Bool
  deriving DecidableEq, Repr

/-- Significand width of a format as R143 uses it: BSF4 with its scale folded has 8 (R142). -/
def blockWidth (f : Fmt) : Nat :=
  match f with
  | .e2m1 => 2 | .e2m3 => 4 | .e3m2 => 3 | .e4m3 => 4 | .e5m2 => 3 | .mxint8 => 8 | .bsf4 => 8 | .bf16 => 8 | _ => 24

/-- The value of a code as significand and exponent (R125 to R127); zero codes keep the exponent of their format's smallest
field. -/
def codeParts (f : Fmt) (code : Nat) : BlockEl :=
  match f with
  | .mxint8 => let n := sint code 8; ⟨decide (n < 0), n.natAbs, -6, false, false⟩
  | .bsf4 =>
    let x := field code 1 2
    ⟨bit code 3 = 1, if code % 16 = 0 then 0 else 2 + code % 2, (x : Int) - 2, false, false⟩
  | _ => match f.decode code with
    | .fin n m e => ⟨n, m, e, false, false⟩
    | .inf n => ⟨n, 0, 0, true, false⟩
    | .nan _ => ⟨false, 0, 0, false, true⟩

/-- A BSF4 element combined with its E3M5 scale (R131, R142). -/
def foldScale (sg : Nat) (x : BlockEl) : BlockEl :=
  if sg = 255 then { x with nan := true }
  else
    let ms := if sg = 0 then 0 else 32 + sg % 32
    { x with m := x.m * ms, q := x.q + ((sg / 32 : Nat) : Int) - 8 }

/-- A block's contribution: its class, P and e (R143, R144). -/
structure Contribution where
  cls : AccClass
  p : Int
  e : Int
  deriving DecidableEq, Repr

/-- The contribution of one block of 32 K-positions (R143, R144). `wa` and `wb` are the significand widths; the scales are the E8M0
codes of an MX block, or none. -/
def blockProduct (a b : List BlockEl) (wa wb : Nat) (scales : Option (Nat × Nat)) : Contribution :=
  let pairs := a.zip b
  let zero := fun (x : BlockEl) => !x.inf && x.m = 0
  let nan := pairs.any (fun p => p.1.nan || p.2.nan || (p.1.inf && zero p.2) || (p.2.inf && zero p.1)) ||
    (match scales with | some (x, y) => x = 255 || y = 255 | none => false)
  let infs := (pairs.filter fun p => p.1.inf || p.2.inf).map fun p => p.1.neg != p.2.neg
  if nan || (infs.contains true && infs.contains false) then ⟨.nan, 0, 0⟩
  else match infs with
    | n :: _ => ⟨if n then .ninf else .pinf, 0, 0⟩
    | [] =>
      let qs := pairs.map fun p => p.1.q + p.2.q
      let top : Int := qs.foldl max (qs.head?.getD 0) + (wa : Int) + (wb : Int) + 5
      let e := top - 75
      let term := fun (x y : BlockEl) =>
        let f := frac (x.m * y.m) (x.q + y.q - e)
        let v : Int := ((f.1 / f.2 : Nat) : Int)
        if x.neg != y.neg then -v else v
      let p := pairs.foldl (fun acc x => acc + term x.1 x.2) 0
      ⟨.fin, p, match scales with | some (x, y) => e + ((x : Int) - 127) + ((y : Int) - 127) | none => e⟩

/-- Truncation toward zero in sign-magnitude by n bits (R147). -/
def truncBits (x : Int) (n : Nat) : Int := if x < 0 then -((x.natAbs / 2 ^ n : Nat) : Int) else ((x.natAbs / 2 ^ n : Nat) : Int)

/-- The smallest n that brings x into -2^94 to 2^94 - 1 after truncation (R147). -/
def fitBits (x : Int) : Nat :=
  let k := bitlen x.natAbs - 94
  let fits := fun (n : Nat) => decide (-(2 ^ 94) ≤ truncBits x n) && decide (truncBits x n < 2 ^ 94)
  if 0 < k && fits (k - 1) then k - 1 else k

/-- A special class as an element (R146). -/
def accSpecial (c : AccClass) : AccEl := ⟨c, 0, -2048⟩

/-- A finite significand and exponent brought into the window (R147). -/
def accFit (x m : Int) : AccEl :=
  if x = 0 then AccEl.zero
  else
    let n := fitBits x
    if m + (n : Int) > 2047 then accSpecial (if x < 0 then .ninf else .pinf) else ⟨.fin, truncBits x n, m + (n : Int)⟩

/-- Adds a contribution to an element (R147). -/
def accAdd (a : AccEl) (c : Contribution) : AccEl :=
  match a.cls, c.cls with
  | .nan, _ => accSpecial .nan
  | _, .nan => accSpecial .nan
  | .pinf, .ninf => accSpecial .nan
  | .ninf, .pinf => accSpecial .nan
  | _, .pinf => accSpecial .pinf
  | _, .ninf => accSpecial .ninf
  | .pinf, .fin => a
  | .ninf, .fin => a
  | .fin, .fin =>
    if c.p = 0 then a
    else
      let m := min a.e c.e
      accFit (a.s * 2 ^ (a.e - m).toNat + c.p * 2 ^ (c.e - m).toNat) m

/-- The finite value of an element. -/
def AccEl.num (a : AccEl) : Num :=
  match a.cls with
  | .nan => .nan false
  | .pinf => .inf false
  | .ninf => .inf true
  | .fin => .fin (decide (a.s < 0)) a.s.natAbs a.e

/-- An element of an FP32 code, exactly (R148, R179): significand and exponent of the code's integer form. -/
def accOfF32 (code : Nat) : AccEl :=
  match f32 code with
  | .nan _ => accSpecial .nan
  | .inf n => accSpecial (if n then .ninf else .pinf)
  | .fin n m e => if m = 0 then AccEl.zero else ⟨.fin, if n then -(m : Int) else (m : Int), e⟩

/-- Profile 3's rounding after every add (R148). -/
def roundEl (a : AccEl) : AccEl :=
  match a.cls with
  | .fin => if a.s = 0 then AccEl.zero else accOfF32 (roundIeee .f32 0 a.num)
  | _ => a

/-- An add under a profile (R147, R148). -/
def accAddUnder (profile : Nat) (a : AccEl) (c : Contribution) : AccEl :=
  if profile = 3 then roundEl (accAdd a c) else accAdd a c

/-- The class code of R146. -/
def AccClass.code : AccClass → Nat
  | .fin => 0 | .pinf => 1 | .ninf => 2 | .nan => 3

/-- The 16-byte image of an element (R146). -/
def AccEl.image (a : AccEl) : Nat := enc a.s 96 + enc a.e 12 * 2 ^ 96 + a.cls.code * 2 ^ 108

/-- The element of an image; none when it is ill-formed (R146). -/
def accOfImage (x : Nat) : Option AccEl :=
  let s := sint x 96
  let e := sint (field x 96 12) 12
  let c := field x 108 2
  if field x 110 18 ≠ 0 then none
  else if s < -(2 ^ 94) ∨ 2 ^ 94 ≤ s then none
  else if s = 0 ∧ e ≠ -2048 then none
  else if c ≠ 0 ∧ (s ≠ 0 ∨ e ≠ -2048) then none
  else match c with
    | 0 => some ⟨.fin, s, e⟩
    | 1 => some (accSpecial .pinf)
    | 2 => some (accSpecial .ninf)
    | _ => some (accSpecial .nan)

/-- An element as a contribution, for MRAWADD (R147). -/
def AccEl.contribution (a : AccEl) : Contribution := ⟨a.cls, a.s, a.e⟩

/-- The drain of one element with its band scales, to FP32 or BF16 (R149, R150): no overflow bit; a zero result is +0. -/
def drainEl (f : Fmt) (rm rbits : Nat) (a : AccEl) (bandA bandB : Nat) : Conv :=
  let v := Num.mul (Num.mul (Fmt.bf16.decode bandA) (Fmt.bf16.decode bandB)) (a.num)
  let v := match a.cls, Fmt.bf16.decode bandA, Fmt.bf16.decode bandB with
    | .nan, _, _ => Num.nan false
    | _, .nan _, _ => Num.nan false
    | _, _, .nan _ => Num.nan false
    | _, _, _ => v
  let r := convert f rm rbits false v
  if v.isZero then { r with code := 0 }
  else if r.code = 2 ^ (f.width - 1) then { r with code := 0 } else r

end Sys2Proof.Machine
end

