-- ==== Sys2Proof/Machine/Lanes.lean ====
section
/-! DEFINITION. What the vector units share: elements (R155, R156), lane masks (R21), rounding in elements (R162, R163), random bits
and tie-breaking (R151 to R154), completion records (R158). -/

namespace Sys2Proof.Machine

/-- Element j of width w (R155). -/
def el (v : Vec) (w j : Nat) : Nat := digit v.toNat w j

/-- Number of elements of width w (R155). -/
def elCount (w : Nat) : Nat := 8192 / w

/-- The lane-0 parameter of a port (R156). -/
def param (v : Vec) : Nat := v.toNat % 2 ^ 32

/-- Lane l passes the guard of the trigger (R21). -/
def passes (t : Trig) (l : Nat) : Bool :=
  match t.mask with
  | none => true
  | some m => m.getLsbD l

/-- The lanes that pass, in lane order. -/
def passing (t : Trig) : List Nat := (List.range 256).filter (passes t)

/-- Element-wise result of one operand. -/
def map1 (w : Nat) (f : Nat → Nat) (x : Vec) : Vec := vecOf (elCount w) w fun j => f (el x w j)

/-- Element-wise result of two operands. -/
def map2 (w : Nat) (f : Nat → Nat → Nat) (x y : Vec) : Vec := vecOf (elCount w) w fun j => f (el x w j) (el y w j)

/-- Element-wise result of three operands. -/
def map3 (w : Nat) (f : Nat → Nat → Nat → Nat) (x y z : Vec) : Vec :=
  vecOf (elCount w) w fun j => f (el x w j) (el y w j) (el z w j)

/-- An integer result of a type: wrapped, or with `.sat` clamped (R163). -/
def intResult (ty : ElemType) (sat : Bool) (z : Int) : Nat := enc (if sat then tyClamp ty z else z) (tyWidth ty)

/-- A float result of a type, rounded once (R162). -/
def floatResult (ty : ElemType) (rm : Nat) (x : Num) : Nat := roundIeee (tyFmt ty) rm x

/-- The smaller, or with `max_` the larger, of two elements: for floats -0 lies below +0, a NaN yields the other operand, two NaNs
the canonical NaN (R164). -/
def pickElem (ty : ElemType) (max_ : Bool) (a b : Nat) : Nat :=
  if tyFloat ty then
    let x := tyNum ty a
    let y := tyNum ty b
    let below := x.lt y || (x.eq y && x.neg? && !y.neg?)
    if x.isNan && y.isNan then (tyFmt ty).nanCode else if x.isNan then b else if y.isNan then a
    else if below != max_ then a else b
  else if decide (tyInt ty a ≤ tyInt ty b) != max_ then a else b

/-- The linear tile index of the task on a core and its logical key (R95, R121, R152). -/
def taskKeys (s : State) (c : Nat) : Nat × Nat :=
  match (s.core c).ctx with
  | none => (0, 0)
  | some x => (x.task, x.key)

/-- The random bits of element i of an operation that rounds with SR (R151, R152): site, tag, SR sequence number. DESIGN CHOICE:
SRSEED is read as the operation runs, an MDRAIN at its delayed start too (notes/assumptions/30.md). -/
def randomBits (s : State) (c : Nat) (seq : BitVec 32) (site tag i : Nat) : Nat :=
  let (task, key) := taskKeys s c
  (philox ((s.core c).arch.sr 10).toNat i (tag % 2 ^ 16 + site * 2 ^ 16) seq.toNat (key % 256 + task % 2 ^ 24 * 2 ^ 8)).1 % 65536

/-- The random bits an operation uses under a rounding code: none but for SR (R134). -/
def bitsFor (s : State) (t : Trig) (rm site tag i : Nat) : Nat :=
  if rm = 4 then randomBits s t.core t.srSeq site tag i else 0

/-- The SR count of a trigger that its bundle has not counted already (R153). -/
def countSr (t : Trig) (sr : Bool) : Prog :=
  Prog.when_ (sr && !t.checked) (setArch t.core fun a => { a with srSeq := a.srSeq + 1 })

/-- h of R154 for element index i. -/
def tieHash (s : State) (c i : Nat) : Nat := (philox ((s.core c).arch.sr 11).toNat i (3 * 2 ^ 16) 0 0).1

/-- The check of an operation that reserves a completion record (R11, R158). -/
def recordCheck (cr : Bool) (s : State) (t : Trig) : Verdict := if cr && (s.core t.core).ringFull then .hold 6 12 0 else .go

/-- Reserves the record of a trigger that its bundle has not reserved already (R11). -/
def reserveRecord (t : Trig) (cr : Bool) : Prog :=
  Prog.when_ (cr && !t.checked) (setCore t.core fun k => k.reserveRing t.seq)

/-- The opcode of a trigger (R47). -/
def Trig.opcode (t : Trig) : Nat := field t.dest 6 8

/-- The completion record an operation finishes when it lands (R10, R158). -/
def recordPost (t : Trig) (cr : Bool) (v : Nat) : List Post := if cr then [.record v t.unit t.opcode] else []

/-- The counts of conversion events over the elements that are written (R138). -/
def convPost (l : List Conv) : List Post :=
  [.conv (l.foldl (fun n x => n + x.sat) 0) (l.foldl (fun n x => n + x.flush) 0) (l.foldl (fun n x => n + x.nan) 0)]

/-- A vector from conversions, an element each. -/
def vecOfConv (w : Nat) (l : Array Conv) : Vec := vecOf (elCount w) w fun j => (l[j]?.map (·.code)).getD 0

/-- The lanes of a list of 32-bit values, zero beyond it. -/
def lanesOf (l : List Nat) : Vec :=
  let a := l.toArray
  vecOf 256 32 fun i => a[i]?.getD 0

/-- A vector with `size` bytes from byte `off` replaced. -/
def putBytes (v : Vec) (off size x : Nat) : Vec :=
  BitVec.ofNat 8192 (v.toNat - field v.toNat (8 * off) (8 * size) * 2 ^ (8 * off) + x % 2 ^ (8 * size) * 2 ^ (8 * off))

end Sys2Proof.Machine
end

