-- ==== Sys2Proof/Machine/Quant.lean ====
section
/-! DEFINITION. Block formats under scales: quantisation (R136), decoding (R133, R137), planes of a block-row (R177, R190). -/

namespace Sys2Proof.Machine

/-- The value of a keeper byte as an E8M0 or an E3M5 scale (R130, R131). -/
def scaleNum (bsf : Bool) (x : Nat) : Num :=
  if bsf then Fmt.e3m5.decode x
  else if x = 255 then .nan false else .fin false 1 ((x : Int) - 127)

/-- How a block or sub-block is quantised (R136). -/
inductive BlockMode where
  | plain | nanBlock | nanScale | zeroScale | infBand
  deriving DecidableEq, Repr

/-- The case of R136 that a block of values meets under a scale byte and a band scale. -/
def blockMode (bsf : Bool) (scale band : Nat) (xs : List Num) : BlockMode :=
  let b := Fmt.bf16.decode band
  if scale = 255 || (bsf && b.isNan) then .nanScale
  else if xs.any Num.isNan then .nanBlock
  else if !bsf then .plain
  else if scale = 0 || b.isZero then .zeroScale
  else match b with | .inf _ => .infBand | _ => .plain

/-- One element quantised in its block's case (R136); the one NaN of a block is counted apart. -/
def quantise (f : Fmt) (mode : BlockMode) (scale band rm rbits : Nat) (ovf : Bool) (x : Num) : Conv :=
  let b := Fmt.bf16.decode band
  let isInf := match x with | .inf _ => true | _ => false
  match mode with
  | .nanBlock | .nanScale => { code := 0 }
  | .zeroScale => { code := 0, sat := isInf.toNat, flush := (!isInf && !x.isZero).toNat }
  | .infBand =>
    if isInf then { code := if x.neg? != b.neg? then 15 else 7, sat := 1 }
    else { code := 0, flush := (!x.isZero).toNat }
  | .plain =>
    if f = .bf16 then convert .bf16 rm rbits ovf x
    else if f = .bsf4 then convert .bsf4 rm rbits false (Num.div x (Num.mul (scaleNum true scale) b))
    else convert f rm rbits ovf (Num.div x (scaleNum false scale))

/-- The exact value of an element under its scales (R133); a NaN scale makes it a NaN (R137). DESIGN CHOICE: a zero
under an infinite band scale is a NaN, of which R131 and R137 say nothing (notes/assumptions/30.md). -/
def scaledValue (f : Fmt) (scale band code : Nat) : Num :=
  match f with
  | .bf16 => Fmt.bf16.decode code
  | .bsf4 => Num.mul (Num.mul (Fmt.bsf4.decode code) (scaleNum true scale)) (Fmt.bf16.decode band)
  | _ => Num.mul (f.decode code) (scaleNum false scale)

/-- Elements of a format to a block or sub-block (R124). -/
def blockSize (f : Fmt) : Nat := if f = .bsf4 then 8 else 32

/-- Exponent and significand planes of a format (R177, R190). -/
def planeCounts (f : Fmt) : Nat × Nat :=
  match f with
  | .e2m1 => (2, 2) | .e2m3 => (2, 4) | .e3m2 => (3, 3) | .e4m3 => (4, 4) | .e5m2 => (5, 3)
  | .mxint8 => (0, 8) | .bsf4 => (2, 2) | .bf16 => (8, 8) | _ => (0, 0)

/-- Bit np of an element in the plane-major numbering: sign, exponent bits from the top, significand from the hidden bit (R177). -/
def planeBit (f : Fmt) (np code : Nat) : Nat :=
  let (e, p) := planeCounts f
  let w := f.width
  if np > e + p then 0
  else if np = 0 then bit code (w - 1)
  else if np ≤ e then bit (field code (w - 1 - e) e) (e - np)
  else
    let sig := match f with
      | .mxint8 => (sint code 8).natAbs
      | .bsf4 => if code % 16 = 0 then 0 else 2 + code % 2
      | _ => (if field code (w - 1 - e) e = 0 then 0 else 2 ^ (p - 1)) + field code 0 (p - 1)
    bit sig (p - (np - e))

/-- The code whose planes are given by bit np of each plane (R177); the inverse of planeBit on codes. -/
def planeCode (f : Fmt) (b : Nat → Nat) : Nat :=
  let (e, p) := planeCounts f
  let w := f.width
  let x := ofBits e fun i => b (e - i) = 1
  let sig := ofBits p fun i => b (e + p - i) = 1
  match f with
  | .mxint8 => if b 0 = 1 then (256 - sig) % 256 else sig % 256
  | _ => b 0 * 2 ^ (w - 1) + x * 2 ^ (w - 1 - e) + sig % 2 ^ (p - 1)

end Sys2Proof.Machine
end

