-- ==== Sys2Proof/Machine/Planes.lean ====
section
/-! DEFINITION. Plane-major block-rows: occupancy headers (R191) and elements put into planes (R245, R346). -/

namespace Sys2Proof.Machine

/-- Element bits of a tile format code: 0x0 is FP32 (R215). -/
def tBits (f : Nat) : Nat := (Fmt.ofCode f).width

/-- The exponent field and significand of an element as its planes give them (R177, R190). -/
def planeParts (f : Fmt) (b : Nat → Nat) : Nat × Nat :=
  let (e, p) := planeCounts f
  (ofBits e fun i => b (e - i) = 1, ofBits p fun i => b (e + p - i) = 1)

/-- An element's planes hold the code of an Inf or a NaN, whatever the hidden bit holds (R125, R191). -/
def planeSpecial (f : Fmt) (x m : Nat) : Bool :=
  match f with
  | .e4m3 => x = 15 && m % 8 = 7
  | .e5m2 => x = 31
  | .bf16 => x = 255
  | _ => false

/-- The low 64 bits of a true occupancy header of a block-row (R191); bit np of element r is `b np r`. -/
def occupancy (f : Fmt) (b : Nat → Nat → Nat) : Nat :=
  let (e, p) := planeCounts f
  let parts := (List.range 1024).map fun r => planeParts f fun np => b np r
  let live := parts.zipIdx.filter fun x => x.1.2 != 0
  let sig := ofBits p fun t => (List.range 1024).any fun r => b (e + 1 + t) r = 1
  sig + (live.foldl (fun m x => max m x.1.1) 0) % 256 * 2 ^ 8 +
  (parts.any fun x => planeSpecial f x.1 x.2).toNat * 2 ^ 16 + 2 ^ 31 +
  ofBits 32 (fun j => live.any fun x => x.2 % 32 = j) * 2 ^ 32

/-- A block-row's bytes with new element codes put in, and its header made true (R245, R292, R346). `code r` is the new code of element
r, if it has one; the others keep their bits. -/
def putElements (f : Fmt) (old : Nat) (code : Nat → Option Nat) : Nat :=
  let np := 1 + (planeCounts f).1 + (planeCounts f).2
  let codes := ((List.range 1024).map code).toArray
  let one := fun (i r : Nat) => match (codes[r]?).getD none with
    | some x => planeBit f i x
    | none => bit old (1024 * i + r)
  let planes := ((List.range np).map fun i => ofBits 1024 fun r => one i r = 1).toArray
  let at_ := fun (i r : Nat) => bit (planes[i]?.getD 0) r
  ofDigits np 1024 (fun i => planes[i]?.getD 0) + occupancy f at_ * 2 ^ (1024 * np)

/-- The element codes of a value, packed from its lowest bit, that an access under a lane mask gives to a block-row: the half of a BF16
block-row, or all of it (R129, R346). -/
def givenCodes (f half : Nat) (data : Vec) (mask : Option Mask) (r : Nat) : Option Nat :=
  let w := tBits f
  let first := if f = 8 then 512 * half else 0
  let n := if f = 8 then 512 else 1024
  if r < first || first + n ≤ r then none
  else
    let i := r - first
    match mask with
    | some m => if m.getLsbD (i * w / 32) then some (digit data.toNat w i) else none
    | none => some (digit data.toNat w i)

end Sys2Proof.Machine
end

