-- ==== Sys2Proof/Machine/Access.lean ====
section
/-! DEFINITION. The S and V paths: queued accesses and the order in which they are performed (R77, R268 to R274, R280), fences
(R78, R274), and what an access does at its home (R76, R258, R265, R266, R365, R394). -/

namespace Sys2Proof.Machine

/-- Paths of R268 by mask bit. -/
def pathS : Nat := 0

/-- See pathS. -/
def pathV : Nat := 1

/-- See pathS. -/
def pathF : Nat := 6

/-- The context id of the task on a core, 0 without one. -/
def ctxId (s : State) (c : Nat) : Nat := ((s.core c).ctx.map (·.id)).getD 0

/-- The party that a trigger is to reads and writes that meet errors (R258, R394). -/
def Trig.who (t : Trig) (s : State) : Who :=
  { core := t.core, ctx := ctxId s t.core, seq := t.seq, slot := t.slot, inTrap := t.inTrap, acc := Option.none }

/-- The party that an engine's access is made for (R257, R258). -/
def Ctx.who (x : Ctx) (seq : Nat) : Who := { core := x.core, ctx := x.id, seq := seq, slot := 0, inTrap := false, acc := none }

/-- Context `id` has work in flight on an engine path that is queued away from its core (R274): C, X, E, F as bits 3 to 6, before
trigger `seq`. The chains of a halted channel count, since CCLR may still run them. -/
def queuedBusy (s : State) (id path seq : Nat) : Bool :=
  let mine := fun (x : Ctx) (n : Nat) => x.id = id && decide (n < seq)
  match path with
  | 3 => (List.range 256).any fun d => (s.core d).chans.toList.any fun ch =>
      ch.heads.any fun h => mine h.owner h.seq
  | 4 => s.lanes.toList.any (fun l => l.jobs.any fun j => mine j.owner j.seq)
      || s.hbm.toList.any (fun h => h.loads.any fun l => mine l.owner l.seq)
  | 5 => s.engines.toList.any fun e => e.jobs.any fun j => mine j.owner j.seq
  | 6 => (List.range 256).any (fun d => (s.core d).fxQ.any fun q => mine q.owner q.seq) ||
      s.dies.toList.any (fun d => d.messages.any (fun m => mine m.owner m.oseq) ||
        d.contributions.any fun m => mine m.owner m.oseq)
  | _ => false

/-- The path of an operation of MA, VL, CE or FX that waits for its start: M, V, C, X, E, F (R268, R274). -/
def capturePath (t : Trig) : Option Nat :=
  match t.unit with
  | 19 => some 2
  | 17 => some 1
  | 23 => some 6
  | _ => match t.instr with
    | some (.cque _) | some (.rinit _) | some (.rawait _) | some (.rrel _) => some 3
    | some (.xjob _) | some (.xtab _) => some 4
    | some (.sejob _) => some 5
    | some (.tdmk _) => some 0
    | _ => none

/-- An operation triggered before `seq` that has not started will make accesses on a path (R49, R274). A deferred one makes them at the
segment's end (R285). -/
def captureBusy (k : Core) (path seq : Nat) : Bool :=
  k.captured.toList.flatten.any fun t => decide (t.seq < seq) && capturePath t = some path && (k.seg.isNone || path < 3)

/-- A task has work in flight on an engine path (R274): M, C, X, E, F as bits 2 to 6, before trigger `seq`. -/
def engineBusy (s : State) (c path seq : Nat) : Bool :=
  let k := s.core c
  if path = 2 then k.maQ.any (fun m => m.seq < seq) || k.flights.any (fun f => f.unit = 19 && f.seq < seq)
  else queuedBusy s (ctxId s c) path seq

/-- Every access on a path of the mask that core c issued before trigger `seq` has been performed (R274, R276). -/
def pathsDone (s : State) (c : Nat) (mask : BitVec 8) (seq : Nat) : Bool :=
  let k := s.core c
  k.accesses.all (fun a => !(mask.getLsbD a.path) || a.kind = .marker || decide (seq ≤ a.seq)) &&
  [2, 3, 4, 5, 6].all (fun p => !mask.getLsbD p || !engineBusy s c p seq) &&
  ((List.range 7).all fun p => !mask.getLsbD p || !captureBusy k p seq) &&
  (!mask.getLsbD 1 || !(k.flights.any fun f => f.unit = 20 && !f.ready && decide (f.seq < seq)))

/-- A fence on the path is not complete: a trigger that would issue an access on it holds (R78). -/
def fenceHold (s : State) (c path : Nat) : Bool :=
  (s.core c).fences.any fun w => w.paths.getLsbD path && !pathsDone s c w.paths w.seq

/-- The verdict of the fences for an access on a path. -/
def fenceCheck (s : State) (c path : Nat) : Verdict := if fenceHold s c path then .hold 8 9 0 else .go

/-- Kinds by what R77 orders: loads, stores, and what counts as both. -/
def AccessKind.isLoad : AccessKind → Bool
  | .load .. => true
  | .unzip .. | .keeper .. => true
  | _ => false

/-- See isLoad. -/
def AccessKind.isStore : AccessKind → Bool
  | .store _ | .scatAdd .. | .planes .. => true
  | _ => false

/-- A plain store, which does not read what it replaces. -/
def AccessKind.replaces : AccessKind → Bool
  | .store _ => true
  | _ => false

/-- The 8-byte units of an access: place and unit number. -/
def Access.units (a : Access) : List (Nat × Nat) :=
  a.pieces.flatMap fun p =>
    match p.at_ with
    | .arr c x => (unitsOf x p.n 8).map fun u => (c + 1, u)
    | .pa x | .expand x => (unitsOf x p.n 8).map fun u => (0, u)

/-- Two accesses touch one unit (R270). -/
def Access.meets (a b : Access) : Bool := a.units.any fun u => b.units.contains u

/-- The entries of a path before entry x, and whether a marker stands between one of them and x. -/
def markedBefore (pre : List Access) : List (Access × Bool) :=
  (pre.foldr (fun (a : Access) (r : List (Access × Bool) × Bool) => ((a, r.2) :: r.1, r.2 || a.kind = .marker)) ([], false)).1

/-- Entry y (with a marker after it or not) must be performed before entry x of its path (R77, R273, R280); `free` settles the
cases the spec leaves open. -/
def precedes (free : Bool) (x : Access) (y : Access × Bool) : Bool :=
  let k := y.1.kind
  if k = .marker then false
  else match x.kind with
    | .amo .. => true
    | .load .. | .unzip .. | .keeper .. => k.isLoad || (!k.isStore) || y.2 || (free && x.meets y.1)
    | _ => k.isStore || (!k.isLoad) || y.2 || (free && x.meets y.1)

/-- Kinds that one queue holds in one order. -/
def sameQueue (a b : AccessKind) : Bool := a.isLoad == b.isLoad && a.isStore == b.isStore

/-- The entry to perform so that entry x comes nearer to its turn: x, or the entry that must come first of those that come before it in
turn (R77, R280). The fuel bounds the entries before x. -/
def nextAccess (free : Bool) : Nat → List Access → Access → Access
  | 0, _, x => x
  | fuel + 1, pre, x => match (markedBefore pre).find? (precedes free x) with
    | none => x
    | some y => nextAccess free fuel (pre.takeWhile (· != y.1)) y.1

/-- Markers with nothing before them on their path leave the queue (R77). -/
def dropMarkers (l : List Access) : List Access :=
  (l.foldl (fun (r : List Access) a =>
    if a.kind = .marker && !(r.any fun y => y.path = a.path) then r else r ++ [a]) [])

/-- The sign- or zero-extended value of a scalar load (R74). -/
def extended (bytes : Nat) (signed : Bool) (v : Nat) : Nat :=
  if signed then enc (sint v (8 * bytes)) 64 else v % 2 ^ (8 * bytes)

/-- One FP32 or BF16 sum rounded with RNE: subnormals kept, any NaN canonical (R162, R266, R365). -/
def addFloat (f : Fmt) (a b : Nat) : Nat := roundIeee f 0 (Num.add false (f.decode a) (f.decode b))

/-- The new value of an atomic on a unit of n bytes (R365). -/
def Amo.result (op : Amo) (n old b c : Nat) : Nat :=
  let w := 8 * n
  let m := 2 ^ w
  let less := fun (uns : Bool) (x y : Nat) => if uns then decide (x < y) else decide (sint x w < sint y w)
  match op with
  | .add => (old + b) % m
  | .max u => if less u old (b % m) then b % m else old
  | .min u => if less u (b % m) old then b % m else old
  | .xchg => b % m
  | .cas => if old = b % m then c % m else old
  | .fadd => addFloat .f32 old (b % m)
  | .and => old &&& (b % m)
  | .or => old ||| (b % m)

/-- One element's sum for a scatter-add (R266). -/
def scatSum (ty : ElemType) (a b : Nat) : Nat :=
  match ty with
  | .f32 => addFloat .f32 a b
  | .bf16 => addFloat .bf16 a b
  | _ => (a + b) % 2 ^ tyWidth ty

/-- The address a fault names for a home. -/
def Loc.addr : Loc → Nat
  | .arr _ a => a
  | .pa a => a
  | .expand a => a

/-- A run of bytes meets poison (R258). -/
def poisoned (s : State) (l : Loc) (n : Nat) : Bool :=
  match l with
  | .arr d a => (unitsOf a n 8).any (s.core d).poison.contains
  | .pa a | .expand a => (unitsOf a n 64).any s.pkg.hbmPoison.contains

/-- The context on a core ends over poisoned data (R258, R394). -/
def poisonedEnd (c slot : Nat) (l : Loc) : Prog :=
  contextEnd c fun s => { coreRecord s c 0x1B 2 l.addr with addr := l.addr, slot := slot, detail := (ownerTag s l).getD 0 }

/-- A core's operation consumes data in error: poison ends the context, an error not yet read again is noted (R258, R394). -/
def consumeError (w : Who) (l : Loc) (n : Nat) : Prog := .get fun s =>
  if poisoned s l n then poisonedEnd w.core w.slot l else consume l n w

/-- An operation reads bytes of keeper n's image: each word of them in error is consumed (R246, R394). -/
def keeperUse (w : Who) (n : Nat) (spans : List (Nat × Nat)) : Prog := .get fun s =>
  Prog.each ((keeperErrors (s.core w.core) n).filter fun i => spans.any fun p => decide (p.1 < 8 * i + 8) && decide (8 * i < p.1 + p.2))
    fun i => consumeError w (.arr w.core (keeperBase n + 8 * i)) 8

/-- A read that a bundle of core c waits for meets an error: poison ends the context, an error is read again (R258, R392). -/
def readAgain (c slot : Nat) (l : Loc) (n : Nat) : Prog := .get fun s =>
  if poisoned s l n then poisonedEnd c slot l else reread (errorWord s l n)

/-- The bytes of an access's pieces, those in error as zero (R392). -/
def gather (s : State) (l : List Piece) : Nat :=
  l.foldl (fun acc p => if (readError s p.at_ p.n).isSome then acc else acc + readLoc s p.at_ p.n * 2 ^ p.bit) 0

/-- An access takes its place in trigger order, after those of its own trigger (R77, R273). -/
def queueIn (l : List Access) (x : Access) : List Access :=
  l.filter (fun a => decide (a.seq ≤ x.seq)) ++ x :: l.filter (fun a => decide (x.seq < a.seq))

/-- Correctable errors in some words of a core's arrays or of HBM are corrected, and each leaves a record with CORR in its die's error
ring (R258; the record's code and source are the model's). -/
def correct (hbm : Bool) (c : Nat) (words : List Nat) : Prog := .get fun s =>
  let ups := if hbm then s.pkg.hbmUpsets else (s.core c).upsets
  let found := ups.filter fun u => u.correctable && words.contains u.word
  let rest := fun (l : List Upset) => l.filter fun u => !(u.correctable && words.contains u.word)
  Prog.when_ (!found.isEmpty) (Prog.all [
    if hbm then .eff (.pkg fun p => { p with hbmUpsets := rest p.hbmUpsets }) else setCore c fun k => { k with upsets := rest k.upsets },
    Prog.each found fun u => errorRecord {
      code := 0x1B
      cls := 1
      corr := true
      source := 8
      inst := if hbm then 0 else c % 128
      die := if hbm then dieOfPa (u.word * 8) else dieOf c
      addr := u.word / 8 * 64
      detail := if hbm then 0 else (assoc (s.core c).tags (u.word / 8)).getD 0 }])

/-- The correctable errors that an access at a home meets; a store that replaces a whole word does not read it (R258). -/
def correctAt (l : Loc) (n : Nat) (store : Bool) : Prog :=
  let met := fun (a : Nat) => (unitsOf a n 8).filter fun w => !store || decide (8 * w < a) || decide (a + n < 8 * w + 8)
  match l with
  | .arr c a => correct false c (met a)
  | .pa a => correct true 0 (met a)
  | .expand a => .get fun s => correct true 0 (unitsOf (a - a % 65536) (frameStored s (a - a % 65536)) 8)

/-- The frames that pieces of an access read through COMP pages. -/
def pieceFrames (l : List Piece) : List Nat :=
  (l.filterMap fun p => match p.at_ with
    | .expand a => some (a - a % 65536)
    | _ => none).dedup

/-- A stream read through a COMP page has become malformed since its bundle issued: its reader takes the fault after landing (R318;
notes/assumptions/30.md). -/
def lateFault (s : State) (l : List Piece) (slot : Nat) : List Post :=
  (l.filterMap fun p => (expandFault s p.at_).map fun c => Post.fault c (info p.at_.addr) slot).take 1

/-- What one access of core c does at its home (R76, R270). -/
def performAccess (c : Nat) (x : Access) : Prog := (Prog.each x.pieces fun p => correctAt p.at_ p.n x.kind.replaces).andThen <| .get fun s =>
  let me : Who := { core := c, ctx := ctxId s c, seq := x.seq, slot := x.slot, inTrap := x.inTrap, acc := none }
  let who := some me
  match x.kind with
  | .marker => .done
  | .load bytes signed fan =>
    let bad := x.pieces.filter fun p => (readError s p.at_ p.n).isSome
    let v := gather (s.boundTo x.bound) x.pieces
    let y := if bytes ≤ 8 then wide (extended bytes signed v) else BitVec.ofNat 8192 v
    let regs := fan.map fun r => Post.gpr r.1 (BitVec.ofNat 64 (v / 2 ^ r.2))
    Prog.all [
      settle c x.unit x.seq fun f => { f with y0 := y, posts := regs ++ f.posts ++ lateFault (s.boundTo x.bound) x.pieces x.slot },
      noteEvents (ctxId s c) (pieceFrames x.pieces),
      Prog.each bad fun p => consumeError me p.at_ p.n]
  | .store data => (healWhole (x.pieces.map fun p => ⟨p.at_, p.n, allBits p.n⟩)).andThen <|
    Prog.each x.pieces fun p => writeLoc p.at_ p.n (data.toNat / 2 ^ p.bit % 2 ^ (8 * p.n)) (ctxId s c) who
  | .amo op b o =>
    match x.pieces with
    | [] => .done
    | p :: _ =>
      let bad := (readError s p.at_ p.n).isSome
      let old := if bad then 0 else readLoc s p.at_ p.n
      Prog.all [
        Prog.when_ bad (consumeError me p.at_ p.n),
        writeLoc p.at_ p.n (op.result p.n old b.toNat o.toNat) (ctxId s c) who,
        settle c x.unit x.seq fun f => { f with y0 := wide old }]
  | .planes f half data mask => Prog.each x.pieces fun p =>
      let bad := (readError s p.at_ p.n).isSome
      Prog.all [
        Prog.when_ bad (consumeError me p.at_ p.n),
        writeLoc p.at_ p.n (putElements (Fmt.ofCode f) (if bad then 0 else readLoc s p.at_ p.n) (givenCodes f half data mask))
          (ctxId s c) who]
  | .unzip header addr slot =>
    let bad := x.pieces.filter fun p => (readError s p.at_ p.n).isSome
    let out := expandBuffer none header (gather (s.boundTo x.bound) x.pieces)
    Prog.all [
      settle c x.unit x.seq fun f => match out with
        | .ok v => { f with y0 := BitVec.ofNat 8192 v }
        | .error code => { f with y0 := 0, posts := f.posts ++ [.fault code (info addr) slot] },
      noteEvents (ctxId s c) (pieceFrames x.pieces),
      Prog.each bad fun p => consumeError me p.at_ p.n]
  | .scatAdd ty data => Prog.each x.pieces fun p => .get fun s =>
      let bad := (readError s p.at_ p.n).isSome
      let old := if bad then 0 else readLoc s p.at_ p.n
      Prog.all [
        Prog.when_ bad (consumeError me p.at_ p.n),
        writeLoc p.at_ p.n (scatSum ty old (data.toNat / 2 ^ p.bit % 2 ^ (8 * p.n))) (ctxId s c) who]
  | .keeper kd rebind =>
    let bad := x.pieces.filter fun p => (readError s p.at_ p.n).isSome
    let v := gather s x.pieces
    let put := Post.keeper kd (BitVec.allOnes 1024) (BitVec.ofNat 8192 v) (BitVec.allOnes 16) (BitVec.ofNat 256 (v / 2 ^ 8192)) rebind
    Prog.all [
      settle c x.unit x.seq fun f => { f with posts := put :: f.posts },
      Prog.each bad fun p => consumeError me p.at_ p.n]
  | .window win cell v sent => Prog.when_ sent.isNone (Prog.all [
      setCore c (fun k => { k with accesses := queueIn k.accesses { x with kind := .window win cell v (some s.pkg.nextPartial) } }),
      .eff (.pkg fun p => { p with
        nextPartial := p.nextPartial + 1
        partials := p.partials ++ [({
          id := s.pkg.nextPartial
          plane := 0
          window := win
          round := 0
          block := cell / 128
          count := 1
          parts := [(0, BitVec.ofNat 4096 (v.toNat % 2 ^ 32 * 2 ^ (32 * (cell % 128))))]
          order := []
          acc := none
          complete := true
          cell := some (cell % 128)
          owner := some (ctxId s c, x.seq) } : Partial)] }),
      postEv 700 2 (.mergedPartialApply (BitVec.ofNat 32 s.pkg.nextPartial)),
      settle c x.unit x.seq id])

/-- Markers that an entry has uncovered leave the queue, and a completed QMARK is a named point of 0x1C (R76, R77, R382). -/
def uncover (c : Nat) : Prog := .get fun s =>
  let left := dropMarkers (s.core c).accesses
  if left.length = (s.core c).accesses.length then .done
  else (setCore c fun k => { k with accesses := left }).andThen (pointReached c false)

/-- One entry leaves the queue and is performed; the tables that an expanded read was bound to are free then (R315, R319). -/
def performEntry (c : Nat) (x : Access) : Prog := Prog.all [
  setCore c (fun k => { k with accesses := k.accesses.filter fun a => !(a.path = x.path && a.seq = x.seq && a.kind = x.kind && a.pieces = x.pieces) }),
  (.get fun s => match x.pieces.find? fun p => homeCut s (dieOf c) p.at_ with
    | some p => linkLost c p.at_.addr
    | none => performAccess c x),
  Prog.each x.pieces (fun p => match p.at_ with
    | .expand a => postEv 1 2 (.tableLoadApply (BitVec.ofNat 4 (a / 2 ^ 36)))
    | _ => .done),
  uncover c]

/-- The entry is an atomic on its way to a window's home as contribution `id`. -/
def Access.sentAs (a : Access) (id : Nat) : Bool :=
  match a.kind with
  | .window _ _ _ (some n) => n = id
  | _ => false

/-- A lone cell's contribution has been applied, or is lost: the atomic that sent it leaves its S queue (R280, R432). -/
def cellGone (id : Nat) : Prog := .get fun s =>
  Prog.each ((List.range 256).filter fun c => (s.core c).accesses.any (·.sentAs id)) fun c => Prog.all [
    setCore c (fun k => { k with accesses := k.accesses.filter fun a => !a.sentAs id }),
    uncover c,
    postEv 0 1 (.accessPerformed (coreBV c))]

/-- The physical address an atomic or a scatter-add updates: its order there is a decision under record and replay (R287); local arrays
have no physical address, by which alone a decision entry of kind 0 names its object (R434). -/
def Access.decided (x : Access) : Option Nat :=
  match x.kind, x.pieces with
  | .amo .., ⟨.pa a, _, _⟩ :: _ => some a
  | .scatAdd .., ⟨.pa a, _, _⟩ :: _ => some a
  | _, _ => none

/-- An entry is performed, as a decision where it is one (R287). -/
def decideEntry (c : Nat) (x : Access) : Prog := .get fun s =>
  match x.decided, (s.core c).ctx with
  | some a, some ctx => match markerMet s c (dieOfPa a) 0 (field a 3 42) with
    | some id => Prog.all [
        replayFree,
        addPending c { code := 0x20, info := info id, slot := x.slot, seq := x.seq, ready := true, inSeg := false } x.inTrap,
        performEntry c x]
    | none => decision ctx (dieOfPa a) 0 (field a 3 42) (partyKey s ctx 0) true x.inTrap (performEntry c x) .done
  | _, _ => performEntry c x

/-- An entry that is neither a marker nor an atomic under way to a window. -/
def Access.open_ (a : Access) : Bool :=
  match a.kind with
  | .marker | .window _ _ _ (some _) => false
  | _ => true

/-- An entry may be performed now: on path V the accesses of triggers before it have joined the queue (R49, R77, R273). -/
def Access.free (a : Access) (k : Core) : Bool :=
  a.open_ && !(a.path = pathV && (nth k.captured 1 []).any fun t => decide (t.seq < a.seq))

/-- The entry of a path to perform for the first one whose time has come, if that one may be (R271). -/
def dueAccess (s : State) (c path : Nat) : Option Access :=
  let l := (s.core c).accesses.filter fun a => a.path = path
  ((l.find? fun a => a.open_ && decide (a.due ≤ s.time)).map fun x =>
    nextAccess (Config.freeBit s.fresh) l.length (l.takeWhile (· != x)) x).filter (·.free (s.core c))

/-- An access of a path has waited for its time. -/
def someDue (s : State) (c : Nat) : Bool := (s.core c).accesses.any fun a => a.open_ && decide (a.due ≤ s.time)

/-- ACCESS_PERFORMED (R271): on each path an access of the core whose time has come is performed, or one that its path puts before it;
what cannot be performed yet is looked at again in the next cycle. -/
def performNext (c : Nat) : Prog := .get fun s =>
  let n := (s.core c).accesses.length
  Prog.all [
    Prog.each [pathS, pathV] (fun p => .get fun s => match dueAccess s c p with
      | none => .done
      | some x => (Prog.eff (.fresh 1)).andThen (decideEntry c x)),
    .get fun s => Prog.when_ (someDue s c)
      (postEv (if (s.core c).accesses.length < n then 0 else 1) 1 (.accessPerformed (coreBV c)))]

/-- An access joins its path's queue, with the code tables that it binds (R319), and is performed from `wait` cycles after its trigger on. -/
def queueAccess (t : Trig) (path : Nat) (kind : AccessKind) (pieces : List Piece) (wait : Nat) : Prog := .get fun s =>
  let due := max s.time (t.t0 + wait)
  Prog.all [
    setCore t.core (fun k => { k with accesses := queueIn k.accesses ⟨path, t.seq, t.unit, t.slot, kind, pieces, due, t.inTrap,
      if kind.isLoad then (pieceFrames pieces).flatMap (frameCodes s) else []⟩ }),
    postAt due 1 (.accessPerformed (coreBV t.core))]

/-- A marker joins a path's queue, unless the queue is empty already (R77). -/
def queueMarker (t : Trig) (path : Nat) : Prog := .get fun s =>
  if (s.core t.core).accesses.any (fun a => a.path = path) then
    setCore t.core fun k => { k with accesses := queueIn k.accesses ⟨path, t.seq, t.unit, t.slot, .marker, [], 0, t.inTrap, []⟩ }
  else pointReached t.core false

/-- Pieces of an access as checked, from bit `at_` of its value. -/
def piecesFrom (at_ : Nat) (l : List (Loc × Nat × Nat)) : List Piece := l.map fun x => ⟨x.1, x.2.2, at_ + 8 * x.2.1⟩

/-- Cycles a store stays in its queue in this model (R271: any finite time; notes/assumptions/2.md). -/
def storeWait : Nat := 64

/-- The space class of an address: 0 the fixed ones, 1 scratchpad, 2 cluster window, 3 global (R76, R337). -/
def spaceClass (glob : Bool) (a : Nat) : Nat :=
  if glob then 3 else if a < 0x400000 then 1 else if 0x800000 ≤ a then 2 else 0

/-- The generation and table a point-0 stream lacks, as TRAPINFO of 0x15 (R318, R384). -/
def staleInfo (s : State) (frame : Nat) : Nat → Nat → Nat
  | 0, _ => 0
  | fuel + 1, off =>
    let h := memRead s.mem (frame + off) 64
    let store := nth s.hbm (frame / 2 ^ 36) ⟨Vector.replicate 16 ⟨none, none, 0⟩, []⟩
    if chdr h 36 2 = 0 && decide (2 ≤ chdr h 32 4) &&
        ((nth store.tables (chdr h 160 4) ⟨none, none, 0⟩).copyOf (chdr h 168 16)).isNone then
      chdr h 160 4 + chdr h 168 16 * 2 ^ 16
    else if bit h 38 = 1 then 0
    else staleInfo s frame fuel (off + 64 + chdr h 128 32)

/-- A read through a COMP page whose stream is malformed faults precisely (R318, R319). -/
def expandCheck (s : State) (l : List (Loc × Nat × Nat)) (a : Nat) : Verdict :=
  match l.find? (fun x => (expandFault s x.1).isSome) with
  | some (.expand x, _, _) =>
    match expandFault s (.expand x) with
    | some 0x15 => .bad 0x15 (info (staleInfo s (x - x % 65536) 1024 0))
    | some c => .bad c (info a)
    | none => .go
  | _ => .go

/-- The verdict of a core access (R75). -/
def accessCheck (s : State) (c path : Nat) (glob write amo : Bool) (a n : Nat) : Verdict :=
  match coreAccess s c path glob write amo a n with
  | .error v => v
  | .ok l => if write && !amo then .go else expandCheck s l a

/-- The homes of a core access that has passed its check. -/
def accessHomes (s : State) (c path : Nat) (glob write amo : Bool) (a n : Nat) : List (Loc × Nat × Nat) :=
  match coreAccess s c path glob write amo a n with
  | .ok l => l
  | .error _ => []

/-- A replay meets a truncation marker at a decision that the bundle is about to make: it takes 0x20 first (R384, R436). A deferred
decision is made only at the segment's end. -/
def markerCheck (s : State) (t : Trig) (d kind object : Nat) : Verdict :=
  if (s.core t.core).seg.isSome && (kind = 1) then .go
  else match markerMet s t.core d kind object with
    | some id => .bad 0x20 (info id)
    | none => .go

/-- The replay markers that an update of some homes meets (R434 kind 0, R436). -/
def updateCheck (s : State) (t : Trig) (l : List (Loc × Nat × Nat)) : Verdict :=
  (l.findSome? fun x => match x.1 with
    | .pa a => match markerCheck s t (dieOfPa a) 0 (field a 3 42) with
      | .go => none
      | v => some v
    | _ => none).getD .go

end Sys2Proof.Machine
end

