-- ==== Sys2Proof/Machine/Ls.lean ====
section
/-! DEFINITION. Scalar load and store, unit LS (R73 to R79). -/

namespace Sys2Proof.Machine

/-- A := (a + b) mod 2^64 (R73). -/
def lsAddr (t : Trig) : Nat := (t.sa + t.sb) % 2 ^ 64

/-- The access of a space at A: whether global, and its address; none past scalar memory's end (R73). -/
def spaceAddr (sp : Space) (a n : Nat) : Option (Bool × Nat) :=
  match sp with
  | .loc => some (false, a)
  | .glob => some (true, a)
  | .smem => if a + n ≤ 0x40000 then some (false, 0x400000 + a) else none

/-- The checks of an S access of n bytes at A, in R75's order after the holds of a FENCE and of the drain window. -/
def sCheck (s : State) (c : Nat) (sp : Space) (write amo : Bool) (a n : Nat) : Verdict :=
  (fenceCheck s c pathS).and <|
    (need (a % n = 0) 0x08 a).and <|
      match spaceAddr sp a n with
      | none => .bad 0x09 (info a)
      | some (g, x) => accessCheck s c pathS g write amo x n

/-- The homes of an S access. -/
def sHomes (s : State) (c : Nat) (sp : Space) (write amo : Bool) (a n : Nat) : List (Loc × Nat × Nat) :=
  match spaceAddr sp a n with
  | none => []
  | some (g, x) => accessHomes s c pathS g write amo x n

/-- The class of R76 that an S access reaches. -/
def sClass (sp : Space) (a n : Nat) : Nat :=
  match spaceAddr sp a n with
  | none => 0
  | some (g, x) => spaceClass g x

/-- Load bounds by class (R76). -/
def loadBound (cls : Nat) : Nat :=
  match cls with
  | 0 => 4 | 1 => 8 | 2 => 40 | _ => 700

/-- A load of n bytes (R73 to R77). -/
def lsLoad (sp : Space) (n : Nat) (signed : Bool) : Op :=
  opRun 9 (fun s t => sCheck s t.core sp false false (lsAddr t) n) fun s t =>
    let a := lsAddr t
    let bound := loadBound (sClass sp a n)
    Prog.all [
      await_ t bound true 1,
      queueAccess t pathS (.load n signed []) (piecesFrom 0 (sHomes s t.core sp false false a n)) (bound - 1)]

/-- A store of n bytes (R73 to R77); its data is c. -/
def lsStore (sp : Space) (n : Nat) : Op :=
  opRun 9 (fun s t => sCheck s t.core sp true false (lsAddr t) n) fun s t =>
    Prog.all [
      finish t 1 [],
      queueAccess t pathS (.store t.c) (piecesFrom 0 (sHomes s t.core sp true false (lsAddr t) n)) storeWait]

def opLdb (sp : Space) : Op := lsLoad sp 1 true
def execLdb (sp : Space) (s : State) : Host.Outcome State Fault Refusal := runOp (opLdb sp) s
def opLdbu (sp : Space) : Op := lsLoad sp 1 false
def execLdbu (sp : Space) (s : State) : Host.Outcome State Fault Refusal := runOp (opLdbu sp) s
def opLdh (sp : Space) : Op := lsLoad sp 2 true
def execLdh (sp : Space) (s : State) : Host.Outcome State Fault Refusal := runOp (opLdh sp) s
def opLdhu (sp : Space) : Op := lsLoad sp 2 false
def execLdhu (sp : Space) (s : State) : Host.Outcome State Fault Refusal := runOp (opLdhu sp) s
def opLdw (sp : Space) : Op := lsLoad sp 4 true
def execLdw (sp : Space) (s : State) : Host.Outcome State Fault Refusal := runOp (opLdw sp) s
def opLdwu (sp : Space) : Op := lsLoad sp 4 false
def execLdwu (sp : Space) (s : State) : Host.Outcome State Fault Refusal := runOp (opLdwu sp) s
def opLdd (sp : Space) : Op := lsLoad sp 8 false
def execLdd (sp : Space) (s : State) : Host.Outcome State Fault Refusal := runOp (opLdd sp) s
def opStb (sp : Space) : Op := lsStore sp 1
def execStb (sp : Space) (s : State) : Host.Outcome State Fault Refusal := runOp (opStb sp) s
def opSth (sp : Space) : Op := lsStore sp 2
def execSth (sp : Space) (s : State) : Host.Outcome State Fault Refusal := runOp (opSth sp) s
def opStw (sp : Space) : Op := lsStore sp 4
def execStw (sp : Space) (s : State) : Host.Outcome State Fault Refusal := runOp (opStw sp) s
def opStd (sp : Space) : Op := lsStore sp 8
def execStd (sp : Space) (s : State) : Host.Outcome State Fault Refusal := runOp (opStd sp) s

/-- QMARK (R77): a marker in both S queues. -/
def opQmark : Op :=
  opRun 9 always fun _ t => Prog.all [finish t 1 [], queueMarker t pathS]
def execQmark (s : State) : Host.Outcome State Fault Refusal := runOp opQmark s

/-- FENCE (R78, R274): markers in the S queues and, where V is named, the V queues; it is complete when every access of the named
paths issued before it has been performed, and is then a named point of 0x1C (R382). Every access is performed at its home,
which lies within every scope (R272). It looks again each cycle. -/
def opFence : Op :=
  opRun 9 always fun s t =>
    let paths := BitVec.ofNat 8 t.sb
    let me := fun (w : FenceWait) => w.seq = t.seq
    if t.stage = 0 then Prog.all [
      await_ t 1 false 8,
      queueMarker t pathS,
      Prog.when_ (paths.getLsbD pathV) (queueMarker t pathV),
      setCore t.core (fun k => { k with fences := k.fences ++ [⟨t.seq, paths, t.sa % 8⟩] }),
      postOp 1 { t with stage := 1, checked := true }]
    else if pathsDone s t.core paths t.seq then Prog.all [
      settle t.core t.unit t.seq id,
      setCore t.core (fun k => { k with fences := k.fences.filter fun w => !me w }),
      pointReached t.core false]
    else postOp 1 t
def execFence (s : State) : Host.Outcome State Fault Refusal := runOp opFence s

/-- PREF (R79): a hint that changes no visible state. -/
def opPref (_sp : Space) : Op :=
  opRun 9 always fun _ t => finish t 1 []
def execPref (_sp : Space) (s : State) : Host.Outcome State Fault Refusal := runOp (opPref _sp) s

end Sys2Proof.Machine
end

