-- ==== Sys2Proof/Machine/Bc.lean ====
section
/-! DEFINITION. Branch and control, unit BC (R80 to R85), with the frames of R41 and R42. -/

namespace Sys2Proof.Machine

/-- A redirection's target must lie in index memory (R80). -/
def targetCheck (target : Nat) : Verdict := need (target ≤ 32767) 0x01 target

/-- The relative target: the bundle's pc plus b as a signed value (R80). -/
def relTarget (t : Trig) : Nat := enc ((t.pc : Int) + sint t.sb 64) 64

/-- The next bundle's pc becomes the target (R80). -/
def jumpTo (t : Trig) (target : Nat) : Prog := setCore t.core fun k => { k with pc := target }

/-- A redirecting operation of BC with its further write of the core's registers (R81). -/
def bcJump (target : Trig → Nat) (f : Trig → Arch → Arch) : Op :=
  opRun 10 (fun _ t => targetCheck (target t)) fun _ t => Prog.all [
    finish t 1 [], jumpTo t (target t), setArch t.core (f t)]

/-- Writes a general register. -/
def Arch.setG (a : Arch) (n v : Nat) : Arch := { a with g := updAt a.g n fun _ => info v }

/-- g31 := the return pc (R80, R81). -/
def linkTo (t : Trig) (a : Arch) : Arch := a.setG 31 t.nextPc

/-- BR (R81). -/
def opBr : Op := bcJump relTarget fun _ a => a
def execBr (s : State) : Host.Outcome State Fault Refusal := runOp opBr s
/-- JMP (R81). -/
def opJmp : Op := bcJump Trig.sb fun _ a => a
def execJmp (s : State) : Host.Outcome State Fault Refusal := runOp opJmp s
/-- CALL (R81). -/
def opCall : Op := bcJump relTarget linkTo
def execCall (s : State) : Host.Outcome State Fault Refusal := runOp opCall s
/-- CALLI (R81). -/
def opCalli : Op := bcJump Trig.sb linkTo
def execCalli (s : State) : Host.Outcome State Fault Refusal := runOp opCalli s
/-- RET (R81). -/
def opRet : Op := bcJump Trig.sb fun _ a => a
def execRet (s : State) : Host.Outcome State Fault Refusal := runOp opRet s

/-- ROTB and ROTP step down at a LOOP (R82). -/
def rotate (a : Arch) : Arch :=
  (a.setSr 7 (info ((field (a.sr 7).toNat 0 5 + 31) % 32))).setSr 8 (info ((field (a.sr 8).toNat 0 3 + 7) % 8))

/-- LOOP redirects when LOOPC is above 1 (R82). -/
def loopTaken (s : State) (t : Trig) : Bool := decide (1 < ((s.core t.core).arch.sr 9).toNat)

/-- LOOP (R82): a fall-through checks no target (R80). -/
def opLoop : Op :=
  opRun 10 (fun s t => if loopTaken s t then targetCheck (relTarget t) else .go) fun s t => Prog.all [
    finish t 1 [],
    setArch t.core (fun a => (rotate a).setSr 9 (info ((a.sr 9).toNat - 1))),
    Prog.when_ (loopTaken s t) (jumpTo t (relTarget t))]
def execLoop (s : State) : Host.Outcome State Fault Refusal := runOp opLoop s

/-- LSET (R81). -/
def opLset : Op :=
  opRun 10 always fun _ t => Prog.all [
    finish t 1 [],
    setArch t.core fun a => ((a.setSr 9 (info t.sb)).setSr 7 0).setSr 8 0]
def execLset (s : State) : Host.Outcome State Fault Refusal := runOp opLset s

/-- Word i of g28 to g31 at the bundle's start (R13, R83): 0 vsp, 1 frame pointer, 2 ssp, 3 link (R39). -/
def Trig.frameReg (t : Trig) (i : Nat) : Nat := digit t.aux.toNat 64 i

/-- The checks of an 8-byte access of a frame at each offset in order (R41, R42, R75). -/
def frameCheck (s : State) (c : Nat) (write : Bool) (l : List Nat) : Verdict :=
  l.foldl (fun v a => v.and (sCheck s c .smem write false a 8)) .go

/-- An address of a frame word: n below a register (R41, R42). -/
def below (x n : Nat) : Nat := (x + 2 ^ 64 - n) % 2 ^ 64

/-- The words ENTER stores, in order (R41). -/
def enterSlots (ssp : Nat) : List Nat := [below ssp 8, below ssp 16, below ssp 24]

/-- ENTER's checks (R41). What TRAPINFO holds for its 0x08 no rule states: a free value. -/
def enterCheck (s : State) (t : Trig) : Verdict :=
  let sz := t.sa
  let n := t.sb
  let vsp := t.frameReg 0
  let ssp := t.frameReg 2
  let a := (s.core t.core).arch
  (fenceCheck s t.core pathS).and <|
    if sz % 16 ≠ 0 ∨ sz < 32 ∨ sz > 262144 ∨ n > 4095 then .bad 0x08 (info (low (Config.freeVec s.fresh)))
    else if ssp < sz ∨ ssp - sz < (a.sr 5).toNat ∨ vsp < n * 1024 ∨ vsp - n * 1024 < (a.sr 6).toNat then
      .bad 0x05 (info (sz % 2 ^ 32 + n % 4096 * 2 ^ 32))
    else frameCheck s t.core true (enterSlots ssp)

/-- ENTER (R41, R83): three stores in LS's store queue, in order, and the new g28 to g30. -/
def opEnter : Op :=
  opRun 10 enterCheck fun s t =>
    let vsp := t.frameReg 0
    let ssp := t.frameReg 2
    let put := fun (a v : Nat) => queueAccess t pathS (.store (wide v)) (piecesFrom 0 (sHomes s t.core .smem true false a 8)) storeWait
    Prog.all [
      finish t 1 [],
      put (below ssp 8) (t.frameReg 3), put (below ssp 16) (t.frameReg 1), put (below ssp 24) vsp,
      setArch t.core fun a => ((a.setG 29 ssp).setG 30 (ssp - t.sa)).setG 28 (vsp - t.sb * 1024)]
def execEnter (s : State) : Host.Outcome State Fault Refusal := runOp opEnter s

/-- The words LEAVE loads, in order: link, caller's vsp, caller's frame pointer (R42). -/
def leaveSlots (fp : Nat) : List Nat := [below fp 8, below fp 24, below fp 16]

/-- LEAVE (R42, R83): a marker, then the loads, which land g31, g29 and g28 within 5 cycles; g30 takes the frame pointer at once. -/
def opLeave : Op :=
  opRun 10 (fun s t => frameCheck s t.core false (leaveSlots (t.frameReg 1))) fun s t =>
    let fp := t.frameReg 1
    let piece := fun (a at_ : Nat) => piecesFrom at_ (sHomes s t.core .smem false false a 8)
    Prog.all [
      queueMarker t pathS,
      .get fun s => addFlight t.core
        { flightOf t s.time 5 with lands := false, ready := false, regs := [28, 29, 31] },
      queueAccess t pathS (.load 24 false [(31, 0), (28, 64), (29, 128)])
        (piece (below fp 8) 0 ++ piece (below fp 24) 64 ++ piece (below fp 16) 128) 4,
      setArch t.core fun a => a.setG 30 fp]
def execLeave (s : State) : Host.Outcome State Fault Refusal := runOp opLeave s

/-- TRAP (R36, R85): the software trap is taken at the next boundary, with the pc then standing; beside an ERET, after it. -/
def opTrap : Op :=
  opRun 10 always fun s t => Prog.all [
    finish t 1 [],
    addPending t.core { code := 0x06, info := info t.sb, slot := t.slot, seq := t.seq, ready := true, inSeg := false }
      (t.inTrap && (s.core t.core).flow != .returning)]
def execTrap (s : State) : Host.Outcome State Fault Refusal := runOp opTrap s

/-- A halted channel with chains of a context. -/
def haltedOf (x : Ctx) (ch : Channel) : Bool :=
  ch.stage = .halted && (ch.heads.head?.map fun h => decide (h.owner.id = x.id)).getD false

/-- The halted chains of a context that ends are abandoned, and its region completes with bit 63 set (R300). -/
def dropHalted (x : Ctx) : Prog := .get fun s =>
  let cores := (List.range 256).filter fun d => (s.core d).chans.toList.any (haltedOf x)
  Prog.when_ (!cores.isEmpty) (Prog.all [
    Prog.each cores (fun d => setCore d fun k => { k with chans := k.chans.map fun ch => if haltedOf x ch then Channel.reset else ch }),
    setRegion x.ref (fun r => { r with failed := true })])

/-- The task's context is freed (R84, R237, R300): its core turns idle, the next task starts, and its region may be complete. -/
def taskEnd (c : Nat) : Prog := .get fun s =>
  let k := s.core c
  Prog.all [
    match k.ctx with | none => .done | some x => dropHalted x,
    returnBuffers (k.ctx.map (·.id)).toList [c],
    .eff (.purge fun x => x.ofCore c),
    setCore c Core.clear,
    match k.ctx with
    | none => .done
    | some x => Prog.all [
        setRegion x.ref (fun r => { r with ended := r.ended + 1 }),
        postEv 1 3 (.regionComplete (BitVec.ofNat 32 x.launch) (BitVec.ofNat 8 x.region))],
    coreFreed c ((k.ctx.map (·.started)).getD 0),
    postEv 1 3 (.taskStage (coreBV c)),
    match k.ctx.bind fun x => launchOf s x.ref with
    | none => .done
    | some l => kickQueue l.queue]

/-- The operation that raised a pending fault is still in flight: the fault is taken once it has landed (R382, R394). -/
def Core.raising (k : Core) (p : PendFault) : Bool := k.flights.any (·.seq = p.seq) || k.maQ.any (·.seq = p.seq)

/-- The pending fault to take: of those that are ready and whose operation has landed, the earliest-triggered operation's (R382, R383). -/
def dueFault (k : Core) : Option PendFault :=
  (k.pend.filter fun p => p.ready && !k.raising p).foldl (fun best p => match best with
    | none => some p
    | some b => if p.seq < b.seq then some p else some b) none

/-- Takes a pending fault out and delivers it with a TRAPPC (R382, R383). -/
def takePending (c : Nat) (p : PendFault) (pc : Nat) : Prog := Prog.all [
  setCore c (fun k => { k with pend := k.pend.erase p }),
  takeTrap c { code := p.code, info := p.info, slot := p.slot, blevel := false, pc := some pc, inTrap := false, tag := p.tag }]

/-- HALT in progress (R84): landing, draining, the segment's end, pending faults, the end of the task; it looks again each
cycle. A rewind comes first (R395). -/
def haltStep (t : Trig) : Prog := .get fun s =>
  let c := t.core
  let k := s.core c
  if k.flow != .halting then .done
  else if k.canRewind then Prog.all [
    setCore c (fun k => { k with flow := .rewinding }),
    postEv 0 2 (.rewind (coreBV c))]
  else if !k.quiet || !k.accesses.isEmpty then countWait c t.pc (postOp 1 t)
  else if k.seg.isSome then (segmentEnd c).andThen (postOp 1 t)
  else Prog.all [
    pointReached c true,
    .get fun s => match dueFault (s.core c) with
      | none => taskEnd c
      | some p => takePending c p t.pc]

/-- HALT (R84, R85); an ERET of its bundle takes effect but for its redirect. -/
def opHalt : Op :=
  opRun 10 always fun s t =>
    if t.stage = 0 then
      let eret := (s.core t.core).flow = .returning
      Prog.all [
        setCore t.core (fun k => { k with
          flow := .halting, arch := if eret then k.arch.setInTrap false else k.arch }),
        postOp 1 { t with stage := 1, checked := true }]
    else haltStep t
def execHalt (s : State) : Host.Outcome State Fault Refusal := runOp opHalt s

end Sys2Proof.Machine
end

