-- ==== Sys2Proof/Machine/Tiles.lean ====
section
/-! DEFINITION. Tiles and keepers as the units share them: the fields of a tile entry (R214, R215), its state machine (R216 to R218),
storage (R244, R245), occupancy headers (R191), buckles (R222), and keepers with their writes under way (R225). -/

namespace Sys2Proof.Machine

/-- Fields of word 0 of a tile entry (R214). -/
def tBase (w : Nat) : Nat := field w 0 12 * 1024

/-- See tBase. -/
def tHold (w : Nat) : Nat := field w 12 4

/-- See tBase. -/
def tRows (w : Nat) : Nat := field w 16 10 + 1

/-- See tBase. -/
def tCols (w : Nat) : Nat := field w 26 10 + 1

/-- See tBase. -/
def tFmt (w : Nat) : Nat := field w 36 4

/-- See tBase. -/
def tPlanes (w : Nat) : Bool := bit w 40 = 1

/-- See tBase. -/
def tSoff (w : Nat) : Nat := field w 41 10

/-- See tBase. -/
def tBand (w : Nat) : Nat := field w 51 4

/-- The format holds scaled elements (R222). -/
def scaledFmt (f : Nat) : Bool := decide (1 ≤ f ∧ f ≤ 7)

/-- Planes of a block-row: sign, exponent and significand (R245). -/
def planesOf (f : Nat) : Nat := 1 + (planeCounts (Fmt.ofCode f)).1 + (planeCounts (Fmt.ofCode f)).2

/-- Bytes of a plane-major block-row, header included (R215, R245). -/
def blockRowBytes (f : Nat) : Nat := 128 * planesOf f + 64

/-- A tile's size in bytes (R215). -/
def tileSize (w : Nat) : Nat :=
  if tPlanes w then tRows w / 32 * blockRowBytes (tFmt w) else tRows w * tCols w * tBits (tFmt w) / 8

/-- The local address of a tile's storage: scratchpad, or the window of HOLD's slot (R214, R247). -/
def tileAddr (w : Nat) : Nat := if tHold w = 0 then tBase w else 0x800000 + (tHold w - 1) * 0x100000 + tBase w

/-- Entry n of a core's tile table. -/
def tileAt (s : State) (c n : Nat) : Tile := nth (s.core c).arch.tiles n Tile.reset

/-- TRAPINFO of a tile-state fault (R384). -/
def tileInfo (x : Tile) (n : Nat) : Nat := n + x.state.code * 2 ^ 8 + x.cfg.toNat * 2 ^ 10

/-- Checks in order: the first that does not pass. -/
def Verdict.all (l : List Verdict) : Verdict := l.foldl Verdict.and .go

/-- A tile-state fault unless the condition holds (R216). -/
def tileNeed (ok : Bool) (x : Tile) (n : Nat) : Verdict := need ok 0x0D (tileInfo x n)

/-- The hold on a busy tile (R201). -/
def tileFree (x : Tile) (n : Nat) : Verdict := if x.busy = 0 then .go else .hold 2 19 n

/-- The hold on a tile that is not ready for a reader (R217). -/
def tileReady (x : Tile) (n : Nat) : Verdict := if x.state = .ready then .go else .hold 3 21 n

/-- The homes of n bytes of a tile's storage from `off`, or the fault: an ownership fault names the tile (R344, R384). -/
def tileHome (s : State) (c path : Nat) (write : Bool) (tile : Nat) (off n : Nat) : Except Verdict (List (Loc × Nat × Nat)) :=
  let a := tileAddr (tileAt s c tile).word.toNat + off
  match localHome s c path write (spadLimit s c) a n with
  | .ok l => .ok [(l, 0, n)]
  | .error 0x0C => .error (.bad 0x0C (info tile))
  | .error e => .error (.bad e (info a))

/-- The verdict on an access to a tile's storage. -/
def tileAccess (s : State) (c path : Nat) (write : Bool) (tile off n : Nat) : Verdict :=
  match tileHome s c path write tile off n with
  | .ok _ => .go
  | .error v => v

/-- The homes, none where the access faults. -/
def tileHomes (s : State) (c path : Nat) (write : Bool) (tile off n : Nat) : List (Loc × Nat × Nat) :=
  match tileHome s c path write tile off n with
  | .ok l => l
  | .error _ => []

/-- A home some bytes on. -/
def Loc.plus (l : Loc) (n : Nat) : Loc :=
  match l with
  | .arr c a => .arr c (a + n)
  | .pa a => .pa (a + n)
  | .expand a => .expand (a + n)

/-- The stale-binding fault of a scaled tile whose buckle is not current (R222). DESIGN CHOICE:
for an unbound tile TRAPINFO holds keeper 0, generation 0 and keeper 0's current generation (notes/assumptions/30.md). -/
def staleCheck (a : Arch) (n : Nat) : Verdict :=
  let x := nth a.tiles n Tile.reset
  if !scaledFmt (tFmt x.word.toNat) then .go
  else
    let (k, g) := x.buckle.getD (0, 0)
    let now := (nth a.keepers k Keeper.reset).gen
    need (x.buckle.isSome && !x.stale && g = now) 0x0F
      (n + k * 2 ^ 8 + g.toNat * 2 ^ 16 + now.toNat * 2 ^ 32 + x.buckle.isNone.toNat * 2 ^ 48 + x.stale.toNat * 2 ^ 49)

/-- A tile starts to fill (R216); STALE stays until a new binding or configuration (R223). -/
def Tile.fill (x : Tile) (who : Filler) (keepBuckle : Bool) : Tile :=
  { x with state := .filling, filler := who, buckle := if keepBuckle then x.buckle else none }

/-- A tile released (R216, R218): a ready one drains without its buckle; STALE stays (R223). -/
def Tile.release (x : Tile) : Tile :=
  if x.state = .ready then { x with state := .draining, buckle := none } else x

/-- TILE_DRAIN_DONE (R218): a draining tile becomes empty once nothing reads it; until then it is looked at each cycle. -/
def drainTile (c n : Nat) : Prog := .get fun s =>
  let x := tileAt s c n
  if x.state != .draining then .done
  else if x.busy != 0 || x.reads != 0 then postEv 1 3 (.tileDrainDone (coreBV c) (BitVec.ofNat 6 n))
  else setArch c fun a => a.setTile n fun x => { x with state := .empty }

/-- A keeper as the KP operations under way will leave it (R14, R225, R234): contents, band entries and generation. -/
def keeperView (k : Core) (n : Nat) : Keeper :=
  ((k.flights.filter fun f => f.unit = 20).flatMap (·.posts)).foldl (fun (x : Keeper) p => match p with
    | .keeper m bm b dm bd _ =>
      if m = n then { x with bytes := mergeBytes bm b x.bytes, band := mergeBand dm bd x.band, gen := x.gen + 1 } else x
    | _ => x) ((nth k.arch.keepers n Keeper.reset).blank (keeperErrors k n))

/-- Byte i of a keeper, and band entry i. -/
def Keeper.byte (x : Keeper) (i : Nat) : Nat := digit x.bytes.toNat 8 i

/-- See Keeper.byte. -/
def Keeper.bandAt (x : Keeper) (i : Nat) : Nat := digit x.band.toNat 16 i

/-- The hold while a write to a keeper is pending (R225). -/
def keeperFree (a : Arch) (n : Nat) : Verdict :=
  if (nth a.keepers n Keeper.reset).writes = 0 then .go else .hold 4 20 n

/-- The hold of a keeper write while an MMA still reads the keeper (R225). -/
def keeperUnread (a : Arch) (n : Nat) : Verdict :=
  if (nth a.keepers n Keeper.reset).readers = 0 then .go else .hold 4 20 n

end Sys2Proof.Machine
end

