-- ==== Sys2Proof/Machine/Matrix.lean ====
section
/-! DEFINITION. What the matrix array computes (R188 to R194): operands from tiles and keepers, digits delivered, contributions added. -/

namespace Sys2Proof.Machine

/-- Fields of the precision control word (R204). -/
structure Pcw where
  profile : Nat
  af : Nat
  bf : Nat
  pw : Nat
  skip : Bool
  horizon : Nat
  accmode : Nat
  check : Bool
  rest : Nat
  deriving DecidableEq, Repr

/-- The control word read; `pw` is the planes to a digit. -/
def pcwOf (w : Nat) : Pcw :=
  ⟨field w 0 5, field w 5 4, field w 9 4, if bit w 13 = 1 then 1 else 2, bit w 14 = 1, field w 15 6, field w 21 2, bit w 23 = 1,
   field w 24 8⟩

/-- The format pairs of R141: two MX formats, or BSF4 or BF16 with itself. -/
def pairOk (a b : Nat) : Bool := (decide (1 ≤ a ∧ a ≤ 6) && decide (1 ≤ b ∧ b ≤ 6)) || (a = 7 && b = 7) || (a = 8 && b = 8)

/-- What an MMA reads: its core, control word, tiles and the keepers they were bound to (R209). -/
structure MmaIn where
  core : Nat
  pcw : Pcw
  tileA : Nat
  tileB : Nat
  keepA : Nat
  keepB : Nat
  deriving DecidableEq, Repr

/-- Word 0 of the A and the B tile. -/
def MmaIn.wordA (m : MmaIn) (s : State) : Nat := (tileAt s m.core m.tileA).word.toNat

/-- See wordA. -/
def MmaIn.wordB (m : MmaIn) (s : State) : Nat := (tileAt s m.core m.tileB).word.toNat

/-- The keepers of the A and the B tile. -/
def MmaIn.kA (m : MmaIn) (s : State) : Keeper := keeperNow s m.core m.keepA

/-- See kA. -/
def MmaIn.kB (m : MmaIn) (s : State) : Keeper := keeperNow s m.core m.keepB

/-- The operation's own band pair (R210). -/
def MmaIn.bands (m : MmaIn) (s : State) : BitVec 16 × BitVec 16 :=
  if m.pcw.af = 7 then
    (BitVec.ofNat 16 ((m.kA s).bandAt (tBand (m.wordA s))), BitVec.ofNat 16 ((m.kB s).bandAt (tBand (m.wordB s))))
  else (0x3F80, 0x3F80)

/-- The lowest-numbered check of R205 and R206 that an MMA fails at its start, 0 for none. -/
def MmaIn.failing (m : MmaIn) (s : State) (a : Acc) : Nat :=
  let w := m.pcw
  let x := m.wordA s
  let y := m.wordB s
  let k := tCols x
  let top := if w.af = 7 then 256 else 1024
  let span := if w.af = 7 then 4 * k else k
  let code := fun (f : Nat) => decide (1 ≤ f ∧ f ≤ 8)
  if !decide (1 ≤ w.profile ∧ w.profile ≤ 3) || w.rest != 0 || decide (2 ≤ w.accmode) || !code w.af || !code w.bf then 1
  else if !pairOk w.af w.bf then 2
  else if tPlanes x || tRows x != 32 || !tPlanes y || tCols y != 32 then 3
  else if tRows y != k then 4
  else if k % 32 != 0 || k < 32 || k > top then 5
  else if tFmt x != w.af || tFmt y != w.bf then 6
  else if decide (w.af ≤ 7) && (decide (tSoff x + span > 1024) || decide (tSoff y + span > 1024)) then 7
  else if w.accmode = 0 && m.bands s != (a.bandA, a.bandB) then 8
  else 0

/-- Bytes of a tile's storage as the array reads them: those in error as zero (R392). -/
def tileBytes (s : State) (c n off len : Nat) : Nat := gather s (piecesFrom 0 (tileHomes s c 2 false n off len))

/-- The raw elements of 32 codes of a format. -/
def rawRow (f x : Nat) : List BlockEl := (List.range 32).map fun k => codeParts (Fmt.ofCode f) (digit x (tBits f) k)

/-- The raw elements of row i of A in block b (R189, R244). -/
def MmaIn.rowA (m : MmaIn) (s : State) (b i : Nat) : List BlockEl :=
  let w := tBits m.pcw.af
  rawRow m.pcw.af (tileBytes s m.core m.tileA (i * (tCols (m.wordA s) * w / 8) + b * (4 * w)) (4 * w))

/-- Scale bytes of a side in block b for row or column i: one E8M0 code, or the four E3M5 codes of its sub-blocks (R209). -/
def scaleBytes (af : Nat) (k : Keeper) (soff b i : Nat) : List Nat :=
  if af = 7 then (List.range 4).map fun q => k.byte (soff + 32 * (4 * b + q) + i)
  else if af = 8 then [] else [k.byte (soff + 32 * b + i)]

/-- A BSF4 row combined with its scales; others as they are (R142). -/
def foldRow (af : Nat) (sc : List Nat) (l : List BlockEl) : List BlockEl :=
  if af = 7 then l.zipIdx.map fun p => foldScale (sc[p.2 / 8]?.getD 0) p.1 else l

/-- The scale exponent of a side for the termination test (R194). -/
def scaleExp (af : Nat) (sc : List Nat) : Int :=
  if af = 7 then (sc.map fun x => ((x / 32 : Nat) : Int) - 2).foldl max (-2)
  else if af = 8 then 0 else ((sc.head?.getD 127 : Nat) : Int) - 127

/-- The element of B whose planes gave sign, exponent field and significand (R142, R192). -/
def planeEl (f : Fmt) (neg : Bool) (x m : Nat) : BlockEl :=
  let (mb, bias) := f.layout
  match f with
  | .mxint8 => ⟨neg, m, -6, false, false⟩
  | .bsf4 => ⟨neg, m, (x : Int) - 2, false, false⟩
  | .e4m3 => if x = 15 && m % 8 = 7 then ⟨false, 0, 0, false, true⟩ else ⟨neg, m, ((max x 1 : Nat) : Int) - 10, false, false⟩
  | _ =>
    let top := (f = .e5m2 && x = 31) || (f = .bf16 && x = 255)
    if top then (if m % 2 ^ mb = 0 then ⟨neg, 0, 0, true, false⟩ else ⟨false, 0, 0, false, true⟩)
    else ⟨neg, m, ((max x 1 : Nat) : Int) - (bias : Int) - (mb : Int), false, false⟩

/-- A block-row of B as read: its planes and the fields of its header as the array takes them (R191, R192). -/
structure RowB where
  planes : Array Nat
  sigocc : Nat
  expmax : Nat
  special : Bool
  hvalid : Bool
  colocc : Nat
  deriving DecidableEq, Repr

/-- A block-row from its bytes (R191, R192, R245). -/
def rowBOf (f x : Nat) : RowB :=
  let n := planesOf f
  let h := field x (1024 * n) 64
  let p := (planeCounts (Fmt.ofCode f)).2
  let v := bit h 31 = 1
  ⟨((List.range n).map fun i => digit x 1024 i).toArray, if v then field h 0 p else 2 ^ p - 1, field h 8 8,
   !v || bit h 16 = 1, v, if v then field h 32 32 else 2 ^ 32 - 1⟩

/-- Block-row b of B (R189). -/
def MmaIn.rowB (m : MmaIn) (s : State) (b : Nat) : RowB :=
  let z := blockRowBytes m.pcw.bf
  rowBOf m.pcw.bf (tileBytes s m.core m.tileB (b * z) z)

/-- Element r of a block-row over the significand planes of a mask: plane t counts where bit t is 1 (R145, R192). -/
def RowB.el (y : RowB) (f : Fmt) (mask r : Nat) : BlockEl :=
  let (e, p) := planeCounts f
  let b := fun (np : Nat) => bit (y.planes[np]?.getD 0) r
  let x := ofBits e fun i => b (e - i) = 1
  let sig := ofBits p fun i => b (e + p - i) = 1 && bit mask (p - 1 - i) = 1
  planeEl f (b 0 = 1) x sig

/-- Delivery of a block-row's digits (R193, R194): the planes delivered as a mask, and the digits charged. -/
def deliver (p pw occ : Nat) (skip : Bool) (stop : Nat → Bool) : Nat → Nat → Nat → Nat → Nat × Nat
  | 0, _, d, m => (m, d)
  | fuel + 1, dd, d, m =>
    if p ≤ dd || (dd % 2 = 0 && stop dd) then (m, d)
    else
      let g := (List.range pw).map (· + dd)
      if skip && !g.any (fun t => bit occ t = 1) then deliver p pw occ skip stop fuel (dd + pw) d m
      else deliver p pw occ skip stop fuel (dd + pw) (d + 1) (m ||| ((g.filter (· < p)).foldl (fun x t => x + 2 ^ t) 0))

/-- LA of a row: the largest qa + bitlen(Ma) over its nonzero elements (R194). -/
def topOf (l : List BlockEl) : Option Int :=
  (l.filter fun x => x.m != 0).foldl (fun r x =>
    let u := x.q + (bitlen x.m : Int)
    match r with | none => some u | some v => some (max u v)) none

/-- c_B of a floating B format (R190). -/
def cOfB (f : Nat) : Int :=
  match f with | 1 => 2 | 2 => 4 | 3 => 5 | 4 => 10 | 5 => 17 | _ => 134

/-- QB (R194). -/
def qB (f expmax : Nat) : Int :=
  if f = 6 then -6 else if f = 7 then (expmax : Int) - 2 else ((max expmax 1 : Nat) : Int) - cOfB f

/-- What the cells of one block take (R142, R188, R194): the rows of A and the columns of B over the delivered planes, and the digits
charged, from the scale bytes and raw elements of the rows of A, and the scale bytes and block-row of B. -/
def blockOperands (w : Pcw) (scA scB : Array (List Nat)) (raw : Array (List BlockEl)) (y : RowB) (els : Vector AccEl 1024) :
    Array (List BlockEl) × Array (List BlockEl) × Nat :=
  let fb := Fmt.ofCode w.bf
  let p := (planeCounts fb).2
  let blocked := y.special || !y.hvalid || raw.any (fun l => l.any fun x => x.inf || x.nan) ||
    scA.any (fun l => l.contains 255) || scB.any (fun l => l.contains 255)
  let las := raw.map topOf
  let stop := fun (dd : Nat) => w.profile = 2 && !blocked &&
    (List.range 32).all fun i => match (las[i]?).getD none with
      | none => true
      | some la => (List.range 32).all fun j =>
          let e := nth els (32 * i + j) AccEl.zero
          let u := la + scaleExp w.af (scA[i]?.getD []) + qB w.bf y.expmax + scaleExp w.af (scB[j]?.getD []) + (p : Int) - (dd : Int) + 5
          e.cls != .fin || bit y.colocc j = 0 || decide (u ≤ e.e - (w.horizon : Int))
  let (mask, d) := deliver p w.pw y.sigocc w.skip stop (p + 1) 0 0 0
  -- a digit skipped, or marked unoccupied, holds only planes that count as zero (R192, R193)
  let bm := mask &&& y.sigocc
  let cols := ((List.range 32).map fun j => foldRow w.af (scB[j]?.getD [])
    ((List.range 32).map fun k => y.el fb bm (32 * k + j))).toArray
  let rows := ((List.range 32).map fun i => foldRow w.af (scA[i]?.getD []) (raw[i]?.getD [])).toArray
  (rows, cols, max d 1)

/-- One block: the elements after its contributions, and the digits charged (R188, R194). -/
def blockSum (w : Pcw) (scA scB : Array (List Nat)) (raw : Array (List BlockEl)) (y : RowB) (els : Vector AccEl 1024) :
    Vector AccEl 1024 × Nat :=
  let fb := Fmt.ofCode w.bf
  let (rows, cols, d) := blockOperands w scA scB raw y els
  let wa := blockWidth (Fmt.ofCode w.af)
  let wb := blockWidth fb
  let cell := fun (r : Nat) =>
    let scales := if w.af ≤ 6 then some ((scA[r / 32]?.getD []).head?.getD 0, (scB[r % 32]?.getD []).head?.getD 0) else none
    accAddUnder w.profile (nth els r AccEl.zero) (blockProduct (rows[r / 32]?.getD []) (cols[r % 32]?.getD []) wa wb scales)
  (Vector.ofFn fun (i : Fin 1024) => cell i.val, d)

/-- The residues of one operand of a block, modulo 2^24 (R197): Inf and NaN positions are 0. -/
def residuesOf (l : Array (List BlockEl)) : List (List Nat) :=
  let qs := l.toList.flatMap fun r => r.map (·.q)
  let qmin := qs.foldl min (qs.head?.getD 0)
  l.toList.map fun r => r.map fun x =>
    if x.inf || x.nan then 0 else enc ((if x.neg then -1 else 1) * ((x.m * 2 ^ (x.q - qmin).toNat : Nat) : Int)) 24

/-- MR and MC of one check of a block (R197): the rows and columns whose check cell disagrees, with the errors of single cells, as
(32i + j, what is added to the cell's residue), that the check meets. -/
def checkMasks (alpha beta : List (List Nat)) (errs : List (Nat × Nat)) : Nat × Nat :=
  let sum := fun (l : List Nat) => l.foldl (· + ·) 0
  let at_ := fun (l : List (List Nat)) (i k : Nat) => (l.getD i []).getD k 0
  let ks := List.range 32
  let rho := fun (i j : Nat) => (sum (ks.map fun k => at_ alpha i k * at_ beta j k) +
    sum ((errs.filter fun e => e.1 = 32 * i + j).map (·.2))) % 2 ^ 24
  let rc := fun (i : Nat) => sum (ks.map fun k => at_ alpha i k * sum (ks.map fun j => at_ beta j k)) % 2 ^ 24
  let cr := fun (j : Nat) => sum (ks.map fun k => sum (ks.map fun i => at_ alpha i k) * at_ beta j k) % 2 ^ 24
  (ofBits 32 fun i => sum (ks.map (rho i)) % 2 ^ 24 != rc i,
   ofBits 32 fun j => sum (ks.map fun i => rho i j) % 2 ^ 24 != cr j)

/-- Block b of an MMA, as an operation on its operands. -/
def MmaIn.onBlock {α : Type} (m : MmaIn) (s : State) (b : Nat)
    (f : Pcw → Array (List Nat) → Array (List Nat) → Array (List BlockEl) → RowB → α) : α :=
  let w := m.pcw
  f w ((List.range 32).map fun i => scaleBytes w.af (m.kA s) (tSoff (m.wordA s)) b i).toArray
    ((List.range 32).map fun j => scaleBytes w.af (m.kB s) (tSoff (m.wordB s)) b j).toArray
    ((List.range 32).map fun i => m.rowA s b i).toArray (m.rowB s b)

/-- Block b of an MMA. -/
def MmaIn.block (m : MmaIn) (s : State) (b : Nat) (els : Vector AccEl 1024) : Vector AccEl 1024 × Nat :=
  m.onBlock s b fun w scA scB raw y => blockSum w scA scB raw y els

/-- The whole product (R188): elements after the last block, and the digits charged to each block-row. -/
def MmaIn.product (m : MmaIn) (s : State) (a : Acc) : Vector AccEl 1024 × List Nat :=
  let start := if m.pcw.accmode = 1 then Vector.replicate 1024 AccEl.zero else a.els
  (List.range (tCols (m.wordA s) / 32)).foldl (fun (r : Vector AccEl 1024 × List Nat) b =>
    let (e, d) := m.block s b r.1
    (e, r.2 ++ [d])) (start, [])

/-- The residues of every block's operands, as the operand buffers keep them for the check cells (R197, R198). -/
def MmaIn.residues (m : MmaIn) (s : State) (a : Acc) : List (List (List Nat) × List (List Nat)) :=
  let start := if m.pcw.accmode = 1 then Vector.replicate 1024 AccEl.zero else a.els
  ((List.range (tCols (m.wordA s) / 32)).foldl (fun (r : Vector AccEl 1024 × List (List (List Nat) × List (List Nat))) b =>
    let (rows, cols, _) := m.onBlock s b fun w scA scB raw y => blockOperands w scA scB raw y r.1
    ((m.block s b r.1).1, r.2 ++ [(residuesOf rows, residuesOf cols)])) (start, [])).2

/-- The bytes of a side's keeper that the prologue reads (R209, R210). -/
def keepSpans (af word : Nat) : List (Nat × Nat) :=
  if af = 7 then [(tSoff word, 4 * tCols word), (1024 + 2 * tBand word, 2)] else [(tSoff word, tCols word)]

/-- The pieces of the operand tiles whose data are in error (R394). -/
def MmaIn.bad (m : MmaIn) (s : State) : List Piece :=
  let size := fun (n : Nat) => tileSize (tileAt s m.core n).word.toNat
  ([m.tileA, m.tileB].flatMap fun n => piecesFrom 0 (tileHomes s m.core 2 false n 0 (size n))).filter fun p =>
    (readError s p.at_ p.n).isSome

end Sys2Proof.Machine
end

