-- ==== Sys2Proof/Machine/Ma.lean ====
section
/-! DEFINITION. The matrix unit MA (R202 to R213), and an MMA on the array (R195 to R201). -/

namespace Sys2Proof.Machine

/-- ACC, TILEA and TILEB of the operand word (R209). -/
def maAcc (t : Trig) : Nat := field t.sa 0 2

/-- See maAcc. -/
def maTileA (t : Trig) : Nat := field t.sa 8 6

/-- See maAcc. -/
def maTileB (t : Trig) : Nat := field t.sa 16 6

/-- Accumulator n of a core. -/
def accAt (s : State) (c n : Nat) : Acc := nth (s.core c).arch.accs n (Acc.reset n)

/-- The keepers that an MMA's prologue will read: those of its scaled tiles' buckles, each as its number plus one, 0 for none (R225). -/
def maKeeps (a : Arch) (t : Trig) : List Nat :=
  [maTileA t, maTileB t].map fun n =>
    let x := nth a.tiles n Tile.reset
    if scaledFmt (tFmt x.word.toNat) then (x.buckle.map fun b => b.1 + 1).getD 0 else 0

/-- The opcode names an accumulator; MCLR does not. -/
def namesAcc (op : Nat) : Bool := op != 8

/-- Opcodes whose accumulator is a target (R206). -/
def maTarget (op : Nat) : Bool := op != 8 && op != 3 && op != 7

/-- Adds to the readers of the keepers of a list (numbers plus one). -/
def Arch.readKeepers (a : Arch) (l : List Nat) (f : Nat → Nat) : Arch :=
  l.foldl (fun (a : Arch) k => if k = 0 then a else
    { a with keepers := updAt a.keepers (k - 1) fun x => { x with readers := f x.readers } }) a

/-- An MMA takes or gives back its tiles (R200). -/
def Arch.holdTiles (a : Arch) (l : List Nat) (f : Nat → Nat) : Arch :=
  l.foldl (fun (a : Arch) n => a.setTile n fun x => { x with busy := f x.busy }) a

/-- What an MA trigger does at once (R153, R200, R225): its MA sequence number, the accumulator and, for an MMA, its tiles busy and
its keepers read. -/
def maTrigger (t : Trig) (a : Arch) : Arch :=
  let a := { a with maSeq := a.maSeq + 1 }
  let a := if namesAcc t.opcode then a.setAcc (maAcc t) fun x => { x with busy := x.busy ++ [t.maSeq.toNat] } else a
  if t.opcode = 1 then (a.holdTiles [maTileA t, maTileB t] (· + 1)).readKeepers (maKeeps a t) (· + 1) else a

/-- The operation gives back what its trigger took. -/
def maRelease (t : Trig) (a : Arch) : Arch :=
  let a := if namesAcc t.opcode then a.setAcc (maAcc t) fun x => { x with busy := x.busy.filter (· ≠ t.maSeq.toNat) } else a
  if t.opcode = 1 then
    (a.holdTiles [maTileA t, maTileB t] (· - 1)).readKeepers [digit t.aux.toNat 64 0, digit t.aux.toNat 64 1] (· - 1) else a

/-- The words that an MMA's trigger captures beside its ports: its keepers (R225). -/
def maAux (a : Arch) (t : Trig) : Vec :=
  if t.opcode = 1 then vecOf 128 64 fun i => (maKeeps a t)[i]?.getD 0 else 0

/-- Step 1 of R208 for a named tile: busy, not in the state the operation needs, or its keeper being written. -/
def maTileHold (a : Arch) (n : Nat) (write : Bool) : Verdict :=
  let x := nth a.tiles n Tile.reset
  if !x.cfg then .go
  else (tileFree x n).and <|
    (if write then (if x.state = .filling || x.state = .draining then Verdict.hold 3 21 n else .go) else tileReady x n).and <|
      match x.buckle with
      | some (k, _) => keeperFree a k
      | none => .go

/-- An address in a window slot that the task does not hold (R208 step 3). -/
def slotCheck (a : Arch) (x : Nat) : Verdict :=
  need (!(decide (0x800000 ≤ x) && decide (x < 0x1000000)) || (nth a.slots ((x - 0x800000) / 0x100000) none).isSome) 0x0C x

/-- The image address faults of R212. -/
def imageCheck (s : State) (c : Nat) (write : Bool) (x : Nat) : Verdict :=
  (need (x % 64 = 0) 0x08 x).and <|
    match localHome s c 2 write (spadLimit s c) x 16384 with
    | .ok _ => .go
    | .error e => .bad e (info x)

/-- The issue checks of an MA operation (R207, R208): tiles with whether they are written, whether b is an image address. -/
def maCheck (tiles : Trig → List (Nat × Bool)) (image write : Bool) (s : State) (t : Trig) : Verdict :=
  let a := (s.core t.core).arch
  let k := maAcc t
  let x := accAt s t.core k
  let ts := tiles t
  let exempt := t.opcode = 6 || t.opcode = 4 || t.opcode = 9
  if t.opcode = 8 then .go
  else
    (if t.opcode ≤ 5 then fenceCheck s t.core 2 else .go).and <|
    (if x.busy.isEmpty then Verdict.go else .hold 2 19 k).and <|
    (Verdict.all (ts.map fun p => maTileHold a p.1 p.2)).and <|
    (need (!a.maHalt) 0x12 (2 ^ 63)).and <|
    (Verdict.all (ts.map fun p => tileNeed (nth a.tiles p.1 Tile.reset).cfg (nth a.tiles p.1 Tile.reset) p.1)).and <|
    (Verdict.all (ts.map fun p => tileAccess s t.core 2 p.2 p.1 0 (tileSize (nth a.tiles p.1 Tile.reset).word.toNat))).and <|
    (if image then slotCheck a t.sb else Verdict.go).and <|
    (if t.opcode = 1 then (staleCheck a (maTileA t)).and (staleCheck a (maTileB t)) else .go).and <|
    (need (exempt || !x.invalid) 0x10 k).and <|
    (if image then imageCheck s t.core write t.sb else .go)

/-- INFO of an MA record (R206). -/
def maInfo (t : Trig) (check word : Nat) : Nat := check + t.opcode * 2 ^ 8 + word % 2 ^ 32 * 2 ^ 32

/-- A record of MA (R206, R385). -/
def maRecord (s : State) (c pc slot : Nat) (maSeq : BitVec 32) (code i : Nat) (corr : Bool) (detail : Nat) : ErrRec :=
  { coreRecord s c code 1 i with source := 1, corr := corr, pc := pc, slot := slot, seq := maSeq.toNat, detail := detail }

/-- An operation of MA changes nothing but that it gives back what it took, its target accumulator is invalid, and its record is
written (R206): `check` is 0 for one that a halt discards. -/
def maRefused (t : Trig) (check word : Nat) : Prog := Prog.all [
  setArchAt t.core t.seq (fun a =>
    let a := maRelease t a
    if maTarget t.opcode then a.setAcc (maAcc t) fun x => { x with invalid := true } else a),
  .get fun s => errorRecord (maRecord s t.core t.pc t.slot t.maSeq 0x12 (maInfo t check word) false 0)]

/-- A discarded operation (R206). -/
def maDiscarded (t : Trig) : Prog := maRefused t 0 (if t.opcode = 1 || t.opcode = 2 then t.sb else 0)

/-- MA halts (R198, R206): the operations that wait for their start are discarded at once; MCLR stays. -/
def maHalts (c seq : Nat) : Prog := .get fun s =>
  let waiting := (nth (s.core c).captured 0 []).filter fun t => t.opcode != 8
  Prog.all [
    setArchAt c seq (fun a => { a with maHalt := true }),
    setCore c (fun k => { k with captured := updAt k.captured 0 fun l => l.filter fun t => t.opcode = 8 }),
    Prog.each waiting maDiscarded]

/-- An ill-formed command ends its operation and halts MA (R206). -/
def maIllFormed (t : Trig) (check word : Nat) : Prog := Prog.all [
  maRefused t check word,
  setArchAt t.core t.seq (fun a => a.engineDone 19),
  maHalts t.core t.seq]

/-- A trigger with what MA takes at it, unless its bundle has taken it already. -/
def maTaken (s : State) (t : Trig) : Trig :=
  if t.checked then t else { t with aux := maAux (s.core t.core).arch t }

/-- An MA operation: its checks, what its trigger takes unless its bundle has taken it, then its start, where a halted MA discards it
(R206). -/
def maRun (chk : State → Trig → Verdict) (body : State → Trig → Prog) : Op :=
  opRun 19 (fun s t => chk s (maTaken s t)) fun s t0 =>
    let t := maTaken s t0
    Prog.all [
      Prog.when_ (!t.checked) (setArchAt t.core t.seq (maTrigger t)),
      .get fun s =>
        if (s.core t.core).arch.maHalt && t.opcode != 8 then
          (maDiscarded t).andThen (setArchAt t.core t.seq fun a => a.engineDone 19)
        else body (t.sees s) t]

/-- An MA operation that completes after its bound and frees its accumulator. -/
def maFinish (t : Trig) (bound : Nat) (posts : List Post) : Prog :=
  finish t bound (.accFree (maAcc t) t.maSeq.toNat :: posts)

/-- What an MMA reads, from its operands. -/
def mmaIn (core pcw tileA tileB ka kb : Nat) : MmaIn := ⟨core, pcwOf pcw, tileA, tileB, ka - 1, kb - 1⟩

/-- The array's next start is looked at (R196): the first MMA that has not begun begins once the one before it allows. -/
def scheduleArray (c : Nat) : Prog := .get fun s =>
  let k := s.core c
  if k.maQ.any (·.marked) || k.maQ.all (·.began.isSome) then .done
  else postAt (max s.time k.arrayFree) 2 (.mmaArrayStart (coreBV c))

/-- MMA (R205, R209): checked at its start, then it waits for the array. -/
def opMma : Op :=
  maRun (maCheck (fun t => [(maTileA t, false), (maTileB t, false)]) false false) fun s t =>
    let ka := digit t.aux.toNat 64 0
    let kb := digit t.aux.toNat 64 1
    let m := mmaIn t.core t.sb (maTileA t) (maTileB t) ka kb
    let bad := m.failing s (accAt s t.core (maAcc t))
    if bad != 0 then maIllFormed t bad t.sb
    else Prog.all [
      setCore t.core (fun k => { k with maQ := k.maQ ++ [{
        seq := t.seq
        slot := t.slot
        pc := t.pc
        maSeq := t.maSeq
        inTrap := t.inTrap
        acc := maAcc t
        tileA := maTileA t
        tileB := maTileB t
        pcw := t.sb % 2 ^ 32
        start := s.time
        bufs := []
        began := none
        complete := 0
        lastAcc := 0
        tilesHeld := true
        keeps := [ka, kb]
        before := none
        limit := field (k.arch.sr 15).toNat 0 4
        replays := 0
        marked := false
        digits := []
        mr := 0
        mc := 0
        badBlock := 0 }] }),
      scheduleArray t.core]
def execMma (s : State) : Host.Outcome State Fault Refusal := runOp opMma s

/-- A mask that names exactly one row or column (R197). -/
def single (m : Nat) : Bool := m != 0 && m = 2 ^ Nat.log2 m

/-- What the checks of a pass find, block after block from block `from_` on (R197): the blocks repaired, the first block that marks the
operation for replay, and the errors left for a later pass. Every block is checked, the ones after a mark too; a repaired block is
checked once more. -/
def checkCells (ds : List Nat) : List (Nat × Nat × Nat) → Nat → List (Nat × Nat × Nat) → Option (Nat × Nat × Nat) →
    List (Nat × Nat × Nat) × Option (Nat × Nat × Nat) × List (Nat × Nat × Nat)
  | [], _, fixed, mark => (fixed, mark, [])
  | (b, mr, mc) :: r, from_, fixed, mark =>
    if b < from_ || ds.length ≤ b then (fixed, mark, (b, mr, mc) :: r)
    else if mr = 0 && mc = 0 then checkCells ds r (b + 1) fixed mark
    else if single mr && single mc && !(fixed.any fun d => d.1 = b) then
      checkCells ds r b (fixed ++ [(b, Nat.log2 mr, Nat.log2 mc)]) mark
    else checkCells ds r (b + 1) fixed (mark.or (some (b, mr, mc)))

/-- One pass of an MMA over the array from cycle `from_` (R195, R197): its completion, repairs and mark. -/
def mmaPass (c : Nat) (m : MmaOp) (ds : List Nat) (from_ : Nat) : Prog := .get fun s =>
  let k := s.core c
  let w := pcwOf m.pcw
  let sum := ds.foldl (· + ·) 0
  let seen := k.cellFaults.map fun e => (e.1, checkMasks (m.bufs.getD e.1 ([], [])).1 (m.bufs.getD e.1 ([], [])).2 e.2)
  let (fixed, mark, rest) := if w.check then checkCells ds seen 0 [] none else ([], none, seen)
  let left := k.cellFaults.drop (seen.length - rest.length)
  let repairs := (fixed.map fun x => 6 + 2 * (ds[x.1]?.getD 1)).foldl (· + ·) 0
  let complete := from_ + 24 + 2 * sum + (if w.check then 2 else 0) + repairs
  let put := fun (x : MmaOp) => if x.seq != m.seq then x else
    { x with complete := complete, digits := ds, marked := mark.isSome, mr := (mark.map (·.2.1)).getD 0,
             mc := (mark.map (·.2.2)).getD 0, badBlock := (mark.map (·.1)).getD 0 }
  Prog.all [
    setCore c (fun k => { k with cellFaults := left, arrayFree := complete - 24, maQ := k.maQ.map put }),
    Prog.each fixed (fun x => .get fun s =>
      errorRecord (maRecord s c m.pc m.slot m.maSeq 0x11 (x.1 % 2 ^ 16 + x.2.1 * 2 ^ 17 + x.2.2 * 2 ^ 22) true 0)),
    postAt (complete + 1) 2 (if mark.isSome then .mmaReplay (coreBV c) else .mmaComplete (coreBV c))]

/-- When core c's array may start at t or later: a die that throttles delays it (R464). -/
def throttledUntil (s : State) (c t : Nat) : Nat :=
  let y := s.die (dieOf c)
  if y.throttled then max t (nth y.arrayFrom (c % 128) 0) else t

/-- MMA_ARRAY_START (R188, R195, R196): the first MMA that has not begun begins, counted from its array start also where the end of the
one before it became known only later (R206). DESIGN CHOICE:
all planes, headers, scales and keepers of the operation are read in this one step (notes/assumptions/30.md). -/
def arrayStart (c : Nat) : Prog := .get fun s =>
  let k := s.core c
  match k.maQ.find? (·.began.isNone) with
  | none => .done
  | some m =>
    if k.maQ.any (·.marked) then .done
    else if s.time < throttledUntil s c (max m.start k.arrayFree) then
      postAt (throttledUntil s c (max m.start k.arrayFree)) 2 (.mmaArrayStart (coreBV c))
    else
      let from_ := throttledUntil s c (max m.start k.arrayFree)
      let x := mmaIn c m.pcw m.tileA m.tileB (m.keeps[0]?.getD 0) (m.keeps[1]?.getD 0)
      let old := accAt s c m.acc
      let s := asOf s c m.seq
      let (els, ds) := x.product s old
      let lastAcc := from_ + 24 + 2 * ds.foldl (· + ·) 0
      let m := if x.pcw.check then { m with bufs := x.residues s old } else m
      let who : Who := { core := c, ctx := ctxId s c, seq := m.seq, slot := m.slot, inTrap := m.inTrap, acc := some m.acc }
      let spans := keepSpans x.pcw.af
      let (ba, bb) := if x.pcw.accmode = 1 then x.bands s else (old.bandA, old.bandB)
      Prog.all [
        setCore c (fun k => { k with
          maQ := k.maQ.map fun y => if y.seq = m.seq then
            { y with began := some from_, lastAcc := lastAcc, before := some old, bufs := m.bufs } else y }),
        setArchAt c m.seq (fun a => a.setAcc m.acc fun a => { a with els := els, bandA := ba, bandB := bb, lastProfile := x.pcw.profile }),
        mmaPass c m ds from_,
        Prog.each (x.bad s) (fun p => consumeError who p.at_ p.n),
        Prog.when_ (x.pcw.af ≤ 7) (Prog.all [keeperUse who x.keepA (spans (x.wordA s)), keeperUse who x.keepB (spans (x.wordA s))]),
        postAt (from_ + 24) 2 (.mmaComplete (coreBV c)),
        postAt (lastAcc + 1) 2 (.mmaComplete (coreBV c)),
        scheduleArray c]

/-- MMA_ARRAY_START (R196). -/
def execMmaArrayStart (core : BitVec 8) (s : State) : Host.Outcome State Fault Refusal := ran (arrayStart core.toNat) s

/-- An MMA leaves the array: its accumulator is free of it, and the engine no longer runs it. -/
def mmaLeave (c : Nat) (m : MmaOp) (f : Acc → Acc) : Prog := Prog.all [
  setCore c (fun k => { k with maQ := k.maQ.filter (fun y => y.seq != m.seq) }),
  setArchAt c m.seq fun a =>
    let a := if m.tilesHeld then a.holdTiles [m.tileA, m.tileB] (· - 1) else a
    let a := a.readKeepers m.keeps (· - 1)
    (a.setAcc m.acc fun x => { f x with busy := x.busy.filter (· ≠ m.maSeq.toNat) }).engineDone 19]

/-- What is due of an MMA (R195, R200, R225): after cycle 24 its keepers are read, after the last accumulate its tiles are free, and
after its completion it leaves. -/
def mmaDue (c : Nat) (m : MmaOp) : Prog := .get fun s =>
  match m.began with
  | none => .done
  | some b => Prog.all [
      Prog.when_ (decide (b + 24 ≤ s.time) && m.keeps != []) (Prog.all [
        setArchAt c m.seq (fun a => a.readKeepers m.keeps (· - 1)),
        setCore c fun k => { k with maQ := k.maQ.map fun y => if y.seq = m.seq then { y with keeps := [] } else y }]),
      Prog.when_ (decide (m.lastAcc + 1 ≤ s.time) && m.tilesHeld) (Prog.all [
        setArchAt c m.seq (fun a => a.holdTiles [m.tileA, m.tileB] (· - 1)),
        setCore c fun k => { k with maQ := k.maQ.map fun y => if y.seq = m.seq then { y with tilesHeld := false } else y }]),
      .get fun s => match (s.core c).maQ.find? (fun y => y.seq = m.seq) with
        | none => .done
        | some y => Prog.when_ (decide (y.complete + 1 ≤ s.time) && !y.marked) (mmaLeave c y id)]

/-- MMA_COMPLETE (R195). -/
def execMmaComplete (core : BitVec 8) (s : State) : Host.Outcome State Fault Refusal :=
  ran (.get fun s => Prog.each (s.core core.toNat).maQ (mmaDue core.toNat)) s

/-- MMA_REPLAY (R198, R199): a marked MMA runs again from the cycle after its pass's completion, or ends in a tile-check fault once its replays are spent. -/
def mmaRerun (c : Nat) : Prog := .get fun s =>
  match (s.core c).maQ.find? (·.marked) with
  | none => .done
  | some m =>
    if s.time < m.complete + 1 then postAt (m.complete + 1) 2 (.mmaReplay (coreBV c))
    else
      let i := m.badBlock % 2 ^ 16 + 2 ^ 16
      let detail := m.mr + m.mc * 2 ^ 32
      if m.replays < m.limit then Prog.all [
        errorRecord (maRecord s c m.pc m.slot m.maSeq 0x11 i true detail),
        setCore c (fun k => { k with maQ := k.maQ.map fun y =>
          if y.seq = m.seq then { y with marked := false, replays := y.replays + 1 } else y }),
        mmaPass c m m.digits m.complete,
        scheduleArray c]
      else Prog.all [
        errorRecord (maRecord s c m.pc m.slot m.maSeq 0x11 i false detail),
        mmaLeave c m (fun x => { m.before.getD x with invalid := true }),
        maHalts c m.seq,
        scheduleArray c]

/-- MMA_REPLAY (R198). -/
def execMmaReplay (core : BitVec 8) (s : State) : Host.Outcome State Fault Refusal := ran (mmaRerun core.toNat) s

/-- MDRAIN's control word and output tile are well formed (R211): 0, or the failing check. -/
def drainFailing (t : Trig) (w : Nat) : Nat :=
  let ty := field t.sb 0 3
  if !(ty = 6 || ty = 7) || field t.sb 3 3 > 4 then 1
  else if tPlanes w || tRows w != 32 || tCols w != 32 || tFmt w != (if ty = 6 then 0 else 8) then 9
  else 0

/-- MDRAIN (R149, R150, R211): the output tile fills at the start and is ready on completion. -/
def opMdrain : Op :=
  maRun (maCheck (fun t => [(maTileA t, true)]) false true) fun s t =>
    let n := maTileA t
    let w := (tileAt s t.core n).word.toNat
    let bad := drainFailing t w
    if bad != 0 then maIllFormed t bad t.sb
    else
      let f : Fmt := if field t.sb 0 3 = 6 then .f32 else .bf16
      let rm := field t.sb 3 3
      let a := accAt s t.core (maAcc t)
      let size := f.width / 8
      let shown := fun (j : Nat) => bit t.sb 7 = 0 || t.c.getLsbD (32 * j)
      let els := ((List.range 1024).filter fun r => shown (r % 32)).map fun r =>
        (r, drainEl f rm (bitsFor s t rm 1 a.tag.toNat r) (nth a.els r AccEl.zero) a.bandA.toNat a.bandB.toNat)
      Prog.all [
        countSr t (rm = 4),
        setArchAt t.core t.seq (fun a => a.setTile n fun x => x.fill .matrix (x.state = .empty)),
        healWhole (els.flatMap fun x => (tileHomes s t.core 2 true n (x.1 * size) size).map fun h => ⟨h.1, h.2.2, allBits h.2.2⟩),
        Prog.each els (fun x => writePieces (tileHomes s t.core 2 true n (x.1 * size) size) x.2.code (ctxId s t.core) (some (t.who s))),
        Prog.when_ (bit t.sb 6 = 1) (setArchAt t.core t.seq fun a => a.setAcc (maAcc t) fun x =>
          { x with els := Vector.replicate 1024 AccEl.zero }),
        maFinish t 24 (.tileReady n :: convPost (els.map (·.2)))]
def execMdrain (s : State) : Host.Outcome State Fault Refusal := runOp opMdrain s

/-- The raw image of an accumulator (R146). -/
def accImage (a : Acc) : Nat := ofDigits 1024 128 fun i => (nth a.els i AccEl.zero).image

/-- The bound of an image operation: 40 more through the window (R203). -/
def imageBound (t : Trig) (n : Nat) : Nat := if t.sb ≥ 0x800000 then n + 40 else n

/-- The homes of an image. -/
def imageHomes (s : State) (t : Trig) (write : Bool) : List (Loc × Nat × Nat) :=
  match localHome s t.core 2 write (spadLimit s t.core) t.sb 16384 with
  | .ok l => [(l, 0, 16384)]
  | .error _ => []

/-- MSAVE (R212). -/
def opMsave : Op :=
  maRun (maCheck (fun _ => []) true true) fun s t => Prog.all [
    writePieces (imageHomes s t true) (accImage (accAt s t.core (maAcc t))) (ctxId s t.core) (some (t.who s)),
    maFinish t (imageBound t 40) []]
def execMsave (s : State) : Host.Outcome State Fault Refusal := runOp opMsave s

/-- An image operation that reads: its elements, or the ill-formed one (R146, R206, R212). -/
def imageRead (s : State) (t : Trig) (bound : Nat) (f : Vector AccEl 1024 → Acc → Acc) : Prog :=
  let l := piecesFrom 0 (imageHomes s t false)
  let x := gather s l
  let els := ((List.range 1024).map fun i => accOfImage (digit x 128 i)).toArray
  match els.toList.zipIdx.find? (·.1.isNone) with
  | some p => maIllFormed t 10 p.2
  | none => Prog.all [
      setArchAt t.core t.seq (fun a => a.setAcc (maAcc t) (f (Vector.ofFn fun (i : Fin 1024) => ((els[i.val]?).getD none).getD AccEl.zero))),
      Prog.each (l.filter fun p => (readError s p.at_ p.n).isSome) (fun p => consumeError (t.who s) p.at_ p.n),
      maFinish t bound []]

/-- MLOAD (R212). -/
def opMload : Op :=
  maRun (maCheck (fun _ => []) true false) fun s t =>
    imageRead s t (imageBound t 40) fun els x =>
      { x with els := els, invalid := false, bandA := 0x3F80, bandB := 0x3F80, lastProfile := 1 }
def execMload (s : State) : Host.Outcome State Fault Refusal := runOp opMload s

/-- MRAWADD (R147, R148, R212). -/
def opMrawadd : Op :=
  maRun (maCheck (fun _ => []) true false) fun s t =>
    imageRead s t (imageBound t 48) fun els x =>
      { x with els := Vector.zipWith (fun a e => accAddUnder x.lastProfile a e.contribution) x.els els }
def execMrawadd (s : State) : Host.Outcome State Fault Refusal := runOp opMrawadd s

/-- MZERO (R213). -/
def opMzero : Op :=
  maRun (maCheck (fun _ => []) false false) fun _ t => Prog.all [
    setArchAt t.core t.seq (fun a => a.setAcc (maAcc t) fun x =>
      { x with els := Vector.replicate 1024 AccEl.zero, invalid := false, bandA := 0x3F80, bandB := 0x3F80, lastProfile := 1 }),
    maFinish t 2 []]
def execMzero (s : State) : Host.Outcome State Fault Refusal := runOp opMzero s

/-- The digest of an accumulator (R213). -/
def accDigest (a : Acc) : Nat :=
  crc32c 16384 (accImage a) + ((List.range 1024).filter fun i => (nth a.els i AccEl.zero).cls != .fin).length * 2 ^ 32

/-- MCHK (R213). -/
def opMchk : Op :=
  maRun (maCheck (fun _ => []) false false) fun s t =>
    land t 40 (wide (accDigest (accAt s t.core (maAcc t)))) [.accFree (maAcc t) t.maSeq.toNat]
def execMchk (s : State) : Host.Outcome State Fault Refusal := runOp opMchk s

/-- MCLR (R207). -/
def opMclr : Op :=
  maRun (fun _ _ => .go) fun _ t => Prog.all [
    setArchAt t.core t.seq (fun a => { a with maHalt := false }), finish t 1 []]
def execMclr (s : State) : Host.Outcome State Fault Refusal := runOp opMclr s

/-- MSEED (R213). -/
def opMseed : Op :=
  maRun (maCheck (fun _ => []) false false) fun _ t => Prog.all [
    setArchAt t.core t.seq (fun a => a.setAcc (maAcc t) fun x => { x with tag := BitVec.ofNat 16 t.sb }),
    maFinish t 1 []]
def execMseed (s : State) : Host.Outcome State Fault Refusal := runOp opMseed s

end Sys2Proof.Machine
end

