-- ==== Sys2Proof/Machine/Image.lean ====
section
/-! DEFINITION. Rolral images (R24, R25, R54 to R56): the header's checks, the dictionary's, and what an installation puts into a
core's dictionary and index memories. -/

namespace Sys2Proof.Machine

/-- The homes of n bytes at a device VA as the dispatcher and the image loader reach them (R105, R250): by the page tables; a
write needs WR. -/
def vaHomes (s : State) (a n : Nat) (write : Bool) : Option (List (Loc × Nat × Nat)) :=
  if 2 ^ 48 < a + n then none
  else (lineRuns a n).foldr (fun (r : Nat × Nat) acc =>
    let va := a + r.1
    match acc, walkTables s va with
    | some l, some (pte, large) =>
      match paThrough s pte large va with
      | none => none
      | some pa =>
        if write && bit pte 3 = 0 then none else some ((globalHome pte pa va large write false, r.1, r.2) :: l)
    | _, _ => none) (some [])

/-- n bytes at a device VA as a number; zero where they cannot be reached. -/
def vaRead (s : State) (a n : Nat) : Nat := ((vaHomes s a n false).map (readPieces s)).getD 0

/-- Some byte of a range of device VAs is poisoned, or will be by its second read; a transient error is read again and corrected (R258, R392,
R393). -/
def vaPoisoned (s : State) (a n : Nat) : Bool :=
  ((vaHomes s a n false).getD []).any fun x => readError s x.1 x.2.2 = some true

/-- Fields of an image header (R55). -/
def imgDictCnt (h : Nat) : Nat := field h 128 16
/-- See imgDictCnt. -/
def imgDictOff (h : Nat) : Nat := field h 160 32
/-- See imgDictCnt. -/
def imgIdxCnt (h : Nat) : Nat := field h 192 16
/-- See imgDictCnt. -/
def imgEntry (h : Nat) : Nat := field h 208 16
/-- See imgDictCnt. -/
def imgIdxOff (h : Nat) : Nat := field h 224 32
/-- See imgDictCnt. -/
def imgProfile (h : Nat) : Nat := field h 272 5
/-- See imgDictCnt. -/
def imgDataOff (h : Nat) : Nat := field h 288 32
/-- See imgDictCnt. -/
def imgDataLen (h : Nat) : Nat := field h 320 32
/-- See imgDictCnt. -/
def imgDataDest (h : Nat) : Nat := field h 352 32
/-- See imgDictCnt. -/
def imgParamLen (h : Nat) : Nat := field h 384 16
/-- See imgDictCnt. -/
def imgCrc (h : Nat) : Nat := field h 2016 32

/-- An image's length: it ends with its last section (notes/assumptions/17.md). -/
def imgLength (h : Nat) : Nat :=
  max (max 256 (imgDictOff h + 48 * imgDictCnt h))
    (max (imgIdxOff h + 2 * imgIdxCnt h) (if imgDataLen h = 0 then 0 else imgDataOff h + imgDataLen h))

/-- The CRC-32C of an image of n bytes, its CRC field taken as zero (R55). -/
def imgCrcOf (n v : Nat) : Nat := crc32c n (v - field v 2016 32 * 2 ^ 2016)

/-- The checks of R55 in the order listed, each true where it refuses the image at address a of a region with a default profile. -/
def imgChecks (s : State) (a profile h : Nat) : List Bool :=
  [ field h 0 32 != 0x594C5752 || field h 32 16 != 1,
    field h 64 64 != Config.encHash,
    field h 48 16 != 0 || field h 144 16 != 0 || field h 277 11 != 0 || field h 400 624 != 0 || field h 1280 736 != 0,
    imgDictCnt h = 0 || decide (4096 < imgDictCnt h),
    imgIdxCnt h = 0 || decide (32768 < imgIdxCnt h),
    decide (imgIdxCnt h ≤ imgEntry h),
    imgDictOff h % 16 != 0 || imgIdxOff h % 16 != 0 || imgDataOff h % 16 != 0 || imgDataDest h % 16 != 0 ||
      decide (256 < imgParamLen h) || imgParamLen h % 8 != 0,
    (vaHomes s a (imgLength h) false).isNone || decide (262144 < imgDataDest h + imgDataLen h),
    decide (4 ≤ imgProfile h),
    imgProfile h != 0 && imgProfile h != profile ]

/-- The ordinal of the first check of R55 that refuses an image (R384). -/
def imgRefused (s : State) (a profile h : Nat) : Option Nat :=
  match (imgChecks s a profile h).findIdx? id with
  | some i => some (i + 1)
  | none => if imgCrcOf (imgLength h) (vaRead s a (imgLength h)) = imgCrc h then none else some 11

/-- The dictionary of an image (R43, R55). -/
def imgDict (s : State) (a h : Nat) : List Bundle :=
  let v := vaRead s (a + imgDictOff h) (48 * imgDictCnt h)
  (List.range (imgDictCnt h)).map fun n => BitVec.ofNat 384 (digit v 384 n)

/-- The index stream of an image. -/
def imgIdx (s : State) (a h : Nat) : List (BitVec 16) :=
  let v := vaRead s (a + imgIdxOff h) (2 * imgIdxCnt h)
  (List.range (imgIdxCnt h)).map fun n => BitVec.ofNat 16 (digit v 16 n)

/-- The first dictionary entry that R53 refuses, with its slot (R24). -/
def badEntry (d : List Bundle) : Option (Nat × Nat) :=
  (d.zipIdx).findSome? fun p => (validate p.1).map fun e => (p.2, e.2.1)

/-- Why the image at an address is refused: the fault's code and INFO (R24, R55, R384). -/
def imgFault (s : State) (a profile : Nat) : Option (Nat × Nat) :=
  let h := vaRead s a 256
  match imgRefused s a profile h with
  | some n => some (0x21, n)
  | none => (badEntry (imgDict s a h)).map fun p => (0x02, p.1 + p.2 * 2 ^ 16)

/-- Words of dictionary and index memory are written anew: what was in error there is so no longer (R258). -/
def Core.rewritten (k : Core) (words : Nat → Bool) : Core :=
  { k with
    poison := k.poison.filter fun w => !words w
    upsets := k.upsets.filter fun u => !words u.word }

/-- An image stands in a core's memories: its dictionary and index stream, with its address and CRC (R117). -/
def Core.install (k : Core) (s : State) (a : Nat) : Core :=
  let h := vaRead s a 256
  { k.rewritten (fun w => decide (dictBase / 8 ≤ w)) with dict := imgDict s a h, idx := imgIdx s a h, imageAddr := a, imageCrc := imgCrc h }

/-- The entries that some words of dictionary and index memory hold, from the image in global memory again (R393). -/
def Core.reinstalled (k : Core) (s : State) (words : List Nat) : Core :=
  let h := vaRead s k.imageAddr 256
  let hit := fun (a n : Nat) => words.any fun w => decide (w * 8 < a + n) && decide (a < w * 8 + 8)
  { k.rewritten words.contains with
    dict := k.dict.zipIdx.map fun e => if hit (dictBase + 48 * e.2) 48 then ((imgDict s k.imageAddr h)[e.2]?).getD e.1 else e.1
    idx := k.idx.zipIdx.map fun e => if hit (indexBase + 2 * e.2) 2 then ((imgIdx s k.imageAddr h)[e.2]?).getD e.1 else e.1 }

/-- The image at an address is the core's last installed one (R117). -/
def Core.resident (k : Core) (s : State) (a : Nat) : Bool :=
  !k.idx.isEmpty && k.imageAddr = a && k.imageCrc = imgCrc (vaRead s a 256)

end Sys2Proof.Machine
end

