-- ==== Sys2Proof/Machine/Desc.lean ====
section
/-! DEFINITION. Tensor descriptors (R260 to R263): fields, seal, validity, and where elements lie (R262, R264). A descriptor is its 1,024
bits as a number. -/

namespace Sys2Proof.Machine

/-- BASE (R261). -/
def dBase (d : Nat) : Nat := field d 0 48

/-- FMT. -/
def dFmt (d : Nat) : Nat := field d 48 4

/-- PTYPE. -/
def dType (d : Nat) : Nat := field d 52 3


/-- RANK. -/
def dRank (d : Nat) : Nat := field d 56 3

/-- LAYOUT. -/
def dLayout (d : Nat) : Nat := field d 59 2

/-- OOB: 0 fault, 1 zero, 2 clamp. -/
def dOob (d : Nat) : Nat := field d 61 2

/-- CGDIM. -/
def dCgdim (d : Nat) : Nat := field d 80 3

/-- SBASE. -/
def dSbase (d : Nat) : Nat := field d 96 48

/-- PAD. -/
def dPad (d : Nat) : Nat := field d 160 32

/-- SIZE i. -/
def dSize (d i : Nat) : Nat := field d (192 + 32 * i) 32

/-- STRIDE i. -/
def dStride (d i : Nat) : Int := sint (field d (352 + 64 * i) 64) 64

/-- SEAL. -/
def dSeal (d : Nat) : Nat := field d 992 32

/-- The dimensions in use. -/
def dDims (d : Nat) : List Nat := List.range (dRank d)

/-- Bits of an element (R261, R262): plain elements by PTYPE, others by FMT. -/
def dBits (d : Nat) : Nat := if dFmt d = 0 then tyWidth (ElemType.ofCode (dType d)) else (Fmt.ofCode (dFmt d)).width

/-- Number of elements. -/
def dCount (d : Nat) : Nat := (dDims d).foldl (fun n i => n * dSize d i) 1

/-- The descriptor is of a format with scales (R261). -/
def dScaled (d : Nat) : Bool := decide (1 ≤ dFmt d ∧ dFmt d ≤ 7)

/-- Check 1 of R263: fields as R261 and R262 have them. -/
def dFieldsOk (d : Nat) : Bool :=
  let rank := dRank d
  let used := fun (i : Nat) => decide (i < rank)
  (!dLocal d || field d 32 16 = 0) && decide (dFmt d ≤ 8) && (dFmt d = 0 || dType d = 0) &&
  decide (1 ≤ rank ∧ rank ≤ 5) && dLayout d != 3 && dOob d != 3 && bit d 63 = 0 &&
  (if dLayout d = 0 then dCgdim d = 0 else decide (1 ≤ dCgdim d ∧ dCgdim d < rank)) &&
  field d 83 13 = 0 && (dScaled d || dSbase d = 0) && field d 144 16 = 0 && field d 672 320 = 0 &&
  (List.range 5).all (fun i => if used i then dSize d i != 0 else dSize d i = 0 && dStride d i = 0) &&
  (dFmt d = 0 || (dStride d 0 = 1 && (List.range 5).all fun i => i = 0 || dStride d i % 32 = 0)) &&
  (dLayout d = 0 || ((dSize d 0 = (if dLayout d = 1 then 32 else 256)) && dStride d 0 = 1))

/-- The least and the greatest element offset over the index box (R263). -/
def dSpan (d : Nat) : Int × Int :=
  (dDims d).foldl (fun (r : Int × Int) i =>
    let x : Int := ((dSize d i - 1 : Nat) : Int) * dStride d i
    (r.1 + min x 0, r.2 + max x 0)) (0, 0)

/-- The byte at which offset `off` starts, relative to a base, with sz bits an element. -/
def byteFloor (off : Int) (sz : Nat) : Int := off * (sz : Int) / 8

/-- The byte at which the element after offset `off` starts, rounded up. -/
def byteCeil (off : Int) (sz : Nat) : Int := ((off + 1) * (sz : Int) + 7) / 8

/-- Entry h of the allocation table (R260). -/
def allocEntry (s : State) (h : Nat) : Nat := memRead s.mem (s.pkg.allocBase + 16 * h) 16

/-- The byte range a descriptor must stay in: its allocation, or the task's scratchpad (R263). -/
def dRange (s : State) (d spad : Nat) : Nat × Nat :=
  if dLocal d then (0, spad) else
  let e := allocEntry s (field d 64 16)
  (field e 0 48, field e 0 48 + field e 64 48)

/-- The number of the first check of R263 that a descriptor fails, 0 for none; for a domain and a scratchpad limit. -/
def dFailing (s : State) (d domain spad : Nat) : Nat :=
  let e := allocEntry s (field d 64 16)
  let (lo, hi) := dSpan d
  let (bot, top) := dRange s d spad
  let inside := fun (base : Nat) (a b : Int) => decide ((bot : Int) ≤ (base : Int) + a) && decide ((base : Int) + b ≤ (top : Int))
  let div := if dFmt d = 7 then 8 else 32
  if !dFieldsOk d then 1
  else if dCount d > 2 ^ 40 then 2
  else if !dLocal d && !(bit e 63 = 1 && (field e 48 12 = 0 || field e 48 12 = domain)) then 3
  else if !inside (dBase d) (byteFloor lo (dBits d)) (byteCeil hi (dBits d)) then 4
  else if dScaled d && !inside (dSbase d) (lo / (div : Int)) (hi / (div : Int) + 1) then 5
  else 0

/-- The seal of a descriptor (R151, R263). -/
def sealOf (s : State) (d : Nat) : Nat := (philox (Config.descKey s.pkg.keyDraw).toNat (crc32c 124 d) (4 * 2 ^ 16) 0 0).1

/-- The seal matches. -/
def sealed (s : State) (d : Nat) : Bool := dSeal d = sealOf s d

/-- The indices of element x in mixed radix, dimension 0 fastest (R264), as an element offset. -/
def offsetOf (d x : Nat) : Int :=
  ((dDims d).foldl (fun (r : Nat × Int) i => (r.1 / dSize d i, r.2 + ((r.1 % dSize d i : Nat) : Int) * dStride d i)) (x, 0)).2

/-- The byte address of element offset `off` (R262), modulo 2^64. -/
def elemAddr (d : Nat) (off : Int) : Nat := enc ((dBase d : Int) + byteFloor off (dBits d)) 64

/-- What an index selects under the descriptor's policy (R264): out of bounds, or an element. -/
def indexed (d : Nat) (x : Int) : Option Nat :=
  let n := dCount d
  if 0 ≤ x ∧ x < (n : Int) then some x.toNat
  else if dOob d = 2 then some (if x < 0 then 0 else n - 1) else none

end Sys2Proof.Machine
end

