-- ==== Sys2Proof/Machine/Ring.lean ====
section
/-! DEFINITION. How engines read and write memory for a context (R252, R258, R394), and ring objects (R301 to R303). -/

namespace Sys2Proof.Machine

/-- Why an engine's access fails: a fault code, what INFO holds, and the home of data in error, if that is why. -/
structure Bad where
  code : Nat
  info : Nat
  home : Option Loc
  deriving DecidableEq, Repr

/-- The n bytes an engine of die `d` reads for a context, as one number. -/
def engineGet (s : State) (x : Ctx) (ea : EAddr) (raw : Bool) (n : Nat) (d : Nat := dieOf x.core)
    (made : Option (List TlbEntry) := none) : Except Bad Nat :=
  match engineAccess s x ea false raw n made with
  | .error c => .error ⟨c, ea.addr, none⟩
  | .ok l =>
    if l.any fun h => homeCut s d h.1 then .error ⟨0x1E, 0, none⟩ else
    match l.find? (fun h => (expandFault s h.1).isSome) with
    | some h => .error ⟨(expandFault s h.1).getD 0x12, ea.addr, none⟩
    | none =>
      match l.find? (fun h => (readError s h.1 h.2.2).isSome) with
      | some h => .error ⟨0x1B, ea.addr, some (errorWord s h.1 h.2.2)⟩
      | none => .ok (readPieces s l)

/-- An engine of die `d` writes n bytes for a context whose addresses mean what they mean in state s, or answers why it cannot. -/
def enginePutIn (s : State) (x : Ctx) (ea : EAddr) (raw : Bool) (n v : Nat) (bad : Bad → Prog) (d : Nat := dieOf x.core) : Prog :=
  match engineAccess s x ea true raw n with
  | .error c => bad ⟨c, ea.addr, none⟩
  | .ok l => if l.any fun h => homeCut s d h.1 then bad ⟨0x1E, 0, none⟩ else writePieces l v x.id (some (x.who 0))

/-- An engine of die `d` writes n bytes for a context, or answers why it cannot. -/
def enginePut (x : Ctx) (ea : EAddr) (raw : Bool) (n v : Nat) (bad : Bad → Prog) (d : Nat := dieOf x.core) : Prog := .get fun s =>
  enginePutIn s x ea raw n v bad d

/-- An engine has consumed data in error (R258, R394): poison ends the context its owner tag names, but the engine's own runs on; an error
not yet read again is; a link that is lost ends the region (R415). -/
def engineError (x : Ctx) (b : Bad) : Prog := .get fun s =>
  match b.home with
  | none => Prog.when_ (b.code = 0x1E) (domainEnd x.ref)
  | some l =>
    let poisoned := match l with
      | .arr d a => (unitsOf a 1 8).any (s.core d).poison.contains
      | .pa a | .expand a => (unitsOf a 1 64).any s.pkg.hbmPoison.contains
    if poisoned then endTagged (ownerTag s l) l.addr (some x.id) else reread l

/-- DETAIL of a record for an engine's failure: the line's owner tag for 0x1B (R385). -/
def Bad.detail (b : Bad) (s : State) : Nat := if b.code = 0x1B then ((b.home.bind (ownerTag s)).getD 0) else 0

/-- Engines stall while a curry drain window or slot is open (R306, R332): the event follows again. -/
def stalled (i : Instr) (p : Prog) : Prog := .get fun s => if s.pkg.draining then postEv 16 2 i else p

/-- The region of a context may be complete (R96, R106). -/
def workEnded (x : Ctx) : Prog := postEv 1 3 (.regionComplete (BitVec.ofNat 32 x.launch) (BitVec.ofNat 8 x.region))

/-- Whether a counter handle names a counter of a context's region (R296, R308, R360). -/
def ctrOf (s : State) (x : Ctx) (h : Nat) : Bool := ctrNamed s h && ctrAllowed s h x.domain

/-- The region's VERSION. -/
def versionOf (s : State) (x : Ctx) : Nat := ((regionOf s x.ref).map (·.version)).getD 0

/-- A class E record of an engine working for a context (R385). -/
def engineRecord (s : State) (x : Ctx) (source inst die : Nat) (addr : Nat) (b : Bad) : ErrRec :=
  { code := b.code, cls := if b.code = 0x1E then 2 else 1, source := source, inst := inst, die := die, ctx := x.id, addr := addr,
    version := versionOf s x, info := b.info, detail := b.detail s }

/-- SOURCE of an engine's records by its number among a context's parties: copy engine, transducer, stack engine, fabric (R385). -/
def engineSource (engine : Nat) : Nat := if engine < 5 then 2 else engine - 2

/-- A counter add made on die d for a context by one of its engines (R275, R276, R296): a decision at the counter's die. `sat` answers a
sum past 2^64 - 1, `rest` follows the add, and `wait` tries again. A counter that the link does not reach ends the region with 0x1E
(R415). -/
def releaseAdd (x : Ctx) (engine d h inc : Nat) (sat rest wait : Prog) : Prog := .get fun s =>
  if ctrCut s d h then Prog.all [
    errorRecord (engineRecord s x (engineSource engine) 0 d 0 ⟨0x1E, 0, none⟩),
    domainEnd x.ref,
    rest]
  else decision x (bit h 16) 1 (h % 2 ^ 32) (partyKey s x engine) true false ((counterAdd h inc sat).andThen rest) wait

/-- Fields of a ring object's 512 bits (R301). -/
def rBase (r : Nat) : Nat := field r 0 48

/-- See rBase. -/
def rLocal (r : Nat) : Bool := bit r 48 = 1

/-- See rBase. -/
def rLog2n (r : Nat) : Nat := field r 56 5

/-- See rBase. -/
def rSlotSz (r : Nat) : Nat := field r 64 32

/-- See rBase. -/
def rWrp (r : Nat) : Nat := field r 128 32

/-- See rBase. -/
def rClaim (r : Nat) : Nat := field r 160 32

/-- See rBase. -/
def rRdp (r : Nat) : Nat := field r 192 32

/-- A difference of ring pointers, modulo 2^32 (R302). -/
def rDiff (a b : Nat) : Nat := (a + 2 ^ 32 - b) % 2 ^ 32

/-- A reserved field or value, a LOG2N above 16, or a SLOTSZ outside R301 (R354). -/
def ringShapeBad (r : Nat) : Bool :=
  field r 49 7 != 0 || field r 61 3 != 0 || field r 96 32 != 0 || field r 224 288 != 0 ||
  decide (16 < rLog2n r) || rBase r % 64 != 0 ||
  rSlotSz r % 64 != 0 || decide (rSlotSz r < 64) || decide (2 ^ 24 < rSlotSz r)

/-- The object is misused (R303). -/
def ringBad (r : Nat) : Bool :=
  ringShapeBad r || !(decide (rDiff (rWrp r) (rRdp r) ≤ rDiff (rClaim r) (rRdp r)) &&
    decide (rDiff (rClaim r) (rRdp r) ≤ 2 ^ rLog2n r))

/-- The address of slot i (R301). -/
def slotAddr (r i : Nat) : EAddr := ⟨!rLocal r, rBase r + i % 2 ^ rLog2n r * rSlotSz r⟩

/-- Slot n is published (R302). -/
def slotPublished (r n : Nat) : Bool := decide (1 ≤ rDiff (rWrp r) n) && decide (rDiff (rWrp r) n ≤ 2 ^ 31)

/-- No free slot (R302). -/
def ringIsFull (r : Nat) : Bool := rDiff (rClaim r) (rRdp r) = 2 ^ rLog2n r

/-- The address of the unit that holds WRP and CLAIM. -/
def EAddr.plus (e : EAddr) (n : Nat) : EAddr := ⟨e.glob, e.addr + n⟩

/-- WRP advances over filled slots in claim order: the new WRP and the filled slots left (R302). -/
def publishRun (home : Loc) : Nat → Nat → List (Loc × Nat) → Nat × List (Loc × Nat)
  | 0, w, l => (w, l)
  | fuel + 1, w, l =>
    if l.contains (home, w) then publishRun home fuel ((w + 1) % 2 ^ 32) (l.erase (home, w)) else (w, l)

/-- A claimed slot is filled, and published once every earlier claim is (R302); a ring that is misused by then stays as it is, and `bad`
answers it (R303). `sees` is the state as the engine's accesses find it. -/
def publishSlot (sees : State → State) (x : Ctx) (ring : EAddr) (slot : Nat) (bad : Bad → Prog) (rest : Prog) : Prog := .get fun s0 =>
  let s := sees s0
  match engineAccess s x ring true false 64, engineGet s x ring false 64 with
  | .ok ((home, _, _) :: _), .ok r =>
    if ringBad r then bad ⟨0x23, ring.addr, none⟩
    else
      let filled := s.pkg.ringFilled ++ [(home, slot % 2 ^ 32)]
      let (w, left) := publishRun home filled.length (rWrp r) filled
      Prog.all [
        .eff (.pkg fun p => { p with ringFilled := left }),
        enginePutIn s x (ring.plus 16) false 8 (w + rClaim r * 2 ^ 32) (fun _ => .done),
        rest]
  | .error c, _ => bad ⟨c, ring.addr, none⟩
  | _, .error b => bad b
  | .ok [], .ok _ => rest

/-- A claim on a ring (R302, R303): the object's fault, or none to wait, or the slot claimed and its effect. -/
def claimSlot (s : State) (x : Ctx) (ring : EAddr) : Except Bad (Option (Nat × Nat × Prog)) :=
  match engineGet s x ring false 64 with
  | .error b => .error b
  | .ok r =>
    if ringBad r then .error ⟨0x23, ring.addr, none⟩
    else if ringIsFull r then .ok none
    else match engineAccess s x (ring.plus 16) true false 8 with
      | .error c => .error ⟨c, ring.addr, none⟩
      | .ok _ => .ok (some (rClaim r, r,
          enginePutIn s x (ring.plus 16) false 8 (rWrp r + (rClaim r + 1) % 2 ^ 32 * 2 ^ 32) fun _ => .done))

end Sys2Proof.Machine
end

