-- ==== Sys2Proof/Machine/Copy.lean ====
section
/-! DEFINITION. The copy engine (R288 to R300): channels, transfer records, boxes, completion, halts. -/

namespace Sys2Proof.Machine

/-- The core that runs a context. -/
def runsOn (s : State) (x : Ctx) : Option Nat :=
  let here := fun (c : Nat) => ((s.core c).ctx.map fun y => decide (y.id = x.id)).getD false
  if here x.core then some x.core else (List.range 256).find? here

/-- A context runs or is saved. -/
def ctxLive (s : State) (x : Ctx) : Bool := (runsOn s x).isSome || s.disp.saved.any fun y => y.ctx.id = x.id

/-- The tiles and keepers of a context, wherever it stands (R286, R300). -/
def archOf (s : State) (x : Ctx) : Arch :=
  match runsOn s x with
  | some c => (s.core c).arch
  | none => match s.disp.saved.find? (fun y => y.ctx.id = x.id) with
    | some y => y.core.arch
    | none => (s.core x.core).arch

/-- Changes them, in an open segment's shadow too: a chain's trigger stands before it (R388, R389). -/
def setArchOf (x : Ctx) (f : Arch → Arch) : Prog := .get fun s =>
  match runsOn s x with
  | some c => setArchAt c 0 f
  | none => .eff (.disp fun d => { d with
      saved := d.saved.map fun y => if y.ctx.id = x.id then { y with core := y.core.updArch 0 f } else y })

/-- Channel ch of core c. -/
def chanAt (s : State) (c ch : Nat) : Channel := nth (s.core c).chans ch Channel.reset

/-- Changes it. -/
def setChan (c ch : Nat) (f : Channel → Channel) : Prog := setCore c fun k => { k with chans := updAt k.chans ch f }

/-- The context whose chain runs. -/
def Channel.owner (x : Channel) : Option Ctx := x.heads.head?.map (·.owner)

/-- One-bit and short fields of a transfer record (R290). -/
def cOwn (r : Nat) : Bool := bit r 48 = 1

/-- SKIND: the source is a tile. -/
def cTileSrc (r : Nat) : Bool := bit r 49 = 1

/-- DKIND: 0 descriptor, 1 tile, 2 ring slot. -/
def cDkind (r : Nat) : Nat := field r 50 2

/-- XPOSE. -/
def cXpose (r : Nat) : Bool := bit r 52 = 1

/-- SSPLIT. -/
def cSsplit (r : Nat) : Bool := bit r 53 = 1

/-- EXPAND. -/
def cExpand (r : Nat) : Bool := bit r 54 = 1

/-- PADEN. -/
def cPaden (r : Nat) : Bool := bit r 55 = 1

/-- PREEN. -/
def cPreen (r : Nat) : Bool := bit r 56 = 1

/-- POSTEN. -/
def cPosten (r : Nat) : Bool := bit r 57 = 1

/-- LOCAL. -/
def cLocal (r : Nat) : Bool := bit r 61 = 1

/-- The address field at bit `lo`, in the record's space. -/
def cAddr (r lo : Nat) : EAddr := ⟨!cLocal r, field r lo 48⟩

/-- SRCD, DSTD, KEEP as numbers. -/
def cSrc (r : Nat) : Nat := field r 64 48

/-- See cSrc. -/
def cDst (r : Nat) : Nat := field r 128 48

/-- See cSrc. -/
def cKeep (r : Nat) : Nat := field r 384 6

/-- SORG, DORG and EXT of dimension d. -/
def cSorg (r d : Nat) : Int := sint (field r (512 + 32 * d) 32) 32

/-- See cSorg. -/
def cDorg (r d : Nat) : Nat := field r (672 + 32 * d) 32

/-- See cSorg. -/
def cExt (r d : Nat) : Nat := field r (832 + 32 * d) 32

/-- A local range of scratchpad or scalar memory (R290). -/
def inArrays (a n : Nat) : Bool := decide (a + n ≤ 0x440000)

/-- What is found ill-formed when a record is read (R289, R290, R293, R296). -/
def recordIll (s : State) (x : Ctx) (r : Nat) : Bool :=
  let k := cDkind r
  let away := fun (used : Bool) (a n : Nat) => used && cLocal r && !inArrays a n
  !cOwn r || field r 62 2 != 0 || field r 112 16 != 0 || field r 176 16 != 0 || field r 224 32 != 0 || field r 390 2 != 0 ||
  field r 400 16 != 0 || field r 496 16 != 0 || k = 3 ||
  field r 0 48 % 128 != 0 || (!cTileSrc r && cSrc r % 128 != 0) || (k = 0 && cDst r % 128 != 0) ||
  (k = 2 && cDst r != 0) || (if k = 2 then field r 448 48 % 64 != 0 else field r 448 48 != 0) ||
  ((cXpose r || cSsplit r) && k != 1) || (cTileSrc r && (cExpand r || cSsplit r)) ||
  away (field r 0 48 != 0) (field r 0 48) 128 || away (!cTileSrc r) (cSrc r) 128 || away (k = 0) (cDst r) 128 ||
  away (k = 2) (field r 448 48) 64 ||
  (cPreen r && !ctrOf s x (field r 192 32)) || (cPosten r && !ctrOf s x (field r 320 32))

/-- A box's side as the copy sees it: a descriptor, or a tile by number and configuration word, or a ring slot at an address. -/
inductive Side where
  | desc (d : Nat)
  | tile (n w : Nat)
  | slot (at_ : EAddr) (size : Nat)
  deriving DecidableEq, Repr

/-- Format, with the type of plain elements; a tile of format 0 holds FP32 (R291). -/
def Side.fmt : Side → Nat × Nat
  | .desc d => (dFmt d, dType d)
  | .tile _ w => (tFmt w, if tFmt w = 0 then 6 else 0)
  | .slot _ _ => (0, 0)

/-- Bits of an element. -/
def Side.bits : Side → Nat
  | .desc d => dBits d
  | .tile _ w => tBits (tFmt w)
  | .slot _ _ => 8

/-- Sizes by dimension: a tile is its columns by its rows (R291). -/
def Side.sizes : Side → List Nat
  | .desc d => (dDims d).map (dSize d)
  | .tile _ w => [tCols w, tRows w]
  | .slot _ _ => []

/-- A descriptor as an engine reads it: its seal, and a local one's range (R263, R298). -/
def readDesc (s : State) (x : Ctx) (a : EAddr) : Except Bad Nat :=
  match engineGet s x a false 128 with
  | .error b => .error b
  | .ok d =>
    if !sealed s d || (dLocal d && decide (4 ≤ dFailing s d x.domain (x.spadk * 1024))) then
      .error ⟨0x22, a.addr % 2 ^ 32 * 2 ^ 32, none⟩
    else .ok d

/-- A tile as a side; an unconfigured one is a tile-state fault. -/
def tileSide (s : State) (x : Ctx) (n : Nat) : Except Bad Side :=
  let t := nth (archOf s x).tiles n Tile.reset
  if t.cfg then .ok (.tile n t.word.toNat) else .error ⟨0x0D, tileInfo t n, none⟩

/-- The source of a record. -/
def sourceOf (s : State) (x : Ctx) (r : Nat) : Except Bad Side :=
  if cTileSrc r then tileSide s x (cSrc r % 64)
  else match readDesc s x (cAddr r 64) with
    | .error b => .error b
    | .ok d => .ok (.desc d)

/-- The destination of a record; `slot` is the slot claimed. -/
def destOf (s : State) (x : Ctx) (r slot : Nat) : Except Bad Side :=
  match cDkind r with
  | 0 => match readDesc s x (cAddr r 128) with
    | .error b => .error b
    | .ok d => .ok (.desc d)
  | 1 => tileSide s x (cDst r % 64)
  | _ => match engineGet s x (cAddr r 448) false 64 with
    | .error b => .error b
    | .ok o => if ringBad o then .error ⟨0x23, field r 448 48, none⟩ else .ok (.slot (slotAddr o slot) (rSlotSz o))

/-- The extents in use. -/
def boxExt (r : Nat) (src : Side) : List Nat := (List.range src.sizes.length).map (cExt r)

/-- Number of elements of a box. -/
def boxCount (l : List Nat) : Nat := l.foldl (· * ·) 1

/-- Block size of a scaled format along dimension 0 (R291). -/
def blockOf (f : Nat) : Nat := if f = 7 then 8 else 32

/-- The box, source and destination do not fit together (R291 to R294). -/
def boxIll (r : Nat) (src dst : Side) : Bool :=
  let rank := src.sizes.length
  let ext := boxExt r src
  let n := boxCount ext
  let f := src.fmt.1
  let blk := blockOf f
  let scaled := scaledFmt f
  (List.range 5).any (fun d => if d < rank then cExt r d = 0 else cExt r d != 0) ||
  decide (2 ^ 35 ≤ n * src.bits) ||
  (match src with | .tile _ w => tPlanes w | _ => false) ||
  (scaled && (cSorg r 0 % (blk : Int) != 0 || cExt r 0 % blk != 0 || cDorg r 0 % blk != 0)) ||
  match dst with
  | .desc d => dst.fmt != src.fmt || dRank d != rank
  | .slot _ size => decide (size < (n * src.bits + 7) / 8)
  | .tile _ w =>
    dst.fmt != src.fmt || (List.range 5).any (fun d => cDorg r d != 0) || (tPlanes w != cXpose r) ||
    (if tPlanes w then cExt r 0 != tRows w || cExt r 1 != 32 || n != tRows w * 32
     else cExt r 0 != tCols w || n != tRows w * tCols w) ||
    (cSsplit r && (!scaled || (!tPlanes w && tRows w != 32) ||
      decide (1023 < tSoff w + 32 * ((cExt r 0 - 1) / blk) + 31)))

/-- The indices of box element n, dimension 0 fastest (R291). -/
def boxIndex (ext : List Nat) (n : Nat) : List Nat :=
  (ext.foldl (fun (p : Nat × List Nat) e => (p.1 / e, p.2 ++ [p.1 % e])) (n, [])).2

/-- Source index of an element, and whether it is in bounds (R291, R294). -/
def srcIndex (r : Nat) (src : Side) (ix : List Nat) : List Int × Bool :=
  let l := ix.zipIdx.map fun p => cSorg r p.2 + (p.1 : Int)
  (l, (l.zip src.sizes).all fun p => decide (0 ≤ p.1) && decide (p.1 < (p.2 : Int)))

/-- The element offset of indices through a descriptor (R262). -/
def descOffset (d : Nat) (l : List Int) : Int := l.zipIdx.foldl (fun n p => n + p.1 * dStride d p.2) 0

/-- Where bits stand: an engine address, or a tile's storage, from which bit on. -/
def bitPlace (side : Side) (l : List Int) (n : Nat) : EAddr × Int :=
  match side with
  | .desc d => (⟨!dLocal d, dBase d⟩, descOffset d l * (dBits d : Int))
  | .tile _ w => (⟨false, tileAddr w⟩, match l with
      | [c, row] => (row * (tCols w : Int) + c) * (tBits (tFmt w) : Int)
      | _ => (n * tBits (tFmt w) : Nat))
  | .slot a _ => (a, 0)

/-- The bytes that hold `bits` bits from bit p of an address: the address, the shift, the byte count. -/
def bytesFor (p : EAddr × Int) (bits : Nat) : EAddr × Nat × Nat :=
  let sh := (p.2 % 8).toNat
  (⟨p.1.glob, enc ((p.1.addr : Int) + p.2 / 8) 64⟩, sh, (sh + bits + 7) / 8)

/-- An ownership fault at a tile's storage names the tile (R384). -/
def Side.named (side : Side) (b : Bad) : Bad :=
  match side with
  | .tile n _ => if b.code = 0x0C then { b with info := n } else b
  | _ => b

/-- The code of a source element in memory. -/
def readElem (s : State) (x : Ctx) (src : Side) (l : List Int) : Except Bad Nat :=
  let (a, sh, n) := bytesFor (bitPlace src l 0) src.bits
  match engineGet s x a false n with
  | .error b => .error (src.named b)
  | .ok v => .ok (v / 2 ^ sh % 2 ^ src.bits)

/-- The buffers of an expanded source that cannot be read (R295). -/
def streamBlocked (s : State) (x : Ctx) (base : EAddr) : Nat → Nat → Option Bad
  | 0, _ => none
  | fuel + 1, off =>
    match engineGet s x (base.plus off) false 64 with
    | .error b => some b
    | .ok h =>
      if headerBad h then none
      else match engineGet s x (base.plus (off + 64)) false (if chdr h 36 2 = 2 then chdr h 96 32 else chdr h 128 32) with
        | .error b => some b
        | .ok _ => if bit h 38 = 1 then none else streamBlocked s x base fuel (off + 64 + chdr h 128 32)

/-- The source's expanded stream and its length (R295, R318); its headers are 64-byte aligned (R317), its buffers lie within the address space. -/
def sourceStream (s : State) (x : Ctx) (base : EAddr) : Except Bad (Nat × Nat) :=
  let fuel := 2 ^ 42
  if base.addr % 64 != 0 then .error ⟨0x12, base.addr, none⟩ else
  match streamBlocked s x base fuel 0 with
  | some b => .error b
  | none =>
    let rd := fun off n => match engineGet s x (base.plus off) false n with | .ok v => v | .error _ => 0
    match expandStream none 2 (2 ^ 48) (2 ^ 48) rd fuel 0 0 0 with
    | .error c => .error ⟨c, base.addr, none⟩
    | .ok v => .ok v

/-- An element past the end of an expanded stream: no rule states it, a free value. -/
def streamElem (s : State) (v len : Nat) (at_ : Int) (bits : Nat) : Nat :=
  if 0 ≤ at_ ∧ at_.toNat + bits ≤ 8 * len then v / 2 ^ at_.toNat % 2 ^ bits
  else (Config.freeVec (s.fresh + at_.toNat)).toNat % 2 ^ bits

/-- A box element that is written: its number, its source indices, whether it is data, and its destination indices. -/
structure BoxEl where
  n : Nat
  ix : List Nat
  src : List Int
  data : Bool
  dst : List Int
  deriving DecidableEq, Repr

/-- The box elements that are written (R294), padding first, so that data prevail and the larger n prevails. -/
def boxEls (r : Nat) (src dst : Side) : List BoxEl :=
  let ext := boxExt r src
  let all := (List.range (boxCount ext)).map fun n =>
    let ix := boxIndex ext n
    let (l, ok) := srcIndex r src ix
    (⟨n, ix, l, ok, ix.zipIdx.map fun p => ((cDorg r p.2 + p.1 : Nat) : Int)⟩ : BoxEl)
  let inside := all.filter fun e => (e.data || cPaden r) &&
    match dst with
    | .desc d => (e.dst.zip ((dDims d).map (dSize d))).all fun p => decide (p.1 < (p.2 : Int))
    | _ => true
  inside.filter (fun e => !e.data) ++ inside.filter (·.data)

/-- The codes to write, element by element (R291, R294, R295). -/
def boxCodes (s : State) (x : Ctx) (r : Nat) (src : Side) (els : List BoxEl) : Except Bad (List (BoxEl × Nat)) :=
  let w := src.bits
  let stream : Except Bad (Nat × Nat) := match src with
    | .desc d => if cExpand r then sourceStream s x ⟨!dLocal d, dBase d⟩ else .ok (0, 0)
    | _ => .ok (0, 0)
  match stream with
  | .error b => .error b
  | .ok (v, len) =>
    els.foldl (fun acc e =>
      match acc with
      | .error b => .error b
      | .ok l =>
        if !e.data then .ok (l ++ [(e, field r 416 32 % 2 ^ w)])
        else if cExpand r then .ok (l ++ [(e, streamElem s v len (bitPlace src e.src e.n).2 w)])
        else match readElem s x src e.src with
          | .error b => .error b
          | .ok c => .ok (l ++ [(e, c)])) (.ok [])

/-- The indices of the block that holds an element (R291). -/
def blockIndex (blk : Nat) : List Int → List Int
  | [] => []
  | i :: r => i / (blk : Int) :: r

/-- The scale bytes a record moves (R291, R293): for each block with data, a keeper byte or an address, and the source byte. Of blocks that
reach one destination the byte moves with the one that prevails, of the larger n (R294). -/
def boxScales (s : State) (x : Ctx) (r : Nat) (src dst : Side) (els : List BoxEl) : Except Bad (List (Nat × BoxEl × Nat)) :=
  let f := src.fmt.1
  let blk := blockOf f
  match src with
  | .desc d =>
    let moved := match dst with | .desc _ => scaledFmt f | .tile _ _ => cSsplit r | .slot _ _ => false
    if !moved then .ok []
    else (els.filter (·.data)).foldl (fun acc e =>
      match acc with
      | .error b => .error b
      | .ok l =>
        let key := match dst with
          | .tile _ w => tSoff w + 32 * ((e.ix.headD 0) / blk) + e.n / cExt r 0
          | .desc y => enc ((dSbase y : Int) + descOffset y e.dst / (blk : Int)) 64
          | .slot _ _ => 0
        if l.any (fun z => z.1 = key && blockIndex blk z.2.1.src = blockIndex blk e.src) then .ok l
        else match engineGet s x ⟨!dLocal d, enc ((dSbase d : Int) + descOffset d e.src / (blk : Int)) 64⟩ false 1 with
          | .error b => .error b
          | .ok v => .ok (l.filter (fun z => z.1 != key) ++ [(key, e, v)])) (.ok [])
  | _ => .ok []

/-- One write of a transfer: its homes, the bits it replaces, and its new bytes from the old. -/
abbrev Move := List (Loc × Nat × Nat) × Nat × (Nat → Nat)

/-- w bits of a number from bit sh replaced. -/
def withBits (old sh w v : Nat) : Nat := old - field old sh w * 2 ^ sh + v % 2 ^ w * 2 ^ sh

/-- The writes of a transfer, or why one of them cannot be made. -/
def boxMoves (s : State) (x : Ctx) (src dst : Side) (codes : List (BoxEl × Nat)) (scales : List (Nat × BoxEl × Nat)) :
    Except Bad (List Move) :=
  let w := src.bits
  let add := fun (acc : Except Bad (List Move)) (a : EAddr) (n mask : Nat) (f : Nat → Nat) =>
    match acc with
    | .error b => .error b
    | .ok l => match engineAccess s x a true false n with
      | .error c => .error (dst.named ⟨c, a.addr, none⟩)
      | .ok h => .ok (l ++ [(h, mask, f)])
  match dst with
  | .tile _ t =>
    if tPlanes t then
      let size := blockRowBytes (tFmt t)
      (List.range (tRows t / 32)).foldl (fun acc b =>
        let mine := codes.filter fun p => p.1.ix.headD 0 / 32 = b
        let code := fun (q : Nat) =>
          (mine.find? fun p => 32 * (p.1.ix.headD 0 % 32) + p.1.ix.getD 1 0 = q).map (·.2)
        add acc ⟨false, tileAddr t + b * size⟩ size (if mine.length = 1024 then allBits size else 0) fun old => putElements (Fmt.ofCode (tFmt t)) old code) (.ok [])
    else
      codes.foldl (fun acc p =>
        let (a, sh, n) := bytesFor (⟨false, tileAddr t⟩, ((p.1.n * w : Nat) : Int)) w
        add acc a n ((2 ^ w - 1) * 2 ^ sh) fun old => withBits old sh w p.2) (.ok [])
  | .slot at_ _ =>
    codes.foldl (fun acc p =>
      let (a, sh, n) := bytesFor (at_, ((p.1.n * w : Nat) : Int)) w
      add acc a n ((2 ^ w - 1) * 2 ^ sh) fun old => withBits old sh w p.2) (.ok [])
  | .desc d =>
    let data := codes.foldl (fun acc p =>
      let (a, sh, n) := bytesFor (⟨!dLocal d, dBase d⟩, descOffset d p.1.dst * (w : Int)) w
      add acc a n ((2 ^ w - 1) * 2 ^ sh) fun old => withBits old sh w p.2) (.ok [])
    scales.foldl (fun acc z => add acc ⟨!dLocal d, z.1⟩ 1 255 fun _ => z.2.2) data

/-- Performs the writes of a transfer; words that they replace together are no longer in error (R258). -/
def doMoves (x : Ctx) (l : List Move) : Prog :=
  (healWhole (l.flatMap fun m => m.1.map fun h => ⟨h.1, h.2.2, m.2.1 / 2 ^ (8 * h.2.1)⟩)).andThen <|
    Prog.each l fun m => .get fun s => writePieces m.1 (m.2.2 (readPieces s m.1)) x.id (some (x.who 0))

/-- What a record holds while it transfers is given back (R218, R225); `undo` empties a tile it was filling (R298). -/
def chanRelease (x : Ctx) (r : Nat) (undo : Bool) : Prog := setArchOf x fun a =>
  let a := if cTileSrc r then a.setTile (cSrc r % 64) fun t => { t with reads := t.reads - 1 } else a
  let a := if undo && cSsplit r then { a with keepers := updAt a.keepers (cKeep r) fun k => { k with writes := k.writes - 1 } } else a
  if undo && cDkind r = 1 then a.setTile (cDst r % 64) fun t =>
    { t with state := .empty, buckle := none } else a

/-- The waits of a channel are over. -/
def endWaits (c ch : Nat) : Prog := Prog.all [
  .eff (.waiters fun l => l.filter fun w => w.ev != .cePrewaitMet (coreBV c) (BitVec.ofNat 2 ch)),
  .eff (.purge fun i => i.what = .ev (.ceWaitTimeout (coreBV c) (BitVec.ofNat 2 ch)))]

/-- A channel's chains are abandoned with OWN left as it is (R107, R299, R300). -/
def abandonChains (c ch : Nat) : Prog := .get fun s => Prog.all [
  Prog.each (chanAt s c ch).heads (fun h => workEnded h.owner),
  setChan c ch fun _ => Channel.reset]

/-- The state as the accesses of a channel's running chain find it (R235). -/
def chanView (s : State) (c ch : Nat) : State :=
  match (chanAt s c ch).heads.head? with
  | some h => asOf s h.owner.core h.seq
  | none => s

/-- A record that cannot be carried out halts its channel (R298). A context that has ended can clear no halt: its chains are abandoned
and its region is marked (R106, R300). -/
def haltChannel (c ch : Nat) (b : Bad) : Prog := .get fun s =>
  let k := chanAt s c ch
  match k.owner with
  | none => .done
  | some x => Prog.all [
      endWaits c ch,
      Prog.when_ k.filling (chanRelease x k.record.toNat true),
      setChan c ch (fun k => { k with stage := .halted, code := b.code, filling := false }),
      enginePutIn (chanView s c ch) x (k.recAddr.plus 49) false 1 b.code (fun _ => .done),
      errorRecord (engineRecord s x 2 ch (dieOf c) k.recAddr.addr b),
      engineError x b,
      .get fun s => if ctxLive s x then .done else Prog.all [
        setRegion x.ref (fun r => { r with failed := true }),
        abandonChains c ch]]

/-- Cycles after which a wait of a context's engine ends as ill-formed (R296, R310, R328). -/
def waitLimit (x : Ctx) : Nat := 2 ^ (x.wdlim + 4)

/-- The stage after a record's pre-wait: its ring claim, or its transfer (R289). -/
def afterPrewait (c ch r : Nat) : Prog := .get fun s =>
  if cDkind r = 2 then Prog.all [
    setChan c ch (fun k => { k with stage := .claim, since := s.time }),
    (match (chanAt s c ch).owner with
    | none => .done
    | some x => postAt (s.time + waitLimit x) 3 (.ceWaitTimeout (coreBV c) (BitVec.ofNat 2 ch))),
    postEv 1 2 (.ceRingClaim (coreBV c) (BitVec.ofNat 2 ch))]
  else Prog.all [
    setChan c ch (fun k => { k with stage := .transfer, filling := false }),
    postEv 1 2 (.ceRecordComplete (coreBV c) (BitVec.ofNat 2 ch))]

/-- The whole box passes 2^35 bits, as far as the source tells its element width when the record is read (R294). -/
def boxTooBig (s : State) (x : Ctx) (r : Nat) : Bool :=
  match sourceOf s x r with
  | .ok src => decide (2 ^ 35 ≤ boxCount ((List.range 5).map fun d => max (cExt r d) 1) * src.bits)
  | .error _ => false

/-- A side's data stand in global memory. -/
def Side.glob : Side → Bool
  | .desc d => !dLocal d
  | .tile _ _ => false
  | .slot a _ => a.glob

/-- The next step of a channel makes a global request (R332): for its record, the objects the record names, or their data. -/
def chanGlobal (s : State) (c ch : Nat) : Bool :=
  let k := chanAt s c ch
  let r := k.record.toNat
  let outer := !cLocal r && (!cTileSrc r || cDkind r != 1)
  let far := fun (b : Except Bad Side) => match b with
    | .ok y => y.glob
    | .error _ => false
  match k.stage, k.owner with
  | .idle, _ => k.heads.head?.any (fun h => h.addr.glob)
  | .reading, _ => k.recAddr.glob
  | .claim, _ => !cLocal r
  | .ending, _ => cDkind r = 2 && !cLocal r
  | .transfer, some x => k.recAddr.glob || outer || far (sourceOf s x r) || far (destOf s x r k.slot)
  | _, _ => false

/-- A channel stalls between requests while a curry drain window or slot is open; local accesses and counters go on (R332). -/
def chanStalled (c ch : Nat) (i : Instr) (p : Prog) : Prog := .get fun s =>
  if s.pkg.draining && chanGlobal s c ch then postEv 16 2 i else p

/-- CE_RECORD_READ (R289): the next record is read and checked; one that a drain window finds read from local memory, but that names a
descriptor in global memory, is read again (R332). -/
def ceRead (c ch : Nat) : Prog := .get fun s0 =>
  let s := chanView s0 c ch
  let k := chanAt s c ch
  match k.owner with
  | none => .done
  | some x =>
    if k.stage != .idle && k.stage != .reading then .done
    else
      let at_ := if k.stage = .idle then ((k.heads.head?.map (·.addr)).getD ⟨false, 0⟩) else k.recAddr
      let held := setChan c ch fun k => { k with stage := .reading, recAddr := at_ }
      match engineGet s x at_ false 128 with
      | .error b => held.andThen (haltChannel c ch b)
      | .ok r => if s.pkg.draining && !cLocal r && !cTileSrc r then held.andThen (postEv 16 2 (.ceRecordRead (coreBV c) (BitVec.ofNat 2 ch)))
        else Prog.all [
          held,
          setChan c ch (fun k => { k with record := BitVec.ofNat 1024 r }),
          if recordIll s x r || boxTooBig s x r then haltChannel c ch ⟨0x12, 0, none⟩
          else if cPreen r && decide (ctrValue s.ctrs (ctrHome (field r 192 32)) < field r 256 64) then Prog.all [
            endWaits c ch,
            setChan c ch (fun k => { k with stage := .prewait, since := s.time }),
            .eff (.waiters fun l => l ++ [⟨field r 192 32, field r 256 64, .cePrewaitMet (coreBV c) (BitVec.ofNat 2 ch)⟩]),
            postAt (s.time + waitLimit x) 3 (.ceWaitTimeout (coreBV c) (BitVec.ofNat 2 ch))]
          else afterPrewait c ch r]

/-- CE_PREWAIT_MET (R296). -/
def cePrewait (c ch : Nat) : Prog := .get fun s =>
  let k := chanAt s c ch
  let r := k.record.toNat
  if k.stage != .prewait then .done
  else if ctrValue s.ctrs (ctrHome (field r 192 32)) < field r 256 64 then .done
  else (endWaits c ch).andThen (afterPrewait c ch r)

/-- CE_RING_CLAIM (R302): the slot is claimed once the ring has room; until then the channel looks again. -/
def ceClaim (c ch : Nat) : Prog := .get fun s0 =>
  let s := chanView s0 c ch
  let k := chanAt s c ch
  match k.owner with
  | none => .done
  | some x =>
    if k.stage != .claim then .done
    else match claimSlot s x (cAddr k.record.toNat 448) with
      | .error b => haltChannel c ch b
      | .ok none => postEv 8 2 (.ceRingClaim (coreBV c) (BitVec.ofNat 2 ch))
      | .ok (some (slot, _, eff)) => Prog.all [
          endWaits c ch, eff,
          setChan c ch (fun k => { k with stage := .transfer, slot := slot, filling := false }),
          postEv 1 2 (.ceRecordComplete (coreBV c) (BitVec.ofNat 2 ch))]

/-- CE_WAIT_TIMEOUT (R296). -/
def ceTimeout (c ch : Nat) : Prog := .get fun s =>
  let k := chanAt s c ch
  match k.owner with
  | none => .done
  | some x =>
    if k.stage != .prewait && k.stage != .claim then .done
    else if s.time < k.since + waitLimit x then postAt (k.since + waitLimit x) 3 (.ceWaitTimeout (coreBV c) (BitVec.ofNat 2 ch))
    else haltChannel c ch ⟨0x12, 0, none⟩

/-- What a transfer waits for before it begins (R201, R216, R225). -/
def boxWaits (a : Arch) (r : Nat) : Bool :=
  let src := nth a.tiles (cSrc r % 64) Tile.reset
  let dst := nth a.tiles (cDst r % 64) Tile.reset
  (cTileSrc r && src.state != .ready) ||
  (cDkind r = 1 && (dst.state = .filling || dst.state = .draining || dst.busy != 0)) ||
  (cSsplit r && (nth a.keepers (cKeep r) Keeper.reset).readers != 0)

/-- A transfer begins: its source tile is read, its destination tile fills, its keeper has a write pending (R216, R218, R225). -/
def boxBegin (r : Nat) (a : Arch) : Arch :=
  let a := if cTileSrc r then a.setTile (cSrc r % 64) fun t => { t with reads := t.reads + 1 } else a
  let a := if cDkind r = 1 then a.setTile (cDst r % 64) fun t => t.fill .copyEngine (cSsplit r) else a
  if cSsplit r then { a with keepers := updAt a.keepers (cKeep r) fun k => { k with writes := k.writes + 1 } } else a

/-- A record's scale stream lands (R221, R223, R225, R293): the write of its keeper, and the bytes of a word in error that it leaves are
discarded as by any keeper write (R246, R258). -/
def scaleLand (x : Ctx) (r : Nat) (scales : List (Nat × BoxEl × Nat)) : Prog :=
  if cDkind r != 1 || !cSsplit r then .done
  else
    let m := BitVec.ofNat 1024 (ofBits 1024 fun i => scales.any fun z => z.1 = i)
    let v := vecOf 1024 8 fun i => ((scales.find? fun z => z.1 = i).map (·.2.2)).getD 0
    .get fun s => match runsOn s x with
      | some c => keeperLand c (x.who 0) (cKeep r) m v 0 0 false
      | none => setArchOf x fun a => keeperWrite a (cKeep r) m v 0 0 false

/-- The destination tile of a record is ready, bound to the keeper that its scale stream has written; STALE stays (R216, R223, R225). -/
def boxLand (r : Nat) (a : Arch) : Arch :=
  let n := cDst r % 64
  if cDkind r != 1 then a
  else if !cSsplit r then a.setTile n fun t => { t with state := .ready }
  else
    let g := (nth a.keepers (cKeep r) Keeper.reset).gen
    a.setTile n fun t => { t with state := .ready, buckle := some (cKeep r, g) }

/-- The chain goes on: with the record's NEXT, or with the next head (R289). -/
def ceNext (c ch : Nat) : Prog := .get fun s =>
  let k := chanAt s c ch
  let r := k.record.toNat
  Prog.all [
    (if field r 0 48 = 0 then Prog.all [
        setChan c ch fun k => { k with heads := k.heads.tail, stage := .idle, filling := false },
        match k.owner with | none => .done | some x => workEnded x]
      else setChan c ch fun k => { k with stage := .reading, recAddr := cAddr r 0, filling := false }),
    postEv 1 2 (.ceRecordRead (coreBV c) (BitVec.ofNat 2 ch))]

/-- The post-add of a completed record, a release of path C (R276, R296), the ring slot's publication, and the next record. -/
def ceEnding (c ch : Nat) (x : Ctx) (r slot : Nat) : Prog :=
  let rest := if cDkind r = 2 then publishSlot (fun s => chanView s c ch) x (cAddr r 448) slot (haltChannel c ch) (ceNext c ch) else ceNext c ch
  if cPosten r then
    let h := field r 320 32
    releaseAdd x (1 + ch) (dieOf c) h (field r 352 32)
      (.get fun s => errorRecord (engineRecord s x 2 ch (dieOf c) (chanAt s c ch).recAddr.addr ⟨0x18, h, none⟩))
      rest (postEv 8 2 (.ceRecordComplete (coreBV c) (BitVec.ofNat 2 ch)))
  else rest

/-- Write-back (R297): STATUS and BYTES, then OWN clears. -/
def writeBack (s : State) (x : Ctx) (at_ : EAddr) (r bytes : Nat) : Prog := Prog.all [
  enginePutIn s x (at_.plus 49) false 1 0 (fun _ => .done),
  enginePutIn s x (at_.plus 124) false 4 bytes (fun _ => .done),
  enginePutIn s x (at_.plus 6) false 1 (field r 48 8 / 2 * 2) (fun _ => .done)]

/-- The pages that hold a box's data in global memory, on one side. -/
def Side.vas (side : Side) (l : List (List Int × Nat)) : List Nat :=
  if side.glob then l.map fun p => (bytesFor (bitPlace side p.1 p.2) side.bits).1.addr else []

/-- The frames that a transfer reads through COMP pages (R319, R322). -/
def boxFrames (s : State) (x : Ctx) (src : Side) (els : List BoxEl) : List Nat :=
  let pages := ((src.vas ((els.filter (·.data)).map fun e => (e.src, e.n))).map (· / 65536)).dedup
  (pages.filterMap fun p => match engineAccess s x ⟨true, p * 65536⟩ false false 1 with
    | .ok ((.expand a, _, _) :: _) => some (a - a % 65536)
    | _ => none).dedup

/-- CE_RECORD_COMPLETE (R291 to R297): the transfer, the write-back, and what completion makes ready; first the transfer's
beginning. -/
def ceComplete (c ch : Nat) : Prog := .get fun s0 =>
  let s := chanView s0 c ch
  let k := chanAt s c ch
  let r := k.record.toNat
  match k.owner with
  | none => .done
  | some x =>
    if k.stage = .ending then ceEnding c ch x r k.slot
    else if k.stage != .transfer then .done
    else
      match sourceOf s x r, destOf s x r k.slot with
      | .error b, _ | _, .error b => haltChannel c ch b
      | .ok src, .ok dst =>
        if boxIll r src dst then haltChannel c ch ⟨0x12, 0, none⟩
        else if !k.filling then
          if boxWaits (archOf s x) r then postEv 8 2 (.ceRecordComplete (coreBV c) (BitVec.ofNat 2 ch))
          else Prog.all [
            setArchOf x (boxBegin r),
            setChan c ch (fun k => { k with filling := true }),
            postEv (24 + boxCount (boxExt r src) * src.bits / 512) 2 (.ceRecordComplete (coreBV c) (BitVec.ofNat 2 ch))]
        else
          let els := boxEls r src dst
          match boxCodes s x r src els, boxScales s x r src dst els with
          | .error b, _ | _, .error b => haltChannel c ch b
          | .ok codes, .ok scales =>
            match boxMoves s x src dst codes scales, engineAccess s x k.recAddr true false 128 with
            | .error b, _ => haltChannel c ch b
            | _, .error e => haltChannel c ch ⟨e, k.recAddr.addr, none⟩
            | .ok moves, .ok _ => Prog.all [
                .eff (.fresh (if cExpand r then 8 * boxCount (boxExt r src) else 0)),
                noteEvents x.id (boxFrames s x src els),
                doMoves x moves,
                chanRelease x r false,
                scaleLand x r scales,
                setArchOf x (boxLand r),
                writeBack s x k.recAddr r (((els.filter (·.data)).length * src.bits + 7) / 8),
                setChan c ch (fun k => { k with stage := .ending, filling := false }),
                ceEnding c ch x r k.slot]

/-- The device addresses that the next step of a channel translates (R255): of its record, of the objects it names, and of its data. Of an
expanded stream it is the first page; the later ones are walked as they are read (notes/assumptions/12.md). -/
def chanVas (s : State) (c ch : Nat) : List Nat :=
  let k := chanAt s c ch
  let r := k.record.toNat
  let at_ := fun (used : Bool) (a : EAddr) => if used && a.glob then [a.addr] else []
  match k.stage, k.owner with
  | .idle, some _ => k.heads.head?.toList.flatMap fun h => at_ true h.addr
  | .reading, some _ => at_ true k.recAddr
  | .claim, some _ => at_ true (cAddr r 448)
  | .ending, some _ => at_ (cDkind r = 2) (cAddr r 448)
  | .transfer, some x =>
    at_ true k.recAddr ++ at_ (!cTileSrc r) (cAddr r 64) ++ at_ (cDkind r = 0) (cAddr r 128) ++ at_ (cDkind r = 2) (cAddr r 448) ++
    match sourceOf s x r, destOf s x r k.slot with
    | .ok src, .ok dst =>
      if !k.filling || boxIll r src dst then []
      else
        let els := boxEls r src dst
        src.vas (if cExpand r then [([0, 0, 0, 0, 0], 0)] else (els.filter (·.data)).map fun e => (e.src, e.n)) ++
          dst.vas (els.map fun e => (e.dst, e.n))
    | _, _ => []
  | _, _ => []

/-- A step of a channel whose translations the TLBs hold first (R255), and that stalls for a drain window (R332). -/
def chanStep (c ch : Nat) (i : Instr) (p : Prog) : Prog :=
  chanStalled c ch i (.get fun s => (translateFor c (((chanVas (chanView s c ch) c ch).map (· / 65536)).dedup.map (· * 65536))).andThen p)

/-- CE_RECORD_READ (R289). -/
def execCeRecordRead (core : BitVec 8) (ch : BitVec 2) (s : State) : Host.Outcome State Fault Refusal :=
  ran (chanStep core.toNat ch.toNat (.ceRecordRead core ch) (ceRead core.toNat ch.toNat)) s
/-- CE_PREWAIT_MET (R296). -/
def execCePrewaitMet (core : BitVec 8) (ch : BitVec 2) (s : State) : Host.Outcome State Fault Refusal :=
  ran (cePrewait core.toNat ch.toNat) s
/-- CE_RING_CLAIM (R302). -/
def execCeRingClaim (core : BitVec 8) (ch : BitVec 2) (s : State) : Host.Outcome State Fault Refusal :=
  ran (chanStep core.toNat ch.toNat (.ceRingClaim core ch) (ceClaim core.toNat ch.toNat)) s
/-- CE_WAIT_TIMEOUT (R296). -/
def execCeWaitTimeout (core : BitVec 8) (ch : BitVec 2) (s : State) : Host.Outcome State Fault Refusal :=
  ran (ceTimeout core.toNat ch.toNat) s
/-- CE_RECORD_COMPLETE (R297). -/
def execCeRecordComplete (core : BitVec 8) (ch : BitVec 2) (s : State) : Host.Outcome State Fault Refusal :=
  ran (chanStep core.toNat ch.toNat (.ceRecordComplete core ch) (ceComplete core.toNat ch.toNat)) s

end Sys2Proof.Machine
end

