-- ==== Sys2Proof/Machine/Ct.lean ====
section
/-! DEFINITION. Counters and atomics, unit CT (R360 to R366). -/

namespace Sys2Proof.Machine

/-- The handle in an operand (R360). -/
def handleIn (x : Nat) : Nat := x % 2 ^ 32

/-- The domain id of the context on a core (R252). -/
def ctxDomain (s : State) (c : Nat) : Nat := ((s.core c).ctx.map (·.domain)).getD 0

/-- The checks of a counter operation (R360). -/
def ctrCheck (s : State) (c x : Nat) : Verdict :=
  let h := handleIn x
  (need (ctrNamed s h) 0x03 x).and (need (ctrAllowed s h (ctxDomain s c)) 0x0B h)

/-- The bound of a counter operation: own die or other die (R361). -/
def ctrBound (c h : Nat) : Nat := if bit h 16 = dieOf c then 20 else 40

/-- CADD (R361, R362): a release. The add waits until the accesses it covers have been performed; inside a segment it is deferred
(R367). A sum past 2^64 - 1 gives 0x18 once it has completed. -/
def opCadd : Op :=
  opRun 11 (fun s t => (ctrCheck s t.core t.sa).then_ (markerCheck s t (bit (handleIn t.sa) 16) 1 (handleIn t.sa))) fun s t =>
    let h := handleIn t.sa
    let over_ : List Post := [.fault 0x18 (info h) t.slot]
    let done := fun (p : List Post) => settle t.core t.unit t.seq fun f => { f with posts := p }
    let add := fun (s : State) => Prog.all [
      counterAdd h t.sb .done,
      done (if ctrValue s.ctrs (ctrHome h) + t.sb ≥ 2 ^ 64 then over_ else [])]
    if mustDefer s t then deferOp t (ctrBound t.core h) false
    else if t.stage = 0 then ctrReach t.core h <| Prog.all [
      await_ t (ctrBound t.core h) false 1,
      postOp 0 { t with stage := 1, checked := true }]
    else if pathsDone s t.core (BitVec.ofNat 8 t.sc) (t.covers s) then
      match (s.core t.core).ctx with
      | none => .get add
      | some x => decision x (bit h 16) 1 h (partyKey s x 0) true t.inTrap (.get add) (postOp 1 t)
    else postOp 1 t
def execCadd (s : State) : Host.Outcome State Fault Refusal := runOp opCadd s

/-- The wait of a CWAIT ends: the task leaves parking, and the value lands (R363). An ERET or HALT of its bundle goes on (R37, R85). -/
def unpark (c v : Nat) : Prog := .get fun s =>
  let k := s.core c
  match k.park with
  | none => .done
  | some p => Prog.all [
      setCore c (fun k => { k with park := none, flow := if k.flow = .parked then .running else k.flow }),
      .eff (.waiters fun l => l.filter fun w => w.ev != .cwaitWake (coreBV c)),
      .eff (.purge fun x => x.what = .ev (.cwaitTimeout (coreBV c))),
      settle c 11 p.seq fun f => { f with y0 := wide v },
      Prog.when_ (k.flow = .parked) (nextFetch c 1)]

/-- CWAIT_WAKE (R363): the counter has reached the threshold of the parked CWAIT; a decision while recording (R287). -/
def cwaitWoken (c : Nat) : Prog := .get fun s =>
  match (s.core c).park, (s.core c).ctx with
  | some p, some x =>
    if ctrValue s.ctrs (ctrHome p.handle) < p.thr then .done
    else decision x (bit p.handle 16) 4 p.handle (partyKey s x 0) true
      ((s.core c).flights.any fun f => f.unit = 11 && f.seq = p.seq && f.inTrap)
      (.get fun s => unpark c (ctrValue s.ctrs (ctrHome p.handle))) (postEv 1 1 (.cwaitWake (coreBV c)))
  | some p, none => unpark c (ctrValue s.ctrs (ctrHome p.handle))
  | none, _ => .done

/-- CWAIT_TIMEOUT (R363): the last value read lands. -/
def cwaitExpired (c : Nat) : Prog := .get fun s =>
  match (s.core c).park with
  | none => .done
  | some p => match p.until_ with
    | none => .done
    | some u => if s.time < u then postAt u 1 (.cwaitTimeout (coreBV c)) else unpark c p.last

/-- The task parks until its counter reaches the threshold or its timeout expires (R30, R363). -/
def parkTask (t : Trig) (h thr tmo : Nat) : Prog := .get fun s =>
  let c := t.core
  let until_ := if tmo = 0 then none else some (t.t0 + tmo)
  Prog.all [
    setCore c (fun k => { k with
      park := some { handle := h, thr := thr, until_ := until_, seq := t.seq, last := ctrValue s.ctrs (ctrHome h) }
      flow := .parked, fetched := none }),
    .eff (.purge fun x => x.what = .ev (.fetch (coreBV c))),
    .eff (.waiters fun l => l ++ [⟨h, thr, .cwaitWake (coreBV c)⟩]),
    match until_ with
    | none => .done
    | some u => postAt u 1 (.cwaitTimeout (coreBV c)),
    Prog.when_ (partnerOf s c).isSome (postEv 0 3 (.timeSliceYield (coreBV c)))]

/-- CWAIT (R363): the handle in a, the threshold in b, the timeout in c<0..39>. -/
def opCwait : Op :=
  opRun 11 (fun s t => ctrCheck s t.core t.sa) fun s t =>
    let h := handleIn t.sa
    let v := ctrValue s.ctrs (ctrHome h)
    ctrReach t.core h <|
    if t.sb ≤ v then land t (ctrBound t.core h) (wide v) []
    else Prog.all [await_ t 1 true 1, parkTask t h t.sb (t.sc % 2 ^ 40)]
def execCwait (s : State) : Host.Outcome State Fault Refusal := runOp opCwait s

/-- CREAD (R364): the handle is b. -/
def opCread : Op :=
  opRun 11 (fun s t => ctrCheck s t.core t.sb) fun s t =>
    let h := handleIn t.sb
    ctrReach t.core h <| land t (ctrBound t.core h) (wide (ctrValue s.ctrs (ctrHome h))) []
def execCread (s : State) : Host.Outcome State Fault Refusal := runOp opCread s

/-- CWAIT_WAKE (R363). -/
def execCwaitWake (core : BitVec 8) (s : State) : Host.Outcome State Fault Refusal := ran (cwaitWoken core.toNat) s
/-- CWAIT_TIMEOUT (R363). -/
def execCwaitTimeout (core : BitVec 8) (s : State) : Host.Outcome State Fault Refusal := ran (cwaitExpired core.toNat) s
/-- REPLAY_WAIT_TIMEOUT (R436). -/
def execReplayWaitTimeout (core : BitVec 8) (s : State) : Host.Outcome State Fault Refusal :=
  ran (replayTimeout core.toNat) s
/-- ACCESS_PERFORMED (R271). -/
def execAccessPerformed (core : BitVec 8) (s : State) : Host.Outcome State Fault Refusal := ran (performNext core.toNat) s

/-- Atomic bounds by class (R366). -/
def amoBound (cls : Nat) : Nat :=
  match cls with
  | 0 | 1 => 12 | 2 => 48 | _ => 800

/-- The window of the package that a 4-byte atomic of a task acts on (R432). `op` is 0 add, 1 max, 2 min; `isInt` the atomic's
type. -/
def atomicWindow (s : State) (c : Nat) (a op : Nat) (isInt : Bool) : Option Window :=
  s.pkg.windows.find? fun w =>
    !w.det && decide (w.base ≤ a) && decide (a < w.base + 4 * w.cells) && w.op = op && w.isInt == isInt &&
    ((s.core c).ctx.map fun x => decide (x.ref = w.region)).getD false

/-- The operation of R432 that an atomic matches: add, max or min, and whether on integers; unsigned maxima match none. -/
def Amo.windowOp (op : Amo) : Option (Nat × Bool) :=
  match op with
  | .add => some (0, true)
  | .fadd => some (0, false)
  | .max u => if u then none else some (1, true)
  | .min u => if u then none else some (2, true)
  | _ => none

/-- An atomic (R365, R366): the unit is 4 or, with `.d`, 8 bytes. One on a reduction window takes its place in the S queue like the others;
it lands zero, and its operand goes to the window's home as a one-cell contribution (R280, R431, R432). -/
def ctAtomic (sp : Space) (dbl : Bool) (op : Amo) : Op :=
  let n := if dbl then 8 else 4
  opRun 11 (fun s t => (sCheck s t.core sp true true t.sa n).then_ (match sHomes s t.core sp true true t.sa n with
      | (.pa a, _, _) :: _ => markerCheck s t (dieOfPa a) 0 (field a 3 42)
      | _ => .go)) fun s t =>
    let bound := amoBound (sClass sp t.sa n)
    let pieces := piecesFrom 0 (sHomes s t.core sp true true t.sa n)
    let kind : AccessKind := match op.windowOp with
      | some (o, i) => match (if sp = .glob ∧ !dbl then atomicWindow s t.core t.sa o i else none) with
        | some w => .window w.id ((t.sa - w.base) / 4) (info t.sb) none
        | none => .amo op (info t.sb) (info t.sc)
      | none => .amo op (info t.sb) (info t.sc)
    Prog.all [await_ t bound true 1, queueAccess t pathS kind pieces (bound - 1)]

def opAadd (sp : Space) (dbl _uns : Bool) : Op := ctAtomic sp dbl .add
def execAadd (sp : Space) (dbl _uns : Bool) (s : State) : Host.Outcome State Fault Refusal := runOp (opAadd sp dbl _uns) s
def opAmax (sp : Space) (dbl uns : Bool) : Op := ctAtomic sp dbl (.max uns)
def execAmax (sp : Space) (dbl uns : Bool) (s : State) : Host.Outcome State Fault Refusal := runOp (opAmax sp dbl uns) s
def opAmin (sp : Space) (dbl uns : Bool) : Op := ctAtomic sp dbl (.min uns)
def execAmin (sp : Space) (dbl uns : Bool) (s : State) : Host.Outcome State Fault Refusal := runOp (opAmin sp dbl uns) s
def opAxchg (sp : Space) (dbl _uns : Bool) : Op := ctAtomic sp dbl .xchg
def execAxchg (sp : Space) (dbl _uns : Bool) (s : State) : Host.Outcome State Fault Refusal := runOp (opAxchg sp dbl _uns) s
def opAcas (sp : Space) (dbl _uns : Bool) : Op := ctAtomic sp dbl .cas
def execAcas (sp : Space) (dbl _uns : Bool) (s : State) : Host.Outcome State Fault Refusal := runOp (opAcas sp dbl _uns) s
def opAfadd (sp : Space) (dbl _uns : Bool) : Op := ctAtomic sp dbl .fadd
def execAfadd (sp : Space) (dbl _uns : Bool) (s : State) : Host.Outcome State Fault Refusal := runOp (opAfadd sp dbl _uns) s
def opAand (sp : Space) (dbl _uns : Bool) : Op := ctAtomic sp dbl .and
def execAand (sp : Space) (dbl _uns : Bool) (s : State) : Host.Outcome State Fault Refusal := runOp (opAand sp dbl _uns) s
def opAor (sp : Space) (dbl _uns : Bool) : Op := ctAtomic sp dbl .or
def execAor (sp : Space) (dbl _uns : Bool) (s : State) : Host.Outcome State Fault Refusal := runOp (opAor sp dbl _uns) s

end Sys2Proof.Machine
end

