-- ==== Sys2Proof/Machine/Lane.lean ====
section
/-! DEFINITION. Transducer lanes (R304 to R316) and the table store of a stack (R314, R315). -/

namespace Sys2Proof.Machine

/-- A lane at rest (R305). -/
def Lane.reset : Lane := ⟨[], .idle, 0, 0, 0, 0, 0, 0, 0, 0, 0, 0, 0, 0, 0, []⟩

/-- Lane n. -/
def laneAt (s : State) (n : Nat) : Lane := nth s.lanes n Lane.reset

/-- Changes it. -/
def setLane (n : Nat) (f : Lane → Lane) : Prog := .eff (.lane n f)

/-- The table store of stack n. -/
def stackAt (s : State) (n : Nat) : Stack := nth s.hbm n ⟨Vector.replicate 16 ⟨none, none, 0⟩, []⟩

/-- Table id i of a stack. -/
def tableAt (s : State) (stack i : Nat) : TableId := nth (stackAt s stack).tables i ⟨none, none, 0⟩

/-- The JCB of a lane's running job, as a number. -/
def Lane.jcb (l : Lane) : Nat := (l.jobs.head?.map fun j => j.block.toNat).getD 0

/-- TABLEID, CTEN and CTID of a JCB (R307). -/
def jTable (j : Nat) : Nat := field j 49 4

/-- See jTable. -/
def jCten (j : Nat) : Bool := bit j 58 = 1

/-- See jTable. -/
def jCtid (j : Nat) : Nat := field j 54 4

/-- A JCB is ill-formed by itself (R307, R310). -/
def jobIll (s : State) (x : Ctx) (j : Nat) : Bool :=
  bit j 48 = 0 || field j 64 32 = 0 || field j 96 32 != 0 || field j 176 16 != 0 || bit j 285 != 0 || decide (3 < field j 289 3) ||
  field j 293 3 != 0 || field j 304 16 != 0 || field j 352 32 != 0 || field j 736 288 != 0 ||
  (bit j 62 = 1 && !ctrOf s x (field j 320 32)) || (bit j 63 = 1 && !ctrOf s x (field j 448 32))

/-- What a job binds (R315): the generations of its tables, or the code it fails with. -/
def bindTables (s : State) (stack j : Nat) : Except Bad (Nat × Nat) :=
  let t := tableAt s stack (jTable j)
  let want := if bit j 53 = 1 then t.copyOf (field j 256 16) else t.cur
  match t.cur, want with
  | none, _ => .error ⟨0x12, 0, none⟩
  | _, none => .error ⟨0x15, jTable j + field j 256 16 * 2 ^ 16, none⟩
  | _, some k =>
    if k.code || decide (k.states.length ≤ field j 272 10) then .error ⟨0x12, 0, none⟩
    else if !jCten j then .ok (k.gen, 0)
    else match (tableAt s stack (jCtid j)).cur with
      | none => .error ⟨0x12, 0, none⟩
      | some q => if q.code then .ok (k.gen, q.gen) else .error ⟨0x12, 0, none⟩

/-- The waits of a lane are over. -/
def endLaneWaits (n : Nat) : Prog := Prog.all [
  .eff (.waiters fun l => l.filter fun w => w.ev != .xlanePrewaitMet (BitVec.ofNat 9 n)),
  .eff (.purge fun i => i.what = .ev (.xlaneWaitTimeout (BitVec.ofNat 9 n)))]

/-- Die of a lane (R304). -/
def laneDie (n : Nat) : Nat := n / 192

/-- The state and the input position of a lane's record (R310); R385 names no place for them, which is the model's: DETAIL from bit 16 on
(notes/assumptions/17.md). -/
def Lane.stands (l : Lane) : Nat := l.state % 1024 * 2 ^ 16 + l.cursor % 2 ^ 34 * 2 ^ 26

/-- The running job ends with a status; a failing one leaves a class E record (R310). -/
def laneEnd (n : Nat) (b : Bad) : Prog := .get fun s =>
  let l := laneAt s n
  match l.jobs.head? with
  | none => .done
  | some j => Prog.all [
      endLaneWaits n,
      setLane n (fun l => { l with stage := .ending, status := b.code }),
      Prog.when_ (b.code != 0) (Prog.all [
        errorRecord { engineRecord s j.owner 3 n (laneDie n) j.addr.addr b with detail := b.detail s + l.stands }, engineError j.owner b]),
      postEv 1 2 (.xlaneJobEnd (BitVec.ofNat 9 n))]

/-- INFO of a lane's 0x12 and 0x14 records: the state, FAIL's data and the input position (R310, R313; the places are the model's). -/
def laneInfo (state data cursor : Nat) : Nat := state % 1024 + data % 2 ^ 16 * 2 ^ 10 + cursor % 2 ^ 34 * 2 ^ 26

/-- The translations of n bytes from a VA on, page by page (R307). -/
def pagesOf (s : State) (va n : Nat) : List TlbEntry :=
  (unitsOf va n (2 ^ 16)).filterMap fun p => (walkTables s (p * 2 ^ 16)).map fun e =>
    ⟨e.2, if e.2 then p / 2 ^ 13 else p, info e.1⟩

/-- The job binds its tables, translates its addresses and starts to run (R307, R308, R315). -/
def laneBind (n : Nat) : Prog := .get fun s =>
  let l := laneAt s n
  let j := l.jcb
  match bindTables s (n / 32) j with
  | .error b => laneEnd n b
  | .ok (g, cg) => Prog.all [
      setLane n (fun l => { l with
        stage := .run
        state := field j 272 10
        cursor := 0
        holds := 0
        acc := 0
        apos := 0
        outlen := 0
        sats := field j 512 32
        flushes := field j 544 32
        nans := field j 576 32
        tgen := g
        cgen := cg
        status := 0
        xlat := pagesOf s (field j 0 48) (field j 64 32) ++ (if field j 192 32 = 0 then [] else pagesOf s (field j 128 48) (field j 192 32)) }),
      postEv 1 2 (.xlaneTransition (BitVec.ofNat 9 n))]

/-- XLANE_JOB_START (R308, stage 1): the JCB's checks and the pre-wait. -/
def laneStart (n : Nat) : Prog := .get fun s =>
  let l := laneAt s n
  match l.jobs with
  | [] => .done
  | job :: _ =>
    let j := job.block.toNat
    if l.stage != .idle then .done
    else Prog.all [
      setLane n (fun l => { l with
        stage := .prewait, state := 0, cursor := 0, outlen := 0, status := 0, since := s.time
        sats := field j 512 32, flushes := field j 544 32, nans := field j 576 32 }),
      if jobIll s job.owner j then laneEnd n ⟨0x12, 0, none⟩
      else if bit j 62 = 1 && decide (ctrValue s.ctrs (ctrHome (field j 320 32)) < field j 384 64) then Prog.all [
        .eff (.waiters fun w => w ++ [⟨field j 320 32, field j 384 64, .xlanePrewaitMet (BitVec.ofNat 9 n)⟩]),
        postAt (s.time + 2 ^ (job.owner.wdlim + 4)) 3 (.xlaneWaitTimeout (BitVec.ofNat 9 n))]
      else postEv 0 2 (.xlanePrewaitMet (BitVec.ofNat 9 n))]

/-- XLANE_PREWAIT_MET (R308, R315). -/
def lanePrewait (n : Nat) : Prog := .get fun s =>
  let l := laneAt s n
  let j := l.jcb
  if l.stage != .prewait || (bit j 62 = 1 && decide (ctrValue s.ctrs (ctrHome (field j 320 32)) < field j 384 64)) then .done
  else (endLaneWaits n).andThen (laneBind n)

/-- XLANE_WAIT_TIMEOUT (R310). -/
def laneTimeout (n : Nat) : Prog := .get fun s =>
  let l := laneAt s n
  match l.jobs.head? with
  | none => .done
  | some j =>
    let lim := l.since + 2 ^ (j.owner.wdlim + 4)
    if l.stage != .prewait then .done
    else if s.time < lim then postAt lim 3 (.xlaneWaitTimeout (BitVec.ofNat 9 n))
    else laneEnd n ⟨0x12, laneInfo 0 0 0, none⟩

/-- A conversion count passes its nonzero threshold (R316). -/
def overThreshold (j : Nat) (l : Lane) : Bool :=
  (field j 608 32 != 0 && decide (field j 608 32 < l.sats)) || (field j 640 32 != 0 && decide (field j 640 32 < l.flushes)) ||
  (field j 672 32 != 0 && decide (field j 672 32 < l.nans))

/-- The lane after a transition's counts; each sticks at 2^32 - 1 (R316). -/
def laneCounts (l : Lane) (sat flush nan : Nat) : Lane :=
  let add := fun (a b : Nat) => min (a + b) (2 ^ 32 - 1)
  { l with sats := add l.sats sat, flushes := add l.flushes flush, nans := add l.nans nan }

/-- The lane where a walk stands within a transition, in whose state it stays until the transition is over (R310, R312). -/
def laneWalk (l : Lane) (w : Walk) : Lane := { l with cursor := w.c, holds := w.holds, acc := w.acc, apos := w.apos }

/-- Bytes emitted at OUTADDR + OUTLEN (R313); past OUTCAP none is written (R310). -/
def laneEmit (n : Nat) (job : Job) (out : List Nat) (rest : Prog) : Prog := .get fun s =>
  let l := laneAt s n
  let j := job.block.toNat
  if out.isEmpty then rest
  else if field j 192 32 < l.outlen + out.length then laneEnd n ⟨0x14, laneInfo l.state 0 l.cursor, none⟩
  else
    let at_ : EAddr := ⟨true, field j 128 48 + l.outlen⟩
    match engineAccess s job.owner at_ true true out.length (some l.xlat) with
    | .error c => laneEnd n ⟨c, at_.addr, none⟩
    | .ok h => if h.any fun p => homeCut s (laneDie n) p.1 then laneEnd n ⟨0x1E, 0, none⟩ else Prog.all [
        writePieces h (ofBytes out) job.owner.id (some (job.owner.who 0)),
        setLane n (fun l => { l with outlen := l.outlen + out.length }),
        rest]

/-- XLANE_TRANSITION (R312, R313): one transition of the running job. -/
def laneStep (n : Nat) : Prog := .get fun s =>
  let l := laneAt s n
  match l.jobs.head? with
  | none => .done
  | some job =>
    let j := job.block.toNat
    let inlen := field j 64 32
    let table := (tableAt s (n / 32) (jTable j)).copyOf l.tgen
    match table with
    | none => .done
    | some t =>
      if l.stage != .run then .done
      else
        let isWide := bit (t.states[l.state]?.getD 0) 0 = 1
        let need := if isWide then l.cursor + 2 else l.cursor + 1
        let first := l.cursor / 2
        let at_ : EAddr := ⟨true, field j 0 48 + first⟩
        let bytes := if 2 * inlen < need then .ok 0 else engineGet s job.owner at_ true ((need + 1) / 2 - first) (laneDie n) (some l.xlat)
        match bytes with
        | .error b => laneEnd n b
        | .ok v =>
          let ct := if jCten j then (tableAt s (n / 32) (jCtid j)).copyOf l.cgen else none
          match transition t ct (ElemType.ofCode (field j 282 3)) (ElemType.ofCode (field j 286 3)) (field j 289 3) (bit j 292 = 1)
              (fun c => digit v 4 (c - 2 * first)) inlen ⟨l.state, l.cursor, l.holds, l.acc, l.apos⟩ with
          | .complete w out => Prog.all [
              setLane n (fun l => laneWalk l w), laneEmit n job out (laneEnd n ⟨0, 0, none⟩)]
          | .fail w code data out => Prog.all [
              setLane n (fun l => laneWalk l w),
              laneEmit n job out (laneEnd n ⟨code, laneInfo w.s data w.c, none⟩)]
          | .next w out sat flush nan => Prog.all [
              setLane n (fun l => laneWalk l w),
              laneEmit n job out (Prog.all [
                setLane n (fun l => laneCounts l sat flush nan),
                .get fun s =>
                  let l := laneAt s n
                  if sat + flush + nan != 0 && overThreshold j l then
                    laneEnd n ⟨0x16, (convAdd 0 l.sats l.flushes l.nans).toNat, none⟩
                  else Prog.all [
                    setLane n (fun l => { l with state := w.s }),
                    postEv (max 1 ((out.length + 7) / 8)) 2 (.xlaneTransition (BitVec.ofNat 9 n))]])]

/-- The next job of the lane, and a table load that waited for this one's tables. -/
def laneNext (n : Nat) (x : Ctx) : Prog := Prog.all [
  setLane n (fun l => { l with jobs := l.jobs.tail, stage := .idle }),
  postEv 1 2 (.xlaneJobStart (BitVec.ofNat 9 n)),
  postEv 1 2 (.tableLoadApply (BitVec.ofNat 4 (n / 32))),
  workEnded x]

/-- The post-add of a job that ended with STATUS 0: a release of path X (R276, R308). -/
def laneAdd (n : Nat) (job : Job) : Prog := .get fun s =>
  let j := job.block.toNat
  let l := laneAt s n
  if bit j 63 = 1 && l.status = 0 then
    let h := field j 448 32
    releaseAdd job.owner 5 (laneDie n) h (field j 480 32)
      (.get fun s => errorRecord (engineRecord s job.owner 3 n (laneDie n) job.addr.addr ⟨0x18, h, none⟩))
      (laneNext n job.owner) (postEv 8 2 (.xlaneJobEnd (BitVec.ofNat 9 n)))
  else laneNext n job.owner

/-- XLANE_JOB_END (R308, stage 3): the write-back, OWN, the post-add. -/
def laneFinish (n : Nat) : Prog := .get fun s =>
  let l := laneAt s n
  match l.jobs.head? with
  | none => .done
  | some job =>
    let put := fun (off len v : Nat) => enginePut job.owner (job.addr.plus off) false len v (fun _ => .done) (laneDie n)
    if l.stage = .adding then laneAdd n job
    else if l.stage != .ending then .done
    else Prog.all [
      put 28 4 l.outlen, put 88 4 ((l.cursor + 1) / 2), put 64 4 l.sats, put 68 4 l.flushes, put 72 4 l.nans, put 37 1 l.status,
      put 6 1 (field job.block.toNat 48 8 / 2 * 2),
      setLane n (fun l => { l with stage := .adding }),
      laneAdd n job]

/-- Reserved fields and ranges of a table image's header (R311). -/
def imageHeadBad (h : Nat) : Bool :=
  let n := field h 8 11
  let e := field h 32 17
  field h 2 6 != 0 || field h 19 13 != 0 || field h 51 461 != 0 ||
  match field h 0 2 with
  | 0 => n = 0 || decide (1024 < n) || decide (e < 16) || decide (65536 < e) || field h 49 2 != 0
  | 1 => n != 0 || e = 0 || decide (4096 < e) || field h 49 2 = 3
  | _ => true

/-- A state word within its map (R311). -/
def stateWordOk (e w : Nat) : Bool := field w 1 15 = 0 && decide (field w 16 16 + (if bit w 0 = 1 then 256 else 16) ≤ e)

/-- A transition entry within its map (R311). -/
def entryOk (states x : Nat) : Bool :=
  let act := field x 10 4
  decide (field x 0 10 < states) && decide (act ≤ 7) && field x 14 2 != 3 &&
  (field x 14 2 = 0 || act = 0 || act = 1 || act = 5)

/-- A table image read and validated (R311). -/
def loadImage (s : State) (x : Ctx) (a : EAddr) (gen : Nat) : Except Bad TableCopy :=
  match engineGet s x a false 64 with
  | .error b => .error b
  | .ok h =>
    if imageHeadBad h then .error ⟨0x12, 0, none⟩
    else
      let n := field h 8 11
      let e := field h 32 17
      match engineGet s x (a.plus 64) false (4 * (n + e)) with
      | .error b => .error b
      | .ok v =>
        let words := (List.range (n + e)).map (digit v 32)
        let states := words.take n
        let entries := words.drop n
        let vw := 2 ^ field h 49 2
        let ok := if field h 0 2 = 0 then states.all (stateWordOk e) && entries.all (entryOk n)
          else entries.all fun w => decide (w < 2 ^ (8 * vw))
        if ok then .ok ⟨gen, field h 0 2 = 1, vw, states, entries⟩ else .error ⟨0x12, 0, none⟩

/-- A job of the stack that has not ended (until its OWN clears), or a point-0 read that has not been performed, is bound to a generation of a table id (R315, R319). -/
def copyBound (s : State) (stack id gen : Nat) : Bool :=
  (s.cores.toList.any fun k => k.accesses.any fun a => a.bound.contains (stack, id, gen) || a.pieces.any fun p => match p.at_ with
    | .expand a => a / 2 ^ 36 = stack && (frameTables s (a - a % 65536)).contains (id, gen)
    | _ => false) ||
  (List.range 32).any fun i =>
    let l := laneAt s (32 * stack + i)
    let j := l.jcb
    (l.stage = .run || l.stage = .ending) && ((jTable j = id && l.tgen = gen) || (jCten j && jCtid j = id && l.cgen = gen))

/-- The load a stack can act on: the first that owes its add, or whose id has no earlier load and an unbound standby copy (R315). -/
def loadReady (s : State) (stack : Nat) : List TableLoad → List TableLoad → Option TableLoad
  | _, [] => none
  | pre, l :: r =>
    let free := !(pre.any fun y => y.id = l.id) &&
      !(((tableAt s stack l.id).standby.map fun k => copyBound s stack l.id k.gen).getD false)
    if l.applied || free then some l else loadReady s stack (pre ++ [l]) r

/-- The counter add of a load that has applied or been refused (R359), and the next load. -/
def loadAdd (stack : Nat) (l : TableLoad) : Prog :=
  let next := Prog.all [
    .eff (.stack stack fun h => { h with loads := h.loads.erase { l with applied := true } }),
    workEnded l.owner,
    postEv 1 2 (.tableLoadApply (BitVec.ofNat 4 stack))]
  match l.ctr with
  | none => next
  | some h => releaseAdd l.owner 5 (stack / 6) h 1
      (.get fun s => errorRecord (engineRecord s l.owner 3 (32 * stack) (stack / 6) l.image.addr ⟨0x18, h, none⟩))
      next (postEv 8 2 (.tableLoadApply (BitVec.ofNat 4 stack)))

/-- TABLE_LOAD_APPLY (R311, R315): the image is written into the standby copy and becomes current, or is refused. -/
def loadApply (stack : Nat) : Prog := .get fun s =>
  match loadReady s stack [] (stackAt s stack).loads with
  | none => .done
  | some l =>
    if l.applied then loadAdd stack l
    else
      let t := tableAt s stack l.id
      let g := if (t.gen + 1) % 65536 = 0 then 1 else (t.gen + 1) % 65536
      let put := fun (f : TableId → TableId) => Prog.eff (.stack stack fun h => { h with tables := updAt h.tables l.id f })
      let mark := Prog.eff (.stack stack fun h => { h with
        loads := h.loads.map fun y => if y = l then { y with applied := true } else y })
      Prog.all [
        (match loadImage s l.owner l.image g with
          | .ok k => put fun t => { cur := some k, standby := t.cur, gen := g }
          | .error b => Prog.all [
              put (fun t => { t with standby := none }),
              errorRecord (engineRecord s l.owner 3 (32 * stack) (stack / 6) l.image.addr b),
              engineError l.owner b]),
        mark,
        loadAdd stack l]

/-- XLANE_JOB_START (R308). -/
def execXlaneJobStart (lane : BitVec 9) (s : State) : Host.Outcome State Fault Refusal :=
  ran (stalled (.xlaneJobStart lane) (laneStart lane.toNat)) s
/-- XLANE_PREWAIT_MET (R306, R308): the job's addresses are translated once requests are accepted again (R332). -/
def execXlanePrewaitMet (lane : BitVec 9) (s : State) : Host.Outcome State Fault Refusal :=
  ran (stalled (.xlanePrewaitMet lane) (lanePrewait lane.toNat)) s
/-- XLANE_TRANSITION (R306, R312). -/
def execXlaneTransition (lane : BitVec 9) (s : State) : Host.Outcome State Fault Refusal :=
  ran (stalled (.xlaneTransition lane) (laneStep lane.toNat)) s
/-- XLANE_WAIT_TIMEOUT (R310). -/
def execXlaneWaitTimeout (lane : BitVec 9) (s : State) : Host.Outcome State Fault Refusal := ran (laneTimeout lane.toNat) s
/-- XLANE_JOB_END (R308): only a write-back to global memory waits for a slot's end; counters go on (R332). -/
def execXlaneJobEnd (lane : BitVec 9) (s : State) : Host.Outcome State Fault Refusal :=
  ran (.get fun s =>
    let l := laneAt s lane.toNat
    if l.stage = .ending && l.jobs.head?.any (·.addr.glob) then stalled (.xlaneJobEnd lane) (laneFinish lane.toNat)
    else laneFinish lane.toNat) s
/-- TABLE_LOAD_APPLY (R315). -/
def execTableLoadApply (stack : BitVec 4) (s : State) : Host.Outcome State Fault Refusal :=
  ran (.get fun s =>
    if (loadReady s stack.toNat [] (stackAt s stack.toNat).loads).any fun l => !l.applied && l.image.glob then stalled (.tableLoadApply stack) (loadApply stack.toNat)
    else loadApply stack.toNat) s

end Sys2Proof.Machine
end

