-- ==== Sys2Proof/Machine/StackJob.lean ====
section
/-! DEFINITION. Stack engines (R323 to R329). -/

namespace Sys2Proof.Machine

/-- Engine n. -/
def engineAt (s : State) (n : Nat) : StackEngine := nth s.engines n ⟨[], .idle, 0, 0, 0, 0⟩

/-- Changes it. -/
def setEngine (n : Nat) (f : StackEngine → StackEngine) : Prog := .eff (.engine n f)

/-- The job block of an engine's running job, as a number. -/
def StackEngine.blk (e : StackEngine) : Nat := (e.jobs.head?.map fun j => j.block.toNat).getD 0

/-- KB and NB, AFMT and BFMT, and M of a job block (R324). -/
def sKb (b : Nat) : Nat := field b 320 16

/-- See sKb. -/
def sNb (b : Nat) : Nat := field b 336 16

/-- See sKb. -/
def sAf (b : Nat) : Nat := field b 117 4

/-- See sKb. -/
def sBf (b : Nat) : Nat := field b 121 4

/-- See sKb. -/
def sRows (b : Nat) : Nat := field b 112 5 + 1

/-- An address field at bit `lo` in the job's space, some bytes on. -/
def sAddr (b lo off : Nat) : EAddr := ⟨bit b 49 = 0, field b lo 48 + off⟩

/-- A job block is ill-formed (R324, R328). -/
def blockIll (s : State) (x : Ctx) (b : Nat) : Bool :=
  let p := field b 56 5
  let bf16 := sAf b = 8
  bit b 48 = 0 || field b 61 3 != 0 || field b 125 3 != 0 || field b 176 16 != 0 || field b 240 16 != 0 || field b 304 16 != 0 ||
  field b 360 24 != 0 || field b 576 448 != 0 || (p != 1 && p != 3) || !pairOk (sAf b) (sBf b) || sAf b = 7 ||
  (bf16 && (field b 128 48 != 0 || field b 192 48 != 0)) || field b 256 48 % 64 != 0 ||
  sKb b = 0 || decide (32768 < sKb b) || sNb b = 0 || decide (4096 < sNb b) ||
  (bit b 53 = 1 && !ctrOf s x (field b 384 32)) || (bit b 54 = 1 && !ctrOf s x (field b 416 32))

/-- Die of an engine (R323). -/
def engineDie (n : Nat) : Nat := n / 12

/-- The waits of an engine are over. -/
def endEngineWaits (n : Nat) : Prog := Prog.all [
  .eff (.waiters fun l => l.filter fun w => w.ev != .sePrewaitMet (BitVec.ofNat 5 n)),
  .eff (.purge fun i => i.what = .ev (.seWaitTimeout (BitVec.ofNat 5 n)))]

/-- A record of an engine's job (R328): the column block, for which R385 names no place, stands in DETAIL from bit 16 on
(notes/assumptions/17.md). -/
def blockRecord (s : State) (j : Job) (n : Nat) (b : Bad) : ErrRec :=
  { engineRecord s j.owner 4 n (engineDie n) j.addr.addr b with detail := b.detail s + (engineAt s n).block * 2 ^ 16 }

/-- The running job ends with a status; a failing one leaves a class E record (R328). -/
def engineEnd (n : Nat) (b : Bad) : Prog := .get fun s =>
  match (engineAt s n).jobs.head? with
  | none => .done
  | some j => Prog.all [
      endEngineWaits n,
      setEngine n (fun e => { e with stage := .ending, status := b.code }),
      Prog.when_ (b.code != 0) (Prog.all [
        errorRecord (blockRecord s j n b), engineError j.owner b]),
      postEv 1 2 (.seJobEnd (BitVec.ofNat 5 n))]

/-- SE_JOB_START (R325): the block's checks and the pre-wait. -/
def engineStart (n : Nat) : Prog := .get fun s =>
  let e := engineAt s n
  match e.jobs with
  | [] => .done
  | job :: _ =>
    let b := job.block.toNat
    if e.stage != .idle then .done
    else Prog.all [
      setEngine n (fun e => { e with stage := .prewait, block := 0, status := 0, since := s.time }),
      if blockIll s job.owner b then engineEnd n ⟨0x12, 0, none⟩
      else if bit b 53 = 1 && decide (ctrValue s.ctrs (ctrHome (field b 384 32)) < field b 448 64) then Prog.all [
        .eff (.waiters fun w => w ++ [⟨field b 384 32, field b 448 64, .sePrewaitMet (BitVec.ofNat 5 n)⟩]),
        postAt (s.time + 2 ^ (job.owner.wdlim + 4)) 3 (.seWaitTimeout (BitVec.ofNat 5 n))]
      else postEv 0 2 (.sePrewaitMet (BitVec.ofNat 5 n))]

/-- SE_PREWAIT_MET (R325). -/
def enginePrewait (n : Nat) : Prog := .get fun s =>
  let e := engineAt s n
  let b := e.blk
  if e.stage != .prewait || (bit b 53 = 1 && decide (ctrValue s.ctrs (ctrHome (field b 384 32)) < field b 448 64)) then .done
  else Prog.all [
    endEngineWaits n,
    setEngine n (fun e => { e with stage := .run }),
    postEv 1 2 (.seColumnBlock (BitVec.ofNat 5 n))]

/-- SE_WAIT_TIMEOUT (R328). -/
def engineTimeout (n : Nat) : Prog := .get fun s =>
  let e := engineAt s n
  match e.jobs.head? with
  | none => .done
  | some j =>
    let lim := e.since + 2 ^ (j.owner.wdlim + 4)
    if e.stage != .prewait then .done
    else if s.time < lim then postAt lim 3 (.seWaitTimeout (BitVec.ofNat 5 n))
    else engineEnd n ⟨0x12, 0, none⟩

/-- A local range within the queuing core's scratchpad limit (R324, R328). -/
def spadOk (x : Ctx) (a : EAddr) (n : Nat) : Bool := a.glob || decide (a.addr + n ≤ x.spadk * 1024)

/-- n bytes that a job reads of A or its scales. -/
def engineRead (s : State) (x : Ctx) (eng : Nat) (a : EAddr) (n : Nat) : Except Bad Nat :=
  if spadOk x a n then engineGet s x a true n (engineDie eng) else .error ⟨0x09, a.addr, none⟩

/-- n bytes that a job reads of B or its scales: in the engine's own stack, as raw bytes (R325). -/
def stackRead (s : State) (x : Ctx) (eng : Nat) (va n : Nat) : Except Bad Nat :=
  match engineAccess s x ⟨true, va⟩ false true n with
  | .error c => .error ⟨c, va, none⟩
  | .ok l =>
    let mine := l.all fun h => match h.1 with | .pa a | .expand a => decide (a / 2 ^ 36 = eng / 2) | .arr _ _ => false
    if mine then engineGet s x ⟨true, va⟩ true n (engineDie eng) else .error ⟨0x12, 0, none⟩

/-- What block-row b of column block n reads: scale bytes and raw elements of A, scale bytes and the block-row of B (R324). -/
structure BlockIn where
  scA : Array (List Nat)
  scB : Array (List Nat)
  raw : Array (List BlockEl)
  rowB : RowB

/-- A list of reads: all of them, or the first that fails. -/
def readAll (l : List (Except Bad Nat)) : Except Bad (List Nat) :=
  l.foldr (fun r acc => match r, acc with
    | .error b, _ => .error b
    | _, .error b => .error b
    | .ok v, .ok vs => .ok (v :: vs)) (.ok [])

/-- The operands of block b of column block n (R324, R325). -/
def blockIn (s : State) (x : Ctx) (eng blk n b : Nat) : Except Bad BlockIn :=
  let af := sAf blk
  let kb := sKb blk
  let w := tBits af
  let rows := sRows blk
  let z := blockRowBytes (sBf blk)
  let scaled := af != 8
  let a := readAll ((List.range rows).map fun i => engineRead s x eng (sAddr blk 64 (i * (32 * kb * w / 8) + b * (4 * w))) (4 * w))
  let sa := readAll ((List.range (if scaled then rows else 0)).map fun i => engineRead s x eng (sAddr blk 128 (i * kb + b)) 1)
  let row := stackRead s x eng (field blk 0 48 + (n * kb + b) * z) z
  let sb := readAll (if scaled then [stackRead s x eng (field blk 192 48 + (n * kb + b) * 32) 32] else [])
  match a, sa, row, sb with
  | .error e, _, _, _ | _, .error e, _, _ | _, _, .error e, _ | _, _, _, .error e => .error e
  | .ok a, .ok sa, .ok row, .ok sb => .ok {
      scA := ((List.range 32).map fun i => if scaled then [sa[i]?.getD 127] else []).toArray
      scB := ((List.range 32).map fun j => if scaled then [digit (sb.headD 0) 8 j] else []).toArray
      raw := ((List.range 32).map fun i => rawRow af (a[i]?.getD 0)).toArray
      rowB := rowBOf (sBf blk) row }

/-- The control word under which an engine adds (R325): its profile, no early termination. -/
def enginePcw (blk : Nat) : Pcw := ⟨field blk 56 5, sAf blk, sBf blk, 1, bit blk 55 = 1, 0, 1, false, 0⟩

/-- The image of column block n (R325). -/
def columnImage (s : State) (x : Ctx) (eng blk n : Nat) : Except Bad (Vector AccEl 1024) :=
  (List.range (sKb blk)).foldl (fun acc b =>
    match acc with
    | .error e => .error e
    | .ok els => match blockIn s x eng blk n b with
      | .error e => .error e
      | .ok i => .ok (blockSum (enginePcw blk) i.scA i.scB i.raw i.rowB els).1) (.ok (Vector.replicate 1024 AccEl.zero))

/-- SE_COLUMN_BLOCK (R325, R328): one column block's image, with its residue check and one recomputation, which leaves a corrected-error
record; a second mismatch fails the job. -/
def engineColumn (n : Nat) : Prog := .get fun s =>
  let e := engineAt s n
  match e.jobs.head? with
  | none => .done
  | some job =>
    let x := job.owner
    let b := job.block.toNat
    if e.stage != .run then .done
    else Prog.all [
      Prog.when_ (e.mismatches != 0) (errorRecord { blockRecord s job n ⟨0x11, e.block, none⟩ with corr := true }),
      setEngine n (fun e => { e with mismatches := e.mismatches - 2 }),
      if 2 ≤ e.mismatches then engineEnd n ⟨0x11, e.block, none⟩ else
      match columnImage s x n b e.block with
      | .error f => engineEnd n (if f.code = 0x12 then { f with info := e.block } else f)
      | .ok els =>
        let at_ := sAddr b 256 (16384 * e.block)
        if !spadOk x at_ 16384 then engineEnd n ⟨0x09, at_.addr, none⟩
        else match engineAccess s x at_ true true 16384 with
          | .error c => engineEnd n ⟨c, at_.addr, none⟩
          | .ok h => if h.any fun p => homeCut s (engineDie n) p.1 then engineEnd n ⟨0x1E, 0, none⟩ else Prog.all [
              writePieces h (ofDigits 1024 128 fun i => (nth els i AccEl.zero).image) x.id (some (x.who 0)),
              setEngine n (fun e => { e with block := e.block + 1 }),
              if e.block + 1 = sNb b then engineEnd n ⟨0, 0, none⟩ else postEv (sKb b) 2 (.seColumnBlock (BitVec.ofNat 5 n))]]

/-- The next job of the engine. -/
def engineNext (n : Nat) (x : Ctx) : Prog := Prog.all [
  setEngine n (fun e => { e with jobs := e.jobs.tail, stage := .idle }),
  postEv 1 2 (.seJobStart (BitVec.ofNat 5 n)),
  workEnded x]

/-- The post-add of a job that ended with STATUS 0: a release of path E (R276, R325, R326). -/
def engineAdd (n : Nat) (job : Job) : Prog := .get fun s =>
  let b := job.block.toNat
  if bit b 54 = 1 && (engineAt s n).status = 0 then
    let h := field b 416 32
    releaseAdd job.owner 6 (engineDie n) h (field b 512 32)
      (.get fun s => errorRecord (engineRecord s job.owner 4 n (engineDie n) job.addr.addr ⟨0x18, h, none⟩))
      (engineNext n job.owner) (postEv 8 2 (.seJobEnd (BitVec.ofNat 5 n)))
  else engineNext n job.owner

/-- SE_JOB_END (R326): STATUS and DONE, then OWN, then the post-add. -/
def engineFinish (n : Nat) : Prog := .get fun s =>
  let e := engineAt s n
  match e.jobs.head? with
  | none => .done
  | some job =>
    let put := fun (off len v : Nat) => enginePut job.owner (job.addr.plus off) false len v (fun _ => .done) (engineDie n)
    if e.stage = .adding then engineAdd n job
    else if e.stage != .ending then .done
    else Prog.all [
      put 44 1 e.status, put 68 4 e.block, put 6 1 (field job.block.toNat 48 8 / 2 * 2),
      setEngine n (fun e => { e with stage := .adding }),
      engineAdd n job]

/-- SE_JOB_START (R325). -/
def execSeJobStart (eng : BitVec 5) (s : State) : Host.Outcome State Fault Refusal :=
  ran (stalled (.seJobStart eng) (engineStart eng.toNat)) s
/-- SE_PREWAIT_MET (R325). -/
def execSePrewaitMet (eng : BitVec 5) (s : State) : Host.Outcome State Fault Refusal := ran (enginePrewait eng.toNat) s
/-- SE_COLUMN_BLOCK (R325). -/
def execSeColumnBlock (eng : BitVec 5) (s : State) : Host.Outcome State Fault Refusal :=
  ran (stalled (.seColumnBlock eng) (engineColumn eng.toNat)) s
/-- SE_WAIT_TIMEOUT (R328). -/
def execSeWaitTimeout (eng : BitVec 5) (s : State) : Host.Outcome State Fault Refusal := ran (engineTimeout eng.toNat) s
/-- SE_JOB_END (R326): only a write-back to global memory waits for a slot's end; counters go on (R332). -/
def execSeJobEnd (eng : BitVec 5) (s : State) : Host.Outcome State Fault Refusal :=
  ran (.get fun s =>
    let e := engineAt s eng.toNat
    if e.stage = .ending && e.jobs.head?.any (·.addr.glob) then stalled (.seJobEnd eng) (engineFinish eng.toNat)
    else engineFinish eng.toNat) s

end Sys2Proof.Machine
end

