-- ==== Sys2Proof/Machine/Ce.lean ====
section
/-! DEFINITION. The engine unit CE (R352 to R359, R367). -/

namespace Sys2Proof.Machine

/-- An operation of a task without a context acts for one of its own: a placeholder for a core that runs none. -/
def ctxOf (s : State) (c : Nat) : Ctx :=
  ((s.core c).ctx).getD ⟨0, 0, 0, 0, 0, 0, 0, 0, c, 0, 4096, 0, 22, 0, false, 0, 0⟩

/-- The checks of an address operand (R352): alignment, then the address faults; without `.g` it lies in scratchpad or scalar
memory. -/
def ceAddr (s : State) (c path : Nat) (g write : Bool) (a n align : Nat) : Verdict :=
  (need (a % align = 0) 0x08 a).and <|
    if !g && !inArrays a n then .bad 0x09 (info a) else accessCheck s c path g write false a n

/-- The channel runs another context's chains (R300). -/
def foreign (ch : Channel) (x : Ctx) : Bool := ch.heads.any fun h => h.owner.id != x.id

/-- The check of a ring object or descriptor that an operation reads on a path before its bundle issues (R401, cause 10). -/
def ceHead (s : State) (c path : Nat) (g : Bool) (a n align : Nat) : Verdict :=
  (ceAddr s c path g false a n align).then_ (readCheck s (accessHomes s c path g false false a n))

/-- CQUE (R288, R353): the head joins the channel's queue, or the flag says that it does not. -/
def opCque (g : Bool) : Op :=
  opRun 22 (fun s t => Verdict.all [
      fenceCheck s t.core 3, need (t.sb < 4) 0x03 t.sb, need (t.sa != 0) 0x03 t.sa, ceAddr s t.core 3 g false t.sa 128 128])
    fun s t =>
      let c := t.core
      let x := ctxOf s c
      let ch := chanAt s c t.sb
      if mustDefer s t then deferOp t 2 true
      else if 16 ≤ ch.heads.length || foreign ch x then land t 2 (wide 1) []
      else Prog.all [
        land t 2 0 [],
        setChan c t.sb (fun ch => { ch with heads := ch.heads ++ [⟨⟨g, t.sa⟩, x, t.seq⟩] }),
        postEv 2 2 (.ceRecordRead (coreBV c) (BitVec.ofNat 2 t.sb))]
def execCque (g : Bool) (s : State) : Host.Outcome State Fault Refusal := runOp (opCque g) s

/-- The channel status word (R299, R300) DESIGN CHOICE: RECADDR of an idle channel, or
before a chain's first record is read, is that of the last record (notes/assumptions/30.md). -/
def chanStatus (ch : Channel) (x : Ctx) : Nat :=
  if foreign ch x then 2 ^ 7
  else
    let state := match ch.stage with
      | .halted => 3 | .prewait | .claim => 2 | .idle => if ch.heads.isEmpty then 0 else 1 | _ => 1
    state + min ch.heads.length 16 * 2 ^ 2 + (if ch.stage = .halted then ch.code else 0) * 2 ^ 8 + ch.recAddr.addr % 2 ^ 48 * 2 ^ 16

/-- CSTAT (R299, R353). -/
def opCstat : Op :=
  opRun 22 (fun _ t => need (t.sb < 4) 0x03 t.sb) fun s t =>
    land t 2 (wide (chanStatus (chanAt s t.core t.sb) (ctxOf s t.core))) []
def execCstat (s : State) : Host.Outcome State Fault Refusal := runOp opCstat s

/-- CCLR (R299, R353): mode 3 and above are illegal; on a halted channel of the task's own chains, `f` is the mode's effect. -/
def cclr (f : Nat → Nat → Channel → Prog) : Op :=
  opRun 22 (fun _ t => (need (t.sa < 3) 0x03 t.sa).then_ (need (t.sb < 4) 0x03 t.sb)) fun s t =>
    let ch := chanAt s t.core t.sb
    Prog.all [
      finish t 1 [],
      Prog.when_ (ch.stage = .halted && !foreign ch (ctxOf s t.core)) (Prog.all [
        f t.core t.sb ch,
        postEv 1 2 (.ceRecordRead (coreBV t.core) (BitVec.ofNat 2 t.sb))])]

/-- CCLR mode 0 (R299): the failing record is read afresh. -/
def opCclrRetry : Op :=
  cclr fun c n _ => setChan c n fun ch => { ch with stage := .reading, code := 0 }
def execCclrRetry (s : State) : Host.Outcome State Fault Refusal := runOp opCclrRetry s

/-- CCLR mode 1 (R299): the rest of the failing chain is abandoned. -/
def opCclrAbandonChain : Op :=
  cclr fun c n ch => Prog.all [
    setChan c n fun ch => { ch with heads := ch.heads.tail, stage := .idle, code := 0 },
    Prog.each (ch.heads.take 1) fun h => workEnded h.owner]
def execCclrAbandonChain (s : State) : Host.Outcome State Fault Refusal := runOp opCclrAbandonChain s

/-- CCLR mode 2 (R299): every queued chain is abandoned. -/
def opCclrAbandonAll : Op :=
  cclr fun c n ch => Prog.all [
    setChan c n fun ch => { ch with heads := [], stage := .idle, code := 0 },
    Prog.each ch.heads fun h => workEnded h.owner]
def execCclrAbandonAll (s : State) : Host.Outcome State Fault Refusal := runOp opCclrAbandonAll s

/-- The ring object an operation names, as its task reads it; 0 where it cannot. -/
def ringAt (s : State) (t : Trig) (g : Bool) : Nat :=
  match engineGet s (ctxOf s t.core) ⟨g, t.sa⟩ false 64 with
  | .ok r => r
  | .error _ => 0

/-- RINIT (R354): RDP, then the unit of WRP and CLAIM. -/
def opRinit (g : Bool) : Op :=
  opRun 22 (fun s t => Verdict.all [
      ceAddr s t.core 3 g true t.sa 64 64, ceHead s t.core 3 g t.sa 64 64,
      need (!ringShapeBad (ringAt s t g)) 0x23 t.sa])
    fun s t =>
      let x := ctxOf s t.core
      let b := t.sb % 2 ^ 32
      let home := match engineAccess s x ⟨g, t.sa⟩ true false 64 with | .ok ((h, _, _) :: _) => some h | _ => none
      Prog.all [
        finish t 1 [],
        enginePutIn s x ⟨g, t.sa + 24⟩ false 4 b (fun _ => .done),
        enginePutIn s x ⟨g, t.sa + 16⟩ false 8 (b + b * 2 ^ 32) (fun _ => .done),
        .eff (.pkg fun p => { p with ringFilled := p.ringFilled.filter fun y => some y.1 != home })]
def execRinit (g : Bool) (s : State) : Host.Outcome State Fault Refusal := runOp (opRinit g) s

/-- RAWAIT (R355): the slot's address once it is published; a ring that breaks R303 gives zero and 0x23 after landing. -/
def opRawait (g : Bool) : Op :=
  opRun 22 (fun s t => ceHead s t.core 3 g t.sa 64 64) fun s t =>
    let c := t.core
    let r := ringAt s t g
    let n := t.sb % 2 ^ 32
    Prog.all [
      Prog.when_ (t.stage = 0) (await_ t (if g then 700 else 20) true 1),
      if t.drained s then postOp 1 { t with stage := 1, checked := true }
      else if ringBad r then settle c 22 t.seq fun f => { f with posts := [.fault 0x23 (info t.sa) t.slot] }
      else if slotPublished r n then settle c 22 t.seq fun f => { f with y0 := wide (slotAddr r n).addr }
      else postOp 1 { t with stage := 1, checked := true }]
def execRawait (g : Bool) (s : State) : Host.Outcome State Fault Refusal := runOp (opRawait g) s

/-- A slot can be released: RDP = n and n is published (R356). -/
def relOk (r n : Nat) : Bool := rRdp r = n && slotPublished r n

/-- The accesses a release of the ring waits for have been performed: those of paths S, V and M before the trigger (R356). -/
def relHold (s : State) (t : Trig) : Verdict := if pathsDone s t.core 7 t.seq then .go else .hold 10 22 0

/-- RREL (R356, R367): its bundle holds until the accesses before it are performed; inside a segment it takes place at the
segment's end, and its 0x23 is pending then. -/
def opRrel (g : Bool) : Op :=
  opRun 22 (fun s t => Verdict.all [
      if mustDefer s t then .go else relHold s { t with seq := (s.core t.core).trigSeq },
      ceAddr s t.core 3 g true t.sa 64 64, ceHead s t.core 3 g t.sa 64 64,
      if mustDefer s t then .go else need (relOk (ringAt s t g) (t.sb % 2 ^ 32)) 0x23 t.sa])
    fun s t =>
      let n := t.sb % 2 ^ 32
      if mustDefer s t then deferOp t 1 false
      else if !pathsDone s t.core 7 (t.covers s) then
        Prog.all [Prog.when_ (t.stage = 0) (await_ t 1 false 8), postOp 1 { t with stage := 1, checked := true }]
      else if t.drained s then
        Prog.all [Prog.when_ (t.stage = 0) (await_ t 1 false 8), postOp 1 { t with stage := 1, checked := true }]
      else if relOk (ringAt s t g) n then Prog.all [
        finish t 1 [],
        enginePutIn s (ctxOf s t.core) ⟨g, t.sa + 24⟩ false 4 (n + 1) fun _ => .done]
      else finish t 1 [.fault 0x23 (info t.sa) t.slot]
def execRrel (g : Bool) (s : State) : Host.Outcome State Fault Refusal := runOp (opRrel g) s

/-- The descriptor at b as TDMK reads it. -/
def tdmkDesc (s : State) (t : Trig) (g : Bool) : Nat := readPieces s (accessHomes s t.core pathS g false false t.sb 128)

/-- TDMK's checks (R357): its marker waits for the S stores before it. -/
def tdmkCheck (g : Bool) (s : State) (t : Trig) : Verdict :=
  let k := dFailing s (tdmkDesc s t g) (ctxDomain s t.core) (spadLimit s t.core)
  Verdict.all [
    fenceCheck s t.core pathS,
    ceAddr s t.core pathS g true t.sb 128 128, ceHead s t.core pathS g t.sb 128 128,
    if pathsDone s t.core 1 (s.core t.core).trigSeq then .go else .hold 10 22 0,
    need (k = 0) 0x22 (k + t.sb % 2 ^ 32 * 2 ^ 32)]

/-- The descriptor that TDMK seals: what its bundle read and validated, or, where no bundle has, what stands at b. -/
def tDesc (s : State) (g : Bool) (t : Trig) : Nat := if t.checked then t.head.toNat else tdmkDesc s t g

/-- TDMK (R263, R357). -/
def opTdmk (g : Bool) : Op :=
  opRun 22 (tdmkCheck g) fun s t => Prog.all [
    finish t 1 [],
    Prog.when_ (!t.checked) (queueMarker t pathS),
    writePieces (accessHomes s t.core pathS g true false (t.sb + 124) 4) (sealOf s (tDesc s g t)) (ctxId s t.core)
      (some (t.who s))]
def execTdmk (g : Bool) (s : State) : Host.Outcome State Fault Refusal := runOp (opTdmk g) s

/-- A block copied into the tail of an engine's queue (R305, R323, R358): 0 queued, 1 not queued. A block that cannot be read ends as a
failed job does, at its first column block: `status` is the offset of its STATUS and `counts` are those of the counts written back, with
their bytes (R310, R328). -/
def queueJob (s : State) (t : Trig) (g : Bool) (source inst die status : Nat) (counts : List (Nat × Nat)) (full : State → Bool) (put : Job → Prog) : Prog :=
  let x := ctxOf s t.core
  let own := match engineAccess s x ⟨g, t.sa + 6⟩ false true 1 with
    | .ok l => readPieces s l
    | .error _ => 0
  if full s then land t 60 (wide 1) []
  else match engineGet s x ⟨g, t.sa⟩ false 128 with
    | .error b => Prog.all [
        land t 60 0 [],
        enginePutIn s x ⟨g, t.sa + status⟩ false 1 b.code (fun _ => .done),
        Prog.each counts (fun p => enginePutIn s x ⟨g, t.sa + p.1⟩ false p.2 0 (fun _ => .done)),
        enginePutIn s x ⟨g, t.sa + 6⟩ false 1 (own / 2 * 2) (fun _ => .done),
        errorRecord (engineRecord s x source inst die t.sa b), engineError x b]
    | .ok v => Prog.all [land t 60 0 [], put ⟨⟨g, t.sa⟩, BitVec.ofNat 1024 v, x, t.seq⟩]

/-- XJOB (R305, R358); a lane of the other die is reached over the link (R414, R415). -/
def opXjob (g : Bool) : Op :=
  opRun 22 (fun s t => Verdict.all [
      fenceCheck s t.core 4, need (t.sb < 384) 0x03 t.sb, ceAddr s t.core 3 g false t.sa 128 128])
    fun s t =>
      if mustDefer s t then deferOp t 60 true
      else if linkDown s (dieOf t.core) (laneDie t.sb) then linkLost t.core t.sa
      else queueJob s t g 3 t.sb (laneDie t.sb) 37 [(28, 4), (88, 4)] (fun s => decide (8 ≤ (laneAt s t.sb).jobs.length)) fun j => Prog.all [
        setLane t.sb (fun l => { l with jobs := l.jobs ++ [j] }),
        postEv 1 2 (.xlaneJobStart (BitVec.ofNat 9 t.sb))]
def execXjob (g : Bool) (s : State) : Host.Outcome State Fault Refusal := runOp (opXjob g) s

/-- SEJOB (R323, R358); an engine of the other die is reached over the link (R414, R415). -/
def opSejob (g : Bool) : Op :=
  opRun 22 (fun s t => Verdict.all [
      fenceCheck s t.core 5, need (t.sb < 24) 0x03 t.sb, ceAddr s t.core 3 g false t.sa 128 128])
    fun s t =>
      if mustDefer s t then deferOp t 60 true
      else if linkDown s (dieOf t.core) (engineDie t.sb) then linkLost t.core t.sa
      else queueJob s t g 4 t.sb (engineDie t.sb) 44 [(68, 4)] (fun s => decide (8 ≤ (engineAt s t.sb).jobs.length)) fun j => Prog.all [
        setEngine t.sb (fun e => { e with jobs := e.jobs ++ [j] }),
        postEv 1 2 (.seJobStart (BitVec.ofNat 5 t.sb))]
def execSejob (g : Bool) (s : State) : Host.Outcome State Fault Refusal := runOp (opSejob g) s

/-- The stacks of an XTAB control word (R359). -/
def xtabStacks (t : Trig) : List Nat := (List.range 12).filter fun i => bit t.sb (8 + i) = 1

/-- A named stack's load queue holds 16 loads (R359). -/
def xtabFull (s : State) (t : Trig) : Bool := (xtabStacks t).any fun i => decide (16 ≤ (stackAt s i).loads.length)

/-- XTAB (R359): one load for each named stack; a stack of the other die is reached over the link (R414, R415). -/
def opXtab (g : Bool) : Op :=
  opRun 22 (fun s t => Verdict.all [
      fenceCheck s t.core 4,
      if xtabFull s t && !mustDefer s t then .hold 7 22 0 else .go,
      need (field t.sb 4 4 = 0 && !(xtabStacks t).isEmpty) 0x03 t.sb,
      need (bit t.sc 32 = 0 || ctrNamed s (handleIn t.sc)) 0x03 t.sc,
      ceAddr s t.core 3 g false t.sa 64 64,
      need (bit t.sc 32 = 0 || ctrAllowed s (handleIn t.sc) (ctxDomain s t.core)) 0x0B (handleIn t.sc)])
    fun s t =>
      if mustDefer s t then deferOp t 1 false
      else if (xtabStacks t).any fun i => linkDown s (dieOf t.core) (i / 6) then linkLost t.core t.sa
      else if xtabFull s t then
        Prog.all [Prog.when_ (t.stage = 0) (await_ t 1 false 7), postOp 1 { t with stage := 1, checked := true }]
      else
        let l : TableLoad := ⟨false, t.sb % 16, ⟨g, t.sa⟩, if bit t.sc 32 = 1 then some (handleIn t.sc) else none,
          ctxOf s t.core, t.seq⟩
        Prog.all [
          finish t 1 [],
          Prog.each (xtabStacks t) fun i => Prog.all [
            .eff (.stack i fun h => { h with loads := h.loads ++ [l] }),
            postEv 1 2 (.tableLoadApply (BitVec.ofNat 4 i))]]
def execXtab (g : Bool) (s : State) : Host.Outcome State Fault Refusal := runOp (opXtab g) s

end Sys2Proof.Machine
end

