-- ==== Sys2Proof/Machine/Fs.lean ====
section
/-! DEFINITION. Scalar FP32, unit FS (R69 to R72). -/

namespace Sys2Proof.Machine

/-- The canonical NaN (R69). -/
def nan32 : Nat := 0x7FC00000

/-- An operation of FS: its result and flags, rounded by FPSTAT.RM (R69, R70, R72). -/
def fsOp (bound : Nat) (f : Nat → Nat → Nat → Nat → Nat × FpFlags) : Op := opRun 8 always fun s t =>
  let r := f (s.core t.core).arch.fsRm t.sa t.sb t.sc
  land t bound (wide r.1) [.fpFlags r.2.bits]

/-- A result rounded once, or an invalid operation's NaN (R69). -/
def fsResult (rm : Nat) (invalid : Bool) (x : Num) : Nat × FpFlags :=
  if x.isNan then (nan32, { invalid := invalid })
  else
    let (v, g) := fsRound rm x
    (v, { g with invalid := invalid })

/-- The sum of two infinities of opposite signs (R69). -/
def infClash (x y : Num) : Bool :=
  match x, y with
  | .inf a, .inf b => a != b
  | _, _ => false

/-- A product of zero and an infinity (R69). -/
def zeroTimesInf (x y : Num) : Bool :=
  match x, y with
  | .inf _, .fin _ m _ => m = 0
  | .fin _ m _, .inf _ => m = 0
  | _, _ => false

/-- a + b (R70). -/
def fsAdd (rm : Nat) (x y : Num) : Nat × FpFlags :=
  fsResult rm (x.isSig || y.isSig || infClash x y) (Num.add (rm = 3) x y)

/-- a * b (R70). -/
def fsMul (rm : Nat) (x y : Num) : Nat × FpFlags :=
  fsResult rm (x.isSig || y.isSig || zeroTimesInf x y) (Num.mul x y)

/-- a * b + c rounded once (R70); 0 times an infinity is invalid whatever c (R69). -/
def fsFma (rm : Nat) (x y z : Num) : Nat × FpFlags :=
  let p := Num.mul x y
  fsResult rm (x.isSig || y.isSig || z.isSig || zeroTimesInf x y || infClash p z) (Num.add (rm = 3) p z)

/-- a / b (R70). -/
def fsDiv (rm : Nat) (x y : Num) : Nat × FpFlags :=
  let bothInf := match x, y with | .inf _, .inf _ => true | _, _ => false
  let finite := match x with | .fin _ m _ => decide (m ≠ 0) | _ => false
  let (v, g) := fsResult rm (x.isSig || y.isSig || (x.isZero && y.isZero) || bothInf) (Num.div x y)
  (v, { g with divZero := finite && y.isZero })

/-- The square root of b (R70). -/
def fsSqrt (rm : Nat) (x : Num) : Nat × FpFlags :=
  let bad := match x with | .inf n => n | .fin n m _ => n && decide (m ≠ 0) | .nan _ => false
  fsResult rm (x.isSig || bad) x.sqrt

/-- The smaller, or with `max_` the larger, of two operands by their codes; -0 lies below +0 (R70). -/
def fsPick (max_ : Bool) (a b : Nat) : Nat × FpFlags :=
  let x := f32 a
  let y := f32 b
  let below := x.lt y || (x.eq y && x.neg? && !y.neg?)
  let v := if x.isNan && y.isNan then nan32 else if x.isNan then b % 2 ^ 32 else if y.isNan then a % 2 ^ 32
    else if below != max_ then a % 2 ^ 32 else b % 2 ^ 32
  (v, { invalid := x.isSig || y.isSig })

/-- A comparison; FCLT and FCLE raise invalid on any NaN, FCEQ on a signalling one (R70). -/
def fsCompare (quiet : Bool) (r : Num → Num → Bool) (a b : Nat) : Nat × FpFlags :=
  let x := f32 a
  let y := f32 b
  ((r x y).toNat, { invalid := if quiet then x.isSig || y.isSig else x.isNan || y.isNan })

/-- FCLASS (R70). -/
def fsClass (b : Nat) : Nat :=
  let subnormal := decide (field b 23 8 = 0)
  2 ^ (match f32 b with
    | .inf n => if n then 0 else 7
    | .nan sig => if sig then 8 else 9
    | .fin n m _ =>
      if m = 0 then (if n then 3 else 4)
      else if n then (if subnormal then 2 else 1) else (if subnormal then 5 else 6))

/-- The integer of a type in the low bits of an operand (R71). -/
def intOperand (ty : ElemType) (b : Nat) : Int :=
  if tySigned ty then sint b (tyWidth ty) else ((b % 2 ^ tyWidth ty : Nat) : Int)

/-- FADD (R70). -/
def opFadd : Op := fsOp 4 fun rm a b _ => fsAdd rm (f32 a) (f32 b)
def execFadd (s : State) : Host.Outcome State Fault Refusal := runOp opFadd s
/-- FSUB (R70). -/
def opFsub : Op :=
  fsOp 4 fun rm a b _ => fsAdd rm (f32 a) (f32 b).negate
def execFsub (s : State) : Host.Outcome State Fault Refusal := runOp opFsub s
/-- FMUL (R70). -/
def opFmul : Op := fsOp 4 fun rm a b _ => fsMul rm (f32 a) (f32 b)
def execFmul (s : State) : Host.Outcome State Fault Refusal := runOp opFmul s
/-- FMA (R70). -/
def opFma : Op :=
  fsOp 4 fun rm a b c => fsFma rm (f32 a) (f32 b) (f32 c)
def execFma (s : State) : Host.Outcome State Fault Refusal := runOp opFma s
/-- FDIV (R70). -/
def opFdiv : Op := fsOp 12 fun rm a b _ => fsDiv rm (f32 a) (f32 b)
def execFdiv (s : State) : Host.Outcome State Fault Refusal := runOp opFdiv s
/-- FSQRT (R70). -/
def opFsqrt : Op := fsOp 12 fun rm _ b _ => fsSqrt rm (f32 b)
def execFsqrt (s : State) : Host.Outcome State Fault Refusal := runOp opFsqrt s
/-- FMIN (R70). -/
def opFmin : Op := fsOp 4 fun _ a b _ => fsPick false a b
def execFmin (s : State) : Host.Outcome State Fault Refusal := runOp opFmin s
/-- FMAX (R70). -/
def opFmax : Op := fsOp 4 fun _ a b _ => fsPick true a b
def execFmax (s : State) : Host.Outcome State Fault Refusal := runOp opFmax s
/-- FCEQ (R70). -/
def opFceq : Op := fsOp 4 fun _ a b _ => fsCompare true Num.eq a b
def execFceq (s : State) : Host.Outcome State Fault Refusal := runOp opFceq s
/-- FCLT (R70). -/
def opFclt : Op := fsOp 4 fun _ a b _ => fsCompare false Num.lt a b
def execFclt (s : State) : Host.Outcome State Fault Refusal := runOp opFclt s
/-- FCLE (R70). -/
def opFcle : Op :=
  fsOp 4 fun _ a b _ => fsCompare false (fun x y => x.lt y || x.eq y) a b
def execFcle (s : State) : Host.Outcome State Fault Refusal := runOp opFcle s

/-- FCVTIF (R71): the modifier's rounding; only inexact is raised. -/
def opFcvtif (ty : ElemType) (rm : BitVec 3) : Op :=
  fsOp 4 fun _ _ b _ =>
    let (v, g) := fsRound rm.toNat (Num.ofInt (intOperand ty b))
    (v, { inexact := g.inexact })
def execFcvtif (ty : ElemType) (rm : BitVec 3) (s : State) : Host.Outcome State Fault Refusal := runOp (opFcvtif ty rm) s

/-- FCVTFI (R71): saturates; a saturation raises invalid alone, and both events count in CONVCNT. -/
def opFcvtfi (ty : ElemType) (rm : BitVec 3) : Op :=
  opRun 8 always fun _ t =>
    let r := convertInt (tyWidth ty) (tySigned ty) rm.toNat 0 (f32 t.sb)
    let g : FpFlags := { invalid := decide (r.sat > 0), inexact := decide (r.sat = 0) && r.inexact }
    land t 4 (wide (enc (intOperand ty r.code) 64)) [.fpFlags g.bits, .conv r.sat r.flush 0]
def execFcvtfi (ty : ElemType) (rm : BitVec 3) (s : State) : Host.Outcome State Fault Refusal := runOp (opFcvtfi ty rm) s

/-- FCLASS (R70). -/
def opFclass : Op := fsOp 4 fun _ _ b _ => (fsClass b, {})
def execFclass (s : State) : Host.Outcome State Fault Refusal := runOp opFclass s

end Sys2Proof.Machine
end

