-- ==== Sys2Proof/Machine/Calendar.lean ====
section
/-! DEFINITION. The curry calendar as a function of package time (R331, R335). -/

namespace Sys2Proof.Machine

/-- Cycles of a frame (R331). -/
def frameCycles : Nat := 9728

/-- The slot that frame f starts: its length and kind (0 refresh, 1 long), if it has one; frames 0 to 2 have none (R331). -/
def frameSlot (f : Nat) : Option (Nat × Nat) :=
  if f < 3 then none
  else if f % 256 = 0 then some (25000, 1)
  else if f % 256 < 3 then none
  else some (960, 0)

/-- The first slot that starts after a package time: frame, start, length, kind (R89, R335). -/
def slotAfter (time : Nat) : Nat × Nat × Nat × Nat :=
  let f0 := time / frameCycles + 1
  match (List.range 4).find? (fun i => (frameSlot (f0 + i)).isSome) with
  | none => (f0 + 4, frameCycles * (f0 + 4), 960, 0)
  | some i => match frameSlot (f0 + i) with
    | none => (f0 + i, frameCycles * (f0 + i), 960, 0)
    | some (len, kind) => (f0 + i, frameCycles * (f0 + i), len, kind)

end Sys2Proof.Machine
end

