-- ==== Sys2Proof/Machine/Fabric.lean ====
section
/-! DEFINITION. The Latigo fabric: fragments (R419), the erasure code (R424), planes (R423, R429), and how flows end
(R427, R448). -/

namespace Sys2Proof.Machine

/-- A fragment header's fields (R419). `ring` and `comp` are RINGD and COMPR of R445: the header has no bits for them, a decode buffer
keeps them beside it (`marksOf`). -/
structure Hdr where
  type : Nat := 0
  srcNode : Nat := 0
  srcDie : Nat := 0
  dstNode : Nat := 0
  dstDie : Nat := 0
  flow : Nat := 0
  cls : Nat := 0
  ord : Bool := false
  retry : Bool := false
  busy : Bool := false
  seq : Nat := 0
  stripe : Nat := 0
  frag : Nat := 0
  k : Nat := 0
  m : Nat := 0
  last : Bool := false
  daddr : Nat := 0
  mlen : Nat := 0
  ctr : Nat := 0
  cinc : Nat := 0
  cscope : Nat := 0
  cen : Bool := false
  ring : Bool := false
  comp : Bool := false
  time : Nat := 0
  deriving DecidableEq, Repr

/-- Header bits 0 to 479 (R419); VER is 1. -/
def Hdr.bits (h : Hdr) : Nat :=
  h.type % 16 + 2 ^ 4 + h.srcNode % 2 ^ 15 * 2 ^ 8 + h.srcDie % 2 * 2 ^ 23 + h.dstNode % 2 ^ 15 * 2 ^ 24 +
  h.dstDie % 2 * 2 ^ 39 + h.flow % 2 ^ 10 * 2 ^ 40 + h.cls % 8 * 2 ^ 50 + h.ord.toNat * 2 ^ 53 + h.retry.toNat * 2 ^ 54 +
  h.busy.toNat * 2 ^ 55 + h.seq % 2 ^ 32 * 2 ^ 64 + h.stripe % 2 ^ 20 * 2 ^ 96 + h.frag % 16 * 2 ^ 116 +
  h.k % 16 * 2 ^ 120 + h.m % 8 * 2 ^ 124 + h.last.toNat * 2 ^ 127 + h.daddr % 2 ^ 48 * 2 ^ 128 +
  h.mlen % 2 ^ 32 * 2 ^ 192 + h.ctr % 2 ^ 32 * 2 ^ 224 + h.cinc % 2 ^ 64 * 2 ^ 256 + h.cscope % 8 * 2 ^ 320 +
  h.cen.toNat * 2 ^ 323 + h.time % 2 ^ 40 * 2 ^ 336

/-- The CRC of a fragment: over header bytes 0 to 59 and the 512 payload bytes (R419). -/
def fragCrc (head payload : Nat) : Nat := crc32c 572 (head % 2 ^ 480 + payload % 2 ^ 4096 * 2 ^ 480)

/-- A fragment from its header and payload (R419). -/
def fragOf (h : Hdr) (payload : Nat) : BitVec 4608 :=
  BitVec.ofNat 4608 (h.bits + fragCrc h.bits payload * 2 ^ 480 + payload % 2 ^ 4096 * 2 ^ 512)

/-- The fields of a header of 512 bits (R419, R446). DESIGN CHOICE: bits that R419 reserves are not looked at, and a fragment with some of
them set is taken as without them (R6; notes/assumptions/13.md). -/
def hdrAt (x : Nat) : Hdr where
  type := field x 0 4
  srcNode := field x 8 15
  srcDie := bit x 23
  dstNode := field x 24 15
  dstDie := bit x 39
  flow := field x 40 10
  cls := field x 50 3
  ord := bit x 53 = 1
  retry := bit x 54 = 1
  busy := bit x 55 = 1
  seq := field x 64 32
  stripe := field x 96 20
  frag := field x 116 4
  k := field x 120 4
  m := field x 124 3
  last := bit x 127 = 1
  daddr := field x 128 48
  mlen := field x 192 32
  ctr := field x 224 32
  cinc := field x 256 64
  cscope := field x 320 3
  cen := bit x 323 = 1
  time := field x 336 40

/-- A fragment's payload. -/
def payloadOf (x : BitVec 4608) : Nat := x.toNat / 2 ^ 512

/-- A fragment's CRC holds (R419). -/
def fragSound (x : BitVec 4608) : Bool := field x.toNat 480 32 = fragCrc x.toNat (payloadOf x)

/-- A plane counts as erased for sending: out of service, or retraining (R334, R423). -/
def planeErased (s : State) (p : Nat) : Bool := !(s.pkg.planeUp.getLsbD p) || s.pkg.erased = some p

/-- The next plane in service from p on (R425, R429). -/
def nextPlane (s : State) (p : Nat) : Option Nat :=
  ((List.range 16).map fun i => (p + i) % 16).find? fun q => !planeErased s q

/-- Cycles a fragment takes to its node in this model (notes/assumptions/2.md). -/
def fragTransit : Nat := 200

/-- The arrival of a fragment on a plane (R419). -/
def arrivalOf (plane : Nat) (type : Nat) (x : BitVec 4608) : Instr :=
  let p := BitVec.ofNat 4 plane
  match type with
  | 0 => .fragData p x
  | 1 => .fragAck p x
  | 2 => .fragNak p x
  | 3 => .fragContribution p x
  | 4 => .fragContribAck p x
  | 5 => .fragTimeSync p x
  | 6 => .fragReadRequest p x
  | 7 => .fragReadResponse p x
  | _ => .fragReservedType p x

/-- A fragment leaves on a plane: to the package itself it arrives after its transit, to another node it goes out
(notes/assumptions/13.md). -/
def sendFrag (plane : Nat) (h : Hdr) (payload : Nat) : Prog := .get fun s =>
  let h := { h with srcNode := s.pkg.nodeId, time := s.time }
  let x := fragOf h payload
  if h.dstNode = s.pkg.nodeId then postEv fragTransit 2 (arrivalOf plane h.type x) else .eff (.send plane x)

/-- The fragment is lost on arrival and counted: its CRC fails, or its plane is out of service (R419). -/
def fragLost (s : State) (plane : Nat) (x : BitVec 4608) : Bool := !fragSound x || !(s.pkg.planeUp.getLsbD plane)

/-- A fabric count sticks at 2^64 - 1 (R418). -/
def bump (n : Nat) : Nat := min (n + 1) (2 ^ 64 - 1)

/-- Multiplication by x in GF(2^8) with polynomial 0x11D (R424). -/
def gfTimesX (a : Nat) : Nat := if a < 128 then 2 * a else (2 * a) ^^^ 0x11D

/-- The product in GF(2^8) (R424). -/
def gfMul (a b : Nat) : Nat :=
  ((List.range 8).foldl (fun (p : Nat × Nat) i => (if bit b i = 1 then p.1 ^^^ p.2 else p.1, gfTimesX p.2)) (0, a)).1

/-- The inverse in GF(2^8): a^254 (R424). -/
def gfInv (a : Nat) : Nat := (List.range 253).foldl (fun p _ => gfMul p a) a

/-- The coefficient of data fragment j in parity fragment k + i (R424). -/
def codeCoef (k i j : Nat) : Nat := gfInv ((k + i) ^^^ j)

/-- A fragment's 512 bytes times a coefficient. -/
def gfScale (c x : Nat) : Nat := ofDigits 512 8 fun b => gfMul c (byteAt x b)

/-- Parity fragment k + i of data fragments (R424). -/
def parityOf (k i : Nat) (data : Nat → Nat) : Nat :=
  (List.range k).foldl (fun acc j => acc ^^^ gfScale (codeCoef k i j) (data j)) 0

/-- A row of linear equations over fragments: coefficients of the unknowns, and the known side. -/
abbrev GfRow := List Nat × Nat

/-- One column of an elimination: the row with a nonzero coefficient there, scaled, is subtracted from the others and moves to the
back. -/
def gfEliminate (rows : List GfRow) (c : Nat) : List GfRow :=
  match rows.find? (fun r => r.1.getD c 0 != 0) with
  | none => rows
  | some p =>
    let inv := gfInv (p.1.getD c 0)
    let p' : GfRow := (p.1.map (gfMul inv), gfScale inv p.2)
    (rows.erase p).map (fun r =>
      let f := r.1.getD c 0
      (r.1.zipWith (fun x y => x ^^^ gfMul f y) p'.1, r.2 ^^^ gfScale f p'.2)) ++ [p']

/-- The data fragments of a stripe from any k of its fragments (R424): those present, and the missing ones solved for from as many
parity fragments. -/
def recover (k : Nat) (frags : List (Nat × Nat)) : List Nat :=
  let have_ := fun (j : Nat) => (frags.find? fun p => p.1 = j).map (·.2)
  let missing := (List.range k).filter fun j => (have_ j).isNone
  if missing.isEmpty then (List.range k).map fun j => (have_ j).getD 0
  else
    let rows := ((frags.filter fun p => k ≤ p.1).take missing.length).map fun p =>
      let i := p.1 - k
      ((missing.map (codeCoef k i),
        (List.range k).foldl (fun acc j => match have_ j with
          | none => acc
          | some d => acc ^^^ gfScale (codeCoef k i j) d) p.2) : GfRow)
    let solved := ((List.range missing.length).foldl gfEliminate rows).map (·.2)
    (List.range k).map fun j => match have_ j with
      | some d => d
      | none => solved.getD (missing.idxOf j) 0

/-- A stripe's data bytes as a number. -/
def stripeData (k : Nat) (frags : List (Nat × Nat)) : Nat :=
  let l := recover k frags
  ofDigits k 4096 fun j => l.getD j 0

/-- The context that a die acts for where a region's flow or window is concerned (R443): its region and domain, no task. -/
def regionCtx (r : RegionRef) (dom die : Nat) : Ctx where
  id := 0
  launch := r.launch
  region := r.idx
  task := 0
  grp := 0
  x := 0
  y := 0
  ordinal := 0
  core := 128 * die
  domain := dom
  spadk := 0
  lockg := 0
  wdlim := 22
  key := 0
  det := false
  image := 0
  started := 0

/-- A region ends in class C for a fault of the fabric (R107, R427, R448): the record, then the end of its domain. -/
def fabricEnd (die : Nat) (x : Ctx) (code inf addr : Nat) : Prog := .get fun s => Prog.all [
  errorRecord { engineRecord s x 5 0 die addr ⟨code, inf, none⟩ with cls := 2 },
  domainEnd x.ref]

/-- INFO of an unrecoverable loss: the flow by source and id, and the stripe (R427). -/
def lossInfo (node die flow stripe : Nat) : Nat := flow % 2 ^ 10 + die % 2 * 2 ^ 10 + node % 2 ^ 15 * 2 ^ 11 + stripe * 2 ^ 32

/-- The send entry of a flow id. -/
def sendFlow (s : State) (d flow : Nat) : Option SendFlow := (s.die d).sends.find? fun f => f.flow = flow

/-- The receive entry of a flow. -/
def recvFlow (s : State) (d node die flow : Nat) : Option RecvFlow :=
  (s.die d).recvs.find? fun r => r.node = node && r.die = die && r.flow = flow

/-- Changes a receive entry. -/
def setRecv (d node die flow : Nat) (f : RecvFlow → RecvFlow) : Prog := .eff (.die d fun y => { y with
  recvs := y.recvs.map fun r => if r.node = node && r.die = die && r.flow = flow then f r else r })

/-- The buffers of a flow at its target: data and requests name it by their source. -/
def DecodeBuf.ofFlow (b : DecodeBuf) (node die flow : Nat) : Bool :=
  let h := hdrAt b.header.toNat
  h.type = 0 && h.srcNode = node && h.srcDie = die && h.flow = flow

/-- A die's send side of a flow goes: the entry, its messages and their stripes (R427, R448). -/
def closeSend (d flow : Nat) : Prog := .eff (.die d fun y =>
  let gone := (y.messages.filter fun m => m.kind != 7 && m.flow = flow).map (·.id)
  { y with
    sends := y.sends.filter fun f => f.flow ≠ flow
    messages := y.messages.filter fun m => !gone.contains m.id
    stripes := y.stripes.filter fun x => !gone.contains x.msg })

/-- A die's receive side of a flow goes: the entry, its buffers, and the answers it owes. -/
def closeRecv (d node die flow : Nat) : Prog := .eff (.die d fun y =>
  let gone := (y.messages.filter fun m => m.kind = 7 && m.flow = flow && m.rnode = node && m.rdie = die).map (·.id)
  { y with
    recvs := y.recvs.filter fun r => !(r.node = node && r.die = die && r.flow = flow)
    bufs := y.bufs.filter fun b => !b.ofFlow node die flow
    messages := y.messages.filter fun m => !gone.contains m.id
    stripes := y.stripes.filter fun x => !gone.contains x.msg })

/-- A flow fails (R427, R444, R448): its source region ends with one code, the region bound at its target with another, as far as
they are of this package, and the flow closes at both ends. -/
def flowDown (srcNode srcDie flow dstNode dstDie sendCode recvCode inf addr : Nat) : Prog := .get fun s => Prog.all [
  Prog.when_ (srcNode = s.pkg.nodeId) (match sendFlow s srcDie flow with
    | none => .done
    | some f => Prog.all [closeSend srcDie flow, fabricEnd srcDie (regionCtx f.region 0 srcDie) sendCode inf addr]),
  Prog.when_ (dstNode = s.pkg.nodeId) (match recvFlow s dstDie srcNode srcDie flow with
    | none => .done
    | some r => Prog.all [closeRecv dstDie srcNode srcDie flow,
        fabricEnd dstDie (regionCtx r.region r.domain dstDie) recvCode inf addr])]

/-- A message fails at its source (R448): the sending region takes the fault's code, the region at the target 0x1E. -/
def sourceFails (d : Nat) (m : Message) (code inf addr : Nat) : Prog := .get fun s =>
  flowDown s.pkg.nodeId d m.flow m.rnode m.rdie code 0x1E inf addr

/-- A message fails at its target (R448): the region bound there takes the fault's code, the sending region 0x1E. -/
def targetFails (h : Hdr) (code inf addr : Nat) : Prog :=
  flowDown h.srcNode h.srcDie h.flow h.dstNode h.dstDie 0x1E code inf addr

/-- A fragment whose port is the other die's cannot cross the link (R415): the flow that it serves is lost, at both its ends, as far as they
are of this package. Payload byte 0 of an ACK or a NAK says what it answers. A contribution stops at its port's die, where its root
switch is, and for an ACK of one its sender times out (R429). -/
def crossingLost (h : Hdr) (payload : Nat) : Prog :=
  let inf := fun (node die : Nat) => lossInfo node die h.flow h.stripe
  let fromHere := flowDown h.dstNode h.dstDie h.flow h.srcNode h.srcDie 0x1E 0x1E (inf h.dstNode h.dstDie) h.daddr
  let fromThere := flowDown h.srcNode h.srcDie h.flow h.dstNode h.dstDie 0x1E 0x1E (inf h.srcNode h.srcDie) (h.daddr + 512 * h.k * h.stripe)
  match h.type with
  | 0 | 6 => fromThere
  | 1 | 2 => if payload % 256 = 7 then fromThere else fromHere
  | 7 => fromHere
  | _ => .done

/-- An arriving fragment of this node goes on; a lost one is an erasure (R419); one for the die that does not drive its port needs the link
(R415, R419). -/
def received (plane : Nat) (x : BitVec 4608) (go : Hdr → Prog) : Prog := .get fun s =>
  let h := hdrAt x.toNat
  if fragLost s plane x then .eff (.die (plane / 8) fun d => { d with crcErr := bump d.crcErr })
  else if h.dstNode != s.pkg.nodeId then .done
  else if h.type != 3 && linkDown s (plane / 8) h.dstDie then crossingLost h (payloadOf x)
  else go h

/-- The next unused number of a die's fabric interface. -/
def takeId (d : Nat) : Prog := .eff (.die d fun y => { y with nextId := (y.nextId + 1) % 2 ^ 32 })

/-- Work of a region that the fabric has not brought to its end (R106). -/
def fabricBusy (s : State) (r : RegionRef) : Bool :=
  (List.range 256).any (fun c => (s.core c).fxQ.any fun q => decide (q.owner.ref = r)) ||
  s.dies.toList.any fun d => d.messages.any (fun m => m.kind != 7 && decide (m.owner.ref = r)) ||
    d.contributions.any fun m => decide (m.owner.ref = r)

/-- Flows and windows of a region close when it completes (R443, R450), and what is remembered of keys applied to those windows goes. -/
def closeRegion (r : RegionRef) : Prog := Prog.all [
  Prog.each [0, 1] (fun d => .eff (.die d fun y => { y with
    sends := y.sends.filter fun f => f.region ≠ r
    recvs := y.recvs.filter fun f => f.region ≠ r })),
  .eff (.pkg fun p =>
    let gone := (p.windows.filter fun w => w.region = r).map (·.id)
    { p with
      windows := p.windows.filter fun w => w.region ≠ r
      doneKeys := p.doneKeys.filter fun y => !gone.contains y.1 })]

end Sys2Proof.Machine
end

