-- ==== Sys2Proof/Machine/FabSend.lean ====
section
/-! DEFINITION. The sending side of the fabric: how a die shares its capacity (R421), stripes (R422, R423), retransmission (R425,
R427). -/

namespace Sys2Proof.Machine

/-- Message `id` of a die. -/
def messageOf (s : State) (d id : Nat) : Option Message := (s.die d).messages.find? fun m => m.id = id

/-- Changes a message. -/
def setMessage (d id : Nat) (f : Message → Message) : Prog :=
  .eff (.die d fun y => { y with messages := y.messages.map fun m => if m.id = id then f m else m })

/-- The code of the next stripe of a message (R422, R452): its own, its flow's, or its class register's. -/
def rateOf (s : State) (d : Nat) (m : Message) : Nat × Nat :=
  match m.rate with
  | some r => r
  | none => ((sendFlow s d m.flow).bind (·.code)).getD (nth s.pkg.fcrate m.cls (12, 4))

/-- ROT of a message's stripes: a flow's own, an answer's own (R423). -/
def rotOf (s : State) (d : Nat) (m : Message) : Nat :=
  if m.kind = 7 then m.rot else ((sendFlow s d m.flow).map (·.rot)).getD m.rot

/-- ROT advances by the fragments of a stripe sent (R423). -/
def advanceRot (d : Nat) (m : Message) (n : Nat) : Prog := Prog.all [
  setMessage d m.id (fun x => { x with rot := (x.rot + n) % 16 }),
  Prog.when_ (m.kind != 7) (.eff (.die d fun y => { y with
    sends := y.sends.map fun f => if f.flow = m.flow then { f with rot := (f.rot + n) % 16 } else f }))]

/-- Fragments of a stripe: a read request goes as one (notes/assumptions/13.md). -/
def fragCount (m : Message) (k p : Nat) : Nat := if m.kind = 6 then 1 else k + p

/-- More of a stripe's planes are erased than its code bears: the sender holds it (R423). -/
def stripeHeld (s : State) (d : Nat) (m : Message) (k p : Nat) : Bool :=
  let rot := rotOf s d m
  let lost := (List.range (fragCount m k p)).filter fun f => planeErased s ((rot + f) % 16)
  decide ((if m.kind = 6 then 0 else p) < lost.length)

/-- The header of the fragments of stripe t of a message (R419). -/
def stripeHdr (d : Nat) (m : Message) (t k p : Nat) (retry : Bool) : Hdr where
  type := m.kind
  srcDie := d
  dstNode := m.rnode
  dstDie := m.rdie
  flow := m.flow
  cls := m.cls
  ord := m.ord
  retry := retry
  seq := m.seq
  stripe := t
  k := k
  m := p
  last := m.kind = 6 || decide (m.len ≤ 512 * k * (t + 1))
  daddr := m.daddr
  mlen := m.len
  ctr := m.ctr
  cinc := m.cinc
  cscope := m.cscope
  cen := m.cen
  ring := m.ring
  comp := m.comp

/-- The payload of fragment f of stripe t: data, zero-padded, or parity (R423, R424). -/
def fragPayload (m : Message) (t k f : Nat) : Nat :=
  if m.kind = 6 then 0
  else
    let stripe := m.data / 2 ^ (4096 * k * t) % 2 ^ (4096 * k)
    if f < k then digit stripe 4096 f else parityOf k (f - k) (digit stripe 4096)

/-- A die-to-die transfer of the stripe needs a link that is out of service (R415, R419). -/
def linkNeeded (s : State) (d : Nat) (m : Message) (k p : Nat) : Bool :=
  linkDown s d (1 - d) && (List.range (fragCount m k p)).any fun f => (rotOf s d m + f) % 16 / 8 != d

/-- A stripe is sent on the planes not erased, and awaits its acknowledgement (R423, R427). -/
def sendStripe (d : Nat) (m : Message) (t k p : Nat) (retry : Bool) : Prog := .get fun s =>
  let rot := rotOf s d m
  let id := (s.die d).nextId
  Prog.all [
    takeId d,
    Prog.each ((List.range (fragCount m k p)).filter fun f => !planeErased s ((rot + f) % 16)) (fun f =>
      sendFrag ((rot + f) % 16) { stripeHdr d m t k p retry with frag := f } (fragPayload m t k f)),
    advanceRot d m (fragCount m k p),
    .eff (.die d fun y => { y with stripes := y.stripes ++ [⟨id, m.id, t, k, p, retry, false⟩] }),
    postEv (2 * s.pkg.strdl) 2 (.ackTimeout (BitVec.ofNat 1 d) (BitVec.ofNat 32 id))]

/-- The fabric interface of a die looks for a stripe to send. -/
def kickSend (d n : Nat) : Prog := Prog.all [
  .eff (.purge fun x => decide (x.what = .ev (.stripeSend (BitVec.ofNat 1 d)))),
  postEv n 2 (.stripeSend (BitVec.ofNat 1 d))]

/-- Every stripe of a message has been cut, sent and acknowledged (R420). -/
def Message.acked (m : Message) (y : Die) : Bool := m.whole && !y.stripes.any fun z => z.msg = m.id

/-- Two messages go in one stream of stripes: a flow's, or the answers to one flow (R423). -/
def Message.streams (m x : Message) : Bool :=
  x.flow = m.flow && (x.kind = 7) == (m.kind = 7) && (m.kind != 7 || (x.rnode = m.rnode && x.rdie = m.rdie))

/-- Messages whose next stripe is the first unsent one of its flow, or of its answers. -/
def nextMessages (l : List Message) : List Message :=
  l.filter fun m => !m.whole && !(l.takeWhile fun x => x.id ≠ m.id).any fun x => !x.whole && m.streams x

/-- A stripe that is to be sent again waits in a message's stream, and holds back what follows it (R423). -/
def streamHeld (s : State) (d : Nat) (m : Message) : Bool :=
  (s.die d).stripes.any fun z => z.wait && ((messageOf s d z.msg).map m.streams).getD false

/-- The weight of a region (R421). -/
def weightOf (s : State) (r : RegionRef) : Nat := ((regionOf s r).map (·.fshare)).getD 0

/-- How far a region has been served; a region that had nothing ready joins the least served (R421). -/
def passOf (l : List Share) (r : RegionRef) : Nat :=
  match l.find? (fun x => x.region = r) with
  | some x => x.pass
  | none => (l.map (·.pass)).foldl (fun acc p => match acc with | none => some p | some a => some (min a p)) none |>.getD 0

/-- The flow served last of a region. -/
def lastFlow (l : List Share) (r : RegionRef) : Nat := ((l.find? fun x => x.region = r).map (·.last)).getD 1023

/-- A region has been served once (R421): its pass advances by a stride that its weight divides. -/
def serveRegion (s : State) (r : RegionRef) (flow : Nat) (l : List Share) : List Share :=
  let w := weightOf s r
  ⟨r, passOf l r + (if w = 0 then 0 else 2 ^ 32 / w), flow⟩ :: l.filter fun x => x.region ≠ r

/-- It is a region's turn among those that have something ready (R421): none of them has been served less, and a region of weight 0 waits for
every other. -/
def regionTurn (s : State) (d : Nat) (regions : List RegionRef) (r : RegionRef) : Bool :=
  let l := (s.die d).shares
  regions.all fun q => weightOf s q = 0 || (weightOf s r != 0 && decide (passOf l r ≤ passOf l q))

/-- Among a region's ready messages the one whose flow comes next in increasing id after the flow served last (R421). -/
def flowTurn (s : State) (d : Nat) (ready : List Message) : Option Message :=
  let turn := fun (m : Message) => (m.flow + 1024 - (lastFlow (s.die d).shares m.owner.ref + 1) % 1024) % 1024
  ready.foldl (fun (b : Option Message) m => match b with
    | none => some m
    | some y => if turn m < turn y then some m else some y) none

/-- Weighted round robin among regions, increasing flow id within one (R421). -/
def pickMessage (s : State) (d : Nat) (regions : List RegionRef) (ready : List Message) : Option Message :=
  (ready.find? fun m => regionTurn s d regions m.owner.ref).bind fun x =>
    flowTurn s d (ready.filter fun m => decide (m.owner.ref = x.owner.ref))

/-- The stripes of a die that are to be sent again, in the order of their messages and in it by stripe. -/
def waitingStripes (y : Die) : List (SentStripe × Message) := y.messages.flatMap fun m =>
  ((y.stripes.filter fun x => x.wait && x.msg = m.id).insertionSort fun a b => a.stripe ≤ b.stripe).map fun x => (x, m)

/-- Of each stream the first stripe that is to be sent again, where its planes allow it: a held one holds back the later ones (R423). -/
def againStripes (s : State) (d : Nat) : List (SentStripe × Message) :=
  let l := waitingStripes (s.die d)
  l.filter fun p => !((l.takeWhile fun q => q.1.id ≠ p.1.id).any fun q => q.2.streams p.2) && !stripeHeld s d p.2 p.1.k p.1.m

/-- Messages whose next stripe may be cut now: its planes and the retransmit store have room for it, and nothing of its stream waits to be
sent again (R423, R427). -/
def readyMessages (s : State) (d : Nat) : List Message :=
  (nextMessages (s.die d).messages).filter fun m =>
    let (k, p) := rateOf s d m
    !stripeHeld s d m k p && !streamHeld s d m && decide ((s.die d).stripes.length < 4096)

/-- A FRED that could leave its queue as far as drain windows and planes go (R332, R429). -/
def fredReady (s : State) (q : FxOp) : Bool := q.op = 5 && !(q.glob && s.pkg.draining) && (nextPlane s 0).isSome

/-- The regions that have a stripe or a contribution ready on a die (R421). -/
def readyRegions (s : State) (d : Nat) : List RegionRef :=
  ((againStripes s d).map fun p => p.2.owner.ref) ++ (readyMessages s d).map (·.owner.ref) ++
  (List.range 128).flatMap fun l => ((s.core (128 * d + l)).fxQ.filter (fredReady s)).map (·.owner.ref)

/-- The shares of a die once it has served a region: regions with nothing ready leave the round (R421). -/
def served (s : State) (d : Nat) (r : RegionRef) (flow : Nat) : List Share :=
  serveRegion s r flow ((s.die d).shares.filter fun x => x.region = r || (readyRegions s d).contains x.region)

/-- Where byte 0 of a message goes: its DADDR; of an answer the address that its request named, which is free where the request is
another package's (notes/assumptions/13.md). -/
def landingOf (s : State) (m : Message) : Nat :=
  if m.kind != 7 then m.daddr
  else match (s.die m.rdie).messages.find? (fun x => m.rnode = s.pkg.nodeId && x.kind = 6 && x.flow = m.flow && x.seq = m.seq) with
    | some x => x.laddr.addr
    | none => (Config.freeVec s.fresh).toNat % 2 ^ 48

/-- A stripe of a message is lost, and its flow with it (R407, R415, R427); its target VA is ADDR. -/
def stripeLost (s : State) (d : Nat) (m : Message) (stripe k : Nat) : Prog :=
  let answer := m.kind = 7
  (Prog.eff (.fresh 1)).andThen <|
  flowDown (if answer then m.rnode else s.pkg.nodeId) (if answer then m.rdie else d) m.flow
    (if answer then s.pkg.nodeId else m.rnode) (if answer then d else m.rdie) 0x1E 0x1E
    (if answer then lossInfo m.rnode m.rdie m.flow stripe else lossInfo s.pkg.nodeId d m.flow stripe)
    (landingOf s m + 512 * k * stripe)

/-- STRIPE_SEND (R421, R423): of the stripes due again and the next stripes of messages the one whose turn it is, if no contribution's turn
comes first; a held one is looked at again in each cycle. -/
def stripeGo (d : Nat) : Prog := .get fun s =>
  let y := s.die d
  let again := againStripes s d
  match pickMessage s d (readyRegions s d) (again.map (·.2) ++ readyMessages s d) with
  | none => Prog.when_ (!(nextMessages y.messages).isEmpty || y.stripes.any (·.wait)) (kickSend d 1)
  | some m =>
    let serve := Prog.eff (.die d fun y => { y with shares := served s d m.owner.ref m.flow })
    match again.find? fun p => p.2.id = m.id with
    | some (x, m) =>
      if linkNeeded s d m x.k x.m then (stripeLost s d m x.stripe x.k).andThen (kickSend d 1)
      else Prog.all [
        .eff (.die d fun y => { y with stripes := y.stripes.filter fun z => z.id ≠ x.id }),
        serve,
        sendStripe d m x.stripe x.k x.m x.retry,
        kickSend d 16]
    | none =>
      let (k, p) := rateOf s d m
      if linkNeeded s d m k p then (stripeLost s d m m.cut k).andThen (kickSend d 1)
      else Prog.all [
        serve,
        sendStripe d m m.cut k p false,
        setMessage d m.id (fun x => { x with cut := x.cut + 1, whole := m.kind = 6 || decide (m.len ≤ 512 * k * (m.cut + 1)) }),
        kickSend d 16]

/-- A message is through: its flow's window moves on, and its region may be complete. -/
def messageDone (d : Nat) (m : Message) : Prog := Prog.all [
  .eff (.die d fun y => { y with messages := y.messages.filter fun x => x.id ≠ m.id }),
  workEnded m.owner]

/-- The local add of a message (R446, R447): a release covering F; a sum past 2^64 - 1 is a record. -/
def localAdd (d : Nat) (m : Message) (again : Instr) : Prog := .get fun s =>
  match m.lctr with
  | none => messageDone d m
  | some (h, inc) =>
    if ctrCut s d h then sourceFails d m 0x1E (lossInfo s.pkg.nodeId d m.flow 0) m.daddr
    else releaseAdd m.owner 7 d h inc (.get fun s => errorRecord (engineRecord s m.owner 5 0 d m.daddr ⟨0x18, h, none⟩))
      (messageDone d m) (postEv 8 2 again)

/-- The stripe of a die that an ACK or a NAK names: the message's kind stands in payload byte 0 (notes/assumptions/13.md). -/
def namedStripe (s : State) (h : Hdr) (kind : Nat) : Option (SentStripe × Message) :=
  (s.die h.dstDie).stripes.findSome? fun x => (messageOf s h.dstDie x.msg).bind fun m =>
    if m.kind = kind && m.flow = h.flow && m.seq = h.seq && m.rnode = h.srcNode && m.rdie = h.srcDie && x.stripe = h.stripe
      then some (x, m) else none

/-- FRAG_ACK (R427): the stripe leaves the retransmit store; a message of data or answer that is cut and acknowledged whole is
through, after its local add. -/
def ackArrives (plane : Nat) (x : BitVec 4608) : Prog := received plane x fun h => .get fun s =>
  let d := h.dstDie
  match namedStripe s h (payloadOf x % 256) with
  | none =>
    -- The add of a wholly acknowledged message waits for a logged decision.
    match (s.die d).messages.find? (fun m => m.kind = 0 && m.flow = h.flow && m.seq = h.seq && m.rnode = h.srcNode &&
        m.rdie = h.srcDie && m.acked (s.die d)) with
    | none => .done
    | some m => localAdd d m (.fragAck (BitVec.ofNat 4 plane) x)
  | some (st, m) => Prog.all [
      .eff (.die d fun y => { y with stripes := y.stripes.filter fun z => z.id ≠ st.id }),
      kickSend d 1,
      .get fun s =>
        if m.acked (s.die d) then
          (match m.kind with
          | 0 => localAdd d m (.fragAck (BitVec.ofNat 4 plane) x)
          | 7 => messageDone d m
          | _ => .done)
        else .done]

/-- A stripe fails (R427): it is sent once more with RETRY 1, or its flow is lost. -/
def stripeFails (d : Nat) (st : SentStripe) (m : Message) : Prog := .get fun s =>
  if !st.retry then Prog.all [
    .eff (.die d fun y => { y with
      retx := bump y.retx
      stripes := y.stripes.map fun z => if z.id = st.id then { z with retry := true, wait := true } else z }),
    kickSend d 1]
  else
    stripeLost s d m st.stripe st.k

/-- FRAG_NAK (R425, R427): a busy NAK of the present attempt sends it again later, another one is a failure. -/
def nakArrives (plane : Nat) (x : BitVec 4608) : Prog := received plane x fun h => .get fun s =>
  match namedStripe s h (payloadOf x % 256) with
  | none => .done
  | some (st, m) =>
    if st.retry != h.retry || st.wait then .done
    else if h.busy then postEv 2048 2 (.stripeBusyResend (BitVec.ofNat 1 h.dstDie) (BitVec.ofNat 32 st.id))
    else stripeFails h.dstDie st m

/-- STRIPE_BUSY_RESEND (R425): the stripe goes again whole, RETRY unchanged. -/
def busyResend (d id : Nat) : Prog := Prog.all [
  .eff (.die d fun y => { y with stripes := y.stripes.map fun z => if z.id = id then { z with wait := true } else z }),
  kickSend d 0]

/-- ACK_TIMEOUT (R427): no ACK within 2 STRDL of the last fragment. -/
def ackLate (d id : Nat) : Prog := .get fun s =>
  match (s.die d).stripes.find? (fun z => z.id = id && !z.wait) with
  | none => .done
  | some st => match messageOf s d st.msg with
    | none => .done
    | some m => stripeFails d st m

/-- STRIPE_SEND. -/
def execStripeSend (die : BitVec 1) (s : State) : Host.Outcome State Fault Refusal := ran (stripeGo die.toNat) s
/-- FRAG_ACK. -/
def execFragAck (plane : BitVec 4) (frag : BitVec 4608) (s : State) : Host.Outcome State Fault Refusal :=
  ran (ackArrives plane.toNat frag) s
/-- FRAG_NAK. -/
def execFragNak (plane : BitVec 4) (frag : BitVec 4608) (s : State) : Host.Outcome State Fault Refusal :=
  ran (nakArrives plane.toNat frag) s
/-- STRIPE_BUSY_RESEND. -/
def execStripeBusyResend (die : BitVec 1) (id : BitVec 32) (s : State) : Host.Outcome State Fault Refusal :=
  ran (busyResend die.toNat id.toNat) s
/-- ACK_TIMEOUT. -/
def execAckTimeout (die : BitVec 1) (id : BitVec 32) (s : State) : Host.Outcome State Fault Refusal :=
  ran (ackLate die.toNat id.toNat) s
/-- FRAG_RESERVED_TYPE (R419): the fragment is discarded, after the checks every fragment meets. -/
def execFragReservedType (plane : BitVec 4) (frag : BitVec 4608) (s : State) : Host.Outcome State Fault Refusal :=
  ran (received plane.toNat frag fun _ => .done) s

end Sys2Proof.Machine
end

