-- ==== Sys2Proof/Machine/FabRecv.lean ====
section
/-! DEFINITION. The receiving side of the fabric: decode buffers (R425, R427), delivery (R426, R282, R446), reads and their
answers (R447). -/

namespace Sys2Proof.Machine

/-- A message lies below the window of its flow: it has been delivered (R426). -/
def belowWindow (r : RecvFlow) (seq : Nat) : Bool := decide (64 ≤ (seq + 2 ^ 32 - r.low) % 2 ^ 32)

/-- A fragment is discarded and counted in LATE (R426). -/
def lateFrag (d : Nat) : Prog := .eff (.die d fun y => { y with late := bump y.late })

/-- The answer to a fragment, an ACK or a NAK, on a plane (R425); payload byte 0 says what it answers (notes/assumptions/13.md). -/
def answerOn (plane : Nat) (h : Hdr) (type : Nat) (busy : Bool) : Prog :=
  sendFrag plane
    { h with type := type, srcDie := h.dstDie, dstNode := h.srcNode, dstDie := h.srcDie, busy := busy, frag := 0 } h.type

/-- ROT of a fragment's stripe: its plane less its index (R423). -/
def rotOfFrag (plane : Nat) (h : Hdr) : Nat := (plane + 16 - h.frag) % 16

/-- An ACK on planes ROT and ROT + 8, or the next ones in service (R425). -/
def ackStripe (plane : Nat) (h : Hdr) : Prog := .get fun s =>
  let rot := rotOfFrag plane h
  Prog.each [rot, (rot + 8) % 16] fun p => match nextPlane s p with
    | none => .done
    | some q => answerOn q h 1 false

/-- A NAK on plane ROT, or the next one in service. -/
def nakStripe (plane : Nat) (h : Hdr) (busy : Bool) : Prog := .get fun s =>
  match nextPlane s (rotOfFrag plane h) with
  | none => .done
  | some q => answerOn q h 2 busy

/-- Two headers are of one stripe. -/
def Hdr.sameStripe (h g : Hdr) : Bool :=
  h.type = g.type && h.srcNode = g.srcNode && h.srcDie = g.srcDie && h.flow = g.flow && h.seq = g.seq && h.stripe = g.stripe

/-- The header a buffer keeps, with RINGD and COMPR of its message. -/
def DecodeBuf.hdr (b : DecodeBuf) : Hdr := { hdrAt b.header.toNat with
  ring := b.ring
  comp := b.comp }

/-- RINGD and COMPR of the message that a fragment of data belongs to (R446): as its sender holds them where that is a die of this package,
free where it is another package, since no header bit carries them (notes/assumptions/13.md). -/
def marksOf (s : State) (h : Hdr) : Bool × Bool :=
  if h.type != 0 then (false, false)
  else if h.srcNode = s.pkg.nodeId then
    (((s.die h.srcDie).messages.find? fun m =>
      m.kind = 0 && m.flow = h.flow && m.seq = h.seq && m.rnode = h.dstNode && m.rdie = h.dstDie).map fun m => (m.ring, m.comp)).getD
        (false, false)
  else Config.remoteMarks h.srcNode h.srcDie h.flow h.seq

/-- The read request that an answer belongs to (R447). -/
def requestOf (s : State) (d : Nat) (h : Hdr) : Option Message :=
  (s.die d).messages.find? fun m =>
    m.kind = 6 && m.flow = h.flow && m.seq = h.seq && m.rnode = h.srcNode && m.rdie = h.srcDie

/-- A stripe has been delivered, of a message in or below the window, or of a request's answer (R426). -/
def stripeDelivered (s : State) (h : Hdr) : Bool :=
  if h.type = 7 then
    match requestOf s h.dstDie h with
    | none => true
    | some m => m.got.contains h.stripe
  else match recvFlow s h.dstDie h.srcNode h.srcDie h.flow with
    | none => false
    | some r => belowWindow r h.seq || r.done.contains h.seq || r.delivered.contains (h.seq, h.stripe)

/-- A stripe of the oldest undelivered message of its flow, or of the answer to the oldest request of its flow (R425). -/
def oldestMessage (s : State) (h : Hdr) : Bool :=
  if h.type = 7 then
    (((s.die h.dstDie).messages.find? fun m =>
      m.kind = 6 && m.flow = h.flow && m.rnode = h.srcNode && m.rdie = h.srcDie).map fun m => decide (m.seq = h.seq)).getD false
  else ((recvFlow s h.dstDie h.srcNode h.srcDie h.flow).map fun r => decide (r.low = h.seq)).getD false

/-- The die looks for a stripe to deliver. -/
def kickDeliver (d n : Nat) : Prog := Prog.all [
  .eff (.purge fun x => decide (x.what = .ev (.stripeDeliver (BitVec.ofNat 1 d)))),
  postEv n 2 (.stripeDeliver (BitVec.ofNat 1 d))]

/-- A fragment of an attempt that has a buffer (R425): with k distinct ones the stripe is decoded, acknowledged and to be
delivered. -/
def addFragment (plane : Nat) (h : Hdr) (x : BitVec 4608) (b : DecodeBuf) : Prog :=
  if b.frags.any (fun p => p.1 = h.frag) then .done
  else
    let frags := b.frags ++ [(h.frag, BitVec.ofNat 4096 (payloadOf x))]
    let whole := decide (h.k ≤ frags.length)
    Prog.all [
      .eff (.die h.dstDie fun y => { y with
        bufs := y.bufs.map fun z => if z.id = b.id then { z with frags := frags, decoded := whole } else z }),
      Prog.when_ whole (Prog.all [ackStripe plane h, kickDeliver h.dstDie 1])]

/-- A fragment of data or of an answer (R425 to R427, R444). -/
def dataArrives (plane : Nat) (x : BitVec 4608) : Prog := received plane x fun h => .get fun s =>
  let d := h.dstDie
  let y := s.die d
  if h.type != 7 && (recvFlow s d h.srcNode h.srcDie h.flow).isNone then nakStripe plane h false
  else if stripeDelivered s h then
    (lateFrag d).andThen (Prog.when_ h.retry (ackStripe plane h))
  else if y.bufs.any (fun b => b.hdr.sameStripe h && (b.decoded || (b.hdr.retry && !h.retry))) then lateFrag d
  else match y.bufs.find? (fun b => b.hdr.sameStripe h && b.hdr.retry == h.retry) with
    | some b => addFragment plane h x b
    | none =>
      let free := 2048 - y.bufs.length
      if free = 0 || (free ≤ 16 && !oldestMessage s h) then Prog.all [
        .eff (.die d fun y => { y with noBuf := bump y.noBuf }),
        nakStripe plane h true]
      else
        let marks := marksOf s h
        let b : DecodeBuf := ⟨y.nextId, BitVec.ofNat 512 (x.toNat % 2 ^ 512), [], false, marks.1, marks.2⟩
        Prog.all [
          takeId d,
          .eff (.die d fun y => { y with bufs := y.bufs.filter (fun z => !z.hdr.sameStripe h) ++ [b] }),
          postEv s.pkg.strdl 2 (.stripeDeadline (BitVec.ofNat 1 d) (BitVec.ofNat 32 b.id)),
          addFragment plane h x b]

/-- The second failure of a stripe that another package sends, as its target sees it (R427): the region bound here ends with 0x1E and the
flow closes here; of an answer, the region that asked, with its local address as ADDR. -/
def attemptLost (d : Nat) (h : Hdr) : Prog := .get fun s =>
  let off := 512 * h.k * h.stripe
  if h.type = 7 then
    flowDown s.pkg.nodeId d h.flow h.srcNode h.srcDie 0x1E 0x1E (lossInfo s.pkg.nodeId d h.flow h.stripe)
      (((requestOf s d h).map (·.laddr.addr)).getD 0 + off)
  else targetFails h 0x1E (lossInfo h.srcNode h.srcDie h.flow h.stripe) (h.daddr + off)

/-- STRIPE_DEADLINE (R427): an attempt with too few fragments is given up with a NAK; where it was the resent one of another package, it
has failed twice, which the sender's own package finds from the NAK. -/
def deadline (d id : Nat) : Prog := .get fun s =>
  match (s.die d).bufs.find? (fun b => b.id = id && !b.decoded) with
  | none => .done
  | some b => Prog.all [
      .eff (.die d fun y => { y with bufs := y.bufs.filter (fun z => z.id ≠ id), nak := bump y.nak }),
      nakStripe 0 { b.hdr with frag := 0 } false,
      Prog.when_ (b.hdr.retry && b.hdr.srcNode != s.pkg.nodeId) (attemptLost d b.hdr)]

/-- Where the bytes of a message go at its target: its address, or a slot of the ring it names (R446). -/
inductive Aim where
  | at_ (a : EAddr)
  | wait
  | fails (b : Bad)

/-- The aim of a message and, where it claims its slot now, the claim (R302, R446). -/
def aimOf (s : State) (r : RecvFlow) (x : Ctx) (h : Hdr) : Aim × Prog :=
  if !h.ring then (.at_ ⟨true, h.daddr⟩, .done)
  else
    let ring : EAddr := ⟨true, h.daddr⟩
    match engineGet s x ring false 64 with
    | .error b => (.fails b, .done)
    | .ok o =>
      match assoc r.slot h.seq with
      | some n => (.at_ (slotAddr o n), .done)
      | none => match claimSlot s x ring with
        | .error b => (.fails b, .done)
        | .ok none => (.wait, .done)
        | .ok (some (n, o, eff)) =>
          if !h.comp && decide (rSlotSz o < h.mlen) then (.fails ⟨0x23, h.daddr, none⟩, .done)
          else (.at_ (slotAddr o n), eff.andThen (setRecv h.dstDie h.srcNode h.srcDie h.flow fun r =>
            { r with slot := (h.seq, n) :: r.slot }))

/-- FCADD's message names no bytes (R449). -/
def noBytes (h : Hdr) : Bool := h.daddr = 2 ^ 48 - 1

/-- The stored bytes of a compressed message, gathered from its stripes. -/
def storedBytes (r : RecvFlow) (seq : Nat) : Nat :=
  r.comp.foldl (fun acc p => if p.1 = seq then acc + p.2.2.2 * 2 ^ (8 * p.2.1) else acc) 0

/-- The bytes a compressed message writes: the stream expanded at point 1 (R318, R446). -/
def expandedMessage (r : RecvFlow) (h : Hdr) : Except Nat (Nat × Nat) :=
  let v := storedBytes r h.seq
  expandStream none 1 (2 ^ 48) h.mlen (fun off n => v / 2 ^ (8 * off) % 2 ^ (8 * n)) (h.mlen + 1) 0 0 0

/-- The window moves over delivered messages, whose notes go (R426). -/
def slideWindow : Nat → RecvFlow → RecvFlow
  | 0, r => r
  | fuel + 1, r =>
    if r.done.contains r.low then
      slideWindow fuel { r with
        done := r.done.filter (· ≠ r.low)
        delivered := r.delivered.filter fun p => p.1 ≠ r.low
        lastStripe := r.lastStripe.filter fun p => p.1 ≠ r.low
        slot := r.slot.filter fun p => p.1 ≠ r.low
        comp := r.comp.filter fun p => p.1 ≠ r.low
        low := (r.low + 1) % 2 ^ 32 }
    else r

/-- A message is delivered (R426, R282): its last buffer is freed, the window moves on, and a waiting stripe may follow. -/
def messageDelivered (h : Hdr) : Prog := Prog.all [
  .eff (.die h.dstDie fun y => { y with bufs := y.bufs.filter fun z => !z.hdr.sameStripe h }),
  setRecv h.dstDie h.srcNode h.srcDie h.flow (fun r => slideWindow 64 { r with
    done := h.seq :: r.done
    admitted := if r.admitted = some h.seq then none else r.admitted }),
  kickDeliver h.dstDie 1]

/-- What ends a message at its target: its expanded bytes, its slot's publication, its remote add (R282, R446, R449), and its place in
the window. The last stripe's buffer stays until the add has been made. -/
def finishMessage (r : RecvFlow) (x : Ctx) (h : Hdr) (again : Prog) : Prog := .get fun s =>
  let d := h.dstDie
  let bytes : Except Nat (Nat × Nat) := if h.comp then expandedMessage r h else .ok (0, 0)
  match bytes, aimOf s r x h with
  | .error c, _ => targetFails h c h.daddr h.daddr
  | .ok (v, n), (.at_ a, _) =>
    let misused := h.ring && (match engineGet s x ⟨true, h.daddr⟩ false 64 with
      | .ok o => ringBad o || h.comp && decide (rSlotSz o < n)
      | .error _ => false)
    match (if h.comp && n != 0 then engineAccess s x a true false n else .ok []) with
    | .error c => targetFails h c a.addr a.addr
    | .ok l =>
      if (l.any fun p => homeCut s d p.1) || h.cen && ctrCut s d h.ctr then targetFails h 0x1E 0 a.addr
      else if misused then targetFails h 0x23 h.daddr h.daddr
      else
        let put := (writePieces l v 0 none).andThen (match assoc r.slot h.seq with
          | some slot =>
            if h.ring then publishSlot id x ⟨true, h.daddr⟩ slot (fun b => targetFails h b.code b.info h.daddr) (messageDelivered h)
            else messageDelivered h
          | none => messageDelivered h)
        if !h.cen then put
        else if !ctrNamed s h.ctr || !ctrAllowed s h.ctr r.domain then targetFails h 0x0B h.ctr h.daddr
        else releaseAdd x 7 d h.ctr h.cinc
          (.get fun s => errorRecord (engineRecord s x 5 0 d h.daddr ⟨0x18, h.ctr, none⟩))
          put again
  | .ok _, _ => again

/-- Stripe number of the last stripe, where it is known. -/
def RecvFlow.lastOf (r : RecvFlow) (seq : Nat) : Option Nat := assoc r.lastStripe seq

/-- The stripes of a message have all been written once stripe `t` has. -/
def allWritten (r : RecvFlow) (h : Hdr) : Bool :=
  match (if h.last then some h.stripe else r.lastOf h.seq) with
  | none => false
  | some n => (List.range (n + 1)).all fun t => t = h.stripe || r.delivered.contains (h.seq, t)

/-- The buffer of a stripe is freed. -/
def freeBuf (d id : Nat) : Prog := .eff (.die d fun y => { y with bufs := y.bufs.filter fun z => z.id ≠ id })

/-- A decoded stripe of data is written (R426, R446). -/
def writeStripe (b : DecodeBuf) (r : RecvFlow) (h : Hdr) : Prog := .get fun s =>
  let d := h.dstDie
  let x := regionCtx r.region r.domain d
  let off := 512 * h.k * h.stripe
  let n := min (512 * h.k) (h.mlen - off)
  let v := stripeData h.k (b.frags.map fun p => (p.1, p.2.toNat)) % 2 ^ (8 * n)
  let again := kickDeliver d 16
  match aimOf s r x h with
  | (.fails e, _) => targetFails h e.code e.info h.daddr
  | (.wait, _) => again
  | (.at_ a, claim) =>
    match (if noBytes h || h.comp || n = 0 then .ok [] else engineAccess s x (a.plus off) true false n) with
    | .error c => targetFails h c (a.addr + off) (a.addr + off)
    | .ok l => if l.any fun p => homeCut s d p.1 then targetFails h 0x1E 0 (a.addr + off) else
      let note := setRecv d h.srcNode h.srcDie h.flow fun r => { r with
        delivered := (h.seq, h.stripe) :: r.delivered.filter (· ≠ (h.seq, h.stripe))
        lastStripe := if h.last then assocSet r.lastStripe h.seq h.stripe else r.lastStripe
        comp := if h.comp then (h.seq, off, n, v) :: r.comp.filter (fun p => !(p.1 = h.seq && p.2.1 = off)) else r.comp }
      Prog.all [
        claim,
        Prog.when_ (!r.delivered.contains (h.seq, h.stripe)) (writePieces l v 0 none),
        note,
        if allWritten r h then
          .get fun s => match recvFlow s d h.srcNode h.srcDie h.flow with
            | none => .done
            | some r => finishMessage r x h again
        else Prog.all [freeBuf d b.id, kickDeliver d 1]]

/-- A decoded stripe of an answer lands at LADDR (R447, R448); with the last one the local add follows. -/
def landStripe (b : DecodeBuf) (m : Message) (h : Hdr) : Prog := .get fun s =>
  let d := h.dstDie
  let off := 512 * h.k * h.stripe
  let n := min (512 * h.k) (m.len - off)
  let v := stripeData h.k (b.frags.map fun p => (p.1, p.2.toNat)) % 2 ^ (8 * n)
  match (if n = 0 then .ok [] else engineAccess s m.owner (m.laddr.plus off) true false n) with
  | .error c => (freeBuf d b.id).andThen (sourceFails d m c (m.laddr.addr + off) (m.laddr.addr + off))
  | .ok l =>
    if (l.any fun p => homeCut s d p.1) || (m.lctr.map fun p => ctrCut s d p.1).getD false then
      (freeBuf d b.id).andThen (sourceFails d m 0x1E (lossInfo s.pkg.nodeId d m.flow h.stripe) m.laddr.addr)
    else
    let last := if h.last then some h.stripe else m.last
    let got := h.stripe :: m.got.filter (· ≠ h.stripe)
    let done := (last.map fun n => (List.range (n + 1)).all got.contains).getD false
    Prog.all [
      Prog.when_ (!m.got.contains h.stripe) (writePieces l v m.owner.id (some (m.owner.who m.oseq))),
      setMessage d m.id (fun x => { x with got := got, last := last }),
      if done then
        (match m.lctr with
        | none => (freeBuf d b.id).andThen (messageDone d m)
        | some (c, inc) => releaseAdd m.owner 7 d c inc
            (.get fun s => errorRecord (engineRecord s m.owner 5 0 d m.laddr.addr ⟨0x18, c, none⟩))
            ((freeBuf d b.id).andThen (messageDone d m)) (kickDeliver d 16))
      else freeBuf d b.id,
      kickDeliver d 1]

/-- A decoded stripe may be written now (R426): an answer, a stripe of an unordered flow, or one of the oldest message. Under record
and replay an unordered flow lets one message in at a time (R282, R287). -/
def mayDeliver (s : State) (d : Nat) (b : DecodeBuf) : Bool :=
  let h := b.hdr
  b.decoded &&
  if h.type = 7 then true
  else match recvFlow s d h.srcNode h.srcDie h.flow with
    | none => true
    | some r =>
      if h.ord then r.low = h.seq
      else rrMode s (regionCtx r.region r.domain d) = 0 || r.admitted = none || r.admitted = some h.seq

/-- A stripe waits for room in the ring that its message names. -/
def ringWaits (s : State) (d : Nat) (b : DecodeBuf) : Bool :=
  let h := b.hdr
  match recvFlow s d h.srcNode h.srcDie h.flow with
  | none => false
  | some r => h.type != 7 && (match aimOf s r (regionCtx r.region r.domain d) h with | (.wait, _) => true | _ => false)

/-- The object of a delivery decision: the receive flow as R427 names it (R434). -/
def flowObject (h : Hdr) : Nat := lossInfo h.srcNode h.srcDie h.flow 0

/-- The ruling lets a message in. -/
def admits (s : State) (d : Nat) (b : DecodeBuf) : Bool :=
  let h := b.hdr
  match recvFlow s d h.srcNode h.srcDie h.flow with
  | none => true
  | some r => h.ord || h.type = 7 || r.admitted.isSome ||
      match ruling s (regionCtx r.region r.domain d) d 2 (flowObject h) h.seq true with
      | .wait _ => false
      | _ => true

/-- A stripe that a drain window or slot holds back (R332): FCADD's names no bytes, and what goes to a core's own memory is local. -/
def stripeDrained (s : State) (d : Nat) (b : DecodeBuf) : Bool :=
  let h := b.hdr
  s.pkg.draining && (if h.type = 7 then ((requestOf s d h).map (·.laddr.glob)).getD false else !noBytes h)

/-- STRIPE_DELIVER (R426): a stripe that may be written is; an unordered message's turn is a decision (R287). -/
def deliverNext (d : Nat) : Prog := .get fun s =>
  let able := (s.die d).bufs.filter fun b => mayDeliver s d b
  let free := able.filter fun b => !stripeDrained s d b && !ringWaits s d b
  match (free.find? (admits s d)).orElse fun _ => free.head? with
  | none => Prog.when_ (!able.isEmpty) (kickDeliver d 16)
  | some b =>
    let h := b.hdr
    if h.type = 7 then
      match requestOf s d h with
      | none => freeBuf d b.id
      | some m => landStripe b m h
    else match recvFlow s d h.srcNode h.srcDie h.flow with
      | none => freeBuf d b.id
      | some r =>
        let x := regionCtx r.region r.domain d
        if h.ord || rrMode s x = 0 || r.admitted.isSome then writeStripe b r h
        else decision x d 2 (flowObject h) h.seq true false
          (Prog.all [
            setRecv d h.srcNode h.srcDie h.flow (fun r => { r with admitted := some h.seq }),
            kickDeliver d 0])
          (kickDeliver d 16)

/-- FRAG_READ_REQUEST (R447): the target reads under the receive entry's region and answers with read-response stripes. -/
def requestArrives (plane : Nat) (x : BitVec 4608) : Prog := received plane x fun h => .get fun s =>
  let d := h.dstDie
  let again := postEv 16 2 (.fragReadRequest (BitVec.ofNat 4 plane) x)
  match recvFlow s d h.srcNode h.srcDie h.flow with
  | none => nakStripe plane h false
  | some r =>
    if belowWindow r h.seq || r.done.contains h.seq then (lateFrag d).andThen (Prog.when_ h.retry (ackStripe plane h))
    else if s.pkg.draining || (h.ord && r.low != h.seq) then again
    else
      let c := regionCtx r.region r.domain d
      match engineGet s c ⟨true, h.daddr⟩ false h.mlen with
      | .error b => Prog.all [targetFails h b.code b.info h.daddr, engineError (regionCtx r.region r.domain d) b]
      | .ok v =>
        let m : Message :=
          { id := (s.die d).nextId, flow := h.flow, seq := h.seq, kind := 7, owner := c, oseq := 0, data := v, len := h.mlen,
            laddr := ⟨true, 0⟩, daddr := h.daddr, ctr := 0, cinc := 0, cscope := 0, cen := false, ring := false, comp := false,
            rnode := h.srcNode, rdie := h.srcDie, cls := h.cls, ord := h.ord, rate := some (h.k, h.m), rot := 0, cut := 0,
            whole := false, lctr := none, got := [], last := none }
        Prog.all [
          takeId d,
          ackStripe plane h,
          .eff (.die d fun y => { y with messages := y.messages ++ [m] }),
          messageDelivered h,
          kickSend d 1]

/-- FRAG_DATA. -/
def execFragData (plane : BitVec 4) (frag : BitVec 4608) (s : State) : Host.Outcome State Fault Refusal :=
  ran (dataArrives plane.toNat frag) s
/-- FRAG_READ_RESPONSE (R447): its fragments are gathered as those of data are. -/
def execFragReadResponse (plane : BitVec 4) (frag : BitVec 4608) (s : State) : Host.Outcome State Fault Refusal :=
  ran (dataArrives plane.toNat frag) s
/-- STRIPE_DELIVER. -/
def execStripeDeliver (die : BitVec 1) (s : State) : Host.Outcome State Fault Refusal :=
  ran (deliverNext die.toNat) s
/-- STRIPE_DEADLINE. -/
def execStripeDeadline (die : BitVec 1) (id : BitVec 32) (s : State) : Host.Outcome State Fault Refusal :=
  ran (deadline die.toNat id.toNat) s
/-- FRAG_READ_REQUEST. -/
def execFragReadRequest (plane : BitVec 4) (frag : BitVec 4608) (s : State) : Host.Outcome State Fault Refusal :=
  ran (requestArrives plane.toNat frag) s

end Sys2Proof.Machine
end

