-- ==== Sys2Proof/Machine/Window.lean ====
section
/-! DEFINITION. Reduction windows (R428 to R431): contributions at their source, at the root switch and at the home. -/

namespace Sys2Proof.Machine

/-- Window id of the package. -/
def windowOf (s : State) (id : Nat) : Option Window := s.pkg.windows.find? fun w => w.id = id

/-- Fields of a contribution's header (R419, R451): contributor id, count, value type, operation. -/
def Hdr.contrib (h : Hdr) : Nat := field h.daddr 0 12

/-- See Hdr.contrib. -/
def Hdr.count (h : Hdr) : Nat := field h.daddr 12 12 + 1

/-- See Hdr.contrib. -/
def Hdr.vtype (h : Hdr) : Nat := field h.daddr 24 2

/-- See Hdr.contrib. -/
def Hdr.op (h : Hdr) : Nat := field h.daddr 26 2

/-- A block of values as 128 cells of 32 bits: BF16 values are widened exactly to FP32 (R429). -/
def cellValues (vtype payload : Nat) : BitVec 4096 :=
  if vtype = 2 then BitVec.ofNat 4096 (ofDigits 128 32 fun i => digit payload 16 i * 2 ^ 16) else BitVec.ofNat 4096 payload

/-- One cell folded (R430): the sum rounded once, or modulo 2^32; or VMAX or VMIN of R164. -/
def foldCell (w : Window) (a b : Nat) : Nat :=
  match w.op with
  | 0 => if w.isInt then (a + b) % 2 ^ 32 else addFloat .f32 a b
  | 1 => pickElem (if w.isInt then .i32 else .f32) true a b
  | _ => pickElem (if w.isInt then .i32 else .f32) false a b

/-- Two blocks folded, cell by cell (R430). -/
def foldBlock (w : Window) (a b : BitVec 4096) : BitVec 4096 :=
  BitVec.ofNat 4096 (ofDigits 128 32 fun i => foldCell w (digit a.toNat 32 i) (digit b.toNat 32 i))

/-- Blocks folded in a given order; nothing folds to zero. -/
def foldInOrder (w : Window) : List (BitVec 4096) → BitVec 4096
  | [] => 0
  | x :: r => r.foldl (foldBlock w) x

/-- Blocks folded in any order and grouping (R430): free values pick which two meet next. -/
def foldFreely (w : Window) : Nat → Nat → List (BitVec 4096) → BitVec 4096
  | 0, _, l => foldInOrder w l
  | fuel + 1, free, l =>
    match l with
    | [] => 0
    | [x] => x
    | _ =>
      let i := (Config.freeVec free).toNat % l.length
      let a := l.getD i 0
      let rest := l.eraseIdx i
      let j := (Config.freeVec (free + 1)).toNat % rest.length
      foldFreely w fuel (free + 2) (foldBlock w a (rest.getD j 0) :: rest.eraseIdx j)

/-- The parts of a key in ascending contributor id (R430). -/
def byContributor (l : List (Nat × BitVec 4096)) : List (BitVec 4096) :=
  ((List.range 4096).filterMap fun i => (l.find? fun p => p.1 = i).map (·.2))

/-- A class E record for the home package (R430, R450, R451); no die of it is named, so die 0 writes it. -/
def windowRecord (w : Option Window) (key : Nat) : Prog := .get fun s =>
  match w with
  | some w => errorRecord (engineRecord s (regionCtx w.region w.domain 0) 5 0 0 w.base ⟨0x12, key, none⟩)
  | none => errorRecord { code := 0x12, cls := 1, source := 5, info := key }

/-- A key as a number, for INFO of a window's record. -/
def keyWord (window round block : Nat) : Nat := window + round * 2 ^ 6 + block % 2 ^ 20 * 2 ^ 38

/-- Changes a key's partial. -/
def setPartial (id : Nat) (f : Partial → Partial) : Prog :=
  .eff (.pkg fun p => { p with partials := p.partials.map fun x => if x.id = id then f x else x })

/-- A key's partial goes; a lone cell leaves the queue of the core that sent it (R432). -/
def dropPartial (id : Nat) : Prog := .get fun s => Prog.all [
  .eff (.pkg fun p => { p with partials := p.partials.filter fun x => x.id ≠ id }),
  Prog.when_ (s.pkg.partials.any fun p => p.id = id && p.cell.isSome) (cellGone id)]

/-- The partial of a key on a plane, opened with the first arrival (R431). -/
def openPartial (plane window round block : Nat) (k : Partial → Prog) : Prog := .get fun s =>
  match s.pkg.partials.find? (fun p => p.plane = plane && p.window = window && p.round = round && p.block = block && p.cell.isNone) with
  | some p => k p
  | none =>
    let p : Partial := ⟨s.pkg.nextPartial, plane, window, round, block, 0, [], [], none, false, none, none⟩
    Prog.all [
      .eff (.pkg fun y => { y with nextPartial := (y.nextPartial + 1) % 2 ^ 32, partials := y.partials ++ [p] }),
      postEv (2 ^ 24) 2 (.keyIncompleteTimeout (BitVec.ofNat 32 p.id)),
      k p]

/-- A contribution that fits its window joins its key's partial (R430): a second copy of one id counts once; differing counts discard
the key under DET. -/
def joinKey (w : Window) (h : Hdr) (v : BitVec 4096) (p : Partial) : Prog :=
  if p.complete || p.parts.any (fun x => x.1 = h.contrib) then .done
  else if w.det && p.count != 0 && p.count != h.count then
    (dropPartial p.id).andThen (windowRecord (some w) (keyWord w.id p.round p.block))
  else
    let count := if p.count = 0 then h.count else p.count
    let parts := p.parts ++ [(h.contrib, v)]
    let whole := decide (count ≤ parts.length)
    Prog.all [
      setPartial p.id (fun x => { x with count := count, parts := parts, complete := whole }),
      Prog.when_ whole (postEv fragTransit 2 (.mergedPartialApply (BitVec.ofNat 32 p.id)))]

/-- A contribution does not fit its window (R451): its block, value type, operation or contributor id. -/
def misfit (w : Window) (h : Hdr) : Bool :=
  decide (w.cells ≤ 128 * h.stripe) || h.vtype = 3 || (h.vtype = 1) != w.isInt || h.op != w.op || decide (h.count ≤ h.contrib)

/-- FRAG_CONTRIBUTION (R429, R430, R451): the root switch of the plane acknowledges the copy, then refuses it or folds it in. While its plane
retrains nothing is sent on it (R334), so the copy waits at the switch. -/
def contributionArrives (plane : Nat) (x : BitVec 4608) : Prog := received plane x fun h => .get fun s =>
  let window := h.flow % 64
  let key := keyWord window h.seq h.stripe
  if planeErased s plane then postEv 16 2 (.fragContribution (BitVec.ofNat 4 plane) x)
  else Prog.all [
    sendFrag plane { h with type := 4, srcDie := h.dstDie, dstNode := h.srcNode, dstDie := h.srcDie } 0,
    match windowOf s window with
    | none => windowRecord none key
    | some w =>
      let done := s.pkg.doneKeys.contains (window, h.seq, h.stripe)
      if misfit w h then
        (windowRecord (some w) key).andThen (Prog.when_ (!done) (openPartial plane window h.seq h.stripe fun _ => .done))
      else if done then lateCount
      else openPartial plane window h.seq h.stripe (joinKey w h (cellValues h.vtype (payloadOf x)))]
where
  /-- A copy for a key already applied is late (R431). -/
  lateCount : Prog := .eff (.die 0 fun y => { y with late := bump y.late })

/-- FRAG_CONTRIB_ACK (R429): the copy on this plane has arrived. -/
def contribAcked (plane : Nat) (x : BitVec 4608) : Prog := received plane x fun h => .get fun s =>
  let d := h.dstDie
  let mine := fun (c : SentContribution) =>
    let g := hdrAt (c.frag.toNat % 2 ^ 512)
    g.flow = h.flow && g.seq = h.seq && g.stripe = h.stripe && g.daddr = h.daddr && g.dstNode = h.srcNode && c.planes.contains plane
  match (s.die d).contributions.find? mine with
  | none => .done
  | some c =>
    let left := c.planes.filter (· ≠ plane)
    Prog.all [
      .eff (.die d fun y => { y with contributions := y.contributions.filterMap fun z =>
        if z.id = c.id then (if left.isEmpty then none else some { z with planes := left, acked := true }) else some z }),
      Prog.when_ left.isEmpty (workEnded c.owner)]

/-- The copies of a contribution are sent on their planes (R429), none on an erased one (R334). -/
def sendContribution (c : SentContribution) : Prog := .get fun s =>
  Prog.each (c.planes.filter fun p => !planeErased s p) fun p => sendFrag p (hdrAt (c.frag.toNat % 2 ^ 512)) (payloadOf c.frag)

/-- A copy of a contribution goes over a plane of the other die, and the link is out of service (R415). -/
def contributionCut (s : State) (d : Nat) (c : SentContribution) : Bool :=
  linkDown s d (1 - d) && c.planes.any fun p => p / 8 != d

/-- A contribution is lost: its region takes 0x1E (R415, R429). -/
def contributionLost (s : State) (d : Nat) (c : SentContribution) : Prog :=
  let g := hdrAt (c.frag.toNat % 2 ^ 512)
  fabricEnd d c.owner 0x1E (lossInfo s.pkg.nodeId d g.flow g.stripe) 0

/-- CONTRIB_RESEND_TIMEOUT (R429): each copy not acknowledged is sent once more, in its region's turn (R421) and as soon as one of its planes is
not erased (R334); with neither acknowledged after that, the region takes 0x1E. -/
def contribLate (d id : Nat) : Prog := .get fun s =>
  match (s.die d).contributions.find? (fun c => c.id = id) with
  | none => .done
  | some c =>
    let drop := Prog.eff (.die d fun y => { y with contributions := y.contributions.filter fun z => z.id ≠ id })
    if !c.resent && contributionCut s d c then drop.andThen (contributionLost s d c)
    else if !c.resent && (c.planes.all (planeErased s) || !regionTurn s d (readyRegions s d) c.owner.ref) then
      postEv 1 2 (.contribResendTimeout (BitVec.ofNat 1 d) (BitVec.ofNat 32 id))
    else if !c.resent then Prog.all [
      .eff (.die d fun y => { y with
        contributions := y.contributions.map fun z => if z.id = id then { z with resent := true } else z
        shares := served s d c.owner.ref (lastFlow y.shares c.owner.ref) }),
      sendContribution c,
      postEv (2 * s.pkg.strdl) 2 (.contribResendTimeout (BitVec.ofNat 1 d) (BitVec.ofNat 32 id))]
    else if c.acked then Prog.all [drop, workEnded c.owner]
    else drop.andThen (contributionLost s d c)

/-- The value of a complete key (R430): folded by ascending id, or in any order and grouping; a lone cell as it is. -/
def mergedValue (s : State) (w : Window) (p : Partial) : BitVec 4096 :=
  match p.acc with
  | some v => v
  | none =>
    if w.det then foldInOrder w (byContributor p.parts)
    else foldFreely w p.parts.length s.fresh (p.parts.map (·.2))

/-- The homes of the cells of a merged partial: its block, or one cell of it (R431, R432). -/
def cellRange (w : Window) (p : Partial) : Nat × Nat :=
  match p.cell with
  | some i => (w.base + 512 * p.block + 4 * i, 4)
  | none => (w.base + 512 * p.block, 512)

/-- A merged partial is applied at the home (R431): each cell is one update, then the window's counter advances as a release; other
planes' partials of the key are late. -/
def applyMerged (w : Window) (p : Partial) (again : Prog) : Prog := .get fun s =>
  let x := regionCtx w.region w.domain (bit w.ctr 16)
  let (a, n) := cellRange w p
  match engineAccess s x ⟨true, a⟩ true true n with
  | .error c => (dropPartial p.id).andThen (fabricEnd 0 x c a a)
  | .ok l =>
    let d := p.plane / 8
    if (l.any fun q => homeCut s d q.1) || ctrCut s d w.ctr then
      (dropPartial p.id).andThen (fabricEnd d x 0x1E (lossInfo s.pkg.nodeId d p.window p.block) a)
    else
    match l.find? fun q => (readError s q.1 q.2.2).isSome with
    | some q => Prog.all [
        dropPartial p.id,
        fabricEnd d x 0x1B a a,
        engineError x ⟨0x1B, a, some (errorWord s q.1 q.2.2)⟩]
    | none =>
    let old := readPieces s l
    let add := mergedValue s w p
    let new := match p.cell with
      | some i => foldCell w old (digit add.toNat 32 i)
      | none => ofDigits 128 32 fun i => foldCell w (digit old 32 i) (digit add.toNat 32 i)
    releaseAdd x 7 d w.ctr 1
      (.get fun s => errorRecord (engineRecord s x 5 0 0 w.base ⟨0x18, w.ctr, none⟩))
      (Prog.all [
        writePieces l new 0 none,
        .eff (.fresh (2 * p.parts.length)),
        .eff (.pkg fun y =>
          let other := fun (q : Partial) => q.window = p.window && q.round = p.round && q.block = p.block && q.cell.isNone
          if p.cell.isSome then { y with partials := y.partials.filter fun q => q.id ≠ p.id }
          else { y with
            partials := y.partials.filter fun q => !other q
            doneKeys := (p.window, p.round, p.block) :: y.doneKeys }),
        Prog.when_ p.cell.isSome (cellGone p.id)])
      again

/-- The contributor whose part is folded next under record or replay (R430): the first to arrive, or the one the log names. -/
def nextContributor (s : State) (x : Ctx) (w : Window) (p : Partial) (object : Nat) : Option (Nat × BitVec 4096) :=
  let left := p.parts.filter fun q => !p.order.contains q.1
  match ruling s x (bit w.ctr 16) 3 object (2 ^ 32) false with
  | .go _ (some i) => left.find? fun q => q.1 = entryWinner (logEntry s (bit w.ctr 16) i)
  | _ => left.head?

/-- The context that an id names, on a core or saved. -/
def contextOf (s : State) (id : Nat) : Option Ctx :=
  ((List.range 256).findSome? fun c => (s.core c).ctx.filter fun x => x.id = id).orElse fun _ =>
    (s.disp.saved.find? fun y => y.ctx.id = id).map (·.ctx)

/-- A cell that an atomic sent is applied at the home (R431, R432): under record and replay its place among the atomics there is a decision of
the task that sent it (R287, R434). -/
def applyCell (w : Window) (p : Partial) (again : Prog) : Prog := .get fun s =>
  match p.owner.bind fun o => contextOf s o.1, engineAccess s (regionCtx w.region w.domain (bit w.ctr 16)) ⟨true, (cellRange w p).1⟩ true true 4 with
  | some x, .ok ((.pa a, _, _) :: _) =>
    decision x (dieOfPa a) 0 (field a 3 42) (partyKey s x 0) true false (applyMerged w p again) again
  | _, _ => applyMerged w p again

/-- MERGED_PARTIAL_APPLY (R430, R431): under record and replay the root first folds the parts one by one, each a decision; then the merged
partial is applied. -/
def mergedApply (id : Nat) : Prog := .get fun s =>
  let again := postEv 8 2 (.mergedPartialApply (BitVec.ofNat 32 id))
  match s.pkg.partials.find? (fun p => p.id = id && p.complete) with
  | none => .done
  | some p =>
    match windowOf s p.window with
    | none => (dropPartial id).andThen (windowRecord none (keyWord p.window p.round p.block))
    | some w =>
      let d := bit w.ctr 16
      let x := regionCtx w.region w.domain d
      let object := p.window + p.round * 2 ^ 6 + p.block % 2 ^ 10 * 2 ^ 38
      let twin := s.pkg.partials.any fun q => decide (q.id < p.id) && q.complete && q.window = p.window && q.round = p.round &&
        q.block = p.block && q.cell.isNone
      if p.cell.isSome then applyCell w p again
      else if rrMode s x = 0 || p.order.length = p.parts.length then applyMerged w p again
      else if twin then .done
      else match nextContributor s x w p object with
        | none => (dropPartial id).andThen (fabricEnd 0 x 0x1F (s.die d).log.wp w.base)
        | some q =>
          decision x d 3 object q.1 false false
            (Prog.all [
              setPartial id (fun y => { y with
                order := y.order ++ [q.1]
                acc := some (match y.acc with | none => q.2 | some v => foldBlock w v q.2) }),
              postEv 0 2 (.mergedPartialApply (BitVec.ofNat 32 id))])
            again

/-- KEY_INCOMPLETE_TIMEOUT (R431). -/
def keyLate (id : Nat) : Prog := .get fun s =>
  match s.pkg.partials.find? (fun p => p.id = id && !p.complete) with
  | none => .done
  | some p => Prog.all [
      dropPartial id,
      match windowOf s p.window with
      | none => .done
      | some w => fabricEnd 0 (regionCtx w.region w.domain 0) 0x1E (lossInfo s.pkg.nodeId 0 p.window p.block) w.base]

/-- FRAG_CONTRIBUTION. -/
def execFragContribution (plane : BitVec 4) (frag : BitVec 4608) (s : State) : Host.Outcome State Fault Refusal :=
  ran (contributionArrives plane.toNat frag) s
/-- FRAG_CONTRIB_ACK. -/
def execFragContribAck (plane : BitVec 4) (frag : BitVec 4608) (s : State) : Host.Outcome State Fault Refusal :=
  ran (contribAcked plane.toNat frag) s
/-- CONTRIB_RESEND_TIMEOUT. -/
def execContribResendTimeout (die : BitVec 1) (id : BitVec 32) (s : State) : Host.Outcome State Fault Refusal :=
  ran (contribLate die.toNat id.toNat) s
/-- MERGED_PARTIAL_APPLY: held while a drain window or slot is open (R332). -/
def execMergedPartialApply (id : BitVec 32) (s : State) : Host.Outcome State Fault Refusal :=
  ran (stalled (.mergedPartialApply id) (mergedApply id.toNat)) s
/-- KEY_INCOMPLETE_TIMEOUT. -/
def execKeyIncompleteTimeout (id : BitVec 32) (s : State) : Host.Outcome State Fault Refusal := ran (keyLate id.toNat) s

end Sys2Proof.Machine
end

