-- ==== Sys2Proof/Machine/Fx.lean ====
section
/-! DEFINITION. The engine unit FX (R437 to R452): its checks, its queue, and how operations leave it. -/

namespace Sys2Proof.Machine

/-- Fields of a message block (R445). -/
def mLaddr (b : Nat) : EAddr := ⟨bit b 48 = 0, field b 0 48⟩

/-- RINGD. -/
def mRing (b : Nat) : Bool := bit b 49 = 1

/-- COMPR. -/
def mComp (b : Nat) : Bool := bit b 50 = 1

/-- LCEN. -/
def mLcen (b : Nat) : Bool := bit b 51 = 1

/-- CEN. -/
def mCen (b : Nat) : Bool := bit b 52 = 1

/-- RADDR. -/
def mRaddr (b : Nat) : Nat := field b 64 48

/-- LEN. -/
def mLen (b : Nat) : Nat := field b 128 32

/-- CTR. -/
def mCtr (b : Nat) : Nat := field b 160 32

/-- LCTR. -/
def mLctr (b : Nat) : Nat := field b 256 32

/-- The block that an operation read as its bundle issued (R440). -/
def Trig.block (t : Trig) : Nat := t.aux.toNat % 2 ^ 512

/-- The block is read once the S stores before its marker, and the S loads before it, have been performed (R273, R440, R401). -/
def blockHold (s : State) (t : Trig) : Verdict :=
  if (s.core t.core).accesses.any fun a => a.path = pathS && a.kind != .marker then .hold 10 23 0 else .go

/-- The checks on a block's fields: each with the word that TRAPINFO shows (R439, item 4). -/
def blockFields (b : Nat) (l : List (Bool × Nat)) : Verdict := Verdict.all (l.map fun p => need p.1 0x03 (digit b 64 p.2))

/-- The flow that b<0..9> or a<0..9> names; no rule gives the bits above a meaning (R437, R452; notes/assumptions/13.md). -/
def flowIn (x : Nat) : Nat := x % 2 ^ 10

/-- A local counter that a block names: one of the package, and of no other domain (R360, R439, item 4). -/
def localHandle (s : State) (c h : Nat) : Bool := ctrNamed s h && ctrAllowed s h (ctxDomain s c)

/-- The send flow of the task's region with an id (R439, item 6). -/
def openFlow (s : State) (c flow : Nat) : Option SendFlow :=
  (sendFlow s (dieOf c) flow).bind fun f => if f.region = (ctxOf s c).ref then some f else none

/-- A remote handle's node is the flow's destination; with no open flow item 6 speaks instead (R445, R449). -/
def remoteHandle (s : State) (c flow h : Nat) : Bool :=
  match openFlow s c flow with
  | none => true
  | some f => field h 17 15 = f.node

/-- The flow must be open in the task's region (R439, item 6). -/
def needFlow (s : State) (c flow w : Nat) : Verdict := need (openFlow s c flow).isSome 0x0B w

/-- The fields of a message block (R445): what both operations ask, then their own. -/
def messageFields (s : State) (t : Trig) (read : Bool) : Verdict :=
  let b := t.block
  blockFields b [
    (field b 59 5 = 0, 0),
    (!read || (!mRing b && !mComp b && !mCen b), 0),
    (field b 112 16 = 0, 1),
    (!mRing b || mRaddr b % 64 = 0, 1),
    (read || decide (mRaddr b + mLen b < 2 ^ 48), 1),
    (decide (1 ≤ mLen b ∧ mLen b ≤ 2 ^ 28), 2),
    (!mCen b || remoteHandle s t.core (flowIn t.sb) (mCtr b), 2),
    (!mLcen b || localHandle s t.core (mLctr b), 4),
    (field b 320 64 = 0, 5), (field b 384 64 = 0, 6), (field b 448 64 = 0, 7)]

/-- A local LADDR over its whole length (R439, item 5). -/
def localData (s : State) (t : Trig) (write : Bool) : Verdict :=
  let b := t.block
  let a := mLaddr b
  if a.glob then .go
  else if !inArrays a.addr (mLen b) then .bad 0x09 (info a.addr)
  else match localHome s t.core 3 write (spadLimit s t.core) a.addr (mLen b) with
    | .ok _ => .go
    | .error e => .bad e (info a.addr)

/-- The block is read on the S path, once items 1 to 3 of R439 have passed. -/
def blockCheck (s : State) (t : Trig) (g : Bool) (ports fields : Verdict) : Verdict :=
  (fenceCheck s t.core pathS).and <|
    (ports.and (ceAddr s t.core pathS g false t.sa 64 64)).then_ <| (blockHold s t).then_ <|
      (readCheck s (accessHomes s t.core pathS g false false t.sa 64)).then_ fields

/-- The checks of FWRITE and FREAD in order (R439); their further accesses are on path F (R78, R440). -/
def messageCheck (g read : Bool) (s : State) (t : Trig) : Verdict :=
  (fenceCheck s t.core pathF).and <| blockCheck s t g .go <| Verdict.all [
    messageFields s t read,
    localData s t read,
    needFlow s t.core (flowIn t.sb) t.sb]

/-- An operation joins its core's queue, or lands 1 with no other effect (R438). -/
def fxQueue (t : Trig) (op flow : Nat) (g : Bool) : Prog := .get fun s =>
  if mustDefer s t then deferOp t 4 true
  else if 16 ≤ (s.core t.core).fxQ.length then land t 4 (wide 1) []
  else Prog.all [
    land t 4 0 [],
    setCore t.core (fun k => { k with
      fxQ := k.fxQ ++ [⟨op, ctxOf s t.core, flow, info t.sa, info t.sb, info t.sc, g, BitVec.ofNat 512 t.block, t.covers s⟩] }),
    postEv 1 2 (.fxQueueDepart (coreBV t.core))]

/-- FWRITE (R445, R446). -/
def opFwrite (g : Bool) : Op :=
  opRun 23 (messageCheck g false) fun _ t => Prog.all [
    Prog.when_ (!t.checked) (queueMarker t pathS), fxQueue t 2 (flowIn t.sb) g]
def execFwrite (g : Bool) (s : State) : Host.Outcome State Fault Refusal := runOp (opFwrite g) s

/-- FREAD (R445, R447). -/
def opFread (g : Bool) : Op :=
  opRun 23 (messageCheck g true) fun _ t => Prog.all [
    Prog.when_ (!t.checked) (queueMarker t pathS), fxQueue t 3 (flowIn t.sb) g]
def execFread (g : Bool) (s : State) : Host.Outcome State Fault Refusal := runOp (opFread g) s

/-- FCADD (R449): a release at its source. -/
def opFcadd : Op :=
  opRun 23 (fun s t => Verdict.all [
      fenceCheck s t.core pathF, need (remoteHandle s t.core (flowIn t.sc) (handleIn t.sa)) 0x03 t.sa, needFlow s t.core (flowIn t.sc) t.sc])
    fun _ t => fxQueue t 4 (flowIn t.sc) false
def execFcadd (s : State) : Host.Outcome State Fault Refusal := runOp opFcadd s

/-- FRED (R451). -/
def opFred (g : Bool) : Op :=
  opRun 23 (fun s t => Verdict.all [
      fenceCheck s t.core pathF, need (field t.sb 6 2 != 3 && field t.sb 8 2 != 3) 0x03 t.sb,
      ceAddr s t.core 3 g false t.sa 512 64])
    fun _ t => fxQueue t 5 0 g
def execFred (g : Bool) (s : State) : Host.Outcome State Fault Refusal := runOp (opFred g) s

/-- An operation whose effect comes about as it lands (R442, R443, R450, R452). -/
def fxAtLanding (t : Trig) (bound : Nat) (body : Prog) : Prog := .get fun s =>
  if mustDefer s t then deferOp t bound true
  else if t.stage = 0 then Prog.all [await_ t bound true 1, postOp bound { t with stage := 1, checked := true }]
  else body

/-- A status lands (R442). -/
def fxStatus (t : Trig) (n : Nat) : Prog := settle t.core t.unit t.seq fun f => { f with y0 := wide n }

/-- FLOW, NODE and DIE of a flow word (R442). -/
def wFlow (w : Nat) : Nat := field w 0 10

/-- See wFlow. -/
def wNode (w : Nat) : Nat := field w 10 15

/-- See wFlow. -/
def wDie (w : Nat) : Nat := bit w 25

/-- FFLOW mode 0 (R442). -/
def opFflowOpen : Op :=
  opRun 23 always fun _ t => fxAtLanding t 40 (.get fun s =>
    let d := dieOf t.core
    if (sendFlow s d (wFlow t.sa)).isSome then fxStatus t 1
    else Prog.all [
      .eff (.die d fun y => { y with sends := y.sends ++
        [⟨wFlow t.sa, wNode t.sa, wDie t.sa, field t.sa 26 3, bit t.sa 29 = 1, (ctxOf s t.core).ref, 0, 0, none⟩] }),
      fxStatus t 0])
def execFflowOpen (s : State) : Host.Outcome State Fault Refusal := runOp opFflowOpen s

/-- FFLOW mode 1 (R442, R443). -/
def opFflowAccept : Op :=
  opRun 23 always fun _ t => fxAtLanding t 40 (.get fun s =>
    let d := dieOf t.core
    let x := ctxOf s t.core
    if (recvFlow s d (wNode t.sa) (wDie t.sa) (wFlow t.sa)).isSome then fxStatus t 1
    else if 4096 ≤ (s.die d).recvs.length then fxStatus t 2
    else Prog.all [
      .eff (.die d fun y => { y with recvs := y.recvs ++
        [⟨wNode t.sa, wDie t.sa, wFlow t.sa, x.ref, x.domain, 0, [], [], [], [], [], none⟩] }),
      fxStatus t 0])
def execFflowAccept (s : State) : Host.Outcome State Fault Refusal := runOp opFflowAccept s

/-- Messages of a flow that are not through, queued ones among them (R443); an FREAD is through with its answer
(notes/assumptions/24.md). -/
def flowPending (s : State) (c flow : Nat) : Bool :=
  (s.die (dieOf c)).messages.any (fun m => m.kind != 7 && m.flow = flow) ||
  (List.range 256).any fun k => dieOf k = dieOf c && (s.core k).fxQ.any fun q => q.op != 5 && q.flow = flow

/-- FFLOW mode 2 (R442, R443): the status waits until every message of the flow has been acknowledged. -/
def opFflowCloseSend : Op :=
  opRun 23 always fun _ t => fxAtLanding t 40 (.get fun s =>
    match openFlow s t.core (wFlow t.sa) with
    | none => fxStatus t 3
    | some f =>
      if f.node != wNode t.sa || f.die != wDie t.sa then fxStatus t 3
      else if flowPending s t.core f.flow then postOp 1 { t with stage := 1, checked := true }
      else Prog.all [closeSend (dieOf t.core) f.flow, fxStatus t 0])
def execFflowCloseSend (s : State) : Host.Outcome State Fault Refusal := runOp opFflowCloseSend s

/-- FFLOW mode 3 (R442, R443); a mode above 3 is illegal. -/
def opFflowCloseRecv : Op :=
  opRun 23 (fun _ t => need (t.sb < 4) 0x03 t.sb) fun _ t => fxAtLanding t 40 (.get fun s =>
    let d := dieOf t.core
    match recvFlow s d (wNode t.sa) (wDie t.sa) (wFlow t.sa) with
    | none => fxStatus t 3
    | some r =>
      if r.region != (ctxOf s t.core).ref then fxStatus t 3
      else Prog.all [closeRecv d r.node r.die r.flow, fxStatus t 0])
def execFflowCloseRecv (s : State) : Host.Outcome State Fault Refusal := runOp opFflowCloseRecv s

/-- K and M keep R422's limits. -/
def rateLegal (k m : Nat) : Bool := decide (1 ≤ k ∧ k ≤ 14 ∧ m ≤ 4 ∧ k + m ≤ 16)

/-- FRATE (R452). -/
def opFrate : Op :=
  opRun 23 (fun s t => Verdict.all [
      need (bit t.sb 7 = 1 || rateLegal (field t.sb 0 4) (field t.sb 4 3)) 0x03 t.sb,
      needFlow s t.core (flowIn t.sa) t.sa])
    fun _ t => fxAtLanding t 2 (.get fun s =>
      let old := match openFlow s t.core (flowIn t.sa) with
        | none => 0
        | some f => match f.code with
          | some (k, m) => k + m * 2 ^ 4
          | none =>
            let (k, m) := nth s.pkg.fcrate f.cls (12, 4)
            k + m * 2 ^ 4 + 2 ^ 7
      let new := if bit t.sb 7 = 1 then none else some (field t.sb 0 4, field t.sb 4 3)
      Prog.all [
        .eff (.die (dieOf t.core) fun y => { y with
          sends := y.sends.map fun f => if f.flow = flowIn t.sa then { f with code := new } else f }),
        fxStatus t old])
def execFrate (s : State) : Host.Outcome State Fault Refusal := runOp opFrate s

/-- AT and WR over every page of a window's range (R450): the first page without them. -/
def windowPages (s : State) (dom base n : Nat) : Verdict :=
  Verdict.all ((List.range (n / 2 ^ 16 + 2)).map fun i =>
    let a := if i = 0 then base else (base / 2 ^ 16 + i) * 2 ^ 16
    if base + n ≤ a then .go
    else if 2 ^ 48 ≤ a then .bad 0x0A (info a)
    else match walkTables s a with
      | none => .bad 0x0A (info a)
      | some (pte, large) =>
        if (paThrough s pte large a).isNone then .bad 0x0A (info a)
        else need (pagePermits pte dom false true true) 0x0B a)

/-- The checks of a registration (R439, R450). -/
def windowCheck (g : Bool) (s : State) (t : Trig) : Verdict :=
  let b := t.block
  blockCheck s t g .go <| Verdict.all [
    blockFields b [
      (field b 0 48 % 512 = 0, 0), (field b 49 2 != 3, 0), (field b 55 9 = 0, 0),
      (decide (128 ≤ field b 64 32 ∧ field b 64 32 ≤ 2 ^ 24) && field b 64 32 % 128 = 0, 1),
      (localHandle s t.core (field b 96 32), 1),
      (field b 128 64 = 0, 2), (field b 192 64 = 0, 3), (field b 256 64 = 0, 4), (field b 320 64 = 0, 5),
      (field b 384 64 = 0, 6), (field b 448 64 = 0, 7)],
    windowPages s (ctxDomain s t.core) (field b 0 48) (4 * field b 64 32)]

/-- FRWIN mode 0 (R450). -/
def opFrwinRegister (g : Bool) : Op :=
  opRun 23 (windowCheck g) fun _ t => Prog.all [
    Prog.when_ (!t.checked) (queueMarker t pathS),
    fxAtLanding t 40 (.get fun s =>
      let b := t.block
      let x := ctxOf s t.core
      if (windowOf s (t.sb % 64)).isSome then fxStatus t 1
      else Prog.all [
        .eff (.pkg fun p => { p with windows := p.windows ++
          [⟨t.sb % 64, field b 0 48, field b 64 32, bit b 48 = 1, field b 49 2, bit b 51 = 1, field b 96 32, field b 52 3,
            x.ref, x.domain⟩] }),
        fxStatus t 0])]
def execFrwinRegister (g : Bool) (s : State) : Host.Outcome State Fault Refusal := runOp (opFrwinRegister g) s

/-- FRWIN mode 1 (R450). -/
def opFrwinRemove (g : Bool) : Op :=
  opRun 23 (fun s t => blockCheck s t g .go .go) fun _ t => Prog.all [
    Prog.when_ (!t.checked) (queueMarker t pathS),
    fxAtLanding t 40 (.get fun s =>
      match windowOf s (t.sb % 64) with
      | none => fxStatus t 1
      | some w =>
        if w.region != (ctxOf s t.core).ref then fxStatus t 1
        else Prog.all [
          .eff (.pkg fun p => { p with
            windows := p.windows.filter fun y => y.id ≠ w.id
            doneKeys := p.doneKeys.filter fun y => y.1 ≠ w.id }),
          fxStatus t 0])]
def execFrwinRemove (g : Bool) (s : State) : Host.Outcome State Fault Refusal := runOp (opFrwinRemove g) s

/-- Every access that FCADD covers has been performed (R449): those of the core that runs its context, and its queued work. -/
def fxCovered (s : State) (c : Nat) (q : FxOp) : Bool :=
  let mask := BitVec.ofNat 8 (field q.c.toNat 10 8)
  if ((s.core c).ctx.map (·.id)).getD 0 = q.owner.id then pathsDone s c mask q.seq
  else [3, 4, 5, 6].all fun p => !mask.getLsbD p || !queuedBusy s q.owner.id p q.seq

/-- A flow's next message stays within 64 of its oldest one that is not fully acknowledged (R420). -/
def windowOpen (y : Die) (flow : Nat) : Bool :=
  match y.sends.find? fun f => f.flow = flow with
  | none => true
  | some f => y.messages.all fun m => m.kind = 7 || m.flow != flow || m.acked y || decide ((f.nextSeq + 2 ^ 32 - m.seq) % 2 ^ 32 < 64)

/-- An operation may leave the queue (R420, R438): its flow's earlier operations have, its message stays in the flow's window, and no drain
window holds its reads (R332); a contribution waits for its region's turn (R421). -/
def fxMayGo (s : State) (c : Nat) (pre : List FxOp) (q : FxOp) : Bool :=
  if q.op = 5 then fredReady s q && regionTurn s (dieOf c) (readyRegions s (dieOf c)) q.owner.ref
  else
    !(pre.any fun x => x.op != 5 && x.flow = q.flow) &&
    windowOpen (s.die (dieOf c)) q.flow &&
    (match q.op with
    | 2 => !((mLaddr q.block.toNat).glob && s.pkg.draining)
    | 4 => fxCovered s c q
    | _ => true)

/-- The first operation that may leave, with the ones before it. -/
def fxNext (s : State) (c : Nat) (pre : List FxOp) : List FxOp → Option FxOp
  | [] => none
  | q :: r => if fxMayGo s c pre q then some q else fxNext s c (pre ++ [q]) r

/-- The message of a queued operation (R445 to R447, R449). -/
def fxMessage (f : SendFlow) (q : FxOp) (id data : Nat) : Message :=
  let b := q.block.toNat
  let m : Message :=
    { id := id, flow := f.flow, seq := f.nextSeq, kind := if q.op = 3 then 6 else 0, owner := q.owner, oseq := q.seq, data := data,
      len := mLen b, laddr := mLaddr b, daddr := mRaddr b, ctr := mCtr b, cinc := field b 192 64, cscope := field b 53 3,
      cen := mCen b, ring := mRing b, comp := mComp b, rnode := f.node, rdie := f.die, cls := f.cls, ord := f.ord, rate := none,
      rot := 0, cut := 0, whole := false, lctr := if mLcen b then some (mLctr b, field b 288 32) else none, got := [], last := none }
  if q.op = 4 then
    { m with len := 1, daddr := 2 ^ 48 - 1, ctr := q.a.toNat % 2 ^ 32, cinc := q.b.toNat, cscope := field q.c.toNat 18 3,
             cen := true, ring := false, comp := false, lctr := none }
  else m

/-- An operation passes to the fabric interface of its die (R438): it takes its sequence number, FWRITE reads its source (R440,
R448). -/
def fxSend (c : Nat) (q : FxOp) : Prog := .get fun s =>
  let d := dieOf c
  match sendFlow s d q.flow with
  | none => workEnded q.owner
  | some f =>
    let b := q.block.toNat
    match (if q.op = 2 then engineGet s q.owner (mLaddr b) false (mLen b) else .ok 0) with
    | .error e => Prog.all [
        flowDown s.pkg.nodeId d f.flow f.node f.die e.code 0x1E e.info (mLaddr b).addr,
        engineError q.owner e]
    | .ok v => Prog.all [
        takeId d,
        .eff (.die d fun y => { y with
          messages := y.messages ++ [fxMessage f q (s.die d).nextId v]
          sends := y.sends.map fun z => if z.flow = f.flow then { z with nextSeq := (z.nextSeq + 1) % 2 ^ 32 } else z }),
        kickSend d 1]

/-- A contribution is sent (R429, R451): its 512 bytes are read now. -/
def fxContribute (c : Nat) (q : FxOp) : Prog := .get fun s =>
  let d := dieOf c
  let kb := q.b.toNat
  let kc := q.c.toNat
  match engineGet s q.owner ⟨q.glob, q.a.toNat⟩ false 512 with
  | .error e => Prog.all [fabricEnd d q.owner e.code e.info q.a.toNat, engineError q.owner e]
  | .ok v =>
    let window := field kb 0 6
    let block := field kb 10 17
    let pa := (nextPlane s ((window + block) % 16)).getD 0
    let pb := (nextPlane s ((pa + 8) % 16)).getD pa
    let h : Hdr :=
      { type := 3, srcNode := s.pkg.nodeId, srcDie := d, dstNode := field kc 32 15, flow := window, seq := kc % 2 ^ 32,
        stripe := block, daddr := field kb 32 12 + field kb 44 12 * 2 ^ 12 + field kb 6 2 * 2 ^ 24 + field kb 8 2 * 2 ^ 26 }
    let x : SentContribution := ⟨(s.die d).nextId, fragOf h v, [pa, pb].dedup, false, false, q.owner, q.seq⟩
    if contributionCut s d x then contributionLost s d x
    else Prog.all [
      takeId d,
      .eff (.die d fun y => { y with
        contributions := y.contributions ++ [x]
        shares := served s d q.owner.ref (lastFlow y.shares q.owner.ref) }),
      sendContribution x,
      postEv (2 * s.pkg.strdl) 2 (.contribResendTimeout (BitVec.ofNat 1 d) (BitVec.ofNat 32 x.id))]

/-- FX_QUEUE_DEPART (R438): the first operation that may leave does; while others wait, the queue is looked at again. -/
def fxDepart (c : Nat) : Prog := .get fun s =>
  let again := Prog.all [
    .eff (.purge fun x => decide (x.what = .ev (.fxQueueDepart (coreBV c)))),
    .get fun s => Prog.when_ (!(s.core c).fxQ.isEmpty) (postEv 4 2 (.fxQueueDepart (coreBV c)))]
  match fxNext s c [] (s.core c).fxQ with
  | none => again
  | some q => Prog.all [
      setCore c (fun k => { k with fxQ := k.fxQ.erase q }),
      if q.op = 5 then fxContribute c q else fxSend c q,
      again]

/-- FX_QUEUE_DEPART. -/
def execFxQueueDepart (core : BitVec 8) (s : State) : Host.Outcome State Fault Refusal := ran (fxDepart core.toNat) s

end Sys2Proof.Machine
end

