-- ==== Sys2Proof/Machine/Kp.lean ====
section
/-! DEFINITION. Keeper operations, unit KP (R220 to R234). -/

namespace Sys2Proof.Machine

/-- Fields of the control word (R226). -/
def kD (t : Trig) : Nat := field (param t.b) 0 6

/-- See kD. -/
def kS (t : Trig) : Nat := field (param t.b) 6 6

/-- See kD. -/
def kOff (t : Trig) : Nat := field (param t.b) 12 10

/-- See kD. -/
def kCnt (t : Trig) : Nat := field (param t.b) 22 10 + 1

/-- The guard's lane 0 lets the whole operation take effect (R226). -/
def kPasses (t : Trig) : Bool := passes t 0

/-- Entries of an encoding: 1,024 bytes or 16 band entries (R226). -/
def encLimit (enc : Nat) : Nat := if enc = 2 then 16 else 1024

/-- An entry's new code with the events it counts (R226). -/
structure KeeperEdit where
  at_ : Nat
  res : Conv
  deriving DecidableEq, Repr

/-- The keeper write of edits to bytes or to band entries, with its counts, as effects of landing (R221, R226). -/
def editPosts (k enc : Nat) (rebind : Bool) (l : List KeeperEdit) : List Post :=
  let arr := l.toArray
  let find := fun (i : Nat) => arr.find? fun x => x.at_ = i
  let vals := fun (n w : Nat) => ofDigits n w fun i => (find i).elim 0 (·.res.code)
  let mask := fun (n : Nat) => ofBits n fun i => (find i).isSome
  let w := if enc = 2 then Post.keeper k 0 0 (BitVec.ofNat 16 (mask 16)) (BitVec.ofNat 256 (vals 16 16)) rebind
    else Post.keeper k (BitVec.ofNat 1024 (mask 1024)) (BitVec.ofNat 8192 (vals 1024 8)) 0 0 rebind
  w :: convPost (l.map (·.res))

/-- A keeper write under way (R225). -/
def beginWrite (t : Trig) : Prog := setArch t.core fun a =>
  { a with keepers := updAt a.keepers (kD t) fun x => { x with writes := x.writes + 1 } }

/-- A KP operation with its turn (R14, R225): while an earlier one still reads memory it waits, since it reads what that one writes. -/
def kpTurn (t : Trig) (bound : Nat) (lands : Bool) (body : Prog) : Prog := .get fun s =>
  if (s.core t.core).flights.any fun f => f.unit = 20 && f.seq < t.seq && !f.ready then
    (Prog.when_ (t.stage = 0) (await_ t bound lands 1)).andThen (postOp 1 { t with stage := 1, checked := true })
  else body

/-- The bytes of a keeper's image that hold entries of an encoding (R226, R227). -/
def kSpan (enc lo n : Nat) : Nat × Nat := if enc = 2 then (1024 + 2 * lo, 2 * n) else (lo, n)

/-- A KP operation that writes a keeper, under lane 0 of its guard: one that fails only takes its place in trigger order (R226). `reads`
are the keepers it reads, with the bytes of their images. -/
def kWrite (bound : Nat) (chk : State → Trig → Verdict) (reads : Trig → List (Nat × Nat × Nat)) (posts : State → Trig → List Post) : Op :=
  opRun 20 (fun s t => if kPasses t then (keeperUnread (s.core t.core).arch (kD t)).and (chk s t) else .go) fun _ t =>
    if !kPasses t then finish t bound []
    else Prog.all [
      Prog.when_ (t.stage = 0) (beginWrite t),
      kpTurn t bound false (.get fun s => Prog.all [
        finish t bound (posts s t),
        Prog.each (reads t) fun p => keeperUse (t.who s) p.1 [p.2]])]

/-- The bytes of a keeper that hold its generation (R246). -/
def kGen : Nat × Nat := (1056, 8)

/-- The range of SOFF and count (R226). -/
def kRange (enc : Nat) (t : Trig) : Verdict := need (decide (kOff t + kCnt t ≤ encLimit enc)) 0x03 (param t.b)

/-- The chosen entries of an operation, each edited (R228 to R232). -/
def kEdits (t : Trig) (f : Nat → Option Conv) : List KeeperEdit :=
  (List.range (kCnt t)).filterMap fun i => (f (kOff t + i)).map fun r => ⟨kOff t + i, r⟩

/-- A keeper as this operation finds it: after every earlier write (R14, R225). -/
def kView (s : State) (t : Trig) (n : Nat) : Keeper := keeperView (s.core t.core) n

/-- KMOV (R227): all bytes and band entries. -/
def opKmov (rebind : Bool) : Op :=
  kWrite 4 always (fun t => [(kS t, 0, 1056)]) fun s t =>
    let x := kView s t (kS t)
    [.keeper (kD t) (BitVec.allOnes 1024) x.bytes (BitVec.allOnes 16) x.band rebind]
def execKmov (rebind : Bool) (s : State) : Host.Outcome State Fault Refusal := runOp (opKmov rebind) s

/-- KADDE on a byte or band entry (R228). -/
def addExp (enc : Nat) (n : Int) (x : Nat) : Option Conv :=
  match enc with
  | 0 =>
    if x = 255 then none
    else
      let v : Int := (x : Int) + n
      let c := if v < 0 then 0 else if v > 254 then 254 else v.toNat
      some { code := c, sat := (decide ((c : Int) ≠ v)).toNat }
  | 1 =>
    if x = 0 ∨ x = 255 then none
    else
      let e : Int := ((x / 32 : Nat) : Int) + n
      if e > 7 then some { code := 254, sat := 1 }
      else if e < 0 then some { code := 0, flush := 1 }
      else some { code := e.toNat * 32 + x % 32 }
  | _ => some (convert .bf16 0 0 false (Num.mul (Fmt.bf16.decode x) (.fin false 1 n)))

/-- Entry i of a keeper in an encoding. -/
def kEntry (enc : Nat) (x : Keeper) (i : Nat) : Nat := if enc = 2 then x.bandAt i else x.byte i

/-- KADDE (R228). -/
def opKadde (rebind : Bool) (enc : BitVec 2) : Op :=
  kWrite 4 (fun _ t => kRange enc.toNat t) (fun t => [(kD t, kSpan enc.toNat (kOff t) (kCnt t))]) fun s t =>
    let x := kView s t (kD t)
    editPosts (kD t) enc.toNat rebind
      (kEdits t fun i => addExp enc.toNat (sint (param t.c) 9) (kEntry enc.toNat x i))
def execKadde (rebind : Bool) (enc : BitVec 2) (s : State) : Host.Outcome State Fault Refusal := runOp (opKadde rebind enc) s

/-- The minimum or maximum of two entries (R164, R229). -/
def kPick (enc : Nat) (max_ : Bool) (x y : Nat) : Conv :=
  if enc = 2 then
    (if (Fmt.bf16.decode x).isNan || (Fmt.bf16.decode y).isNan then { code := 0x7FC0, nan := 1 }
     else { code := pickElem .bf16 max_ x y })
  else if x = 255 ∨ y = 255 then { code := 255, nan := 1 }
  else { code := if max_ then max x y else min x y }

/-- KMAX and KMIN (R229). -/
def kExtreme (max_ rebind : Bool) (enc : Nat) : Op :=
  kWrite 4 (fun _ t => kRange enc t) (fun t => [kS t, param t.c % 64].map fun k => (k, kSpan enc (kOff t) (kCnt t))) fun s t =>
    let x := kView s t (kS t)
    let y := kView s t (param t.c % 64)
    editPosts (kD t) enc rebind (kEdits t fun i => some (kPick enc max_ (kEntry enc x i) (kEntry enc y i)))

def opKmax (rebind : Bool) (enc : BitVec 2) : Op :=
  kExtreme true rebind enc.toNat
def execKmax (rebind : Bool) (enc : BitVec 2) (s : State) : Host.Outcome State Fault Refusal := runOp (opKmax rebind enc) s
def opKmin (rebind : Bool) (enc : BitVec 2) : Op :=
  kExtreme false rebind enc.toNat
def execKmin (rebind : Bool) (enc : BitVec 2) (s : State) : Host.Outcome State Fault Refusal := runOp (opKmin rebind enc) s

/-- A value rounded into E3M5 (R131, R134, R230): its nonzero codes start at 33 * 2^-8, and a negative value has none. -/
def convE3m5 (rm : Nat) (x : Num) : Conv :=
  match x with
  | .nan _ => { code := 255, nan := 1 }
  | .inf neg => if neg then { code := 255, nan := 1 } else { code := 254, sat := 1 }
  | .fin neg m e =>
    if m = 0 then { code := 0 }
    else if neg then { code := 255, nan := 1 }
    else
      let (n, d) := frac m (e + 8)
      if n < 33 * d then
        (if takeHi rm 0 false n (33 * d) true false then { code := 1 } else { code := 0, flush := 1 })
      else
        let (c, _) := roundCode 5 (-3) rm 0 false m e
        if c > 254 + 32 then { code := 254, sat := 1 } else { code := c - 32 }

/-- A value rounded into E8M0 (R130, R134, R230), the powers of two from 2^-127 to 2^127; beyond them it clamps and counts a
saturation (notes/assumptions/22.md). -/
def convE8m0 (rm : Nat) (x : Num) : Conv :=
  match x with
  | .nan _ => { code := 255, nan := 1 }
  | .inf neg => if neg then { code := 255, nan := 1 } else { code := 254, sat := 1 }
  | .fin neg m e =>
    if m = 0 ∨ neg then { code := 255, nan := 1 }
    else
      let l := Nat.log2 m
      let lo : Int := (l : Int) + e + 127
      let up := m != 2 ^ l && takeHi rm 0 false (m - 2 ^ l) (2 ^ l) (lo % 2 = 0) (lo % 2 = 1)
      let c := if up then lo + 1 else lo
      if c > 254 then { code := 254, sat := 1 } else if c < 0 then { code := 0, sat := 1 } else { code := c.toNat }

/-- The value of an entry in an encoding. -/
def entryNum (enc x : Nat) : Num := if enc = 2 then Fmt.bf16.decode x else scaleNum (enc = 1) x

/-- A value rounded into an encoding. -/
def entryConv (enc rm : Nat) (x : Num) : Conv :=
  match enc with
  | 0 => convE8m0 rm x
  | 1 => convE3m5 rm x
  | _ => convert .bf16 rm 0 false x

/-- One conversion of KCVT (R230). -/
def kConvert (enc denc rm x : Nat) : Conv :=
  if enc = 1 && denc = 0 && x = 0 then { code := 0, flush := 1 }
  else if enc != 2 && denc = 2 && x = 255 then { code := 0x7FC0, nan := 1 }
  else entryConv denc rm (entryNum enc x)

/-- The first destination entry of KCVT. -/
def kDest (t : Trig) : Nat := field (param t.c) 8 10

/-- KCVT (R230). -/
def opKcvt (rebind : Bool) (enc denc : BitVec 2) : Op :=
  kWrite 6 (fun _ t => (kRange enc.toNat t).and <|
      (need (decide (kDest t + kCnt t ≤ encLimit denc.toNat)) 0x03 (param t.c)).and
        (need (decide (field (param t.c) 0 3 < 4)) 0x03 (param t.c)))
      (fun t => [(kS t, kSpan enc.toNat (kOff t) (kCnt t))]) fun s t =>
    let x := kView s t (kS t)
    editPosts (kD t) denc.toNat rebind ((List.range (kCnt t)).map fun i =>
      ⟨kDest t + i, kConvert enc.toNat denc.toNat (field (param t.c) 0 3) (kEntry enc.toNat x (kOff t + i))⟩)
def execKcvt (rebind : Bool) (enc denc : BitVec 2) (s : State) : Host.Outcome State Fault Refusal := runOp (opKcvt rebind enc denc) s

/-- One byte of KFOLD (R231). -/
def kFoldByte (enc rm beta x : Nat) : Conv :=
  let b := Fmt.bf16.decode beta
  if x = 255 ∨ b.isNan then { code := 255, nan := 1 }
  else if b.isZero then (if enc = 0 then { code := 255, nan := 1 } else { code := 0 })
  else if b.neg? then { code := 255, nan := 1 }
  else entryConv enc rm (Num.mul (entryNum enc x) b)

/-- KFOLD (R231): the bytes under the band entry, which becomes 1.0. -/
def opKfold (rebind : Bool) (enc : BitVec 2) : Op :=
  kWrite 6 (fun _ t => (kRange enc.toNat t).and (need (decide (field (param t.c) 0 3 < 4)) 0x03 (param t.c)))
      (fun t => [(kD t, kOff t, kCnt t), (kD t, kSpan 2 (field (param t.c) 3 4) 1)]) fun s t =>
    let x := kView s t (kD t)
    let band := field (param t.c) 3 4
    let one := fun (p : Post) => match p with
      | .keeper k bm b _ _ r => Post.keeper k bm b (BitVec.ofNat 16 (2 ^ band)) (BitVec.ofNat 256 (0x3F80 * 2 ^ (16 * band))) r
      | p => p
    (editPosts (kD t) enc.toNat rebind
      (kEdits t fun i => some (kFoldByte enc.toNat (field (param t.c) 0 3) (x.bandAt band) (x.byte i)))).map one
def execKfold (rebind : Bool) (enc : BitVec 2) (s : State) : Host.Outcome State Fault Refusal := runOp (opKfold rebind enc) s

/-- Whether a is at most b times 2^n, for magnitudes. -/
def magLe (ma : Nat) (ea : Int) (mb : Nat) (eb : Int) : Bool :=
  let e := min ea eb
  decide (ma * 2 ^ (ea - e).toNat ≤ mb * 2 ^ (eb - e).toNat)

/-- The largest exponent of an MX element format (R232). -/
def emaxOf (f : Fmt) : Int :=
  match f with | .e2m1 => 2 | .e2m3 => 2 | .e3m2 => 4 | .e4m3 => 8 | .e5m2 => 15 | _ => 0

/-- The scale byte of an MX block with a given amax (R232). -/
def amaxE8m0 (f : Fmt) (ceil : Bool) (x : Num) : Conv :=
  match x with
  | .nan _ => { code := 255, nan := 1 }
  | .inf _ => { code := 254, sat := 1 }
  | .fin _ m e =>
    if m = 0 then { code := 127 }
    else
      let v : Int :=
        if !ceil then (Nat.log2 m : Int) + e - emaxOf f + 127
        else match f.decode (f.maxCode) with
          | .fin _ ml el =>
            let k : Int := (bitlen m : Int) + e - (bitlen ml : Int) - el
            (if magLe m e ml (el + k) then k else k + 1) + 127
          | _ => 127
      let c := if v < 0 then 0 else if v > 254 then 254 else v.toNat
      { code := c, sat := (decide ((c : Int) ≠ v)).toNat }

/-- The scale byte of a BSF4 sub-block with a given amax, under a band scale (R232). -/
def amaxE3m5 (beta : Nat) (x : Num) : Conv :=
  let b := Fmt.bf16.decode beta
  if x.isNan || b.isNan || b.isZero || b.neg? then { code := 255, nan := 1 }
  else
    let a := match x with | .fin _ m e => Num.fin false m e | .inf _ => .inf false | .nan q => .nan q
    convE3m5 2 (Num.div a (Num.mul (.fin false 6 0) b))

/-- FMT of KAMAX's extension word. -/
def kFmt (t : Trig) : Nat := field (param t.c) 8 4

/-- KAMAX (R232). -/
def opKamax (rebind : Bool) (enc : BitVec 2) : Op :=
  kWrite 8 (fun _ t =>
      (kRange enc.toNat t).and <| (need (decide (kCnt t ≤ 256)) 0x03 (param t.b)).and <|
        need (if enc.toNat = 0 then decide (1 ≤ kFmt t ∧ kFmt t ≤ 6) else kFmt t = 7) 0x03 (param t.c))
      (fun t => if enc.toNat = 0 then [] else [(kD t, kSpan 2 (field (param t.c) 3 4) 1)]) fun s t =>
    let x := kView s t (kD t)
    editPosts (kD t) enc.toNat rebind ((List.range (kCnt t)).map fun l =>
      ⟨kOff t + l, if enc.toNat = 0 then amaxE8m0 (Fmt.ofCode (kFmt t)) (bit (param t.c) 0 = 1) (f32 (lane t.a l))
        else amaxE3m5 (x.bandAt (field (param t.c) 3 4)) (f32 (lane t.a l))⟩)
def execKamax (rebind : Bool) (enc : BitVec 2) (s : State) : Host.Outcome State Fault Refusal := runOp (opKamax rebind enc) s

/-- The tile a binding operation names (R233). -/
def kTile (t : Trig) : Nat := param t.c % 64

/-- The checks of a binding operation (R201, R216, R225, R233). -/
def bindCheck (rebind : Bool) (s : State) (t : Trig) : Verdict :=
  if !kPasses t then .go
  else
    let a := (s.core t.core).arch
    let n := kTile t
    let x := nth a.tiles n Tile.reset
    let k := (x.buckle.map (·.1)).getD 0
    let now := (nth a.keepers k Keeper.reset).gen
    let cur := match x.buckle with | some (_, g) => !x.stale && g = now | none => false
    let g := (x.buckle.map (·.2.toNat)).getD 0
    (need (decide (param t.c < 64)) 0x03 (param t.c)).and <|
      (tileNeed (x.cfg && x.state != .draining && (x.state != .filling || x.filler = .program)) x n).and <|
        (tileFree x n).and <| (keeperFree a (kD t)).and <|
          if rebind then need cur 0x0F
            (n + k * 2 ^ 8 + g * 2 ^ 16 + now.toNat * 2 ^ 32 + x.buckle.isNone.toNat * 2 ^ 48 + x.stale.toNat * 2 ^ 49)
          else .go

/-- A binding operation: the tile's new buckle takes effect at landing (R233). -/
def kBinding (rebind : Bool) (buckle : State → Trig → Option (Nat × BitVec 16)) : Op :=
  opRun 20 (bindCheck rebind) fun s t => Prog.all [
    finish t 2 (if kPasses t then [.bind (kTile t) (buckle s t)] else []),
    Prog.when_ (kPasses t && (buckle s t).isSome) (keeperUse (t.who s) (kD t) [kGen])]

/-- The buckle (KD, current generation of KD). -/
def kBuckle (s : State) (t : Trig) : Option (Nat × BitVec 16) := some (kD t, (keeperNow s t.core (kD t)).gen)

def opKbind : Op := kBinding false kBuckle
def execKbind (s : State) : Host.Outcome State Fault Refusal := runOp opKbind s
def opKunbind : Op := kBinding false fun _ _ => none
def execKunbind (s : State) : Host.Outcome State Fault Refusal := runOp opKunbind s
def opKrebind : Op := kBinding true kBuckle
def execKrebind (s : State) : Host.Outcome State Fault Refusal := runOp opKrebind s

/-- KGEN (R226, R234): it lands whatever its guard, under the lane mask. -/
def opKgen (cr : Bool) : Op :=
  opRun 20 (recordCheck cr) fun _ t => Prog.all [
    Prog.when_ (t.stage = 0) (reserveRecord t cr),
    kpTurn t 2 true (.get fun s =>
      let g := (kView s t (kD t)).gen.toNat
      Prog.all [land t 2 (broadcast g) (recordPost t cr g), keeperUse (t.who s) (kD t) [kGen]])]
def execKgen (cr : Bool) (s : State) : Host.Outcome State Fault Refusal := runOp (opKgen cr) s

/-- The address of a keeper image (R227). -/
def kAddr (t : Trig) : Nat := field (param t.c) 0 22

/-- The bytes of a keeper image (R227). -/
def keeperImage : Nat := 1056

/-- The checks of KLD and KST (R227). -/
def imageAddrCheck (write : Bool) (s : State) (t : Trig) : Verdict :=
  (fenceCheck s t.core pathV).and <| (need (kAddr t % 32 = 0) 0x08 (kAddr t)).and <|
    (need (decide (kAddr t + keeperImage ≤ spadLimit s t.core)) 0x09 (kAddr t)).and
      (accessCheck s t.core pathV false write false (kAddr t) keeperImage)

/-- KLD (R227): the image is read on the V path, in its turn there (R273). -/
def opKld (rebind : Bool) : Op :=
  opRun 20 (fun s t => if kPasses t then (keeperUnread (s.core t.core).arch (kD t)).and (imageAddrCheck false s t) else .go)
    fun s t =>
      if !kPasses t then finish t 16 []
      else Prog.all [
        beginWrite t,
        await_ t 16 false 1,
        queueAccess t pathV (.keeper (kD t) rebind) (piecesFrom 0 (accessHomes s t.core pathV false false false (kAddr t) keeperImage)) 15]
def execKld (rebind : Bool) (s : State) : Host.Outcome State Fault Refusal := runOp (opKld rebind) s

/-- KST (R227): two runs of one store on the V path. -/
def opKst : Op :=
  opRun 20 (fun s t => if kPasses t then imageAddrCheck true s t else .go) fun _ t =>
    if !kPasses t then finish t 16 []
    else kpTurn t 16 false (.get fun u =>
      let s := t.sees u
      let x := kView s t (kD t)
      let put := fun (off n : Nat) (v : Vec) =>
        queueAccess t pathV (.store v) (piecesFrom 0 (accessHomes s t.core pathV false true false (kAddr t + off) n)) storeWait
      Prog.all [
        finish t 16 [], put 0 1024 x.bytes, put 1024 32 (BitVec.ofNat 8192 x.band.toNat),
        keeperUse (t.who s) (kD t) [(0, 1056)]])
def execKst (s : State) : Host.Outcome State Fault Refusal := runOp opKst s

end Sys2Proof.Machine
end

