-- ==== Sys2Proof/Machine/Queue.lean ====
section
/-! DEFINITION. Submission queues and bound rectangles: what the system unit, the host's doorbells and the dispatcher share
(R91, R103, R109, R118). -/

namespace Sys2Proof.Machine

/-- A queue before the host driver creates it (R103, R418); its first sequence value is 1. -/
def Queue.reset : Queue := ⟨false, 0, 0, 0, 0, 0, 1⟩

/-- Queue q. -/
def State.queue (s : State) (q : Nat) : Queue := ((s.disp.queues.find? fun p => p.1 = q).map (·.2)).getD Queue.reset

/-- Changes queue q. -/
def setQueue (q : Nat) (f : Queue → Queue) : Prog := .eff (.disp fun d =>
  let old := ((d.queues.find? fun p => p.1 = q).map (·.2)).getD Queue.reset
  { d with queues := (q, f old) :: d.queues.filter fun p => p.1 ≠ q })

/-- Launches of a queue that wait in it. DESIGN CHOICE: the host's entries and those of SY.LAUNCH count together against the queue's 2^LOG2N
(R91; notes/assumptions/19.md). -/
def queuedCount (s : State) (q : Nat) : Nat := (s.disp.launches.filter fun l => l.queue = q && l.state = .queued).length

/-- A launch enters its queue with the queue's next sequence value (R103). -/
def enqueue (q root : Nat) (from_ : Option RegionRef) : Prog := .get fun s => Prog.all [
  .eff (.disp fun d => { d with
    launches := d.launches ++ [⟨d.nextLaunch, q, (s.queue q).nextSeq, root, from_, .queued, false, false, false, []⟩]
    nextLaunch := d.nextLaunch + 1 }),
  setQueue q (fun x => { x with nextSeq := x.nextSeq + 1 }),
  postEv 1 3 (.launchValidate (BitVec.ofNat 12 q))]

end Sys2Proof.Machine
end

