-- ==== Sys2Proof/Machine/Sy.lean ====
section
/-! DEFINITION. The system unit SY (R86 to R94) and the state registers (R32). -/

namespace Sys2Proof.Machine

/-- State register i as MVST reads it; TIME is package time at the reading bundle (R32, R86). -/
def readState (a : Arch) (time i : Nat) : Word := if i = 17 then info time else a.sr i

/-- A state register index is legal (R32, R86). -/
def stCheck (i : Nat) : Verdict := need (i < 24) 0x03 i

/-- MVST (R86): b names the register. -/
def opMvst : Op :=
  opRun 12 (fun _ t => stCheck t.sb) fun s t =>
    land t 2 (wide (readState (s.core t.core).arch t.t0 t.sb).toNat) []
def execMvst (s : State) : Host.Outcome State Fault Refusal := runOp opMvst s

/-- FPSTAT written: FLAGS clear where a 1 is written, ENABLES change, RM only to codes 0 to 3 (R32). -/
def writeFpstat (old v : Nat) : Nat :=
  let flags := field old 0 5 &&& (31 - field v 0 5)
  let rm := if field v 16 3 < 4 then field v 16 3 else field old 16 3
  flags + field v 8 5 * 2 ^ 8 + rm * 2 ^ 16

/-- The completion ring emptied: unpopped records are discarded (R11), and with them an entry that a `.cr` operation of the same bundle
reserves, of which no rule says whether it survives (DESIGN CHOICE, notes/assumptions/20.md). -/
def Arch.emptyRing (a : Arch) : Arch := { a with ring := { a.ring with written := 0, popped := 0, reserved := [] } }

/-- A base with the bits below CRSIZE + 4 clear (R32). -/
def alignBase (v size : Nat) : Nat := v % 2 ^ 18 / 2 ^ (size + 4) * 2 ^ (size + 4)

/-- What MVTS writes (R5, R32, R86): read-only registers, reserved fields and values outside a restricted encoding are ignored. -/
def writeState (a : Arch) (i v : Nat) : Arch :=
  let set := fun (x : Nat) => a.setSr i (info x)
  match i with
  | 1 => set (v % 2 ^ 15 + bit v 63 * 2 ^ 63)
  | 3 | 5 | 9 | 10 | 11 => set v
  | 6 => set (v / 1024 * 1024)
  | 7 => set (v % 32)
  | 8 => set (v % 8)
  | 12 | 13 => set (v % 2 ^ 48)
  | 14 => set (writeFpstat (a.sr 14).toNat v)
  | 15 => set (v % 16)
  | 21 => (set (alignBase v a.crSize)).emptyRing
  | 22 =>
    let n := if 4 ≤ v % 16 ∧ v % 16 ≤ 12 then v % 16 else a.crSize
    ((set n).setSr 21 (info (alignBase a.crBase n))).emptyRing
  | _ => a

/-- MVTS's checks: a write of CRBASE or CRSIZE first waits for every reserved record (R11, R86). -/
def mvtsCheck (s : State) (t : Trig) : Verdict :=
  if (t.sb = 21 ∨ t.sb = 22) ∧ !(s.core t.core).arch.ring.reserved.isEmpty then .hold 6 12 0 else stCheck t.sb

/-- MVTS (R86): a goes into the register b names. -/
def opMvts : Op :=
  opRun 12 mvtsCheck fun _ t => Prog.all [finish t 1 [], setArch t.core fun a => writeState a t.sb t.sa]
def execMvts (s : State) : Host.Outcome State Fault Refusal := runOp opMvts s

/-- PBW (R87). Its 0x09 has no address for TRAPINFO; it holds the word number b (DESIGN CHOICE, notes/assumptions/20.md). -/
def opPbw : Op :=
  opRun 12 (fun _ t => need (t.sb < 32) 0x09 t.sb) fun _ t => Prog.all [
    finish t 1 [], setArch t.core fun a => { a with pb := updAt a.pb t.sb fun _ => info t.sa }]
def execPbw (s : State) : Host.Outcome State Fault Refusal := runOp opPbw s

/-- The address of the completion ring's oldest record (R10). -/
def oldestRecord (a : Arch) : Nat := 0x400000 + a.crBase + 16 * (a.ring.popped % 2 ^ a.crSize)

/-- An earlier operation of the unit still waits for its outcome; one that is deferred keeps nothing back but its own landing. -/
def earlierWaits (k : Core) (t : Trig) : Bool :=
  k.flights.any fun f => f.unit = t.unit && f.seq < t.seq && !f.ready && !f.deferred

/-- CRPOP (R88): the oldest record, or with `.hdr` its upper half in place; on an empty ring it waits, in trigger order. A record in
error lands as zero and is read again (R392, R394). -/
def opCrpop (hdr : Bool) : Op :=
  opRun 12 always fun s t =>
    let c := t.core
    let k := s.core c
    let a := k.arch
    if t.stage = 0 then Prog.all [await_ t 4 true 1, postOp 0 { t with stage := 1, checked := true }]
    else if a.ring.written ≤ a.ring.popped || earlierWaits k t then postOp 1 t
    else
      let at_ := oldestRecord a
      let here : Loc := .arr c (if hdr then at_ + 8 else at_)
      let bad := (readError s here 8).isSome
      let v := if bad then 0 else readLoc s here 8
      let left := decide (a.ring.popped + 1 < a.ring.written)
      let posts : List Post := if bit t.sb 4 = 1 then [.flag (t.sb % 16) (!hdr && left)] else []
      let top := readLoc s (.arr c (at_ + 8)) 8
      Prog.all [
        Prog.when_ (!hdr) (Prog.all [
          writeLoc (.arr c (at_ + 8)) 8 (top % 2 ^ 63) (ctxId s c) none,
          setArch c fun a => { a with ring := { a.ring with popped := a.ring.popped + 1 } }]),
        settle c t.unit t.seq (fun f => { f with y0 := wide v, posts := posts }),
        Prog.when_ bad (consumeError (t.who s) here 8)]
def execCrpop (hdr : Bool) (s : State) : Host.Outcome State Fault Refusal := runOp (opCrpop hdr) s

/-- CURQ with b = 0 (R89): the start of the first slot after the bundle. -/
def opCurqStart : Op :=
  opRun 12 always fun _ t => land t 2 (wide (slotAfter t.t0).2.1) []
def execCurqStart (s : State) : Host.Outcome State Fault Refusal := runOp opCurqStart s

/-- CURQ with b = 1 (R89): its length and kind; any other b raises 0x03. -/
def opCurqDesc : Op :=
  opRun 12 (fun _ t => need (t.sb = 1) 0x03 t.sb) fun _ t =>
    let (_, _, len, kind) := slotAfter t.t0
    land t 2 (wide (len + kind * 2 ^ 16)) []
def execCurqDesc (s : State) : Host.Outcome State Fault Refusal := runOp opCurqDesc s

/-- GRPINC (R90, R92): the group count before the add; a sum past 2^32 - 1 changes nothing and lands all ones. -/
def opGrpinc : Op :=
  opRun 12 always fun s t =>
    let n := t.sb % 2 ^ 32
    if mustDefer s t then deferOp t 40 true
    else match (s.core t.core).ctx with
      | none => land t 40 0 []
      | some x =>
        let g := ((regionOf s x.ref).map (·.g)).getD 0
        if g + n > 2 ^ 32 - 1 then land t 40 (wide (2 ^ 64 - 1)) []
        else Prog.all [
          land t 40 (wide g) [],
          setRegion x.ref (fun r => { r with g := r.g + n }),
          Prog.when_ (n != 0) (Prog.all [
            kickQueue (((launchOf s x.ref).map (·.queue)).getD 0),
            postEv 1 3 (.taskStage (coreBV t.core))])]
def execGrpinc (s : State) : Host.Outcome State Fault Refusal := runOp opGrpinc s

/-- LAUNCH's checks (R91, R102). -/
def launchCheck (s : State) (t : Trig) : Verdict :=
  let mine := match (s.core t.core).ctx.bind fun x => regionOf s x.ref with
    | some r => decide (r.qbase ≤ t.sb) && decide (t.sb < r.qbase + r.qcnt)
    | none => false
  (need (t.sa % 512 = 0) 0x08 t.sa).and (need (t.sb < 4096 && mine) 0x0B t.sa)

/-- The accesses of the launching task that its tree's tasks are to see have been performed (R283): those of its own paths S, V and M
(DEDUCED, notes/assumptions/20.md). -/
def launchCovered (s : State) (t : Trig) : Bool := pathsDone s t.core 7 (t.covers s)

/-- LAUNCH (R91, R92): the launch's sequence value, or 0 when the queue is full, once the task's earlier accesses have been performed. -/
def opLaunch : Op :=
  opRun 12 launchCheck fun s t =>
    let q := t.sb
    if mustDefer s t then deferOp t 60 true
    else if !launchCovered s t then
      (Prog.when_ (t.stage = 0) (await_ t 60 true 1)).andThen (postOp 1 { t with stage := 1, checked := true })
    else if queuedCount s q ≥ 2 ^ (s.queue q).log2n then land t 60 0 []
    else Prog.all [
      land t 60 (wide (s.queue q).nextSeq) [],
      enqueue q (t.sa % 2 ^ 48) ((s.core t.core).ctx.map (·.ref))]
def execLaunch (s : State) : Host.Outcome State Fault Refusal := runOp opLaunch s

/-- ERET needs INTRAP (R37); TRAPINFO of its 0x03 is the trigger's specifier. -/
def eretCheck (s : State) (t : Trig) : Verdict := need (s.core t.core).arch.inTrap 0x03 t.dest

/-- ERET (R37, R93): it waits until every triggered operation has landed, then returns. A HALT of its bundle has discarded its
redirect (R85). -/
def opEret : Op :=
  opRun 12 eretCheck fun s t =>
    let k := s.core t.core
    if t.stage = 0 then Prog.all [
      setCore t.core (fun k => { k with flow := .returning }),
      postOp 1 { t with stage := 1, checked := true }]
    else if k.flow != .returning then .done
    else if !k.quiet then countWait t.core t.pc (postOp 1 t)
    else returnFromTrap t.core
def execEret (s : State) : Host.Outcome State Fault Refusal := runOp opEret s

/-- A replay that meets the truncation marker takes 0x20 before RLOG's bundle issues (R94, R436). -/
def rlogCheck (s : State) (t : Trig) : Verdict :=
  match (s.core t.core).ctx.bind fun x => markerMet s t.core (dieOf t.core) 5 (x.key % 2 ^ 48) with
  | some id => .bad 0x20 (info id)
  | none => .go

/-- RLOG (R94): the value itself, logged while recording; while replaying, the value logged (R434, R436). -/
def opRlog : Op :=
  opRun 12 rlogCheck fun s t =>
    let v := t.sb % 2 ^ 32
    match (s.core t.core).ctx with
    | none => land t 8 (wide v) []
    | some x =>
      let d := dieOf t.core
      if t.stage = 0 then
        if rrMode s x = 0 then land t 8 (wide v) []
        else Prog.all [await_ t 8 true 1, postOp 0 { t with stage := 1, checked := true }]
      else
        let logged := match ruling s x d 5 (x.key % 2 ^ 48) v false with
          | .go _ (some i) => entryWinner (logEntry s d i)
          | _ => v
        decision x d 5 (x.key % 2 ^ 48) v false t.inTrap
          (settle t.core t.unit t.seq fun f => { f with y0 := wide logged }) (postOp 1 t)
def execRlog (s : State) : Host.Outcome State Fault Refusal := runOp opRlog s

end Sys2Proof.Machine
end

