-- ==== Sys2Proof/Machine/Tt.lean ====
section
/-! DEFINITION. The tile table and buffers, unit TT (R214 to R219, R235 to R237). -/

namespace Sys2Proof.Machine

/-- b<6..63> must be zero for TCFG and TSTATE (R215, R218). -/
def entryIndex (t : Trig) : Verdict := need (t.sb < 64) 0x03 t.sb

/-- A configuration word uses no reserved value and describes whole blocks or rows (R215, check 1). -/
def tileWordLegal (w : Nat) : Bool :=
  let f := tFmt w
  field w 55 9 = 0 && decide (tHold w ≤ 8) && decide (f ≤ 8) &&
  (if tPlanes w then f != 0 && tCols w = 32 && tRows w % 32 = 0 else tCols w * tBits f % 8 = 0)

/-- The end of the storage a configuration may use: the scratchpad limit, or the end of HOLD's buffer; none for a slot not held. -/
def tileLimit (s : State) (c w : Nat) : Option Nat :=
  if tHold w = 0 then some (spadLimit s c)
  else (nth (s.core c).arch.slots (tHold w - 1) none).map fun h => handleLen h * 1024

/-- TCFG's checks in order (R215, R216). -/
def tcfgCheck (s : State) (t : Trig) : Verdict :=
  let x := tileAt s t.core (t.sb % 64)
  let w := t.sa
  (entryIndex t).then_ <| Verdict.all [
    tileFree x t.sb,
    tileNeed (x.state = .empty || x.state = .ready) x t.sb,
    need (tileWordLegal w) 0x03 w,
    match tileLimit s t.core w with
    | none => .bad 0x0C (info t.sb)
    | some lim => need (tBase w + tileSize w ≤ lim) 0x09 (tileAddr w)]

/-- TCFG (R215, R216): the entry is reconfigured and empty, its buckle dropped. -/
def opTcfg : Op :=
  opRun 21 tcfgCheck fun _ t => Prog.all [
    finish t 1 [],
    setArch t.core fun a => a.setTile t.sb fun x =>
      { x with word := info t.sa, state := .empty, buckle := none, stale := false, cfg := true }]
def execTcfg (s : State) : Host.Outcome State Fault Refusal := runOp opTcfg s

/-- TSTATE (R218): word a<0> of the entry, as its bundle found it. -/
def opTstate : Op :=
  opRun 21 (fun _ t => entryIndex t) fun _ t => land t 2 (wide (digit t.aux.toNat 64 (t.sa % 2))) []
def execTstate (s : State) : Host.Outcome State Fault Refusal := runOp opTstate s

/-- The entry that TREL and TMARK name: b<0..5>, the other bits of b being unused (R63, R218, R219). -/
def entryOf (t : Trig) : Nat := t.sb % 64

/-- TREL (R216, R218).
DESIGN CHOICE: it acts on a ready tile that is busy at once, which then drains (notes/assumptions/30.md). -/
def opTrel : Op :=
  opRun 21 (fun s t =>
      let x := tileAt s t.core (entryOf t)
      tileNeed (x.cfg && x.state != .filling) x (entryOf t)) fun _ t => Prog.all [
    finish t 1 [],
    setArch t.core (fun a => a.setTile (entryOf t) Tile.release),
    postEv 1 3 (.tileDrainDone (coreBV t.core) (BitVec.ofNat 6 (entryOf t)))]
def execTrel (s : State) : Host.Outcome State Fault Refusal := runOp opTrel s

/-- TMARK's checks for a mode, mode 3 being illegal (R219): `ok` says which entries allow it, and `writes` that it waits while the tile is
busy. -/
def tmarkCheck (ok : Tile → Bool) (writes : Bool) (s : State) (t : Trig) : Verdict :=
  let n := entryOf t
  let x := tileAt s t.core n
  (need (field t.sa 0 2 < 3) 0x03 t.sa).then_ ((tileNeed (x.cfg && ok x) x n).and (if writes then tileFree x n else .go))

/-- TMARK open (R216): a buckle bound while the tile was empty stays. -/
def opTmarkOpen : Op :=
  opRun 21 (tmarkCheck (fun x => x.state = .empty) true) fun _ t => Prog.all [
    finish t 1 [], setArch t.core fun a => a.setTile (entryOf t) fun x => x.fill .program true]
def execTmarkOpen (s : State) : Host.Outcome State Fault Refusal := runOp opTmarkOpen s

/-- A VL operation that stores. -/
def storesVl (t : Trig) : Bool :=
  match t.instr with
  | some (.vst ..) | some (.vsts ..) | some (.vstt) | some (.vstz ..) | some (.vscat ..) | some (.vscatadd ..) => t.unit = 17
  | _ => false

/-- Every LS and VL store that core c triggered before `seq` has been performed, also one that has not started (R219, R346). -/
def storesDone (s : State) (c seq : Nat) : Bool :=
  ((s.core c).accesses.all fun a =>
    !(decide (a.seq < seq) && (a.unit = 9 || a.unit = 17 || a.unit = 10) && !a.kind.isLoad && a.kind != .marker)) &&
  !((s.core c).captured.toList.flatten.any fun t => decide (t.seq < seq) && storesVl t)

/-- TMARK close (R216, R219): the tile is ready once the task's earlier stores have been performed. The wait stands in flight under
number 31, so that it holds no result of TT back. -/
def opTmarkClose : Op :=
  opRun 21 (tmarkCheck (fun x => x.state = .filling && x.filler = .program) false) fun s t =>
    let w := { t with unit := 31 }
    if t.stage = 0 then Prog.all [
      finish t 1 [], await_ w 1 false 1, postOp 0 { t with stage := 1, checked := true }]
    else if storesDone s t.core t.seq then
      settle t.core 31 t.seq fun f => { f with posts := [.tileReady (entryOf t)] }
    else postOp 1 t
def execTmarkClose (s : State) : Host.Outcome State Fault Refusal := runOp opTmarkClose s

/-- TMARK reopen (R216): contents and buckle stay. -/
def opTmarkReopen : Op :=
  opRun 21 (tmarkCheck (fun x => x.state = .ready) true) fun _ t => Prog.all [
    finish t 1 [], setArch t.core fun a => a.setTile (entryOf t) fun x => x.fill .program true]
def execTmarkReopen (s : State) : Host.Outcome State Fault Refusal := runOp opTmarkReopen s

/-- FROMSLOT, and the slot it names (R235). -/
def fromSlot (w : Nat) : Option Nat := if bit w 23 = 1 then some (w % 8) else none

/-- BASEK and LENK (R235). -/
def bufBase (w : Nat) : Nat := field w 0 12

/-- See bufBase. -/
def bufLen (w : Nat) : Nat := field w 12 11

/-- A KiB range meets a range handed out. -/
def HandedOut.meets (h : HandedOut) (b l : Nat) : Bool := decide (h.basek < b + l) && decide (b < h.basek + h.lenk)

/-- THAND's checks (R235) and the hold of a full inbound queue. DESIGN CHOICE: the
handle in port c is checked only where bit 32 says that the completion adds to it (notes/assumptions/30.md). -/
def thandCheck (s : State) (t : Trig) : Verdict :=
  let c := t.core
  let w := t.sa
  let k := s.core c
  let own := (fromSlot w).isNone
  let h := handleIn t.sc
  (need (t.sb < 8 && t.sb != posOf c) 0x03 t.sb).then_ <| Verdict.all [
    if (s.core (coreAtPos c t.sb)).inbound.length < 8 then .go else .hold 7 21 0,
    need (!own || decide (1 ≤ bufLen w ∧ bufLen w ≤ 1024)) 0x03 w,
    need (!own || !(k.handedOut.any fun x => x.meets (bufBase w) (bufLen w))) 0x03 w,
    need (bit t.sc 32 = 0 || (ctrNamed s h && ctrAllowed s h (ctxDomain s c))) 0x03 t.sc,
    need (!own || decide ((bufBase w + bufLen w) * 1024 ≤ spadLimit s c)) 0x09 (bufBase w * 1024),
    match fromSlot w with
    | none => .go
    | some n => need (nth k.arch.slots n none).isSome 0x0C (0x800000 + n * 0x100000)]

/-- The handle THAND delivers, without its SERIAL (R235). -/
def thandHandle (s : State) (t : Trig) : Nat :=
  match fromSlot t.sa with
  | none => bufBase t.sa + bufLen t.sa * 2 ^ 12 + posOf t.core * 2 ^ 23
  | some n => ((nth (s.core t.core).arch.slots n none).getD 0).toNat % 2 ^ 26

/-- The loss of access that takes effect at trigger for this bundle, whose first trigger is `since`, and later ones (R235, R237). -/
def loseAccess (k : Core) (w since : Nat) : Core :=
  match fromSlot w with
  | none => { k with handedOut := k.handedOut ++ [⟨bufBase w, bufLen w, since, .away⟩] }
  | some n => { k with
      parted := k.parted ++ ((nth k.arch.slots n none).map fun h => (⟨since, n, h⟩ : Parted)).toList
      arch := { k.arch with slots := updAt k.arch.slots n fun _ => none } }

/-- No tile in the range handed on is busy, filling or draining (R235, step 2). -/
def rangeIdle (s : State) (t : Trig) : Bool :=
  (s.core t.core).arch.tiles.toList.all fun x =>
    let w := x.word.toNat
    let inside := match fromSlot t.sa with
      | some n => tHold w = n + 1
      | none => tHold w = 0 && decide (tBase w < (bufBase t.sa + bufLen t.sa) * 1024) &&
          decide (bufBase t.sa * 1024 < tBase w + tileSize w)
    !(x.cfg && inside && (x.busy != 0 || x.state = .filling || x.state = .draining))

/-- The handle joins the target's inbound queue with the cluster's next SERIAL (R235, step 4); the owner notes the holder (R237). -/
def deliverHandle (c tgt h : Nat) : Prog := .get fun s =>
  let dst := coreAtPos c tgt
  let owner := coreAtPos c (field h 23 3)
  let cl := clusterOf c
  let n := (nth (s.die (dieOf c)).serial cl 0).toNat
  Prog.all [
    setCore owner (fun k => { k with handedOut := k.handedOut.map fun x =>
      if x.basek = h % 4096 ∧ x.lenk = field h 12 11 then
        { x with holder := if dst = owner then .home else ((s.core dst).ctx.map fun y => Holder.ctx y.id).getD (.core dst) }
      else x }),
    setCore c (fun k => { k with parted := k.parted.filter fun p => p.handle.toNat % 2 ^ 26 != h }),
    setCore dst (fun k => { k with inbound := k.inbound ++ [info (h + n * 2 ^ 32)] }),
    .eff (.die (dieOf c) fun d => { d with serial := updAt d.serial cl (· + 1) })]

/-- A sum past 2^64 - 1 made for a context by other work than a CADD is a class E record (R362, R384). -/
def overflowRecord (c h source inst : Nat) : Prog := .get fun s =>
  errorRecord { coreRecord s c 0x18 1 h with source := source, inst := inst }

/-- THAND (R235, R237): the loss of access at once, then the fence and the wait for the range's tiles, the delivery, and last the
counter's add as a release of every path. The wait stands in flight under number 30. Inside a segment the delivery is deferred. -/
def opThand : Op :=
  opRun 21 thandCheck fun s t =>
    let c := t.core
    let w := { t with unit := 30 }
    if t.stage = 0 then
      let next := { t with stage := 1, checked := true, aux := wide (thandHandle s t) }
      Prog.all [
        finish t 1 [],
        queueMarker t pathS, queueMarker t pathV,
        setCore c (fun k => { k with fences := k.fences ++ [⟨t.seq, 0x0F, 0⟩] }),
        setCore c (fun k => loseAccess k t.sa (low t.aux)),
        if mustDefer s t then deferOp { next with unit := 30 } 1 false else postOp 0 next]
    else if t.stage = 1 then Prog.all [await_ w 1 false 7, postOp 0 { t with stage := 2 }]
    else if t.stage = 2 then
      if pathsDone s c 0x0F t.seq && rangeIdle s t && decide ((s.core (coreAtPos c t.sb)).inbound.length < 8) then Prog.all [
        setCore c (fun k => { k with fences := k.fences.filter fun x => decide (x.seq ≠ t.seq) }),
        deliverHandle c t.sb (low t.aux),
        if bit t.sc 32 = 1 then postOp 0 { t with stage := 3 } else settle c 30 t.seq id]
      else postOp 1 t
    else if pathsDone s c 0x7F (t.covers s) then
      match (s.core c).ctx with
      | none => settle c 30 t.seq id
      | some x =>
        let h := handleIn t.sc
        decision x (bit h 16) 1 h (partyKey s x 0) true t.inTrap
          (Prog.all [counterAdd h 1 (overflowRecord c h 0 (c % 128)), settle c 30 t.seq id]) (postOp 1 t)
    else postOp 1 t
def execThand (s : State) : Host.Outcome State Fault Refusal := runOp opThand s

/-- The slot check of the oldest inbound handle: a foreign one needs slot b free (R236). -/
def slotTaken (s : State) (c b : Nat) : Bool :=
  match (s.core c).inbound with
  | [] => false
  | h :: _ => coreAtPos c (handleOwner h) != c && (nth (s.core c).arch.slots b none).isSome

/-- TTAKE's checks (R236): the handle queued at trigger is judged precisely, unless an earlier TTAKE takes it. -/
def ttakeCheck (s : State) (t : Trig) : Verdict :=
  let waits := (s.core t.core).flights.any fun f => f.unit = 21 && f.lands && !f.ready
  (need (t.sb < 8) 0x03 t.sb).and (need (waits || !slotTaken s t.core t.sb) 0x03 t.sb)

/-- A handle is taken (R236): its owner regains the range, any other core installs it in slot b. -/
def takeHandle (c b : Nat) (h : Handle) (k : Core) : Core :=
  let seg := k.seg.map fun (g : Segment) => { g with taken := g.taken ++ [h] }
  let k := { k with inbound := k.inbound.tail, seg := seg }
  if coreAtPos c (handleOwner h) = c then
    { k with handedOut := k.handedOut.filter fun x => !(x.basek = handleBase h && x.lenk = handleLen h) }
  else { k with arch := { k.arch with slots := updAt k.arch.slots b fun _ => some h } }

/-- TTAKE (R236): in trigger order, the oldest inbound handle; while there is none it waits. -/
def opTtake : Op :=
  opRun 21 ttakeCheck fun s t =>
    let c := t.core
    let k := s.core c
    let wait := if t.stage = 0 then Prog.all [await_ t 40 true 1, postOp 1 { t with stage := 1, checked := true }] else postOp 1 t
    if k.flights.any fun f => f.unit = 21 && f.lands && f.seq < t.seq && !f.ready then wait
    else match k.inbound with
      | [] => wait
      | h :: _ =>
        Prog.all [
          Prog.when_ (t.stage = 0) (await_ t 40 true 1),
          if slotTaken s c t.sb then settle c t.unit t.seq fun f => { f with posts := [.fault 0x03 (info t.sb) t.slot] }
          else Prog.all [
            setCore c (takeHandle c t.sb h),
            settle c t.unit t.seq fun f => { f with y0 := wide h.toNat }]]
def execTtake (s : State) : Host.Outcome State Fault Refusal := runOp opTtake s

end Sys2Proof.Machine
end

