-- ==== Sys2Proof/Machine/Va.lean ====
section
/-! DEFINITION. The vector ALUs VA0 and VA1 (R164 to R168). -/

namespace Sys2Proof.Machine

/-- The unit that u names. -/
def vaUnit (u : Bool) : Nat := if u then 14 else 13

/-- An operation of VA0 or VA1 without a check: bound 2 (R160, R164). -/
def vaOp (u : Bool) (f : Vec → Vec → Vec → Vec) : Op := opRun (vaUnit u) always fun _ t => land t 2 (f t.a t.b t.c) []

/-- VADD, VSUB and VMUL (R162 to R164): `md` is the rounding code, or for integers `.sat`. -/
def vaArith (u : Bool) (ty : ElemType) (md : BitVec 3) (fi : Int → Int → Int) (fn : Bool → Num → Num → Num) : Op :=
  let f := fun (a b : Nat) =>
    if tyFloat ty then floatResult ty md.toNat (fn (md.toNat = 3) (tyNum ty a) (tyNum ty b))
    else intResult ty (md.getLsbD 0) (fi (tyInt ty a) (tyInt ty b))
  vaOp u fun a b _ => map2 (tyWidth ty) f a b

/-- A comparison's element result (R164). -/
def vaCompare (u : Bool) (ty : ElemType) (ri : Int → Int → Bool) (rn : Num → Num → Bool) : Op :=
  vaOp u fun a b _ => map2 (tyWidth ty) (fun x y =>
    (if tyFloat ty then rn (tyNum ty x) (tyNum ty y) else ri (tyInt ty x) (tyInt ty y)).toNat) a b

/-- A shift by an element's count; a count of the width or more is given to `far` (R164). -/
def vaShift (u : Bool) (ty : ElemType) (f : Nat → Nat → Nat) (far : Nat → Nat) : Op :=
  let w := tyWidth ty
  vaOp u fun a b _ => map2 w (fun x n => if n ≥ w then far x else f x n) a b

/-- A float with its sign bit changed, or the canonical NaN (R164). -/
def signFloat (ty : ElemType) (f : Bool → Bool) (x : Nat) : Nat :=
  let w := tyWidth ty
  if (tyNum ty x).isNan then (tyFmt ty).nanCode
  else x % 2 ^ (w - 1) + (f (decide (bit x (w - 1) = 1))).toNat * 2 ^ (w - 1)

def opVadd (u : Bool) (ty : ElemType) (md : BitVec 3) : Op :=
  vaArith u ty md (fun a b => a + b) fun rd x y => Num.add rd x y
def execVadd (u : Bool) (ty : ElemType) (md : BitVec 3) (s : State) : Host.Outcome State Fault Refusal := runOp (opVadd u ty md) s
def opVsub (u : Bool) (ty : ElemType) (md : BitVec 3) : Op :=
  vaArith u ty md (fun a b => a - b) fun rd x y => Num.add rd x y.negate
def execVsub (u : Bool) (ty : ElemType) (md : BitVec 3) (s : State) : Host.Outcome State Fault Refusal := runOp (opVsub u ty md) s
def opVmul (u : Bool) (ty : ElemType) (md : BitVec 3) : Op :=
  vaArith u ty md (fun a b => a * b) fun _ x y => Num.mul x y
def execVmul (u : Bool) (ty : ElemType) (md : BitVec 3) (s : State) : Host.Outcome State Fault Refusal := runOp (opVmul u ty md) s
def opVmin (u : Bool) (ty : ElemType) : Op :=
  vaOp u fun a b _ => map2 (tyWidth ty) (pickElem ty false) a b
def execVmin (u : Bool) (ty : ElemType) (s : State) : Host.Outcome State Fault Refusal := runOp (opVmin u ty) s
def opVmax (u : Bool) (ty : ElemType) : Op :=
  vaOp u fun a b _ => map2 (tyWidth ty) (pickElem ty true) a b
def execVmax (u : Bool) (ty : ElemType) (s : State) : Host.Outcome State Fault Refusal := runOp (opVmax u ty) s
def opVand (u : Bool) : Op := vaOp u fun a b _ => a &&& b
def execVand (u : Bool) (s : State) : Host.Outcome State Fault Refusal := runOp (opVand u) s
def opVor (u : Bool) : Op := vaOp u fun a b _ => a ||| b
def execVor (u : Bool) (s : State) : Host.Outcome State Fault Refusal := runOp (opVor u) s
def opVxor (u : Bool) : Op := vaOp u fun a b _ => a ^^^ b
def execVxor (u : Bool) (s : State) : Host.Outcome State Fault Refusal := runOp (opVxor u) s
/-- VANDN (R164): a AND NOT b. -/
def opVandn (u : Bool) : Op := vaOp u fun a b _ => a &&& ~~~b
def execVandn (u : Bool) (s : State) : Host.Outcome State Fault Refusal := runOp (opVandn u) s
def opVshl (u : Bool) (ty : ElemType) : Op :=
  vaShift u ty (fun x n => x * 2 ^ n) fun _ => 0
def execVshl (u : Bool) (ty : ElemType) (s : State) : Host.Outcome State Fault Refusal := runOp (opVshl u ty) s
def opVshr (u : Bool) (ty : ElemType) : Op :=
  vaShift u ty (fun x n => x / 2 ^ n) fun _ => 0
def execVshr (u : Bool) (ty : ElemType) (s : State) : Host.Outcome State Fault Refusal := runOp (opVshr u ty) s
/-- VSAR (R164): counts of the width or more give the sign fill. -/
def opVsar (u : Bool) (ty : ElemType) : Op :=
  let w := tyWidth ty
  vaShift u ty (fun x n => enc (sint x w / 2 ^ n) w) fun x => if bit x (w - 1) = 1 then 2 ^ w - 1 else 0
def execVsar (u : Bool) (ty : ElemType) (s : State) : Host.Outcome State Fault Refusal := runOp (opVsar u ty) s
def opVceq (u : Bool) (ty : ElemType) : Op :=
  vaCompare u ty (fun a b => decide (a = b)) Num.eq
def execVceq (u : Bool) (ty : ElemType) (s : State) : Host.Outcome State Fault Refusal := runOp (opVceq u ty) s
def opVcne (u : Bool) (ty : ElemType) : Op :=
  vaCompare u ty (fun a b => decide (a ≠ b)) fun x y => !x.eq y
def execVcne (u : Bool) (ty : ElemType) (s : State) : Host.Outcome State Fault Refusal := runOp (opVcne u ty) s
def opVclt (u : Bool) (ty : ElemType) : Op :=
  vaCompare u ty (fun a b => decide (a < b)) Num.lt
def execVclt (u : Bool) (ty : ElemType) (s : State) : Host.Outcome State Fault Refusal := runOp (opVclt u ty) s
def opVcle (u : Bool) (ty : ElemType) : Op :=
  vaCompare u ty (fun a b => decide (a ≤ b)) fun x y => x.lt y || x.eq y
def execVcle (u : Bool) (ty : ElemType) (s : State) : Host.Outcome State Fault Refusal := runOp (opVcle u ty) s
/-- VSEL (R164): bit 0 of c's lanes chooses. -/
def opVsel (u : Bool) : Op :=
  vaOp u fun a b c => map3 32 (fun x y z => if bit z 0 = 1 then x else y) a b c
def execVsel (u : Bool) (s : State) : Host.Outcome State Fault Refusal := runOp (opVsel u) s
/-- VABS (R163, R164). -/
def opVabs (u : Bool) (ty : ElemType) (sat : Bool) : Op :=
  vaOp u fun _ b _ => map1 (tyWidth ty) (fun x =>
    if tyFloat ty then signFloat ty (fun _ => false) x else intResult ty sat ((tyInt ty x).natAbs : Int)) b
def execVabs (u : Bool) (ty : ElemType) (sat : Bool) (s : State) : Host.Outcome State Fault Refusal := runOp (opVabs u ty sat) s
/-- VNEG (R163, R164). -/
def opVneg (u : Bool) (ty : ElemType) (sat : Bool) : Op :=
  vaOp u fun _ b _ => map1 (tyWidth ty) (fun x =>
    if tyFloat ty then signFloat ty (fun n => !n) x else intResult ty sat (-(tyInt ty x))) b
def execVneg (u : Bool) (ty : ElemType) (sat : Bool) (s : State) : Host.Outcome State Fault Refusal := runOp (opVneg u ty sat) s
/-- VCLAMP (R164): min(max(x, lo), hi), with lo in a, x in b, hi in c; a NaN x gives NaN. -/
def opVclamp (u : Bool) (ty : ElemType) : Op :=
  vaOp u fun a b c => map3 (tyWidth ty) (fun lo x hi =>
    if tyFloat ty && (tyNum ty x).isNan then (tyFmt ty).nanCode
    else pickElem ty false (pickElem ty true x lo) hi) a b c
def execVclamp (u : Bool) (ty : ElemType) (s : State) : Host.Outcome State Fault Refusal := runOp (opVclamp u ty) s

/-- r of VCVT: the ratio of the widths (R165). -/
def cvtRatio (src dst : ElemType) : Nat :=
  max (tyWidth src) (tyWidth dst) / min (tyWidth src) (tyWidth dst)

/-- VCVT's parameters (R165). -/
def cvtCheck (src dst : ElemType) (_ : State) (t : Trig) : Verdict :=
  let p := param t.a
  need (field p 0 3 < 5 && decide (field p 4 2 < cvtRatio src dst)) 0x03 p

/-- VCVT (R165): each destination element with what it counts; those not converted come from c. -/
def cvtElems (s : State) (t : Trig) (src dst : ElemType) : List (Nat × Conv) :=
  let p := param t.a
  let rm := field p 0 3
  let q := field p 4 2
  let ws := tyWidth src
  let wd := tyWidth dst
  let one := fun (d x : Nat) => (d, cvtElem src dst rm (bitsFor s t rm 2 0 d) (bit p 3 = 1) x)
  if wd ≥ ws then (List.range (elCount wd)).map fun j => one j (el t.b ws (q * elCount wd + j))
  else (List.range (elCount ws)).map fun i => one (q * elCount ws + i) (el t.b ws i)

/-- VCVT (R165): a lane 0 controls, b is the source; events count where the guard passes (R138). -/
def opVcvt (u : Bool) (src dst : ElemType) : Op :=
  opRun (vaUnit u) (cvtCheck src dst) fun s t =>
    let wd := tyWidth dst
    let l := cvtElems s t src dst
    let first := (l.head?.map (·.1)).getD 0
    let arr := (l.map (·.2)).toArray
    let y := vecOf (elCount wd) wd fun j =>
      if j < first then el t.c wd j else match arr[j - first]? with | some r => r.code | none => el t.c wd j
    let counted := (l.filter fun x => passes t (x.1 * wd / 32)).map (·.2)
    Prog.all [countSr t (field (param t.a) 0 3 = 4), land t 2 y (convPost counted)]
def execVcvt (u : Bool) (src dst : ElemType) (s : State) : Host.Outcome State Fault Refusal := runOp (opVcvt u src dst) s

/-- VIOTA (R166). -/
def opViota (u : Bool) (ty : ElemType) : Op :=
  let w := tyWidth ty
  vaOp u fun _ b _ => vecOf (elCount w) w fun j => param b + j
def execViota (u : Bool) (ty : ElemType) (s : State) : Host.Outcome State Fault Refusal := runOp (opViota u ty) s

/-- A predicate operation on bit 0 of the lanes (R167). -/
def predOp (u : Bool) (f : Bool → Bool → Bool) : Op :=
  vaOp u fun a b _ => vecOf 256 32 fun l => (f (a.getLsbD (32 * l)) (b.getLsbD (32 * l))).toNat

def opPand (u : Bool) : Op := predOp u fun x y => x && y
def execPand (u : Bool) (s : State) : Host.Outcome State Fault Refusal := runOp (opPand u) s
def opPor (u : Bool) : Op := predOp u fun x y => x || y
def execPor (u : Bool) (s : State) : Host.Outcome State Fault Refusal := runOp (opPor u) s
def opPxor (u : Bool) : Op := predOp u fun x y => x != y
def execPxor (u : Bool) (s : State) : Host.Outcome State Fault Refusal := runOp (opPxor u) s
def opPandn (u : Bool) : Op := predOp u fun x y => x && !y
def execPandn (u : Bool) (s : State) : Host.Outcome State Fault Refusal := runOp (opPandn u) s
def opPnot (u : Bool) : Op := predOp u fun _ y => !y
def execPnot (u : Bool) (s : State) : Host.Outcome State Fault Refusal := runOp (opPnot u) s
/-- PSETN (R167). -/
def opPsetn (u : Bool) : Op :=
  vaOp u fun _ b _ => vecOf 256 32 fun l => (decide (l < param b)).toNat
def execPsetn (u : Bool) (s : State) : Host.Outcome State Fault Refusal := runOp (opPsetn u) s

/-- A scalar of the passing lanes, broadcast and recorded with `.cr` (R157, R158, R167). -/
def laneScalar (unit bound : Nat) (cr : Bool) (chk : State → Trig → Verdict) (f : State → Trig → Nat) : Op :=
  opRun unit (fun s t => (recordCheck cr s t).and (chk s t)) fun s t =>
    let v := f s t
    Prog.all [reserveRecord t cr, land t bound (broadcast v) (recordPost t cr v)]

/-- PCNT (R167): passing lanes whose b bit 0 is 1. -/
def opPcnt (u : Bool) (cr : Bool) : Op :=
  laneScalar (vaUnit u) 2 cr always fun _ t => ((passing t).filter fun l => t.b.getLsbD (32 * l)).length
def execPcnt (u : Bool) (cr : Bool) (s : State) : Host.Outcome State Fault Refusal := runOp (opPcnt u cr) s
/-- PFIRST (R167): the lowest such lane, or 256. -/
def opPfirst (u : Bool) (cr : Bool) : Op :=
  laneScalar (vaUnit u) 2 cr always fun _ t => ((passing t).find? fun l => t.b.getLsbD (32 * l)).getD 256
def execPfirst (u : Bool) (cr : Bool) (s : State) : Host.Outcome State Fault Refusal := runOp (opPfirst u cr) s

/-- PPACK (R168): the predicates were read at the start of the bundle into aux. -/
def opPpack (u : Bool) (hi : Bool) : Op :=
  opRun (vaUnit u) always fun _ t =>
    let base := if hi then 8 else 0
    let y := vecOf 256 32 fun l => ofBits 8 fun j => bit (digit t.aux.toNat 256 (base + j)) l = 1
    land t 2 y []
def execPpack (u : Bool) (hi : Bool) (s : State) : Host.Outcome State Fault Refusal := runOp (opPpack u hi) s

/-- PUNPACK (R168): predicate writes at landing in the passing lanes; until the bound the predicates are undefined. They are named
through ROTP as it stood at the bundle, which bits 4096 on of aux hold. -/
def opPunpack (u : Bool) (hi : Bool) : Op :=
  opRun (vaUnit u) always fun s t =>
    let base := if hi then 8 else 0
    let rotp := field t.aux.toNat 4096 3
    let phys := fun (j : Nat) => if base + j < 8 then base + j else 8 + (base + j - 8 + rotp) % 8
    let value := fun (j : Nat) => BitVec.ofNat 256 (ofBits 256 fun l => t.b.getLsbD (32 * l + j))
    addFlight t.core { flightOf t s.time 2 with
      y0 := t.b
      preds := (List.range 8).map phys
      posts := (List.range 8).map fun j => .pred (phys j) (value j) }
def execPunpack (u : Bool) (hi : Bool) (s : State) : Host.Outcome State Fault Refusal := runOp (opPunpack u hi) s

end Sys2Proof.Machine
end

