-- ==== Sys2Proof/Machine/Vl.lean ====
section
/-! DEFINITION. Vector memory, unit VL (R336 to R351): whole-register and strided access, tiles, gathers and scatters, compressed
vectors. -/

namespace Sys2Proof.Machine

/-- Latency bounds of R337 by space reached: scratchpad, window, global; class 0 is the parameter block. -/
def vlBound (sp win glob cls : Nat) : Nat :=
  match cls with
  | 0 => if sp = 8 then 4 else sp
  | 1 => sp | 2 => win | _ => glob

/-- The verdicts of several accesses: a hold or walk first, then the fault that comes first in R75's order (R339). -/
def firstBad (l : List Verdict) : Verdict :=
  match l.find? (fun v => match v with | .hold .. | .walk _ | .unread .. => true | _ => false) with
  | some v => v
  | none =>
    let code := fun (n : Nat) => l.find? fun v => match v with | .bad c _ => decide (c = n) | _ => false
    let order := [0x12, 0x15, 0x09, 0x0A, 0x0B, 0x0C]
    match order.findSome? code with
    | some v => v
    | none => .go

/-- The verdict on a whole range of n bytes; TRAPINFO names its lowest failing byte (R339, R340). -/
def rangeCheck (s : State) (c : Nat) (glob write : Bool) (a n : Nat) : Verdict :=
  match accessCheck s c pathV glob write false a n with
  | .bad code i =>
    let hit := (lineRuns a n).find? fun r => match accessCheck s c pathV glob write false (a + r.1) r.2 with
      | .bad k _ => decide (k = code)
      | _ => false
    match hit with
    | some r => .bad code (if code = 0x15 then i else info (a + r.1))
    | none => .bad code (info (if glob then a else (a / 0x100000 + 1) * 0x100000))
  | v => v

/-- The checks of a whole-register access at a: alignment, then the range (R339, R342). -/
def wholeCheck (write g : Bool) (s : State) (t : Trig) : Verdict :=
  (fenceCheck s t.core pathV).and <| (need (t.sa % 64 = 0) 0x08 t.sa).and (rangeCheck s t.core g write t.sa 1024)

/-- Pieces of a store of n bytes under a lane mask: with a mask, one for each lane that passes (R21, R340). -/
def maskedPieces (t : Trig) (l : List (Loc × Nat × Nat)) : List Piece :=
  match t.mask with
  | none => piecesFrom 0 l
  | some m => l.flatMap fun x => (List.range 256).filterMap fun i =>
      let lo := max (4 * i) x.2.1
      let hi := min (4 * i + 4) (x.2.1 + x.2.2)
      if m.getLsbD i && lo < hi then some ⟨x.1.plus (lo - x.2.1), hi - lo, 8 * lo⟩ else none

/-- A vector load lands within its bound, with further results and effects. -/
def awaitLoad (t : Trig) (bound : Nat) (y1 : Option Vec) (posts : List Post) : Prog := .get fun s =>
  addFlight t.core { flightOf t s.time bound with ready := false, y1 := y1, posts := posts }

/-- VLD (R342). -/
def opVld (g : Bool) : Op :=
  opRun 17 (wholeCheck false g) fun s t =>
    let bound := vlBound 8 40 700 (spaceClass g t.sa)
    Prog.all [
      awaitLoad t bound none [],
      queueAccess t pathV (.load 1024 false []) (piecesFrom 0 (accessHomes s t.core pathV g false false t.sa 1024)) (bound - 1)]
def execVld (g : Bool) (s : State) : Host.Outcome State Fault Refusal := runOp (opVld g) s

/-- VST (R342). -/
def opVst (g : Bool) : Op :=
  opRun 17 (wholeCheck true g) fun s t => Prog.all [
    finish t 1 [],
    queueAccess t pathV (.store t.b) (maskedPieces t (accessHomes s t.core pathV g true false t.sa 1024)) storeWait]
def execVst (g : Bool) (s : State) : Host.Outcome State Fault Refusal := runOp (opVst g) s

/-- The elements of a strided access in passing lanes, with their addresses (R340, R343). -/
def stridedElems (ty : ElemType) (t : Trig) : List (Nat × Nat) :=
  let w := tyWidth ty
  ((List.range (elCount w)).filter fun j => passes t (j * w / 32)).map fun j =>
    (j, enc ((t.sa : Int) + (j : Int) * sint t.sc 64) 64)

/-- Alignment of elements of n bytes, lowest first, then their accesses (R339). -/
def elemsCheck (s : State) (c : Nat) (glob write amo : Bool) (n : Nat) (l : List Nat) : Verdict :=
  let aligned : Verdict := match l.find? (fun a => a % n != 0) with
    | some a => .bad 0x08 (info a)
    | none => .go
  aligned.and (firstBad (l.map fun a => accessCheck s c pathV glob write amo a n))

/-- The checks of VLDS and VSTS. -/
def stridedCheck (write g : Bool) (ty : ElemType) (s : State) (t : Trig) : Verdict :=
  (fenceCheck s t.core pathV).and (elemsCheck s t.core g write false (tyWidth ty / 8) ((stridedElems ty t).map (·.2)))

/-- Pieces of elements: each n bytes at an address, at bit `at_` of the value. -/
def elemPieces (s : State) (c : Nat) (glob write amo : Bool) (n : Nat) (l : List (Nat × Nat)) : List Piece :=
  l.flatMap fun x => piecesFrom x.1 (accessHomes s c pathV glob write amo x.2 n)

/-- The largest bound over the spaces that elements reach. -/
def elemBound (sp win gl : Nat) (g : Bool) (l : List Nat) : Nat :=
  if l.isEmpty then sp else l.foldl (fun m a => max m (vlBound sp win gl (spaceClass g a))) 0

/-- VLDS (R343). -/
def opVlds (g : Bool) (ty : ElemType) : Op :=
  opRun 17 (stridedCheck false g ty) fun s t =>
    let l := stridedElems ty t
    let bound := elemBound 8 40 700 g (l.map (·.2))
    Prog.all [
      awaitLoad t bound none [],
      queueAccess t pathV (.load 1024 false [])
        (elemPieces s t.core g false false (tyWidth ty / 8) (l.map fun x => (x.1 * tyWidth ty, x.2))) (bound - 1)]
def execVlds (g : Bool) (ty : ElemType) (s : State) : Host.Outcome State Fault Refusal := runOp (opVlds g ty) s

/-- VSTS (R343): elements are written in order, so the highest of those at one address stays (R266). -/
def opVsts (g : Bool) (ty : ElemType) : Op :=
  opRun 17 (stridedCheck true g ty) fun s t => Prog.all [
    finish t 1 [],
    queueAccess t pathV (.store t.b)
      (elemPieces s t.core g true false (tyWidth ty / 8) ((stridedElems ty t).map fun x => (x.1 * tyWidth ty, x.2))) storeWait]
def execVsts (g : Bool) (ty : ElemType) (s : State) : Host.Outcome State Fault Refusal := runOp (opVsts g ty) s

/-- TILE, PART and HALF of a selector (R344). -/
def selTile (t : Trig) : Nat := field t.sa 0 6

/-- See selTile. -/
def selPart (t : Trig) : Nat := field t.sa 8 12

/-- See selTile. -/
def selHalf (t : Trig) : Nat := bit t.sa 20

/-- Bytes of part PART that lie in the tile (R345). -/
def partBytes (w part : Nat) : Nat := min 1024 (tileSize w - 1024 * part)

/-- VLDT's checks (R344, R345). -/
def vldtCheck (s : State) (t : Trig) : Verdict :=
  let n := selTile t
  let x := tileAt s t.core n
  let w := x.word.toNat
  (fenceCheck s t.core pathV).and <| (tileNeed x.cfg x n).then_ <|
    (need (1024 * selPart t < tileSize w) 0x03 t.sa).and <| (tileReady x n).and <|
      tileAccess s t.core pathV false n (1024 * selPart t) (partBytes w (selPart t))

/-- VLDT (R345): a reader; the tile, counted as read from the trigger on, stays out of empty until it has been performed (R218). -/
def opVldt : Op :=
  opRun 17 vldtCheck fun s t =>
    let n := selTile t
    let w := (tileAt s t.core n).word.toNat
    let bound := if tHold w = 0 then 8 else 40
    Prog.all [
      awaitLoad t bound none [.tileRead n],
      queueAccess t pathV (.load 1024 false [])
        (piecesFrom 0 (tileHomes s t.core pathV false n (1024 * selPart t) (partBytes w (selPart t)))) (bound - 1)]
def execVldt (s : State) : Host.Outcome State Fault Refusal := runOp opVldt s

/-- Where VSTT writes in the tile's storage: offset and bytes; a block-row of planes, or a part (R346). -/
def vsttSpan (w part : Nat) : Nat × Nat :=
  if tPlanes w then (part * blockRowBytes (tFmt w), blockRowBytes (tFmt w)) else (1024 * part, partBytes w part)

/-- VSTT's checks (R344, R346). -/
def vsttCheck (s : State) (t : Trig) : Verdict :=
  let n := selTile t
  let x := tileAt s t.core n
  let w := x.word.toNat
  let part := selPart t
  let fits := if tPlanes w then decide (part < tRows w / 32) && (tFmt w = 8 || selHalf t = 0)
    else decide (1024 * part < tileSize w) && selHalf t = 0
  let span := vsttSpan w part
  (fenceCheck s t.core pathV).and <| (tileNeed x.cfg x n).then_ <| (need fits 0x03 t.sa).and <|
    (if x.state = .filling && x.filler = .program then tileFree x n else .hold 3 21 n).and <|
      tileAccess s t.core pathV true n span.1 span.2

/-- VSTT (R346). -/
def opVstt : Op :=
  opRun 17 vsttCheck fun s t =>
    let n := selTile t
    let w := (tileAt s t.core n).word.toNat
    let span := vsttSpan w (selPart t)
    let homes := tileHomes s t.core pathV true n span.1 span.2
    Prog.all [
      finish t 1 [],
      if tPlanes w then queueAccess t pathV (.planes (tFmt w) (selHalf t) t.b t.mask) (piecesFrom 0 homes) storeWait
      else queueAccess t pathV (.store t.b) (maskedPieces t homes) storeWait]
def execVstt (s : State) : Host.Outcome State Fault Refusal := runOp opVstt s

/-- The descriptor at an address, as VL reads it before the bundle issues (R347). -/
def descAt (s : State) (c path : Nat) (g : Bool) (a : Nat) : Nat := readPieces s (accessHomes s c path g false false a 128)

/-- The descriptor of a gather or scatter: what its bundle read, or, where no bundle has, what stands at its address (R347). -/
def gDesc (s : State) (g : Bool) (t : Trig) : Nat := if t.checked then t.head.toNat else descAt s t.core pathV g t.sa

/-- A read of a descriptor or header takes its turn in its path: earlier loads of the path, and stores before a marker, go before it
(R273, R341, R401). -/
def headHold (s : State) (c path unit : Nat) : Verdict :=
  let l := (s.core c).accesses.filter fun a => a.path = path
  let x : Access := ⟨path, (s.core c).trigSeq, unit, 0, .load 128 false [], [], 0, false, []⟩
  if (markedBefore l).any (precedes false x) then .hold 10 unit 0 else .go

/-- The check of an access whose bytes the operation reads before its bundle issues: its address faults, then errors under it. -/
def headCheck (s : State) (c path : Nat) (g : Bool) (a n : Nat) (address : Verdict) : Verdict :=
  address.then_ (readCheck s (accessHomes s c path g false false a n))

/-- The element type of a gather: FMT 0x8 acts as PTYPE 7 (R347). -/
def gatherType (d : Nat) : ElemType := if dFmt d = 8 then .bf16 else ElemType.ofCode (dType d)

/-- The passing lanes with their indices and what each selects (R264). -/
def gatherLanes (d : Nat) (idx : Vec) (t : Trig) : List (Nat × Nat × Option Nat) :=
  (passing t).map fun l => (l, lane idx l, indexed d (sint (lane idx l) 32))

/-- The elements that lanes reach: lane and address. -/
def gatherElems (d : Nat) (idx : Vec) (t : Trig) : List (Nat × Nat) :=
  (gatherLanes d idx t).filterMap fun x => x.2.2.map fun i => (x.1, elemAddr d (offsetOf d i))

/-- The count of out-of-bounds lanes under the zero policy (R264). -/
def outCount (d : Nat) (idx : Vec) (t : Trig) : Nat := ((gatherLanes d idx t).filter fun x => x.2.2.isNone).length

/-- The checks of a gather or scatter, in R339's order (R347, R349). -/
def gatherCheck (g cr write amo : Bool) (idx : Trig → Vec) (ctl : Trig → Verdict) (s : State) (t : Trig) : Verdict :=
  let d := descAt s t.core pathV g t.sa
  let ty := gatherType d
  let fit := (dFmt d = 0 || dFmt d = 8) && (!amo || ty = .i32 || ty = .ui32 || ty = .f32 || ty = .bf16)
  let bad := (gatherLanes d (idx t) t).find? fun x => x.2.2.isNone && dOob d = 0
  let l := (gatherElems d (idx t) t).map (·.2)
  let outside : Verdict := match bad with
    | some x => .bad 0x13 (info (x.1 + x.2.1 * 2 ^ 32))
    | none => .go
  (recordCheck cr s t).and <| (fenceCheck s t.core pathV).and <| (ctl t).and <| (need (t.sa % 128 = 0) 0x08 t.sa).and <|
    (headCheck s t.core pathV g t.sa 128 (accessCheck s t.core pathV g false false t.sa 128)).then_ <|
      (headHold s t.core pathV 17).then_ <|
        (need (sealed s d && fit) 0x22 (t.sa % 2 ^ 32 * 2 ^ 32)).then_ <|
          (outside.and (elemsCheck s t.core (!dLocal d) write amo (tyWidth ty / 8) l)).then_ <|
            if amo then updateCheck s t (l.flatMap fun a => accessHomes s t.core pathV (!dLocal d) write amo a (tyWidth ty / 8)) else .go

/-- VGATH (R348). -/
def opVgath (g cr : Bool) : Op :=
  opRun 17 (gatherCheck g cr false false (·.b) fun _ => .go) fun s t =>
    let d := gDesc s g t
    let l := gatherElems d t.b t
    let n := outCount d t.b t
    let bound := elemBound 16 48 900 (!dLocal d) (l.map (·.2))
    Prog.all [
      reserveRecord t cr,
      awaitLoad t bound (some (broadcast n)) (recordPost t cr n),
      queueAccess t pathV (.load 1024 false [])
        (elemPieces s t.core (!dLocal d) false false (tyWidth (gatherType d) / 8) (l.map fun x => (32 * x.1, x.2)))
        (bound - 1)]
def execVgath (g cr : Bool) (s : State) : Host.Outcome State Fault Refusal := runOp (opVgath g cr) s

/-- The index register of a scatter is c<0..5>; a higher bit set raises 0x03 (R349). -/
def scatterCtl (t : Trig) : Verdict := need (t.sc < 64) 0x03 t.sc

/-- VSCAT (R349): pieces in lane order, so the highest lane stays (R266). -/
def opVscat (g cr : Bool) : Op :=
  opRun 17 (gatherCheck g cr true false (·.aux) scatterCtl) fun s t =>
    let d := gDesc s g t
    let n := outCount d t.aux t
    Prog.all [
      reserveRecord t cr,
      land t 4 (broadcast n) (recordPost t cr n),
      queueAccess t pathV (.store t.b)
        (elemPieces s t.core (!dLocal d) true false (tyWidth (gatherType d) / 8)
          ((gatherElems d t.aux t).map fun x => (32 * x.1, x.2))) storeWait]
def execVscat (g cr : Bool) (s : State) : Host.Outcome State Fault Refusal := runOp (opVscat g cr) s

/-- VSCATADD (R266, R349): one update for each distinct address, its lanes in increasing order. -/
def opVscatadd (g cr : Bool) : Op :=
  opRun 17 (gatherCheck g cr true true (·.aux) scatterCtl) fun s t =>
    let d := gDesc s g t
    let l := gatherElems d t.aux t
    let n := outCount d t.aux t
    let ty := gatherType d
    Prog.all [
      reserveRecord t cr,
      land t 4 (broadcast n) (recordPost t cr n),
      Prog.each (l.map (·.2)).dedup fun a =>
        queueAccess t pathV (.scatAdd ty t.b)
          (elemPieces s t.core (!dLocal d) true true (tyWidth ty / 8)
            ((l.filter fun x => x.2 = a).map fun x => (32 * x.1, x.2))) storeWait]
def execVscatadd (g cr : Bool) (s : State) : Host.Outcome State Fault Refusal := runOp (opVscatadd g cr) s

/-- The header of a compressed buffer, as VLDZ reads it before the bundle issues (R350). -/
def zipHeader (s : State) (g : Bool) (t : Trig) : Nat := readPieces s (accessHomes s t.core pathV g false false t.sa 64)

/-- A header for expansion at point 3 is refused (R350). -/
def zipBad (h : Nat) : Bool := headerBad h || decide (chdr h 32 4 > 1) || decide (chdr h 64 32 > 1024)

/-- The header that VLDZ goes by: what its bundle read, or, where no bundle has, what stands at its address (R350). -/
def zHeader (s : State) (g : Bool) (t : Trig) : Nat := if t.checked then t.head.toNat else zipHeader s g t

/-- VLDZ's checks (R350). -/
def vldzCheck (g : Bool) (s : State) (t : Trig) : Verdict :=
  let h := zipHeader s g t
  (fenceCheck s t.core pathV).and <|
  ((need (t.sa % 64 = 0) 0x08 t.sa).and (headCheck s t.core pathV g t.sa 64 (rangeCheck s t.core g false t.sa 64))).then_ <|
    (headHold s t.core pathV 17).then_ <|
    if chdr h 36 2 = 3 then
      (need (!zipBad h) 0x12 t.sa).then_ (rangeCheck s t.core g false t.sa (64 + chdr h 96 32))
    else rangeCheck s t.core g false t.sa 1024

/-- VLDZ (R350): y1 is the offset of the stream's next buffer. -/
def opVldz (g : Bool) : Op :=
  opRun 17 (vldzCheck g) fun s t =>
    let h := zHeader s g t
    let bound := vlBound 16 48 720 (spaceClass g t.sa)
    let homes := fun (a n : Nat) => piecesFrom 0 (accessHomes s t.core pathV g false false a n)
    if chdr h 36 2 = 3 then Prog.all [
      awaitLoad t bound (some (broadcast (64 + chdr h 128 32))) [],
      queueAccess t pathV (.unzip h t.sa t.slot) (homes (t.sa + 64) (chdr h 96 32)) (bound - 1)]
    else Prog.all [
      awaitLoad t bound (some (broadcast 1024)) [],
      queueAccess t pathV (.load 1024 false []) (homes t.sa 1024) (bound - 1)]
def execVldz (g : Bool) (s : State) : Host.Outcome State Fault Refusal := runOp (opVldz g) s

/-- RCAP of VSTZ's control word (R351). -/
def zCap (t : Trig) : Nat := field t.sc 0 24

/-- The elements VSTZ stores: those of passing lanes that are not zero (R351). -/
def zKept (w : Nat) (t : Trig) : List Nat := (List.range (elCount w)).filter fun j => passes t (j * w / 32) && el t.b w j != 0

/-- The payload length of VSTZ (R351). -/
def zLen (w : Nat) (t : Trig) : Nat := 4 + elCount w / 8 + (zKept w t).length * w / 8

/-- VSTZ's checks, in its own order (R351). -/
def vstzCheck (g : Bool) (ty : ElemType) (cr : Bool) (s : State) (t : Trig) : Verdict :=
  let l := zLen (tyWidth ty) t
  (recordCheck cr s t).and <| (fenceCheck s t.core pathV).and <|
    (need (zCap t % 64 = 0 && decide (64 ≤ zCap t)) 0x03 t.sc).and <|
      (need (decide (l ≤ zCap t)) 0x14 (l + zCap t * 2 ^ 32)).and <|
        (need (t.sa % 64 = 0) 0x08 t.sa).and (rangeCheck s t.core g true t.sa (64 + zCap t))

/-- The header and payload VSTZ writes (R320, R351). -/
def zImage (w : Nat) (t : Trig) : Nat :=
  let kept := (zKept w t).toArray
  let n := elCount w
  let ew := if w = 8 then 0 else if w = 16 then 1 else 2
  let header := 0x5A434C42 + field t.sc 24 2 * 2 ^ 36 + bit t.sc 26 * 2 ^ 38 + ew * 2 ^ 40 + 1024 * 2 ^ 64 + zLen w t * 2 ^ 96 +
    zCap t * 2 ^ 128
  let mask := ofBits n fun j => passes t (j * w / 32) && el t.b w j != 0
  let payload := kept.size % 2 ^ 16 + (n - 1) * 2 ^ 16 + mask * 2 ^ 32 +
    ofDigits kept.size w (fun i => el t.b w (kept[i]?.getD 0)) * 2 ^ (32 + n)
  header + payload * 2 ^ 512

/-- VSTZ (R351): one V-path store of header and payload. Its image may pass 1,024 bytes, so it is kept as two runs of one step. -/
def opVstz (g : Bool) (ty : ElemType) (cr : Bool) : Op :=
  opRun 17 (vstzCheck g ty cr) fun s t =>
    let w := tyWidth ty
    let l := zLen w t
    let image := zImage w t
    let put := fun (off n : Nat) => Prog.when_ (n != 0)
      (queueAccess t pathV (.store (BitVec.ofNat 8192 (image / 2 ^ (8 * off))))
        (piecesFrom 0 (accessHomes s t.core pathV g true false (t.sa + off) n)) storeWait)
    Prog.all [
      reserveRecord t cr,
      land t 4 (broadcast l) (recordPost t cr l),
      put 0 (min (64 + l) 1024), put 1024 (64 + l - 1024)]
def execVstz (g : Bool) (ty : ElemType) (cr : Bool) (s : State) : Host.Outcome State Fault Refusal := runOp (opVstz g ty cr) s

end Sys2Proof.Machine
end

