-- ==== Sys2Proof/Machine/Vm.lean ====
section
/-! DEFINITION. Multiply-add and functions, unit VM (R169 to R171). -/

namespace Sys2Proof.Machine

/-- A VM operation on float elements, rounded once (R162, R169, R171). -/
def vmFloat (bound : Nat) (ty : ElemType) (rm : BitVec 3) (f : Num → Num → Num → Num) : Op :=
  opRun 15 always fun _ t =>
    land t bound (map3 (tyWidth ty) (fun x y z =>
      floatResult ty rm.toNat (f (tyNum ty x) (tyNum ty y) (tyNum ty z))) t.a t.b t.c) []

/-- VFMA (R169). -/
def opVfma (ty : ElemType) (rm : BitVec 3) : Op :=
  vmFloat 4 ty rm fun x y z => Num.add (rm.toNat = 3) (Num.mul x y) z
def execVfma (ty : ElemType) (rm : BitVec 3) (s : State) : Host.Outcome State Fault Refusal := runOp (opVfma ty rm) s
/-- VFMS (R169). -/
def opVfms (ty : ElemType) (rm : BitVec 3) : Op :=
  vmFloat 4 ty rm fun x y z => Num.add (rm.toNat = 3) (Num.mul x y) z.negate
def execVfms (ty : ElemType) (rm : BitVec 3) (s : State) : Host.Outcome State Fault Refusal := runOp (opVfms ty rm) s
/-- VFNMA (R169). -/
def opVfnma (ty : ElemType) (rm : BitVec 3) : Op :=
  vmFloat 4 ty rm fun x y z => Num.add (rm.toNat = 3) (Num.mul x y).negate z
def execVfnma (ty : ElemType) (rm : BitVec 3) (s : State) : Host.Outcome State Fault Refusal := runOp (opVfnma ty rm) s
/-- VDIV (R171). -/
def opVdiv (ty : ElemType) (rm : BitVec 3) : Op :=
  vmFloat 12 ty rm fun x y _ => Num.div x y
def execVdiv (ty : ElemType) (rm : BitVec 3) (s : State) : Host.Outcome State Fault Refusal := runOp (opVdiv ty rm) s
/-- VSQRT (R171). -/
def opVsqrt (ty : ElemType) (rm : BitVec 3) : Op :=
  vmFloat 12 ty rm fun _ y _ => y.sqrt
def execVsqrt (ty : ElemType) (rm : BitVec 3) (s : State) : Host.Outcome State Fault Refusal := runOp (opVsqrt ty rm) s
/-- VRCP (R171). -/
def opVrcp (ty : ElemType) (rm : BitVec 3) : Op :=
  vmFloat 8 ty rm fun _ y _ => y.rcp
def execVrcp (ty : ElemType) (rm : BitVec 3) (s : State) : Host.Outcome State Fault Refusal := runOp (opVrcp ty rm) s
/-- VRSQ (R171). -/
def opVrsq (ty : ElemType) (rm : BitVec 3) : Op :=
  vmFloat 8 ty rm fun _ y _ => y.rsq
def execVrsq (ty : ElemType) (rm : BitVec 3) (s : State) : Host.Outcome State Fault Refusal := runOp (opVrsq ty rm) s
/-- VEXP2 (R171). -/
def opVexp2 (ty : ElemType) (rm : BitVec 3) : Op :=
  vmFloat 10 ty rm fun _ y _ => y.exp2
def execVexp2 (ty : ElemType) (rm : BitVec 3) (s : State) : Host.Outcome State Fault Refusal := runOp (opVexp2 ty rm) s
/-- VLOG2 (R171). -/
def opVlog2 (ty : ElemType) (rm : BitVec 3) : Op :=
  vmFloat 10 ty rm fun _ y _ => y.log2
def execVlog2 (ty : ElemType) (rm : BitVec 3) (s : State) : Host.Outcome State Fault Refusal := runOp (opVlog2 ty rm) s
/-- VTANH (R171). -/
def opVtanh (ty : ElemType) (rm : BitVec 3) : Op :=
  vmFloat 10 ty rm fun _ y _ => y.tanh
def execVtanh (ty : ElemType) (rm : BitVec 3) (s : State) : Host.Outcome State Fault Refusal := runOp (opVtanh ty rm) s

/-- Lane l of VDOT4 on bytes: c plus four products, exactly, then wrapped or saturated to 32 bits (R170). -/
def dotBytes (ty : ElemType) (sat : Bool) (t : Trig) (l : Nat) : Nat :=
  let out : ElemType := if tySigned ty then .i32 else .ui32
  let p := fun (i : Nat) => tyInt ty (el t.a 8 (4 * l + i)) * tyInt ty (el t.b 8 (4 * l + i))
  intResult out sat (tyInt out (lane t.c l) + p 0 + p 1 + p 2 + p 3)

/-- Lane l of VDOT4 on BF16: c as FP32 plus two products, exactly, rounded once (R170). -/
def dotHalves (rm : Nat) (t : Trig) (l : Nat) : Nat :=
  let p := fun (i : Nat) => Num.mul (tyNum .bf16 (el t.a 16 (2 * l + i))) (tyNum .bf16 (el t.b 16 (2 * l + i)))
  let add := Num.add (rm = 3)
  roundIeee .f32 rm (add (add (p 0) (p 1)) (f32 (lane t.c l)))

/-- VDOT4 (R170): `md` is `.sat` for bytes, the rounding code for BF16. -/
def opVdot4 (ty : ElemType) (md : BitVec 3) : Op :=
  opRun 15 always fun _ t =>
    land t 4 (vecOf 256 32 fun l => if ty = .bf16 then dotHalves md.toNat t l else dotBytes ty (md.getLsbD 0) t l) []
def execVdot4 (ty : ElemType) (md : BitVec 3) (s : State) : Host.Outcome State Fault Refusal := runOp (opVdot4 ty md) s

/-- VMAC (R169): c + a * b exactly, then wrapped or saturated. -/
def opVmac (ty : ElemType) (sat : Bool) : Op :=
  opRun 15 always fun _ t =>
    land t 4 (map3 (tyWidth ty) (fun x y z => intResult ty sat (tyInt ty z + tyInt ty x * tyInt ty y)) t.a t.b t.c) []
def execVmac (ty : ElemType) (sat : Bool) (s : State) : Host.Outcome State Fault Refusal := runOp (opVmac ty sat) s

end Sys2Proof.Machine
end

