-- ==== Sys2Proof/Machine/Vp.lean ====
section
/-! DEFINITION. Permute, format and accumulator access, unit VP (R172 to R179). -/

namespace Sys2Proof.Machine

/-- A permute (R172): bound 3, on elements of a type's width. -/
def vpPermute (ty : ElemType) (f : Nat → Nat → Trig → Nat → Nat) : Op :=
  opRun 16 always fun _ t =>
    let w := tyWidth ty
    land t 3 (vecOf (elCount w) w (f w (elCount w) t)) []

/-- VSHUF (R172). -/
def opVshuf (ty : ElemType) : Op :=
  vpPermute ty fun w n t j => let i := el t.b w j; if i ≥ n then 0 else el t.a w i
def execVshuf (ty : ElemType) (s : State) : Host.Outcome State Fault Refusal := runOp (opVshuf ty) s
/-- VROT (R172). -/
def opVrot (ty : ElemType) : Op :=
  vpPermute ty fun w n t j => el t.a w ((j + n - param t.b % n) % n)
def execVrot (ty : ElemType) (s : State) : Host.Outcome State Fault Refusal := runOp (opVrot ty) s
/-- VBCAST (R172). -/
def opVbcast (ty : ElemType) : Op :=
  vpPermute ty fun w n t _ => if param t.b ≥ n then 0 else el t.a w (param t.b)
def execVbcast (ty : ElemType) (s : State) : Host.Outcome State Fault Refusal := runOp (opVbcast ty) s
/-- VZIP (R172). -/
def opVzip (ty : ElemType) (hi : Bool) : Op :=
  vpPermute ty fun w n t j =>
    let h := if hi then n / 2 else 0
    if j % 2 = 0 then el t.a w (j / 2 + h) else el t.b w (j / 2 + h)
def execVzip (ty : ElemType) (hi : Bool) (s : State) : Host.Outcome State Fault Refusal := runOp (opVzip ty hi) s
/-- VUNZIP (R172). -/
def opVunzip (ty : ElemType) (hi : Bool) : Op :=
  vpPermute ty fun w n t j =>
    let o := if hi then 1 else 0
    if j < n / 2 then el t.a w (2 * j + o) else el t.b w (2 * (j - n / 2) + o)
def execVunzip (ty : ElemType) (hi : Bool) (s : State) : Host.Outcome State Fault Refusal := runOp (opVunzip ty hi) s
/-- VSLIDE (R172): z[j + s] with z = a, then c, then zeros. -/
def opVslide (ty : ElemType) : Op :=
  vpPermute ty fun w n t j =>
    let i := j + param t.b
    if i < n then el t.a w i else if i < 2 * n then el t.c w (i - n) else 0
def execVslide (ty : ElemType) (s : State) : Host.Outcome State Fault Refusal := runOp (opVslide ty) s

/-- The lanes whose selector, bit 0 of b, is 1 (R173). -/
def selected (b : Vec) : List Nat := (List.range 256).filter fun l => b.getLsbD (32 * l)

/-- VEXPAND (R173). -/
def opVexpand : Op :=
  opRun 16 always fun _ t =>
    let sel := selected t.b
    land t 4 (vecOf 256 32 fun l =>
      if t.b.getLsbD (32 * l) then lane t.a (sel.filter (· < l)).length else lane t.c l) []
def execVexpand (s : State) : Host.Outcome State Fault Refusal := runOp opVexpand s

/-- VCOMPRESS (R173): the count is the second result. -/
def opVcompress (cr : Bool) : Op :=
  opRun 16 (recordCheck cr) fun _ t =>
    let sel := (selected t.b).toArray
    let y := vecOf 256 32 fun l => match sel[l]? with | some m => lane t.a m | none => lane t.c l
    Prog.all [reserveRecord t cr, land2 t 4 y (broadcast sel.size) (recordPost t cr sel.size)]
def execVcompress (cr : Bool) (s : State) : Host.Outcome State Fault Refusal := runOp (opVcompress cr) s

/-- Fields of the control word of VPACK and VUNPACK (R174). -/
structure PackCtl where
  keep : Nat
  soff : Nat
  rm : Nat
  ovf : Bool
  part : Nat
  band : Nat
  deriving DecidableEq, Repr

/-- The control word read. -/
def packCtl (w : Nat) : PackCtl := ⟨field w 0 6, field w 6 10, field w 16 3, bit w 19 = 1, field w 20 3, field w 23 4⟩

/-- The range of PART: parts that lie whole in a vector value (R174). -/
def packParts (f : Fmt) : Nat :=
  match f.width with | 4 => 8 | 6 => 5 | 8 => 4 | _ => 2

/-- The checks of VPACK and VUNPACK: parameters (R174), and the hold for a keeper write under way (R176). -/
def packCheck (f : Fmt) (s : State) (t : Trig) : Verdict :=
  let w := param t.b
  let k := packCtl w
  let scales := if f = .bf16 then 0 else 256 / blockSize f
  if f != .bf16 && (nth (s.core t.core).arch.keepers k.keep Keeper.reset).writes != 0 then .hold 4 16 k.keep
  else need (k.soff + scales ≤ 1024 || f = .bf16) 0x03 w |>.and (need (k.rm < 5 && decide (k.part < packParts f)) 0x03 w)

/-- The scale byte of element j and the band entry (R174). -/
def packScales (s : State) (t : Trig) (f : Fmt) (k : PackCtl) (j : Nat) : Nat × Nat :=
  let kp := keeperNow s t.core k.keep
  if f = .bf16 then (127, 0x3F80)
  else (digit kp.bytes.toNat 8 (k.soff + j / blockSize f), if f = .bsf4 then digit kp.band.toNat 16 k.band else 0x3F80)

/-- VPACK and VUNPACK read the scale bytes of their blocks and, of BSF4, the band entry (R174, R246). -/
def packUse (s : State) (t : Trig) (f : Fmt) (k : PackCtl) : Prog :=
  Prog.when_ (f != .bf16) (keeperUse (t.who s) k.keep
    ((k.soff, 256 / blockSize f) :: if f = .bsf4 then [(1024 + 2 * k.band, 2)] else []))

/-- The lane of a vector value that holds the lowest bit of element j of part p (R138, R174). -/
def packLane (f : Fmt) (p j : Nat) : Nat := (p * 256 + j) * f.width / 32

/-- A mask of keeper bytes. -/
def byteMask (offs : List Nat) : BitVec 1024 := BitVec.ofNat 1024 (ofBits 1024 offs.contains)

/-- VPACK (R136, R174): element codes, the events counted, and the NaN-scale bytes written at landing as one keeper write. -/
def opVpack (fmt : BitVec 4) : Op :=
  let f := Fmt.ofCode fmt.toNat
  opRun 16 (packCheck f) fun s t =>
    let k := packCtl (param t.b)
    let z := blockSize f
    let xs := (List.range 256).map fun j => f32 (lane t.a j)
    let modeOf := fun (b : Nat) =>
      let (sc, bd) := packScales s t f k (b * z)
      if f = .bf16 then BlockMode.plain else blockMode (f = .bsf4) sc bd ((xs.drop (b * z)).take z)
    let modes := ((List.range (256 / z)).map modeOf).toArray
    let codes := xs.zipIdx.map fun p =>
      let (sc, bd) := packScales s t f k p.2
      quantise f (modes[p.2 / z]?.getD .plain) sc bd k.rm (bitsFor s t k.rm 2 0 (256 * k.part + p.2)) k.ovf p.1
    let arr := codes.toArray
    let size := 32 * f.width
    let y := putBytes t.c (k.part * size) size (ofDigits 256 f.width fun j => (arr[j]?.map (·.code)).getD 0)
    let shown := fun (j : Nat) => passes t (packLane f k.part j)
    let counted := (codes.zipIdx.filter fun p => shown p.2).map (·.1)
    let nans := (modes.toList.zipIdx.filter fun m => m.1 = .nanBlock ||
      (m.1 = .nanScale && (List.range z).any fun i => shown (m.2 * z + i))).length
    let bad := (modes.toList.zipIdx.filter fun m => m.1 = .nanBlock).map fun m => k.soff + m.2
    Prog.all [
      packUse s t f k,
      countSr t (k.rm = 4),
      Prog.when_ (!bad.isEmpty) (setArch t.core fun a => { a with
        keepers := updAt a.keepers k.keep fun x => { x with writes := x.writes + 1 } }),
      land t 6 y (convPost ({ code := 0, nan := nans } :: counted) ++
        if bad.isEmpty then [] else [.keeper k.keep (byteMask bad) (BitVec.allOnes 8192) 0 0 false])]
def execVpack (fmt : BitVec 4) (s : State) : Host.Outcome State Fault Refusal := runOp (opVpack fmt) s

/-- VUNPACK (R137, R175). -/
def opVunpack (fmt : BitVec 4) : Op :=
  let f := Fmt.ofCode fmt.toNat
  opRun 16 (packCheck f) fun s t =>
    let k := packCtl (param t.b)
    let one := fun (j : Nat) =>
      let (sc, bd) := packScales s t f k j
      convert .f32 k.rm (bitsFor s t k.rm 2 0 (256 * k.part + j)) false
        (scaledValue f sc bd (digit t.a.toNat f.width (256 * k.part + j)))
    let codes := (List.range 256).map one
    Prog.all [
      packUse s t f k,
      countSr t (k.rm = 4),
      land t 6 (vecOfConv 32 codes.toArray)
        (convPost ((codes.zipIdx.filter fun p => passes t p.2).map (·.1)))]
def execVunpack (fmt : BitVec 4) (s : State) : Host.Outcome State Fault Refusal := runOp (opVunpack fmt) s

/-- VPLANE (R177). -/
def opVplane (fmt : BitVec 4) : Op :=
  let f := Fmt.ofCode fmt.toNat
  opRun 16 always fun _ t =>
    let np := field (param t.b) 0 5
    let plane := ofBits 1024 fun r => planeBit f np (digit t.a.toNat f.width r) = 1
    land t 4 (putBytes t.c (128 * field (param t.b) 5 3) 128 plane) []
def execVplane (fmt : BitVec 4) (s : State) : Host.Outcome State Fault Refusal := runOp (opVplane fmt) s

/-- The accumulator and part that VACCRD and VACCWR name (R178). -/
def accSel (t : Trig) : Nat × Nat := (field (param t.b) 0 2, field (param t.b) 4 4)

/-- The MA sequence number of the oldest MA operation in flight on an accumulator (R178). Where VACCWR alone holds it, no rule
states a number: a free value. -/
def accOldest (s : State) (a : Acc) : Nat :=
  match a.busy.filter (· < 2 ^ 32) with
  | n :: _ => n
  | [] => low (Config.freeVec s.fresh) % 2 ^ 32

/-- The checks of VACCRD and VACCWR (R178, R179). -/
def accCheck (raw : Bool) (s : State) (t : Trig) : Verdict :=
  let (n, q) := accSel t
  let a := nth (s.core t.core).arch.accs n (Acc.reset n)
  (need (raw || decide (q < 4)) 0x03 (param t.b)).and <|
    (need a.busy.isEmpty 0x0E (n + accOldest s a * 2 ^ 16)).and (need (!a.invalid) 0x10 n)

/-- VACCRD (R178): rounded elements, or with type 5 raw images. -/
def opVaccrd (ty : ElemType) (rm : BitVec 3) : Op :=
  let raw := ty = .ui32
  opRun 16 (accCheck raw) fun s t =>
    let (n, q) := accSel t
    let els := (nth (s.core t.core).arch.accs n (Acc.reset n)).els
    if raw then land t 8 (vecOf 64 128 fun m => (nth els (64 * q + m) AccEl.zero).image) []
    else
      let codes := (List.range 256).map fun m =>
        drainEl (tyFmt ty) rm.toNat (bitsFor s t rm.toNat 2 0 (256 * q + m)) (nth els (256 * q + m) AccEl.zero) 0x3F80 0x3F80
      Prog.all [
        countSr t (rm.toNat = 4),
        land t 8 (vecOfConv 32 codes.toArray)
          (convPost ((codes.zipIdx.filter fun p => passes t p.2).map (·.1)))]
def execVaccrd (ty : ElemType) (rm : BitVec 3) (s : State) : Host.Outcome State Fault Refusal := runOp (opVaccrd ty rm) s

/-- The busy mark of a VACCWR, which is no MA operation: above every MA sequence number (R179, R200). -/
def vaccwrMark (t : Trig) : Nat := 2 ^ 32 + t.seq

/-- VACCWR (R179): the accumulator is busy until it has landed; an ill-formed raw image marks it invalid and gives 0x12. It lands
no result. What TRAPINFO then holds no rule names: a free value. -/
def opVaccwr (ty : ElemType) : Op :=
  let raw := ty = .ui32
  opRun 16 (accCheck raw) fun s t =>
    let (n, q) := accSel t
    let news : List (Nat × Option AccEl) :=
      if raw then
        ((List.range 64).filter fun m => (List.range 4).all fun i => passes t (4 * m + i)).map fun m =>
          (64 * q + m, accOfImage (digit t.a.toNat 128 m))
      else ((List.range 256).filter (passes t)).map fun m => (256 * q + m, some (accOfF32 (lane t.a m)))
    let bad := news.any fun p => p.2.isNone
    let put := fun (x : Acc) =>
      let x := { x with busy := x.busy ++ [vaccwrMark t] }
      if bad then { x with invalid := true }
      else { x with els := news.foldl (fun v p => updAt v p.1 fun old => p.2.getD old) x.els }
    Prog.all [
      .eff (.fresh 1),
      setArch t.core fun a => a.setAcc n put,
      finish t 8 (.accFree n (vaccwrMark t) ::
        if bad then [.fault 0x12 (info (low (Config.freeVec s.fresh))) t.slot] else [])]
def execVaccwr (ty : ElemType) (s : State) : Host.Outcome State Fault Refusal := runOp (opVaccwr ty) s

end Sys2Proof.Machine
end

