-- ==== Sys2Proof/Machine/Vs.lean ====
section
/-! DEFINITION. Reduce, scan, merge and sort, unit VS (R180 to R187). -/

namespace Sys2Proof.Machine

/-- a comes before b in R181's order, or the integer order of the type. -/
def keyLess (ty : ElemType) (a b : Nat) : Bool :=
  if tyFloat ty then
    let x := tyNum ty a
    let y := tyNum ty b
    if x.isNan then false else if y.isNan then true else x.lt y
  else decide (tyInt ty a < tyInt ty b)

/-- The passing elements of a port in lane order, with their lanes (R180). -/
def inputs (t : Trig) (v : Vec) : List (Nat × Nat) := (passing t).map fun l => (l, lane v l)

/-- Adds an element to a running exact sum; none is the sum of nothing (R182). -/
def sumStep (ty : ElemType) (acc : Option Num) (x : Nat) : Option Num :=
  match acc with
  | none => some (tyNum ty x)
  | some n => some (Num.add false n (tyNum ty x))

/-- A running sum as a result (R182): f32 rounded once with RNE, integers modulo 2^32. -/
def sumResult (ty : ElemType) (acc : Option Num) : Nat :=
  match acc with
  | none => 0
  | some n =>
    if tyFloat ty then roundIeee .f32 0 n
    else match n with
      | .fin neg m e => enc (Num.scaled neg m e 0) 32
      | _ => 0

/-- The sum of elements (R182). -/
def sumOf (ty : ElemType) (l : List (Nat × Nat)) : Nat := sumResult ty (l.foldl (fun acc x => sumStep ty acc x.2) none)

/-- VRMAX's and VRMIN's result (R182). -/
def extremeOf (ty : ElemType) (max_ : Bool) (l : List (Nat × Nat)) : Nat :=
  match l with
  | [] => match ty with
    | .i32 => if max_ then 0x80000000 else 0x7FFFFFFF
    | .f32 => if max_ then 0xFF800000 else 0x7F800000
    | _ => if max_ then 0 else 0xFFFFFFFF
  | x :: r =>
    let v := r.foldl (fun acc y => pickElem ty max_ acc y.2) x.2
    if tyFloat ty && (tyNum ty v).isNan then (tyFmt ty).nanCode else v

/-- An element with its lane and h (R154, R180). -/
structure Keyed where
  key : Nat
  lane : Nat
  h : Nat
  deriving DecidableEq, Repr

/-- R154's order among tied elements. -/
def Keyed.tie (a b : Keyed) : Bool := decide (a.h < b.h) || (a.h = b.h && decide (a.lane < b.lane))

/-- a comes before b: by key, ascending or descending, then by R154. -/
def Keyed.before (ty : ElemType) (desc : Bool) (a b : Keyed) : Bool :=
  let x := if desc then b.key else a.key
  let y := if desc then a.key else b.key
  keyLess ty x y || (!keyLess ty y x && a.tie b)

/-- Puts an element in its place in a sorted list. -/
def insertKeyed (lt : Keyed → Keyed → Bool) (x : Keyed) : List Keyed → List Keyed
  | [] => [x]
  | y :: r => if lt x y then x :: y :: r else y :: insertKeyed lt x r

/-- Elements sorted under an order. -/
def sortKeyed (lt : Keyed → Keyed → Bool) (l : List Keyed) : List Keyed := l.foldl (fun acc x => insertKeyed lt x acc) []

/-- The passing keys of a with their tie hashes. -/
def keyedInputs (s : State) (t : Trig) (v : Vec) : List Keyed :=
  (inputs t v).map fun x => ⟨x.2, x.1, tieHash s t.core x.1⟩

/-- A key that is a NaN (R182, R186). -/
def keyNan (ty : ElemType) (x : Nat) : Bool := tyFloat ty && (tyNum ty x).isNan

/-- A key as an operation writes it: a NaN is the canonical one of its format (R128). -/
def keyOut (ty : ElemType) (x : Nat) : Nat := if keyNan ty x then (tyFmt ty).nanCode else x

/-- A reduction (R182): one scalar, broadcast, recorded with `.cr`. -/
def vsReduce (cr : Bool) (f : State → Trig → Nat) : Op :=
  opRun 18 (recordCheck cr) fun s t =>
    let v := f s t
    Prog.all [reserveRecord t cr, land t 8 (broadcast v) (recordPost t cr v)]

/-- VRSUM (R182). -/
def opVrsum (ty : ElemType) (cr : Bool) : Op :=
  vsReduce cr fun _ t => sumOf ty (inputs t t.b)
def execVrsum (ty : ElemType) (cr : Bool) (s : State) : Host.Outcome State Fault Refusal := runOp (opVrsum ty cr) s
/-- VRMAX (R182). -/
def opVrmax (ty : ElemType) (cr : Bool) : Op :=
  vsReduce cr fun _ t => extremeOf ty true (inputs t t.b)
def execVrmax (ty : ElemType) (cr : Bool) (s : State) : Host.Outcome State Fault Refusal := runOp (opVrmax ty cr) s
/-- VRMIN (R182). -/
def opVrmin (ty : ElemType) (cr : Bool) : Op :=
  vsReduce cr fun _ t => extremeOf ty false (inputs t t.b)
def execVrmin (ty : ElemType) (cr : Bool) (s : State) : Host.Outcome State Fault Refusal := runOp (opVrmin ty cr) s

/-- The lane of the first element in an order, NaN lanes excluded; all ones when none remains (R182). -/
def argFirst (ty : ElemType) (desc : Bool) (s : State) (t : Trig) : Nat :=
  let l := (keyedInputs s t t.b).filter fun x => !keyNan ty x.key
  match l with
  | [] => 0xFFFFFFFF
  | x :: r => (r.foldl (fun best y => if y.before ty desc best then y else best) x).lane

/-- VARGMAX (R182). -/
def opVargmax (ty : ElemType) (cr : Bool) : Op :=
  vsReduce cr fun s t => argFirst ty true s t
def execVargmax (ty : ElemType) (cr : Bool) (s : State) : Host.Outcome State Fault Refusal := runOp (opVargmax ty cr) s
/-- VARGMIN (R182). -/
def opVargmin (ty : ElemType) (cr : Bool) : Op :=
  vsReduce cr fun s t => argFirst ty false s t
def execVargmin (ty : ElemType) (cr : Bool) (s : State) : Host.Outcome State Fault Refusal := runOp (opVargmin ty cr) s

/-- Prefix sums by lane (R183): each lane's sum of the passing inputs up to it, or with `ex` before it, and the total. -/
def prefixSums (ty : ElemType) (ex : Bool) (t : Trig) : List Nat × Option Num :=
  (List.range 256).foldl (fun (p : List Nat × Option Num) l =>
    let next := if passes t l then sumStep ty p.2 (lane t.b l) else p.2
    (p.1 ++ [sumResult ty (if ex then p.2 else next)], next)) ([], none)

/-- VSCAN (R183). -/
def opVscan (ty : ElemType) (cr ex : Bool) : Op :=
  opRun 18 (recordCheck cr) fun _ t =>
    let (l, total) := prefixSums ty ex t
    Prog.all [reserveRecord t cr, land t 10 (lanesOf l) (recordPost t cr (sumResult ty total))]
def execVscan (ty : ElemType) (cr ex : Bool) (s : State) : Host.Outcome State Fault Refusal := runOp (opVscan ty cr ex) s

/-- VMERGE's combination of two payloads (R184): PTYPE 0 f32, 1 i32, 2 ui32; COMB 0 add, 1 min, 2 max. -/
def mergeComb (comb pt a b : Nat) : Nat :=
  let ty : ElemType := match pt with | 0 => .f32 | 1 => .i32 | _ => .ui32
  match comb with
  | 0 => if pt = 0 then addF32 a b else (a + b) % 2 ^ 32
  | 1 => pickElem ty false a b
  | _ => pickElem ty true a b

/-- A dropped payload under `.dz` (R184). -/
def mergeZero (pt v : Nat) : Bool := v = 0 || (pt = 0 && v = 0x80000000)

/-- The merge of R184 from pair i of a and pair j of b: positions reached and the pairs put out. `fuel` bounds its steps: each
takes at least one pair. -/
def mergeLoop (comb pt : Nat) (dz : Bool) (a b : Vec) (nx ny : Nat) :
    Nat → Nat → Nat → List (Nat × Nat) → Nat × Nat × List (Nat × Nat)
  | 0, i, j, out => (i, j, out)
  | fuel + 1, i, j, out =>
    if out.length ≥ 128 ∨ (i ≥ nx ∧ j ≥ ny) then (i, j, out)
    else
      let kx := lane a (2 * i)
      let ky := lane b (2 * j)
      let takeX := j ≥ ny ∨ (i < nx ∧ kx < ky)
      let takeY := ¬takeX ∧ (i ≥ nx ∨ ky < kx)
      let k := if takeX then kx else ky
      let alone := fun (x : Nat) => if pt = 0 then keyOut .f32 x else x
      let v := if takeX then alone (lane a (2 * i + 1)) else if takeY then alone (lane b (2 * j + 1))
        else mergeComb comb pt (lane a (2 * i + 1)) (lane b (2 * j + 1))
      let out := if dz && mergeZero pt v then out else out ++ [(k, v)]
      mergeLoop comb pt dz a b nx ny fuel (if takeY then i else i + 1) (if takeX then j else j + 1) out

/-- Pairs of a stream before its end key (R184). -/
def mergeEnd (v : Vec) : Nat := ((List.range 128).find? fun i => lane v (2 * i) = 0xFFFFFFFF).getD 128

/-- VMERGE (R184): every lane is read whatever the guard. -/
def opVmerge (comb : BitVec 2) (dz cr : Bool) (pt : BitVec 2) : Op :=
  opRun 18 (recordCheck cr) fun _ t =>
    let (i, j, out) := mergeLoop comb.toNat pt.toNat dz t.a t.b (mergeEnd t.a) (mergeEnd t.b) 256 0 0 []
    let n := out.length
    let pairs := out ++ List.replicate (128 - n) (0xFFFFFFFF, 0)
    Prog.all [
      reserveRecord t cr,
      land2 t 16 (lanesOf (pairs.flatMap fun p => [p.1, p.2])) (lanesOf [i, j, n])
        (recordPost t cr (i + j * 2 ^ 16 + n * 2 ^ 32))]
def execVmerge (comb : BitVec 2) (dz cr : Bool) (pt : BitVec 2) (s : State) : Host.Outcome State Fault Refusal := runOp (opVmerge comb dz cr pt) s

/-- VSORT (R185): keys, and the payload lanes of b with them; zero beyond the passing lanes. -/
def opVsort (ty : ElemType) (desc : Bool) : Op :=
  opRun 18 always fun s t =>
    let l := sortKeyed (Keyed.before ty desc) (keyedInputs s t t.a)
    land2 t 32 (lanesOf (l.map fun x => keyOut ty x.key)) (lanesOf (l.map fun x => lane t.b x.lane)) []
def execVsort (ty : ElemType) (desc : Bool) (s : State) : Host.Outcome State Fault Refusal := runOp (opVsort ty desc) s

/-- VTOPK (R186). -/
def opVtopk (ty : ElemType) (cr desc : Bool) : Op :=
  opRun 18 (fun s t => (recordCheck cr s t).and
      (need (1 ≤ param t.b && decide (param t.b ≤ 256)) 0x03 (param t.b))) fun s t =>
    let k := param t.b
    let l := (sortKeyed (Keyed.before ty (!desc)) ((keyedInputs s t t.a).filter fun x => !keyNan ty x.key)).take k
    let fill := List.replicate (k - l.length)
    Prog.all [
      reserveRecord t cr,
      land2 t 24 (lanesOf (l.map (·.key))) (lanesOf (l.map (·.lane) ++ fill 0xFFFFFFFF)) (recordPost t cr l.length)]
def execVtopk (ty : ElemType) (cr desc : Bool) (s : State) : Host.Outcome State Fault Refusal := runOp (opVtopk ty cr desc) s

/-- Of sorted elements, the first of each run of equal keys (R187). -/
def firstsOf (ty : ElemType) : List Keyed → List Keyed
  | [] => []
  | [x] => [x]
  | x :: y :: r =>
    let tail := firstsOf ty (y :: r)
    if keyLess ty x.key y.key || keyLess ty y.key x.key then x :: tail else x :: tail.tail

/-- VUNIQ (R187): representatives by R154 are the first of their ties. -/
def opVuniq (ty : ElemType) (cr : Bool) : Op :=
  opRun 18 (recordCheck cr) fun s t =>
    let l := firstsOf ty (sortKeyed (Keyed.before ty false) (keyedInputs s t t.a))
    let fill := List.replicate (256 - l.length) 0xFFFFFFFF
    Prog.all [
      reserveRecord t cr,
      land2 t 16 (lanesOf (l.map (fun x => keyOut ty x.key) ++ fill)) (lanesOf (l.map (·.lane) ++ fill)) (recordPost t cr l.length)]
def execVuniq (ty : ElemType) (cr : Bool) (s : State) : Host.Outcome State Fault Refusal := runOp (opVuniq ty cr) s

end Sys2Proof.Machine
end

