-- ==== Sys2Proof/Machine/OpTable.lean ====
section
/-! DEFINITION. The operation of each triggered instruction: what a bundle checks as it issues (R34). -/

namespace Sys2Proof.Machine

/-- The operation of an instruction; a machine event has none. -/
def opOf (i : Instr) : Option Op :=
  match i with
  | .add u => some (opAdd u)
  | .sub u => some (opSub u)
  | .and u => some (opAnd u)
  | .or u => some (opOr u)
  | .xor u => some (opXor u)
  | .andn u => some (opAndn u)
  | .shl u => some (opShl u)
  | .shr u => some (opShr u)
  | .sar u => some (opSar u)
  | .rol u => some (opRol u)
  | .ceq u => some (opCeq u)
  | .cne u => some (opCne u)
  | .clt u => some (opClt u)
  | .cltu u => some (opCltu u)
  | .cle u => some (opCle u)
  | .cleu u => some (opCleu u)
  | .min u => some (opMin u)
  | .max u => some (opMax u)
  | .minu u => some (opMinu u)
  | .maxu u => some (opMaxu u)
  | .sel u => some (opSel u)
  | .clz u => some (opClz u)
  | .ctz u => some (opCtz u)
  | .popc u => some (opPopc u)
  | .sext u => some (opSext u)
  | .zext u => some (opZext u)
  | .addsh u => some (opAddsh u)
  | .bfx u => some (opBfx u)
  | .bfi u => some (opBfi u)
  | .fcvtif ty rm => some (opFcvtif ty rm)
  | .fcvtfi ty rm => some (opFcvtfi ty rm)
  | .ldb sp => some (opLdb sp)
  | .ldbu sp => some (opLdbu sp)
  | .ldh sp => some (opLdh sp)
  | .ldhu sp => some (opLdhu sp)
  | .ldw sp => some (opLdw sp)
  | .ldwu sp => some (opLdwu sp)
  | .ldd sp => some (opLdd sp)
  | .stb sp => some (opStb sp)
  | .sth sp => some (opSth sp)
  | .stw sp => some (opStw sp)
  | .std sp => some (opStd sp)
  | .pref sp => some (opPref sp)
  | .aadd sp dbl uns => some (opAadd sp dbl uns)
  | .amax sp dbl uns => some (opAmax sp dbl uns)
  | .amin sp dbl uns => some (opAmin sp dbl uns)
  | .axchg sp dbl uns => some (opAxchg sp dbl uns)
  | .acas sp dbl uns => some (opAcas sp dbl uns)
  | .afadd sp dbl uns => some (opAfadd sp dbl uns)
  | .aand sp dbl uns => some (opAand sp dbl uns)
  | .aor sp dbl uns => some (opAor sp dbl uns)
  | .crpop hdr => some (opCrpop hdr)
  | .vadd u ty md => some (opVadd u ty md)
  | .vsub u ty md => some (opVsub u ty md)
  | .vmul u ty md => some (opVmul u ty md)
  | .vmin u ty => some (opVmin u ty)
  | .vmax u ty => some (opVmax u ty)
  | .vand u => some (opVand u)
  | .vor u => some (opVor u)
  | .vxor u => some (opVxor u)
  | .vandn u => some (opVandn u)
  | .vshl u ty => some (opVshl u ty)
  | .vshr u ty => some (opVshr u ty)
  | .vsar u ty => some (opVsar u ty)
  | .vceq u ty => some (opVceq u ty)
  | .vcne u ty => some (opVcne u ty)
  | .vclt u ty => some (opVclt u ty)
  | .vcle u ty => some (opVcle u ty)
  | .vsel u => some (opVsel u)
  | .vabs u ty sat => some (opVabs u ty sat)
  | .vneg u ty sat => some (opVneg u ty sat)
  | .vclamp u ty => some (opVclamp u ty)
  | .vcvt u src dst => some (opVcvt u src dst)
  | .viota u ty => some (opViota u ty)
  | .pand u => some (opPand u)
  | .por u => some (opPor u)
  | .pxor u => some (opPxor u)
  | .pandn u => some (opPandn u)
  | .pnot u => some (opPnot u)
  | .pcnt u cr => some (opPcnt u cr)
  | .pfirst u cr => some (opPfirst u cr)
  | .psetn u => some (opPsetn u)
  | .ppack u hi => some (opPpack u hi)
  | .punpack u hi => some (opPunpack u hi)
  | .vfma ty rm => some (opVfma ty rm)
  | .vfms ty rm => some (opVfms ty rm)
  | .vfnma ty rm => some (opVfnma ty rm)
  | .vdiv ty rm => some (opVdiv ty rm)
  | .vsqrt ty rm => some (opVsqrt ty rm)
  | .vrcp ty rm => some (opVrcp ty rm)
  | .vrsq ty rm => some (opVrsq ty rm)
  | .vexp2 ty rm => some (opVexp2 ty rm)
  | .vlog2 ty rm => some (opVlog2 ty rm)
  | .vtanh ty rm => some (opVtanh ty rm)
  | .vdot4 ty md => some (opVdot4 ty md)
  | .vmac ty sat => some (opVmac ty sat)
  | .vshuf ty => some (opVshuf ty)
  | .vrot ty => some (opVrot ty)
  | .vbcast ty => some (opVbcast ty)
  | .vzip ty hi => some (opVzip ty hi)
  | .vunzip ty hi => some (opVunzip ty hi)
  | .vslide ty => some (opVslide ty)
  | .vpack fmt => some (opVpack fmt)
  | .vunpack fmt => some (opVunpack fmt)
  | .vcompress cr => some (opVcompress cr)
  | .vaccrd ty rm => some (opVaccrd ty rm)
  | .vaccwr ty => some (opVaccwr ty)
  | .vplane fmt => some (opVplane fmt)
  | .vld g => some (opVld g)
  | .vst g => some (opVst g)
  | .vlds g ty => some (opVlds g ty)
  | .vsts g ty => some (opVsts g ty)
  | .vgath g cr => some (opVgath g cr)
  | .vscat g cr => some (opVscat g cr)
  | .vscatadd g cr => some (opVscatadd g cr)
  | .vldz g => some (opVldz g)
  | .vstz g ty cr => some (opVstz g ty cr)
  | .vrsum ty cr => some (opVrsum ty cr)
  | .vrmax ty cr => some (opVrmax ty cr)
  | .vrmin ty cr => some (opVrmin ty cr)
  | .vargmax ty cr => some (opVargmax ty cr)
  | .vargmin ty cr => some (opVargmin ty cr)
  | .vscan ty cr ex => some (opVscan ty cr ex)
  | .vmerge comb dz cr pt => some (opVmerge comb dz cr pt)
  | .vsort ty desc => some (opVsort ty desc)
  | .vtopk ty cr desc => some (opVtopk ty cr desc)
  | .vuniq ty cr => some (opVuniq ty cr)
  | .kmov rebind => some (opKmov rebind)
  | .kadde rebind enc => some (opKadde rebind enc)
  | .kmax rebind enc => some (opKmax rebind enc)
  | .kmin rebind enc => some (opKmin rebind enc)
  | .kcvt rebind enc denc => some (opKcvt rebind enc denc)
  | .kfold rebind enc => some (opKfold rebind enc)
  | .kamax rebind enc => some (opKamax rebind enc)
  | .kgen cr => some (opKgen cr)
  | .kld rebind => some (opKld rebind)
  | .cque g => some (opCque g)
  | .rinit g => some (opRinit g)
  | .rawait g => some (opRawait g)
  | .rrel g => some (opRrel g)
  | .tdmk g => some (opTdmk g)
  | .xjob g => some (opXjob g)
  | .xtab g => some (opXtab g)
  | .sejob g => some (opSejob g)
  | .fwrite g => some (opFwrite g)
  | .fread g => some (opFread g)
  | .fred g => some (opFred g)
  | .frwinRegister g => some (opFrwinRegister g)
  | .frwinRemove g => some (opFrwinRemove g)
  | .mul => some opMul
  | .mulh => some opMulh
  | .mulhu => some opMulhu
  | .div => some opDiv
  | .divu => some opDivu
  | .rem => some opRem
  | .remu => some opRemu
  | .fadd => some opFadd
  | .fsub => some opFsub
  | .fmul => some opFmul
  | .fma => some opFma
  | .fdiv => some opFdiv
  | .fsqrt => some opFsqrt
  | .fmin => some opFmin
  | .fmax => some opFmax
  | .fceq => some opFceq
  | .fclt => some opFclt
  | .fcle => some opFcle
  | .fclass => some opFclass
  | .qmark => some opQmark
  | .fence => some opFence
  | .br => some opBr
  | .jmp => some opJmp
  | .call => some opCall
  | .calli => some opCalli
  | .ret => some opRet
  | .loop => some opLoop
  | .lset => some opLset
  | .enter => some opEnter
  | .leave => some opLeave
  | .trap => some opTrap
  | .halt => some opHalt
  | .cadd => some opCadd
  | .cwait => some opCwait
  | .cread => some opCread
  | .mvst => some opMvst
  | .mvts => some opMvts
  | .pbw => some opPbw
  | .curqStart => some opCurqStart
  | .curqDesc => some opCurqDesc
  | .grpinc => some opGrpinc
  | .launch => some opLaunch
  | .eret => some opEret
  | .rlog => some opRlog
  | .vexpand => some opVexpand
  | .vldt => some opVldt
  | .vstt => some opVstt
  | .mma => some opMma
  | .mdrain => some opMdrain
  | .msave => some opMsave
  | .mload => some opMload
  | .mrawadd => some opMrawadd
  | .mzero => some opMzero
  | .mchk => some opMchk
  | .mclr => some opMclr
  | .mseed => some opMseed
  | .kbind => some opKbind
  | .kunbind => some opKunbind
  | .krebind => some opKrebind
  | .kst => some opKst
  | .tcfg => some opTcfg
  | .tstate => some opTstate
  | .trel => some opTrel
  | .tmarkOpen => some opTmarkOpen
  | .tmarkClose => some opTmarkClose
  | .tmarkReopen => some opTmarkReopen
  | .thand => some opThand
  | .ttake => some opTtake
  | .cstat => some opCstat
  | .cclrRetry => some opCclrRetry
  | .cclrAbandonChain => some opCclrAbandonChain
  | .cclrAbandonAll => some opCclrAbandonAll
  | .fflowOpen => some opFflowOpen
  | .fflowAccept => some opFflowAccept
  | .fflowCloseSend => some opFflowCloseSend
  | .fflowCloseRecv => some opFflowCloseRecv
  | .fcadd => some opFcadd
  | .frate => some opFrate
  | .dieReset _ | .rollbackFloorRaise _ | .powerLimitSet _ _ | .attestRequest _ | .powerWindowEnd _
  | .registerWrite _ _ | .trootWrite _ | .tlbinvAll _ | .tlbinvPage _ | .tlbinvLargePage _ | .fcrateWrite _ _
  | .errrpWrite _ _ | .rrrpWrite _ _ | .queueConfigWrite _ _ | .queueTailWrite _ _ | .hostMemAccess _ _ _ _
  | .d2dFlitRetry _ | .slotBind _ _ _ | .slotIdle _ _ _ | .slotEmpty _ _ _ | .preemptRequest _ _ | .leaseExpiry _ _
  | .slotTakeWaiting _ _ | .forcedPreemptTimeout _ | .launchValidate _ | .taskStage _ | .taskStart _
  | .timeSliceYield _ | .contextSave _ | .contextRestore _ | .regionComplete _ _ | .fetch _ | .bundleIssue _
  | .engineOpStart _ _ | .resultLanding _ _ | .trapEntry _ | .freezeTimeout _ | .pageWalk _ _ | .eccReread _ _ _
  | .rewind _ | .scrubWord _ _ | .fragTimeSync _ _ | .cwaitWake _ | .cwaitTimeout _ | .mmaArrayStart _ | .mmaComplete _
  | .mmaReplay _ | .tileDrainDone _ _ | .ceRecordRead _ _ | .cePrewaitMet _ _ | .ceRingClaim _ _ | .ceWaitTimeout _ _
  | .ceRecordComplete _ _ | .tableLoadApply _ | .xlaneJobStart _ | .xlanePrewaitMet _ | .xlaneTransition _
  | .xlaneWaitTimeout _ | .xlaneJobEnd _ | .seJobStart _ | .sePrewaitMet _ | .seColumnBlock _ | .seWaitTimeout _
  | .seJobEnd _ | .fxQueueDepart _ | .stripeSend _ | .fragData _ _ | .fragReservedType _ _ | .stripeDeliver _
  | .fragAck _ _ | .fragNak _ _ | .stripeBusyResend _ _ | .stripeDeadline _ _ | .ackTimeout _ _ | .fragReadRequest _ _
  | .fragReadResponse _ _ | .fragContribution _ _ | .fragContribAck _ _ | .contribResendTimeout _ _
  | .mergedPartialApply _ | .keyIncompleteTimeout _ | .replayWaitTimeout _ | .accessPerformed _
  | .cinchMemoryAccess _ _ | .packageReset | .tlbinvComplete | .drainWindowOpen | .currySlotStart | .currySlotEnd
  | .planeEraseStart | .planeEraseEnd | .timeSyncSend | .timeSkewAlarm => none

end Sys2Proof.Machine
end

