-- ==== Sys2Proof/Machine/Issue.lean ====
section
/-! DEFINITION. BUNDLE_ISSUE (R13): holds (R27, R28), faults (R34), writes and triggers of one bundle. -/

namespace Sys2Proof.Machine

/-- A transport with its slot. -/
abbrev Slotted := Nat × Nat

/-- The transports of a bundle that are not null, with their slots. -/
def slotted (b : Bundle) : List Slotted := ((transports b).zipIdx.map fun p => (p.2, p.1)).filter fun p => p.2 != 0

/-- A transport acts: a scalar one only where its guard passes (R21). -/
def acts (s : State) (c : Nat) (x : Nat) : Bool := destDomain (tDest x) = .vector || guardFlag s c x

/-- The acting transports of a bundle. -/
def acting (s : State) (c : Nat) (b : Bundle) : List Slotted := (slotted b).filter fun p => acts s c p.2

/-- The number of the free value that a slot's reads may take (R26). -/
def slotFree (s : State) (slot : Nat) : Nat := s.fresh + 2 * slot

/-- The value a transport carries (R9, R13). -/
def carried (s : State) (c : Nat) (b : Bundle) (p : Slotted) : Vec :=
  srcValue s c (destDomain (tDest p.2) = .vector) (literalOf b) (tSrc p.2) (slotFree s p.1)

/-- The lane mask of a vector transport (R20, R21). -/
def maskOf (s : State) (c : Nat) (p : Slotted) : Option Mask :=
  if destDomain (tDest p.2) = .vector then guardMask s c p.2 (slotFree s p.1 + 1) else none

/-- The registers and ports after every write of the bundle (R13, R14). DESIGN CHOICE: where opposite guards let two transports write port b
of one unit, a trigger among them, the later slot's value stays (R14, R15, R21; notes/assumptions/20.md). -/
def written (s : State) (c : Nat) (b : Bundle) : Arch :=
  (acting s c b).foldl (fun a p => writeDest a (tDest p.2) (maskOf s c p) (carried s c b p)) (s.core c).arch

/-- The triggers among the acting transports, in slot order. -/
def triggersOf (s : State) (c : Nat) (b : Bundle) : List Slotted := (acting s c b).filter fun p => isTrig p.2

/-- The descriptor or header that a VL or CE operation's bundle reads before it issues (R347, R350, R357). -/
def headOf (s : State) (t : Trig) : Nat :=
  match t.instr with
  | some (.vgath g _) | some (.vscat g _) | some (.vscatadd g _) => descAt s t.core pathV g t.sa
  | some (.vldz g) => zipHeader s g t
  | some (.tdmk g) => tdmkDesc s t g
  | _ => 0

/-- An operation whose bundle places a marker in the S queues before it reads a block or descriptor (R357, R440). -/
def placesMarker (i : Instr) : Bool :=
  match i with
  | .tdmk _ | .fwrite _ | .fread _ | .frwinRegister _ | .frwinRemove _ => true
  | _ => false

/-- A trigger with its operands as they stand after all writes of the bundle (R14), port b as the trigger itself carried it (R21); n counts
the bundle's triggers before it. -/
def trigOf (s : State) (c : Nat) (f : Fetched) (a : Arch) (n : Nat) (p : Slotted) : Trig :=
  let k := s.core c
  let d := tDest p.2
  let u := dUnit d
  let ports := (writeDest a d (maskOf s c p) (carried s c f.bits p)).unit u
  let t : Trig :=
    { core := c, unit := u, slot := p.1, dest := d, pc := k.pc, nextPc := k.pc + f.size, seq := k.trigSeq + n, t0 := s.time,
      u0 := unheld s c, delay := tDelay p.2, mask := maskOf s c p, a := ports.a, b := ports.b, c := ports.c,
      aux := bundleReads s c d (low ports.a) (low ports.b) (low ports.c) (slotFree s p.1), srSeq := k.arch.srSeq, maSeq := k.arch.maSeq, tlb := k.translations,
      inTrap := k.arch.inTrap, checked := false, released := false, stage := 0 }
  if u = 19 then { t with aux := maAux k.arch t } else { t with head := BitVec.ofNat 1024 (headOf s t) }

/-- The bundle's triggers with their operands. -/
def trigsOf (s : State) (c : Nat) (f : Fetched) : List Trig :=
  (triggersOf s c f.bits).zipIdx.map fun p => trigOf s c f (written s c f.bits) p.2 p.1

/-- A THAND of the bundle, whose loss of access the other triggers meet (R235). -/
def isThand (t : Trig) : Bool := t.unit = 21 && field t.dest 6 8 = 5

/-- The state in which a trigger is checked: a THAND beside it has taken its buffer from the core (R235). -/
def checkState (s : State) (l : List Trig) (t : Trig) : State :=
  match l.find? isThand with
  | some h => if h.seq = t.seq then s else { s with cores := updAt s.cores t.core (fun k => loseAccess k h.sa (low h.aux)) }
  | none => s

/-- The verdict on a trigger (R34); a mode operand outside its range is an illegal transport. -/
def trigVerdict (s : State) (l : List Trig) (t : Trig) : Verdict :=
  match t.instr with
  | none => .bad 0x03 (info t.sb)
  | some i => match opOf i with
    | none => .bad 0x03 (info t.sb)
    | some o => o.chk (checkState s l t) t

/-- A trigger reserves a completion record (R10, R11). -/
def takesRecord (i : Instr) : Bool :=
  match i with
  | .pcnt _ cr | .pfirst _ cr | .vcompress cr | .vgath _ cr | .vscat _ cr | .vscatadd _ cr | .vstz _ _ cr | .vrsum _ cr
  | .vrmax _ cr | .vrmin _ cr | .vargmax _ cr | .vargmin _ cr | .vscan _ cr _ | .vmerge _ _ cr _ | .vtopk _ cr _ | .vuniq _ cr
  | .kgen cr => cr
  | _ => false

/-- A trigger rounds with SR and draws a number (R153). DESIGN CHOICE: every VCVT with RM 4 counts,
also one whose types make it exact (notes/assumptions/30.md). -/
def drawsSr (t : Trig) (i : Instr) : Bool :=
  match i with
  | .vcvt _ _ _ => field (param t.a) 0 3 = 4
  | .vpack _ | .vunpack _ => (packCtl (param t.b)).rm = 4
  | .vaccrd ty rm => ty != .ui32 && rm.toNat = 4
  | .mdrain => field t.sb 3 3 = 4
  | _ => false

/-- Inside a segment a trigger takes an entry of the deferred queue (R389). -/
def isDeferred (i : Instr) : Bool :=
  takesRecord i ||
  match i with
  | .cadd | .cque _ | .xjob _ | .sejob _ | .xtab _ | .rrel _ | .grpinc | .launch | .thand | .fflowOpen | .fflowAccept
  | .fflowCloseSend | .fflowCloseRecv | .fwrite _ | .fread _ | .fcadd | .fred _ | .frate | .frwinRegister _ | .frwinRemove _ => true
  | _ => false

/-- How many triggers of a list have a property of their instruction. -/
def countTrigs (l : List Trig) (f : Instr → Bool) : Nat := (l.filter fun t => (t.instr.map f).getD false).length

/-- Entries of the deferred queue in use: deferred operations, those of CE and FX that have not started among them, and records held
back (R389). -/
def deferredUsed (k : Core) : Nat :=
  match k.seg with
  | none => 0
  | some g => k.defq.length + (k.arch.ring.reserved.filter fun e => decide (g.first ≤ e.seq)).length +
      countTrigs k.captured.toList.flatten (fun i => isDeferred i && !takesRecord i)

/-- The other tasks of the lock group of the task on core c, running or saved (R397). -/
def lockGroup (s : State) (c : Nat) : List Core :=
  match (s.core c).ctx with
  | none => []
  | some x =>
    if x.lockg = 0 then []
    else
      let mine := fun (y : Ctx) => y.launch = x.launch && y.region = x.region && y.id != x.id
      ((s.cores.toList.filter fun k => (k.ctx.map mine).getD false) ++ (s.disp.saved.filter fun y => mine y.ctx).map (·.core))

/-- A rendezvous mark holds while a rewind of its segment is outstanding elsewhere in the group (R398). -/
def markHeld (s : State) (c : Nat) (b : Bundle) : Bool :=
  hdrKind b = 2 && (lockGroup s c).any fun k => k.outRewind.contains (hdrId b)

/-- The completion ring has no entry left for a bundle's records (R11). -/
def ringShort (k : Core) (n : Nat) : Bool :=
  let r := k.arch.ring
  n != 0 && decide (2 ^ k.arch.crSize < r.written - r.popped + r.reserved.length + n)

/-- Why a bundle may not issue yet: cause, unit and number (R28, R401), a page walk that a trigger of a unit needs, or the second read of a
word in error under what it reads first. -/
inductive Wait where
  | hold (cause unit num : Nat)
  | walk (unit va : Nat)
  | unread (unit slot : Nat) (at_ : Loc) (n : Nat)
  deriving DecidableEq, Repr

/-- The hold or walk of the verdict on a trigger of a unit; the drain window's hold names that unit (R401). -/
def Verdict.wait? (v : Verdict) (unit slot : Nat) : Option Wait :=
  match v with
  | .hold a b c => some (.hold a (if a = 5 then unit else b) c)
  | .walk va => some (.walk unit va)
  | .unread l n => some (.unread unit slot l n)
  | _ => none

/-- The trigger that finds no place in the deferred queue, with `used` entries in use (R389). -/
def defQueueShort (used : Nat) (l : List Trig) : Option Trig := (l.filter fun t => (t.instr.map isDeferred).getD false)[64 - used]?

/-- The first reason why a bundle waits, if there is one (R28, R34). -/
def bundleWait (s : State) (c : Nat) (f : Fetched) : Option Wait :=
  let k := s.core c
  let ts := trigsOf s c f
  let src := (acting s c f.bits).findSome? fun p => (srcHold s c (tSrc p.2)).map fun h => Wait.hold h.1 h.2 0
  let guard := if (acting s c f.bits).any fun p => guardHold s c p.2 then some (Wait.hold 1 13 0) else none
  let regs := ts.findSome? fun t => if bundleReadsHold s c t.unit (field t.dest 6 8) then some (Wait.hold 1 t.unit 0) else none
  let mark := if markHeld s c f.bits then some (Wait.hold 12 0 0) else none
  let engine := ts.findSome? fun t => (engineOf t.unit).bind fun e =>
    if !(nth k.captured e []).isEmpty then some (Wait.hold 13 t.unit 0) else none
  let ring := if ringShort k (countTrigs ts takesRecord) then some (Wait.hold 6 12 0) else none
  let queue := if k.seg.isSome then (defQueueShort (deferredUsed k) ts).map fun t => Wait.hold 7 t.unit 0 else none
  [src, guard, regs, mark, engine, ring, queue].foldl (fun (a : Option Wait) b => a.orElse fun _ => b) none
    |>.orElse fun _ => ts.findSome? fun t => (trigVerdict s ts t).wait? t.unit t.slot

/-- The guards of two transports pass together in some lane (R15). -/
def bothPass (s : State) (c : Nat) (p q : Slotted) : Bool :=
  if destDomain (tDest p.2) = .vector && destDomain (tDest q.2) = .vector then
    match maskOf s c p, maskOf s c q with
    | some m, some n => m &&& n != 0
    | _, _ => true
  else true

/-- The first collision of a bundle, as its destination (R15). -/
def collision (s : State) (c : Nat) (b : Bundle) : Option Nat :=
  let l := acting s c b
  (l.find? fun p => l.any fun q =>
    decide (p.1 < q.1) && sameDest p.2 q.2 && !opposed p.2 q.2 && bothPass s c p q).map fun p => tDest p.2

/-- The fault of a bundle that issues: collision first, then the transports in slot order (R34). -/
def bundleFault (s : State) (c : Nat) (f : Fetched) : Option TrapReq :=
  let k := s.core c
  let req := fun (code : Nat) (i : Word) (slot : Nat) (lvl : Bool) (tile : Bool) =>
    ({ code := code, info := i, slot := slot, blevel := lvl, pc := some k.pc, inTrap := k.arch.inTrap, tile := tile } : TrapReq)
  match collision s c f.bits with
  | some d => some (req 0x04 (info d) 0 true false)
  | none =>
    let ts := trigsOf s c f
    ts.findSome? fun t => match trigVerdict s ts t with
      | .bad code i => some (req code i t.slot false (tileFault t code))
      | _ => none

/-- The order in which a bundle's operations take effect (R13, R85): MVST reads the registers as they stood, then BC but for TRAP and
HALT, then the other units, SY, and TRAP or HALT last. -/
def issueRank (i : Instr) : Nat :=
  match i with
  | .mvst => 0
  | .br | .jmp | .call | .calli | .ret | .loop | .lset | .enter | .leave => 1
  | .mvts | .pbw | .crpop _ | .curqStart | .curqDesc | .grpinc | .launch | .eret | .rlog => 3
  | .trap | .halt => 4
  | _ => 2

/-- Numbers drawn by the triggers: each takes the SR sequence number as the ones before it have left it (R153). DESIGN CHOICE:
an MDRAIN that MA later discards has drawn its number all the same (notes/assumptions/30.md). -/
def numberSr (base : BitVec 32) : List Trig → List Trig
  | [] => []
  | t :: r =>
    let next := if (t.instr.map (drawsSr t)).getD false then base + 1 else base
    { t with srSeq := base, checked := true } :: numberSr next r

/-- The tile that a VLDT reads from its trigger on (R218, R345). -/
def readTile (t : Trig) : Option Nat := if t.unit = 17 && t.instr = some .vldt then some (selTile t) else none

/-- A trigger's effect on the core as its bundle ends: its record (R11), MA's marks (R200), a tile it reads (R345), an engine's capture
(R50). -/
def captureTrig (k : Core) (t : Trig) : Core :=
  let k := if (t.instr.map takesRecord).getD false then k.reserveRing t.seq else k
  let k := match readTile t with
    | some n => { k with arch := k.arch.setTile n fun x => { x with reads := x.reads + 1 } }
    | none => k
  let k := if t.unit = 19 then { k with arch := maTrigger t k.arch } else k
  match engineOf t.unit with
  | none => k
  | some e => { k with
      captured := updAt k.captured e fun l => l ++ [t]
      arch := { k.arch with active := updAt k.arch.active e fun x => { x with shadow := false } } }

/-- The start of a captured operation (R49). -/
def engineEvent (e : Nat) (c : Nat) : Instr :=
  .engineOpStart (coreBV c) (match e with | 0 => .ma | 1 => .vl | 2 => .ce | _ => .fx)

/-- The trigger's operation follows, or, of an engine, its start (R14, R49). -/
def launchTrig (s : State) (c : Nat) (t : Trig) : Prog :=
  match engineOf t.unit with
  | none => .eff (.post s.time 2 (.op t))
  | some e => postAt (max (s.time + t.delay) (nth (s.core c).engLast e 0 + 1)) 0 (engineEvent e c)

/-- A bundle issues (R13, R14): its writes, its triggers, the next pc. -/
def issueBundle (c : Nat) (f : Fetched) : Prog := .get fun s =>
  let k := s.core c
  let arch := written s c f.bits
  let ts := numberSr k.arch.srSeq (trigsOf s c f)
  let drawn := (ts.filter fun t => (t.instr.map (drawsSr t)).getD false).length
  let mark := hdrKind f.bits = 2
  let id := hdrId f.bits
  Prog.all [
    setCore c (fun k =>
      let k := { k with
        fetched := none
        pc := k.pc + f.size
        held := 0
        walk := none
        walked := []
        trigSeq := k.trigSeq + ts.length
        outRewind := if mark then k.outRewind.filter (· ≠ id) else k.outRewind
        seg := k.seg.map fun (g : Segment) => { g with again := false }
        arch := { arch with
          srSeq := arch.srSeq + BitVec.ofNat 32 drawn
          rvPass := if mark then some id else arch.rvPass } }
      ts.foldl captureTrig k),
    .eff (.fresh 32),
    Prog.each (ts.filter fun t => t.instr.any placesMarker) fun t => queueMarker t pathS,
    Prog.each ((List.range 5).flatMap fun r => ts.filter fun t => (t.instr.map issueRank).getD 2 = r) (launchTrig s c),
    nextFetch c 1]

/-- A held bundle (R28, R29): the hold line is asserted for a cycle; at the watchdog's limit a freeze timeout follows. -/
def holdBundle (c : Nat) (w : Wait) : Prog := .get fun s =>
  let k := s.core c
  let (cause, unit, num) := match w with
    | .hold a b n => (a, b, n)
    | .walk u _ => (11, u, 0)
    | .unread u _ _ _ => (10, u, 0)
  let lim := watchLimit k
  Prog.all [
    setCore c (fun k => { k with
      heldTotal := k.heldTotal + 1
      held := k.held + 1
      holdInfo := info (unit % 32 + cause * 2 ^ 8 + num % 64 * 2 ^ 16) }),
    (match w with
    | .walk _ va => startWalk c va
    | .unread _ i l n => readAgain c i l n
    | _ => .done),
    if lim ≤ k.held + 1 then postEv 1 2 (.freezeTimeout (coreBV c)) else nextFetch c 1]

/-- A segment-entry bundle (R387, R390): it ends the open segment, waits for what that performs, is a named point of a pending
overrun, and opens its own segment. `go` is its issue. -/
def segmentEntry (c id : Nat) (go : Prog) : Prog := .get fun s =>
  let k := s.core c
  if (k.seg.map (·.again)).getD false then go
  else if k.seg.isSome then (if k.quiet then (segmentEnd c).andThen (nextFetch c 1) else countWait c k.pc (nextFetch c 1))
  else if k.pend.any (fun p => p.code = 0x1A && !p.ready) then Prog.all [
    setCore c (fun k => { k with pend := k.pend.map fun p => if p.code = 0x1A then { p with ready := true } else p }),
    nextFetch c 0]
  else Prog.all [
    Prog.when_ (id != 0) (setCore c fun k => { k with
      seg := some { id := id, entry := k.pc, rewinds := 0, first := k.trigSeq, shadow := k.arch, taken := [], again := true, closing := false }
      arch := k.arch.setSegAct true }),
    go]

/-- A parity error of the register file met by a bundle (R392): always transient; a rewind restores the register, without a segment
the context ends. -/
def registerError (c : Nat) : Prog := .get fun s =>
  Prog.all [
    setCore c (fun k => { k with regError := false }),
    if (s.core c).seg.isSome then Prog.all [setCore c (fun k => { k with rewind := some (0, 0) }), nextFetch c 0]
    else contextEnd c fun s => coreRecord s c 0x1B 2 (2 ^ 63)]

/-- BUNDLE_ISSUE (R13, R28, R34): the bundle is held, or faults, or issues. -/
def issue (c : Nat) : Prog := .get fun s =>
  let k := s.core c
  match k.fetched with
  | none => .done
  | some f =>
    if k.flow != .running then .done
    else if k.regError then registerError c
    else
      let go : Prog := .get fun s =>
        match bundleWait s c f with
        | some w => holdBundle c w
        | none => match bundleFault s c f with
          | some r => Prog.all [
              setCore c (fun k => { k with walk := none, walked := [] }),
              Prog.when_ (r.code = 0x20) replayFree,
              raise c r]
          | none => issueBundle c f
      if hdrKind f.bits = 1 then segmentEntry c (hdrId f.bits) go else go

/-- BUNDLE_ISSUE. -/
def execBundleIssue (core : BitVec 8) (s : State) : Host.Outcome State Fault Refusal := ran (issue core.toNat) s

end Sys2Proof.Machine
end

