-- ==== Sys2Proof/Machine/Fetch.lean ====
section
/-! DEFINITION. The bundle boundary: FETCH (R22, R23, R34), starts of engine operations (R49, R50), TRAP_ENTRY (R35, R391),
FREEZE_TIMEOUT (R29, R399) and PAGE_WALK (R255). -/

namespace Sys2Proof.Machine

/-- Index i of index memory; beyond the image's length it is 0xFFFE (R22). -/
def Core.index (k : Core) (i : Nat) : Nat := ((k.idx[i]?).getD 0xFFFE).toNat

/-- The literal bundle after an escape at pc (R23). -/
def Core.literal (k : Core) (pc : Nat) : Bundle := BitVec.ofNat 384 (ofDigits 24 16 fun j => k.index (pc + 1 + j))

/-- What FETCH finds: a bundle, or the fetch fault (R22, R23, R34). -/
def Core.decodeAt (k : Core) : Except TrapReq Fetched :=
  let req := fun (code i slot : Nat) (lvl : Bool) =>
    ({ code := code, info := info i, slot := slot, blevel := lvl, pc := some k.pc, inTrap := k.arch.inTrap } : TrapReq)
  let i := k.index k.pc
  if 32767 < k.pc then .error (req 0x01 k.pc 0 true)
  else if i < 4096 then
    match k.dict[i]? with
    | some b => .ok ⟨b, 1⟩
    | none => .error (req 0x01 i 0 true)
  else if i != 0xFFFF || 32767 < k.pc + 24 then .error (req 0x01 i 0 true)
  else
    let b := k.literal k.pc
    match validate b with
    | none => .ok ⟨b, 25⟩
    | some (code, slot, lvl, x) => .error (req code (if code = 0x02 then k.pc else x + k.pc * 2 ^ 48) slot lvl)

/-- A pre-emption is taken at this boundary (R38, R402): at a segment boundary, or once it is due at any; a trap handler delays it
unless it is forced (R38). A segment that is closing closes first. -/
def Core.yields (k : Core) : Bool :=
  match k.preq with
  | none => false
  | some p => (match k.seg with
      | none => true
      | some g => p.due && !g.closing) && (!k.arch.inTrap || p.forced)

/-- The words of index memory, and of dictionary memory, that a fetch at the pc reads (R22, R257): the index first, and where that word
is in error nothing else. -/
def Core.fetchWords (k : Core) : List Nat :=
  let at_ := indexBase + 2 * k.pc
  let i := k.index k.pc
  if 32767 < k.pc then []
  else if k.wordBad (at_ / 8) then [at_ / 8]
  else if i < 4096 then at_ / 8 :: unitsOf (dictBase + 48 * i) 48 8
  else if i = 0xFFFF then unitsOf at_ (2 * min 25 (32768 - k.pc)) 8
  else [at_ / 8]

/-- Errors in dictionary or index memory (R393): the affected entries are installed again, or, where the image is poisoned, the context
ends. -/
def reinstall (c : Nat) (words : List Nat) : Prog := .get fun s =>
  let k := s.core c
  let h := vaRead s k.imageAddr 256
  if vaPoisoned s k.imageAddr (imgLength h) then
    contextEnd c fun s => { coreRecord s c 0x1B 2 k.imageAddr with addr := k.imageAddr }
  else Prog.all [
    errorRecord { coreRecord s c 0x1B 1 0 with corr := true },
    setCore c (fun k => k.reinstalled s words),
    nextFetch c 1]

/-- FETCH (R31, R383, R395, R402): what a bundle boundary takes first, or the bundle at the pc. -/
def fetchNext (c : Nat) : Prog := .get fun s =>
  let k := s.core c
  let turn := fun (f : Flow) (i : Instr) => Prog.all [
    setCore c (fun k => { k with flow := f, fetched := none }),
    postEv 0 2 i]
  if k.flow != .running then .done
  else if k.canRewind then turn .rewinding (.rewind (coreBV c))
  else if (dueFault k).isSome && !k.arch.inTrap then turn .trapping (.trapEntry (coreBV c))
  else if k.yields then turn .saving (.contextSave (coreBV c))
  else if k.fetchWords.any k.wordBad then reinstall c (k.fetchWords.filter k.wordBad)
  else (correct false c k.fetchWords).andThen <| match k.decodeAt with
    | .error r => raise c r
    | .ok f => Prog.all [
        setCore c (fun k => { k with fetched := some f }),
        postEv 0 5 (.bundleIssue (coreBV c))]

/-- FETCH. -/
def execFetch (core : BitVec 8) (s : State) : Host.Outcome State Fault Refusal := ran (fetchNext core.toNat) s

/-- ENGINE_OP_START (R49, R50). The delay counts unheld cycles (R49), and R28 freezes the issue sequencers during a hold, so a bundle held
for cause 13 behind a delayed start waits for its freeze timeout; that the delay does not run on is this model's reading of R50
(notes/assumptions/20.md). The captured operation starts once its delay in unheld cycles has passed, one start a cycle; its
operands move to the active set. -/
def startCaptured (c : Nat) (e : Engine) : Prog := .get fun s =>
  let k := s.core c
  match nth k.captured e.code [] with
  | [] => .done
  | t :: rest =>
    let again := postEv 1 0 (.engineOpStart (coreBV c) e)
    if unheld s c < t.u0 + t.delay then again
    else if 0 < s.time && s.time ≤ nth k.engLast e.code 0 then again
    else if t.drained s then again
    else
      let started := { t with t0 := s.time, u0 := unheld s c, checked := true }
      Prog.all [
        setCore c (fun k =>
          let k := { k with
            captured := updAt k.captured e.code fun _ => rest
            engLast := updAt k.engLast e.code fun _ => s.time }
          k.updArch t.seq fun a => { a with
            active := updAt a.active e.code fun x => { x with a := t.a, b := t.b, c := t.c, running := x.running + 1 } }),
        postOp 0 started]

/-- ENGINE_OP_START. -/
def execEngineOpStart (core : BitVec 8) (e : Engine) (s : State) : Host.Outcome State Fault Refusal :=
  ran (startCaptured core.toNat e) s

/-- RESULT_LANDING (R14). -/
def execResultLanding (core : BitVec 8) (unit : BitVec 5) (s : State) : Host.Outcome State Fault Refusal :=
  ran (landHead core.toNat unit.toNat) s

/-- A fault about to be taken meets neither an enabled handler nor a free one: it escalates (R35). -/
def escalates (k : Core) (inTrap : Bool) : Bool := !(k.arch.sr 1).getLsbD 63 || k.arch.inTrap || inTrap

/-- TRAP_ENTRY (R35, R383, R391): after every landing, a pending fault goes before the bundle's own; the open segment ends before
the handler's first bundle, but not before an escalation. -/
def enterTrap (c : Nat) : Prog := .get fun s =>
  let k := s.core c
  let again := postEv 1 2 (.trapEntry (coreBV c))
  let pending := if k.arch.inTrap then none else dueFault k
  let stays := fun (esc : Bool) => k.seg.isSome && !esc
  if k.flow != .trapping then .done
  else if k.canRewind then Prog.all [
    setCore c (fun k => { k with flow := .rewinding, trapReq := none }),
    postEv 0 2 (.rewind (coreBV c))]
  else if !k.quiet then countWait c k.pc again
  else match pending, k.trapReq with
    | some p, _ =>
      if stays (escalates k false) then (segmentEnd c).andThen again else takePending c p k.pc
    | none, some r =>
      if stays (escalates k r.inTrap) then (segmentEnd c).andThen again else takeTrap c r
    | none, none => Prog.all [setCore c (fun k => { k with flow := .running }), nextFetch c 0]

/-- TRAP_ENTRY. -/
def execTrapEntry (core : BitVec 8) (s : State) : Host.Outcome State Fault Refusal := ran (enterTrap core.toNat) s

/-- FREEZE_TIMEOUT (R29): the held bundle takes 0x19 where its count has come to the limit. -/
def freezeExpired (c : Nat) : Prog := .get fun s =>
  let k := s.core c
  if k.flow != .running || k.held = 0 || k.held < watchLimit k then .done else freeze c k.pc

/-- FREEZE_TIMEOUT. -/
def execFreezeTimeout (core : BitVec 8) (s : State) : Host.Outcome State Fault Refusal := ran (freezeExpired core.toNat) s

/-- PAGE_WALK (R255, R332): the walk's entry fills both TLBs, or the access that waits takes a translation fault. -/
def pageWalked (c va : Nat) : Prog := .get fun s =>
  let page := va / 2 ^ 16
  if (s.core c).walk != some page then .done
  else if s.pkg.draining then postEv 1 3 (.pageWalk (coreBV c) (BitVec.ofNat 48 va))
  else match walked s c va with
    | none => setCore c fun k => { k with walk := none, walked := (page, none) :: k.walked }
    | some e => Prog.all [
        setCore c (fun k => { k with walk := none, walked := (page, some e) :: k.walked }),
        tlbKeep c e]

/-- PAGE_WALK. -/
def execPageWalk (core : BitVec 8) (va : BitVec 48) (s : State) : Host.Outcome State Fault Refusal :=
  ran (pageWalked core.toNat va.toNat) s

/-- TILE_DRAIN_DONE (R218). -/
def execTileDrainDone (core : BitVec 8) (tile : BitVec 6) (s : State) : Host.Outcome State Fault Refusal :=
  ran (drainTile core.toNat tile.toNat) s

end Sys2Proof.Machine
end

