-- ==== Sys2Proof/Machine/Ecc.lean ====
section
/-! DEFINITION. Uncorrectable errors once they are known (R258, R259, R392 to R396), and the rewind of a segment (R395). -/

namespace Sys2Proof.Machine

/-- What a transient error does to one consumer, wherever its context is (R394, R403): inside the open segment a rewind, else 0x1B at the
next boundary, with bit 63 set; the target accumulator of an MMA is marked invalid. -/
def transientUse (addr tag : Nat) (u : Who) : Prog := .get fun s =>
  let inside := fun (k : Core) => (k.seg.map fun g => decide (g.first ≤ u.seq) && !g.closing).getD false
  let mark := fun (a : Arch) => match u.acc with
    | none => a
    | some n => a.setAcc n fun x => { x with invalid := true }
  let late := pendFor u 0x1B (info (addr + 2 ^ 63)) true tag
  match coreOf s u.ctx with
  | some c =>
    if inside (s.core c) then setCore c fun k => { k with rewind := some (addr, tag) }
    else (setArchAt c u.seq mark).andThen late
  | none => match s.disp.saved.find? fun y => y.ctx.id = u.ctx with
    | none => .done
    | some y =>
      if inside y.core then setSaved u.ctx fun k => { k with rewind := some (addr, tag) }
      else (setSaved u.ctx fun k => k.updArch u.seq mark).andThen late

/-- What a persistent error does to one consumer (R394): its context ends, on a core or saved. -/
def persistentUse (addr tag : Nat) (u : Who) : Prog := .get fun s =>
  match coreOf s u.ctx with
  | some c => contextEnd c fun s => { coreRecord s c 0x1B 2 addr with addr := addr, detail := tag, slot := u.slot }
  | none => match s.disp.saved.find? fun y => y.ctx.id = u.ctx with
    | none => .done
    | some y => savedEnd y 0x1B addr false addr tag u.slot

/-- The eight words of the on-chip line of a byte address. -/
def lineWords (a : Nat) : List Nat := (List.range 8).map (· + a / 64 * 8)

/-- Poisons the line of a word (R258). -/
def poisonLine (hbm : Bool) (c a : Nat) : Prog :=
  if hbm then .eff (.pkg fun p => { p with hbmPoison := (a / 64 :: p.hbmPoison).dedup })
  else setCore c fun k => { k with poison := (lineWords a ++ k.poison).dedup }

/-- The word at an address no longer counts as newly in error. -/
def dropUpset (hbm : Bool) (c a : Nat) : Prog :=
  let rest := fun (l : List Upset) => l.filter fun u => u.word != a / 8
  if hbm then .eff (.pkg fun p => { p with hbmUpsets := rest p.hbmUpsets })
  else setCore c fun k => { k with upsets := rest k.upsets }

/-- The error of the word at an address, if there is one. -/
def upsetAt (s : State) (hbm : Bool) (c a : Nat) : Option Upset :=
  (if hbm then s.pkg.hbmUpsets else (s.core c).upsets).find? fun u => u.word = a / 8

/-- ECC_REREAD (R392): the second read decides. A transient error is corrected; a persistent one poisons the line. A correctable one
is corrected (R258). -/
def eccDecide (hbm : Bool) (c a : Nat) : Prog := .get fun s =>
  match upsetAt s hbm c a with
  | none => .done
  | some u =>
    if u.correctable then correct hbm c [a / 8] else
    let tag := if hbm then 0 else ((assoc (s.core c).tags (a / 64)).getD 0)
    (dropUpset hbm c a).andThen
      (if u.persistent then (poisonLine hbm c a).andThen (Prog.each u.users (persistentUse a tag))
       else Prog.each u.users (transientUse a tag))

/-- ECC_REREAD. -/
def execEccReread (core : BitVec 8) (hbm : Bool) (addr : BitVec 45) (s : State) : Host.Outcome State Fault Refusal :=
  ran (eccDecide hbm core.toNat addr.toNat) s

/-- SCRUB_WORD (R259): the scrubber corrects a word, or poisons its line and records it; whoever consumed the word learns of it as of
a second read. -/
def scrub (c a : Nat) : Prog := .get fun s =>
  match upsetAt s false c a with
  | none => .done
  | some u => Prog.all [
      Prog.when_ (u.persistent && !u.correctable) (errorRecord { coreRecord s c 0x1B 1 (a / 64 * 64) with
        source := 8, pc := 0, seg := none, ctx := 0, version := 0, addr := a / 64 * 64, detail := (assoc (s.core c).tags (a / 64)).getD 0 }),
      eccDecide false c a]

/-- The words of a core's arrays in the scrubber's order: scratchpad and scalar memory, then the keepers' side bank, dictionary memory and
index memory (R243, R246, R257, R259). -/
def scrubWords : Nat := 0xCC000

/-- How many words on from word w of core c the scrubber next has something to do: a word in error, or a look again after 65,536 words
(R259). -/
def scrubGap (s : State) (c w : Nat) : Nat :=
  let ahead := fun (d base : Nat) => (s.core d).upsets.filterMap fun u => if w < base + u.word then some (base + u.word - w) else none
  (ahead c 0 ++ ahead ((c + 1) % 256) scrubWords).foldl min 65536

/-- SCRUB_WORD (R259): one word in each cycle, core by core and without end, so that a pass takes 213,909,504 cycles, fewer than 2^28. Of
words without an error nothing is seen, and one event stands for a run of them. -/
def execScrubWord (core : BitVec 8) (addr : BitVec 32) (s : State) : Host.Outcome State Fault Refusal :=
  ran ((scrub core.toNat addr.toNat).andThen <| .get fun s =>
    let n := scrubGap s core.toNat (addr.toNat / 8)
    let w := addr.toNat / 8 + n
    postEv n 3 (.scrubWord (coreBV ((core.toNat + w / scrubWords) % 256)) (BitVec.ofNat 32 (w % scrubWords * 8)))) s

/-- The task-visible state after a rewind (R388, R395): the shadow, with the counts of what is still going on as they stand now,
SEGACT set and PREQ kept. -/
def restored (cur sh : Arch) : Arch :=
  let a := { sh with
    ring := { sh.ring with reserved := [] }
    active := sh.active.map fun (o : EngineSet) => { o with running := 0 }
    tiles := Vector.zipWith (fun (o n : Tile) => { o with busy := n.busy, reads := n.reads }) sh.tiles cur.tiles
    keepers := Vector.zipWith (fun (o n : Keeper) => { o with writes := n.writes, readers := n.readers }) sh.keepers cur.keepers
    accs := Vector.zipWith (fun (o n : Acc) => { o with busy := n.busy }) sh.accs cur.accs }
  (a.setPreq ((cur.sr 0).getLsbD 7)).setSegAct true

/-- The core after a rewind of its open segment (R237, R395, R400): deferred operations, what stands behind them in their units, and the
segment's pending faults are gone, the held cycles stay counted, handles it took stand at the head of its inbound queue again, and ranges it gave away are its own. -/
def Core.rewound (k : Core) (g : Segment) : Core :=
  let mine := g.taken.filter fun h => (k.ctx.map fun x => decide (coreAtPos x.core (handleOwner h) = x.core)).getD false
  { k with
    arch := restored k.arch g.shadow
    pc := g.entry
    flow := .running
    fetched := none
    flights := []
    defq := []
    pend := k.pend.filter fun p => !p.inSeg
    trapReq := none
    rewind := none
    outRewind := if (k.ctx.map fun x => decide (x.lockg ≠ 0)).getD false then (g.id :: k.outRewind).dedup else k.outRewind
    inbound := g.taken ++ k.inbound
    handedOut := k.handedOut.filter (fun h => h.holder != .away || decide (h.since < g.first)) ++
      mine.map fun h => ⟨handleBase h, handleLen h, 0, .home⟩
    parted := k.parted.filter fun p => decide (p.since < g.first)
    seg := some { g with rewinds := g.rewinds + 1, taken := [], again := true } }

/-- REWIND (R395): after every landing the segment starts again; a fourth rewind ends the context. -/
def rewindNow (c : Nat) : Prog := .get fun s =>
  let k := s.core c
  if k.flow != .rewinding then .done
  else match k.seg, k.rewind with
    | some g, some (a, tag) =>
      if !k.quiet then postEv 1 2 (.rewind (coreBV c))
      else if 3 ≤ g.rewinds then contextEnd c fun s => coreRecord s c 0x1D 2 g.id
      else Prog.all [
        errorRecord { coreRecord s c 0x1B 1 (a + 2 ^ 63) with corr := true, addr := a, pc := g.entry, detail := tag },
        setCore c (fun k => k.rewound g),
        .get fun s => Prog.each ((List.range 64).filter fun n => (nth (s.core c).arch.tiles n Tile.reset).state = .draining) fun n =>
          postEv 1 3 (.tileDrainDone (coreBV c) (BitVec.ofNat 6 n)),
        nextFetch c 1]
    | _, _ => Prog.all [setCore c (fun k => { k with flow := .running, rewind := none }), nextFetch c 0]

/-- REWIND. -/
def execRewind (core : BitVec 8) (s : State) : Host.Outcome State Fault Refusal := ran (rewindNow core.toNat) s

end Sys2Proof.Machine
end

