-- ==== Sys2Proof/Machine/Tree.lean ====
section
/-! DEFINITION. Region control blocks and trees of them: fields (R99), inheritance (R100), bounds (R101), the checks and the visiting
order of R105, snapshots (R108). -/

namespace Sys2Proof.Machine

/-- Field of an RCB by its bits in R99. -/
def Rcb.f (r : Rcb) (lo len : Nat) : Nat := field r.bits.toNat lo len

/-- KIND 00: a leaf. -/
def Rcb.leaf (r : Rcb) : Bool := r.f 0 2 = 0
/-- COMPL, CHILD, NEXT, IMAGE and PBADDR of an RCB. -/
def Rcb.compl (r : Rcb) : Nat := r.f 64 48
/-- See Rcb.compl. -/
def Rcb.child (r : Rcb) : Nat := r.f 384 48
/-- See Rcb.compl. -/
def Rcb.next (r : Rcb) : Nat := r.f 448 48
/-- See Rcb.compl. -/
def Rcb.image (r : Rcb) : Nat := r.f 512 48
/-- See Rcb.compl. -/
def Rcb.pbaddr (r : Rcb) : Nat := r.f 640 48
/-- PBLEN and VERSION of an RCB. -/
def Rcb.pblen (r : Rcb) : Nat := r.f 688 9
/-- See Rcb.pblen. -/
def Rcb.version (r : Rcb) : Nat := r.f 40 16
/-- Bit i of INHERIT (R100). -/
def Rcb.inherits (r : Rcb) (i : Nat) : Bool := r.f (24 + i) 1 = 1

/-- The RCB at an address with a leaf's parameter block, where the address is aligned and translates (R105). -/
def rcbAt (s : State) (a : Nat) : Option Rcb :=
  if a % 512 != 0 || (vaHomes s a 512 false).isNone then none
  else
    let r : Rcb := ⟨a, BitVec.ofNat 4096 (vaRead s a 512), 0⟩
    some (if r.leaf && decide (r.pblen ≤ 256) then { r with pb := BitVec.ofNat 2048 (vaRead s r.pbaddr r.pblen) } else r)

/-- COMPL can be stored to (R105). -/
def complOk (s : State) (a : Nat) : Bool := a % 8 = 0 && (vaHomes s a 8 true).isSome

/-- Case 1 of R105 breaks nothing: every address of the RCB is aligned and translates. -/
def rcbAddresses (s : State) (root : Bool) (r : Rcb) : Bool :=
  complOk s r.compl &&
  (if r.leaf then r.image % 256 = 0 && (vaHomes s r.image 256 false).isSome && r.pbaddr % 8 = 0 &&
      (r.pblen = 0 || (vaHomes s r.pbaddr r.pblen false).isSome)
   else r.child % 512 = 0 && (r.child = 0 || (vaHomes s r.child 512 false).isSome)) &&
  (root || r.next = 0 || (r.next % 512 = 0 && (vaHomes s r.next 512 false).isSome))

/-- Reserved bits of an RCB as (bit, length) (R99). -/
def rcbReserved : List (Nat × Nat) :=
  [(6, 2), (23, 1), (37, 3), (56, 8), (112, 16), (265, 7), (285, 3), (306, 6), (325, 7), (357, 27), (432, 16), (496, 16), (560, 16),
   (697, 7), (723, 13), (755, 13), (791, 9), (823, 9), (843, 5), (856, 3240)]

/-- Leaf fields of an RCB as (bit, length) (R99). -/
def rcbLeafFields : List (Nat × Nat) :=
  [(512, 48), (576, 32), (608, 16), (624, 16), (640, 48), (688, 9), (704, 19), (736, 19), (768, 23), (800, 23), (848, 8)]

/-- WDLIM as it applies (R99). -/
def wdlimOf (x : Nat) : Nat := if x = 0 then 22 else min (max x 16) 30

/-- An RCB's fields after inheritance (R100) from `p`, with parent entry `pi`. -/
def resolve (p : Option Region) (pi : Option Nat) (r : Rcb) : Region :=
  let pick := fun (i : Nat) (own : Nat) (f : Region → Nat) => match p with
    | some q => if r.inherits i then f q else own
    | none => own
  let pickB := fun (i : Nat) (own : Bool) (f : Region → Bool) => match p with
    | some q => if r.inherits i then f q else own
    | none => own
  { addr := r.addr
    parent := pi
    leaf := r.leaf
    fdom := r.f 2 1 = 1
    det := pickB 2 (r.f 3 1 = 1) (·.det)
    order := r.f 4 1 = 1
    overlap := r.f 5 1 = 1
    prio := pick 0 (r.f 8 4) (·.prio)
    profile := pick 1 (r.f 12 5) (·.profile)
    cscope := r.f 17 3
    rrmode := pick 10 (r.f 20 2) (·.rrmode)
    logpol := pick 10 (r.f 22 1) (·.logpol)
    version := r.version
    compl := r.compl
    srseed := info (pick 3 (r.f 128 64) (·.srseed.toNat))
    tieseed := info (pick 4 (r.f 192 64) (·.tieseed.toNat))
    cores := pick 5 (r.f 256 9) (·.cores)
    spadk := pick 6 (r.f 272 13) (·.spadk)
    cntq := pick 7 (r.f 288 18) (·.cntq)
    fshare := pick 8 (r.f 312 8) (·.fshare)
    wdlim := pick 9 (wdlimOf (r.f 320 5)) (·.wdlim)
    qbase := pick 11 (r.f 332 12) (·.qbase)
    qcnt := pick 11 (r.f 344 13) (·.qcnt)
    image := r.image
    g := r.f 576 32
    x := r.f 608 16
    y := r.f 624 16
    pb := Vector.ofFn fun i => if r.pblen ≤ 8 * i.val then 0 else info (digit r.pb.toNat 64 i.val)
    pblen := r.pblen
    sstop := r.f 704 19
    sslim := r.f 736 19
    vstop := r.f 768 23
    vslim := r.f 800 23
    ddies := pick 2 (r.f 832 2) (·.ddies)
    dwidth := pick 2 (r.f 834 5) (·.dwidth)
    dheight := pick 2 (r.f 839 4) (·.dheight)
    lockg := pick 12 (r.f 848 8) (·.lockg)
    issued := 0
    ended := 0
    failed := false
    stored := false }

/-- Case 2 of R105 breaks nothing: reserved fields and values, ranges (R99), a root's NEXT and INHERIT (R100). -/
def rcbFields (root : Bool) (p : Option Region) (r : Rcb) (x : Region) : Bool :=
  let own := fun (i : Nat) (ok : Bool) => r.inherits i || ok
  rcbReserved.all (fun b => r.f b.1 b.2 = 0) && decide (r.f 0 2 < 2) && decide (r.f 17 3 < 5) && (r.inherits 10 || decide (r.f 20 2 < 3)) &&
  (!root || r.next = 0) && (!root || p.isSome || r.f 24 16 = 0) &&
  (r.leaf || (r.child != 0 && rcbLeafFields.all fun b => r.f b.1 b.2 = 0)) &&
  own 1 (decide (1 ≤ r.f 12 5 ∧ r.f 12 5 ≤ 3)) && own 5 (decide (1 ≤ r.f 256 9 ∧ r.f 256 9 ≤ 256)) &&
  own 6 (decide (1 ≤ r.f 272 13 ∧ r.f 272 13 ≤ 4096)) && own 7 (decide (r.f 288 18 ≤ 131072)) &&
  own 11 (decide (r.f 344 13 ≤ 4096)) &&
  own 2 (if r.f 3 1 = 1 then decide (1 ≤ r.f 832 2 ∧ r.f 832 2 ≤ 2) && decide (1 ≤ r.f 834 5 ∧ r.f 834 5 ≤ 16) &&
      decide (1 ≤ r.f 839 4 ∧ r.f 839 4 ≤ 8)
    else r.f 832 11 = 0) &&
  (!r.leaf || (x.g != 0 && x.x != 0 && x.y != 0 && decide (r.pblen ≤ 256) && r.pblen % 8 = 0 &&
    x.sstop % 16 = 0 && decide (x.sstop ≤ 262144) && decide (x.sslim ≤ 262144) &&
    x.vstop % 1024 = 0 && decide (x.vstop ≤ x.spadk * 1024) && x.vslim % 1024 = 0))

/-- Case 3 of R105 breaks nothing: the bounds of R101. -/
def rcbBounds (p : Option Region) (x : Region) : Bool :=
  (match p with
   | none => true
   | some q => decide (x.cores ≤ q.cores) && decide (x.spadk ≤ q.spadk) && decide (x.cntq ≤ q.cntq) && decide (x.fshare ≤ q.fshare) &&
      (x.qcnt = 0 || (decide (q.qbase ≤ x.qbase) && decide (x.qbase + x.qcnt ≤ q.qbase + q.qcnt)))) &&
  decide (x.qbase + x.qcnt ≤ 4096) && (!x.det || decide (x.ddies * x.dwidth * x.dheight ≤ x.cores))

/-- The first case of R105 that refuses an RCB: the code and INFO. From a snapshot, what memory holds is not looked at again. -/
def rcbFault (s : State) (kept root : Bool) (p : Option Region) (r : Rcb) (x : Region) : Option (Nat × Nat) :=
  if !kept && !rcbAddresses s root r then some (0x22, 0)
  else if !rcbFields root p r x || !rcbBounds p x then some (0x22, 0)
  else if !r.leaf || kept then none
  else match imgFault s r.image x.profile with
    | some e => some e
    | none => if r.pblen < imgParamLen (vaRead s r.image 256) then some (0x22, 0) else none

/-- A failed launch's record: the failing RCB's address and VERSION, code and INFO (R105). -/
structure TreeFault where
  addr : Nat
  version : Nat
  code : Nat
  inf : Nat
  deriving DecidableEq, Repr

/-- An RCB to visit: its address, its parent entry, the addresses that led here, and the RCB that names it (R105). -/
structure Visit where
  addr : Nat
  parent : Option Nat
  path : List Nat
  leader : Nat
  version : Nat
  deriving DecidableEq, Repr

/-- The visit of R105, depth first: a node, its children, its next sibling. `get` reads an RCB, `ctx` is the parent of the root. -/
def visit (s : State) (kept : Bool) (get : Nat → Option Rcb) (ctx : Option Region) :
    Nat → List Visit → List (Rcb × Region) → Except TreeFault (List (Rcb × Region))
  | 0, _, acc => .ok acc
  | _, [], acc => .ok acc
  | fuel + 1, v :: rest, acc =>
    let bad := fun (a ver code i : Nat) => (Except.error ⟨a, ver, code, i⟩ : Except TreeFault (List (Rcb × Region)))
    if v.path.contains v.addr || 256 ≤ acc.length then bad v.leader v.version 0x22 0
    else match get v.addr with
      | none => bad v.leader v.version 0x22 0
      | some r =>
        let root := acc.isEmpty
        let p := match v.parent with
          | some i => (acc[i]?).map (·.2)
          | none => ctx
        let x := resolve p v.parent r
        match rcbFault s kept root p r x with
        | some (code, i) => bad r.addr r.version code i
        | none =>
          let path := r.addr :: v.path
          let sib := if root || r.next = 0 then [] else [⟨r.next, v.parent, path, r.addr, r.version⟩]
          let kid := if r.leaf then [] else [⟨r.child, some acc.length, path, r.addr, r.version⟩]
          visit s kept get ctx fuel (kid ++ sib ++ rest) (acc ++ [(r, x)])

/-- The tree of a root, from its snapshot where there is one, else from memory (R105, R108). -/
def treeOf (s : State) (ctx : Option Region) (root : Nat) : Except TreeFault (List (Rcb × Region)) :=
  let first : List Visit := [⟨root, none, [], root, 0⟩]
  match s.disp.snapshots.find? (·.1 = root) with
  | some sn => visit s true (fun a => sn.2.find? (·.addr = a)) ctx 257 first []
  | none => visit s false (rcbAt s) ctx 257 first []

/-- The root of a tree before its validation: from its snapshot, or as memory holds it. -/
def rawRoot (s : State) (ctx : Option Region) (root : Nat) : Option Region :=
  let r := match s.disp.snapshots.find? (fun p => p.1 = root) with
    | some sn => sn.2.find? (fun (r : Rcb) => r.addr = root)
    | none => rcbAt s root
  r.map (resolve ctx none)

/-- A snapshot is used: it comes first, and the least recently used of more than 16 goes (R108). -/
def keepSnapshot (root : Nat) (l : List Rcb) (old : List (Nat × List Rcb)) : List (Nat × List Rcb) :=
  ((root, l) :: old.filter (·.1 ≠ root)).take 16

end Sys2Proof.Machine
end

