-- ==== Sys2Proof/Machine/Sched.lean ====
section
/-! DEFINITION. The dispatcher: launches (R103 to R106), heads and governing leaves (R466), where tasks go (R95, R116 to R120), task
start (R97, R56) and the completion of regions (R106). -/

namespace Sys2Proof.Machine

/-- The launches of a queue that have not retired, oldest first. -/
def liveLaunches (s : State) (q : Nat) : List Launch := s.disp.launches.filter fun l => l.queue = q && l.state != .retired

/-- The parent of a launch's root: the leaf region whose task submitted it (R100). -/
def rootParent (s : State) (l : Launch) : Option Region := l.from_.bind (regionOf s)

/-- Tasks of a leaf. -/
def Region.total (r : Region) : Nat := r.g * r.x * r.y

/-- The first deterministic leaf that has not completed (R466). -/
def governing (rs : List Region) : Option Region := rs.find? fun r => r.leaf && r.det && !r.stored

/-- The shape a queue's head asks of a slot, where the head is deterministic (R466). -/
def headShape (s : State) (q : Nat) : Option (Nat × Nat) :=
  match (liveLaunches s q).head? with
  | none => none
  | some l =>
    if l.validated then (governing l.regions).map fun r => (r.dwidth, r.dheight)
    else ((rawRoot s (rootParent s l) l.root).filter (·.det)).map fun r => (r.dwidth, r.dheight)

/-- CORES of a queue's oldest unretired launch (R111). -/
def headCores (s : State) (q : Nat) : Option Nat :=
  match (liveLaunches s q).head? with
  | none => none
  | some l => if l.validated then (l.regions.head?).map (·.cores) else (rawRoot s (rootParent s l) l.root).map (·.cores)

/-- Contexts that wait for a core: saved ones and tasks taken back (R402, R405). -/
def waitingCtxs (s : State) : List Ctx := s.disp.saved.map (·.ctx) ++ s.disp.returned

/-- A queue is runnable (R104): its oldest launch under way still has tasks to issue; one taken back from its core is to be issued again
(notes/assumptions/19.md). -/
def runnable (s : State) (q : Nat) : Bool :=
  match (liveLaunches s q).find? fun l => l.state = .runnable || l.state = .started with
  | none => false
  | some l => l.regions.any (fun r => r.leaf && !r.stored && decide (r.issued < r.total)) ||
      s.disp.returned.any fun x => x.launch = l.id

/-- Some slot of either die binds a queue. -/
def slotBound (s : State) (q : Nat) : Bool := [0, 1].any fun d => !(slotsOf s d q).isEmpty

/-- The waiting set of R114, in queue order. -/
def waitingQueues (s : State) : List Nat :=
  (List.range 4096).filter fun q => (s.disp.launches.any fun l => l.queue = q) && runnable s q && !slotBound s q

/-- The slots of both dies at which R114 may act are looked at. -/
def kickSlots : Prog := .get fun s =>
  Prog.when_ (!(waitingQueues s).isEmpty) (Prog.each [0, 1] fun d =>
    Prog.each ((s.die d).slots.toList.zipIdx.filter fun p => p.1.present) fun p =>
      let dv := BitVec.ofNat 1 d
      let sv := BitVec.ofNat 6 p.2
      if !p.1.bound || !runnable s p.1.queue then postEv 1 3 (.slotTakeWaiting dv sv)
      else Prog.when_ (decide (p.1.expiry ≤ s.time)) (postEv 1 3 (.leaseExpiry dv sv)))

/-- Changes a launch. -/
def setLaunch (id : Nat) (f : Launch → Launch) : Prog :=
  .eff (.disp fun d => { d with launches := d.launches.map fun l => if l.id = id then f l else l })

/-- The launch's root region while nothing of it runs (R106): its store is skipped where COMPL cannot be stored to. -/
def deadRoot (s : State) (l : Launch) : List Region :=
  match rawRoot s (rootParent s l) l.root with
  | none => []
  | some r => [{ r with parent := none, leaf := true, g := 0, failed := true, stored := !complOk s r.compl }]

/-- A launch fails (R105, R106): nothing of it runs, its record names the RCB, and its root completes with bit 63 set. DESIGN CHOICE: one
whose completion word cannot be stored retires at once, before earlier launches of its queue have stored theirs
(notes/assumptions/19.md). -/
def launchFails (l : Launch) (e : TreeFault) : Prog := .get fun s =>
  let rs := deadRoot s l
  Prog.all [
    errorRecord { code := e.code, cls := 2, source := 6, addr := e.addr, version := e.version, info := e.inf, detail := l.queue },
    setLaunch l.id (fun l => { l with state := .runnable, validated := true, failed := true, regions := rs }),
    if rs.any (fun r => !r.stored) then postEv 1 3 (.regionComplete (BitVec.ofNat 32 l.id) 0)
    else Prog.all [
      setLaunch l.id (fun l => { l with state := .retired }),
      postEv 1 3 (.launchValidate (BitVec.ofNat 12 l.queue))]]

/-- A launch with RRMODE 01 or 10 claims both logs and opens a session (R433). -/
def claimLogs (mode : Nat) : Prog :=
  Prog.each [0, 1] fun d => .eff (.die d fun y => { y with log := { y.log with
    ctl := mode, truncated := false, taken := [], wp := if mode = 1 then 0 else y.log.wp, rp := if mode = 1 then 0 else y.log.rp } })

/-- A launch becomes runnable: its tree is read and validated (R105), with its snapshot kept (R108). -/
def takeLaunch (l : Launch) : Prog := .get fun s =>
  let claimed := s.disp.launches.any fun m => m.ownsLog && m.state != .retired
  Prog.all [
    .eff (.pkg fun p => { p with launched := true }),
    Prog.when_ l.from_.isNone (setQueue l.queue fun x => { x with head := (x.head + 1) % 2 ^ 32 }),
    match treeOf s (rootParent s l) l.root with
    | .error e => launchFails l e
    | .ok t =>
      let rs := t.map (·.2)
      let mode := (rs.head?.map (·.rrmode)).getD 0
      if mode != 0 && claimed then
        launchFails l ⟨l.root, (rs.head?.map (·.version)).getD 0, 0x22, 0⟩
      else Prog.all [
        Prog.when_ (mode != 0) (claimLogs mode),
        .eff (.disp fun d => { d with snapshots := keepSnapshot l.root (t.map (·.1)) d.snapshots }),
        setLaunch l.id (fun l => { l with state := .runnable, validated := true, regions := rs, ownsLog := mode != 0 }),
        kickQueue l.queue,
        kickSlots]]

/-- The package may accept its first launch: it is the time master, or has taken the master's time (R416). -/
def hasTime (s : State) : Bool := s.pkg.nodeId = s.pkg.tsync || s.pkg.joined || s.pkg.launched

/-- LAUNCH_VALIDATE (R104, R416): the oldest launch that waits in a queue becomes runnable once the one before it has retired, or has
started and this one's root has OVERLAP. -/
def launchNext (q : Nat) : Prog := .get fun s =>
  let live := liveLaunches s q
  match live.find? (fun l => l.state = .queued) with
  | none => .done
  | some l =>
    let before := (live.filter fun m => decide (m.id < l.id)).getLast?
    let go := match before with
      | none => true
      | some m => m.state = .started && ((rawRoot s (rootParent s l) l.root).map (·.overlap)).getD false
    let host := l.from_.isNone && !(s.queue q).en
    Prog.when_ (go && !host && s.pkg.bootOk && hasTime s) (Prog.all [
      takeLaunch l,
      postEv 1 3 (.launchValidate (BitVec.ofNat 12 q))])

/-- LAUNCH_VALIDATE. -/
def execLaunchValidate (q : BitVec 12) (s : State) : Host.Outcome State Fault Refusal := ran (launchNext q.toNat) s

/-- The queue whose rectangle holds a core (R109). -/
def coreQueue (s : State) (c : Nat) : Option Nat :=
  ((s.die (dieOf c)).slots.toList.find? fun x => x.present && x.bound && (slotCores (dieOf c) x).contains c).map (·.queue)

/-- The slot of a die that forms its part of a deterministic region's core set: the lowest-numbered one of the shape (R120). -/
def detSlot (s : State) (q w h d : Nat) : Option Slot := (slotsOf s d q).find? fun x => x.width = w && x.height = h

/-- The core set of a deterministic region, by ordinal (R120). -/
def coreSet (s : State) (q : Nat) (r : Region) : Option (List Nat) :=
  let at_ := fun (d : Nat) => (detSlot s q r.dwidth r.dheight d).map (slotCores d)
  if r.ddies = 2 then (at_ 0).bind fun a => (at_ 1).map (a ++ ·)
  else (at_ 0).orElse fun _ => at_ 1

/-- A region may have tasks issued as ORDER of the regions above it allows (R99). -/
def orderOk (rs : List Region) : Nat → Nat → Bool
  | 0, _ => true
  | fuel + 1, i => match (rs[i]?).bind (·.parent) with
    | none => true
    | some p =>
      (!((rs[p]?.map (·.order)).getD false) ||
        (rs.zipIdx.all fun x => decide (i ≤ x.2) || x.1.parent != some p || x.1.stored)) && orderOk rs fuel p

/-- A leaf may have tasks issued (R99, R466). -/
def leafOpen (rs : List Region) (i : Nat) (r : Region) : Bool :=
  r.leaf && !r.stored && orderOk rs rs.length i &&
  (!r.det || ((governing rs).map fun g => decide (g.dwidth = r.dwidth ∧ g.dheight = r.dheight)).getD false)

/-- Running and staged tasks of a region and all it encloses (R116). -/
def tasksIn (s : State) (l : Launch) (i : Nat) : Nat :=
  let inside := fun (x : Ctx) => x.launch = l.id && inSubtree l.regions i l.regions.length x.region
  (s.cores.toList.flatMap fun k => k.ctx.toList ++ k.staged.toList).countP inside

/-- CORES of a leaf and of every region above it leaves room (R116). -/
def budgetOk (s : State) (l : Launch) : Nat → Nat → Bool
  | 0, _ => true
  | fuel + 1, i => match l.regions[i]? with
    | none => true
    | some r => decide (tasksIn s l i < r.cores) && (match r.parent with | none => true | some p => budgetOk s l fuel p)

/-- A core can take a task into its staged slot. -/
def stageFree (s : State) (c : Nat) : Bool := (s.core c).staged.isNone && !(s.die (dieOf c)).stopped

/-- Where task t of a leaf goes, if it can be staged now (R118, R120). -/
def targetCore (s : State) (q : Nat) (r : Region) (t : Nat) : Option Nat :=
  if r.det then ((coreSet s q r).bind fun l => l[t % (r.ddies * r.dwidth * r.dheight)]?).filter (stageFree s)
  else ((queueCores s q).filter (stageFree s)).min?

/-- A task to stage: its launch and leaf, its index, its core, and the context where it was staged before. -/
structure Staging where
  launch : Launch
  idx : Nat
  region : Region
  task : Nat
  core : Nat
  back : Option Ctx
  deriving DecidableEq, Repr

/-- The next task of a leaf: one taken back goes first, else the next in order (R95). -/
def nextTask (s : State) (l : Launch) (p : Region × Nat) : Option Staging :=
  let (r, i) := p
  if !leafOpen l.regions i r || !budgetOk s l l.regions.length i then none
  else match s.disp.returned.find? fun x => x.launch = l.id && x.region = i with
    | some x => (targetCore s l.queue r x.task).map fun c => ⟨l, i, r, x.task, c, some x⟩
    | none => if r.total ≤ r.issued then none else (targetCore s l.queue r r.issued).map fun c => ⟨l, i, r, r.issued, c, none⟩

/-- The next task of a queue to stage: launches and leaves in order (R95, R104). -/
def nextStaging (s : State) (q : Nat) : Option Staging :=
  ((liveLaunches s q).filter fun l => l.validated && !l.failed).findSome? fun l => l.regions.zipIdx.findSome? (nextTask s l)

/-- The CTXIDs of live contexts (R97). -/
def liveIds (s : State) : List Nat :=
  (s.cores.toList.flatMap fun k => (k.ctx.toList ++ k.staged.toList).map (·.id)) ++ (waitingCtxs s).map (·.id)

/-- A CTXID whose low half no live context has (R97, R396). -/
def freshId (s : State) : Nat :=
  let used := (liveIds s).map (· % 65536)
  (((List.range (used.length + 2)).map (· + s.disp.nextCtx)).find? fun n => n % 65536 != 0 && !used.contains (n % 65536)).getD s.disp.nextCtx

/-- The context of a task (R95, R97, R120, R121). -/
def Staging.ctx (g : Staging) (s : State) : Ctx :=
  let r := g.region
  let n := r.ddies * r.dwidth * r.dheight
  let ord := if r.det then g.task % n else 0
  { id := (g.back.map (·.id)).getD (freshId s)
    launch := g.launch.id
    region := g.idx
    task := g.task
    grp := g.task / r.x / r.y
    x := g.task % r.x
    y := g.task / r.x % r.y
    ordinal := ord
    core := g.core
    domain := (s.queue g.launch.queue).domain
    spadk := r.spadk
    lockg := r.lockg
    wdlim := r.wdlim
    key := if r.det then ord else lcoord g.core
    det := r.det
    image := r.image
    started := 0 }

/-- A task goes into its core's staged slot (R117): its launch has started, and its region has issued one more. -/
def stage (g : Staging) : Prog := .get fun s =>
  let x := g.ctx s
  let c := g.core
  Prog.all [
    setCore c (fun k => { k with staged := some x }),
    .eff (.disp fun d => { d with
      nextCtx := if g.back.isNone then (x.id + 1) % 2 ^ 32 else d.nextCtx
      returned := d.returned.filter fun y => y.id != x.id }),
    Prog.when_ g.back.isNone (setRegion x.ref fun r => { r with issued := r.issued + 1 }),
    Prog.when_ (g.launch.state = .runnable) (Prog.all [
      setLaunch g.launch.id (fun l => { l with state := .started }),
      postEv 1 3 (.launchValidate (BitVec.ofNat 12 g.launch.queue))]),
    Prog.when_ ((s.core c).ctx.isNone) (postEv 1 2 (.taskStart (coreBV c))),
    match partnerOf s c with
    | none => .done
    | some p => postEv 1 3 (.timeSliceYield (coreBV p))]

/-- A saved context may be restored on core c (R116, R120, R123, R405). -/
def restorable (s : State) (c q : Nat) (y : Saved) : Bool :=
  match launchOf s y.ctx.ref with
  | none => false
  | some l => l.queue = q && budgetOk s l l.regions.length y.ctx.region && (if y.pinned then y.ctx.core = c else
      !y.ctx.det || ((regionOf s y.ctx.ref).bind fun r => (coreSet s q r).bind fun cs => cs[y.ctx.ordinal]?) = some c)

/-- Core e is idle and may take a saved context of queue q. -/
def mayRestore (s : State) (q e : Nat) : Bool :=
  (s.core e).ctx.isNone && (s.core e).staged.isNone && pairFree s e && !(s.die (dieOf e)).stopped && s.disp.saved.any (restorable s e q)

/-- TASK_STAGE (R117, R118, R120, R405): a saved context returns to an idle core, this one where it can; else the queue's next task is
staged. -/
def taskStageAt (c : Nat) : Prog := .get fun s =>
  match coreQueue s c with
  | none => kickSlots
  | some q =>
    let back := if s.disp.saved.isEmpty then none else (c :: queueCores s q).find? (mayRestore s q)
    match back with
    | some e => postEv 1 2 (.contextRestore (coreBV e))
    | none => match nextStaging s q with
      | none => kickSlots
      | some g => (stage g).andThen (postEv 0 3 (.taskStage (coreBV c)))

/-- A staged task is taken back; it has not started (R112; notes/assumptions/19.md). -/
def unstage (c : Nat) : Prog := .get fun s =>
  match (s.core c).staged with
  | none => .done
  | some x => Prog.all [
      setCore c (fun k => { k with staged := none }),
      .eff (.disp fun d => { d with returned := d.returned ++ [x] })]

/-- A context stands on the core that its region's core set gives it: its ordinal's, in a deterministic region (R120). -/
def inPlace (s : State) (x : Ctx) : Bool :=
  match regionOf s x.ref, launchOf s x.ref with
  | some r, some l => !x.det || ((coreSet s l.queue r).bind fun cs => cs[x.ordinal]?) = some x.core
  | _, _ => false

/-- TASK_STAGE. -/
def execTaskStage (core : BitVec 8) (s : State) : Host.Outcome State Fault Refusal := ran (taskStageAt core.toNat) s

/-- The task-visible state at task start (R32, R97). -/
def startArch (c : Nat) (x : Ctx) (r : Region) : Arch :=
  let status := (if x.det then 2 else 0) + r.profile % 32 * 2 ^ 2
  let st := ([(0, status), (5, r.sslim), (6, r.vslim), (10, r.srseed.toNat), (11, r.tieseed.toNat), (16, x.id), (18, lcoord c),
    (19, x.x % 65536 + x.y % 65536 * 65536), (20, x.grp % 2 ^ 32), (23, x.wdlim)] : List (Nat × Nat))
  let a := { Arch.reset with
    g := updAt (updAt Arch.reset.g 30 fun _ => info r.sstop) 28 fun _ => info r.vstop
    pb := r.pb }
  st.foldl (fun (a : Arch) p => a.setSr p.1 (info p.2)) a

/-- The scalar-memory data image of a kernel is copied (R56): the words it fills, and the parts of words at its ends (R258). -/
def copyData (c : Nat) (x : Ctx) (h : Nat) : Prog := .get fun s =>
  let a := imgDataDest h
  let n := imgDataLen h
  let v := vaRead s (x.image + imgDataOff h) n
  let first := min n ((8 - a % 8) % 8)
  let whole := (n - first) / 8 * 8
  let put := fun (off len : Nat) => Prog.when_ (len != 0)
    (writeLoc (.arr c (0x400000 + a + off)) len (v / 2 ^ (8 * off) % 2 ^ (8 * len)) x.id (some (x.who 0)))
  Prog.all [put 0 first, put first whole, put (first + whole) (n - first - whole)]

/-- A kernel's image is put into a core's memories unless it is there (R117); a refused or poisoned one ends the context. -/
def installFor (c : Nat) (x : Ctx) (profile : Nat) (go : Prog) : Prog := .get fun s =>
  let h := vaRead s x.image 256
  if (s.core c).resident s x.image then go
  else if vaPoisoned s x.image (imgLength h) then contextEnd c fun s => { coreRecord s c 0x1B 2 x.image with addr := x.image }
  else match imgFault s x.image profile with
    | some (code, i) => contextEnd c fun s => { coreRecord s c code 2 i with addr := x.image }
    | none => (setCore c fun k => k.install s x.image).andThen go

/-- TASK_START (R56, R97, R117, R120): the staged task starts on its idle core, or is taken back where that is no longer its own; where two logical cores share a physical one, while the other
runs none (R123). -/
def startTask (c : Nat) : Prog := .get fun s =>
  let k := s.core c
  match k.staged with
  | none => .done
  | some x =>
    if k.ctx.isSome || !pairFree s c then .done
    else match regionOf s x.ref with
      | none => setCore c fun k => { k with staged := none }
      | some r =>
        if !inPlace s x then (unstage c).andThen (postEv 1 3 (.taskStage (coreBV c))) else
        let h := vaRead s x.image 256
        let load := if k.resident s x.image then 0 else (imgLength h + 63) / 64
        let x := { x with started := s.time }
        Prog.all [
          setCore c (fun k => { k.clear with
            ctx := some x
            staged := none
            flow := .running
            inbound := k.inbound
            arch := startArch c x r }),
          inherit_ c x.id,
          installFor c x r.profile (Prog.all [
            setCore c (fun k => { k with pc := imgEntry h }),
            copyData c x h,
            nextFetch c (1 + load + (imgDataLen h + 63) / 64)]),
          postEv 1 3 (.taskStage (coreBV c)),
          Prog.when_ (partnerOf s c).isSome (postEv Config.sliceCycles 3 (.timeSliceYield (coreBV c)))]

/-- TASK_START. -/
def execTaskStart (core : BitVec 8) (s : State) : Host.Outcome State Fault Refusal := ran (startTask core.toNat) s

/-- Engine work that a region's contexts queued has ended (R106). -/
def workDone (s : State) (r : RegionRef) : Bool :=
  let mine := fun (x : Ctx) => decide (x.ref = r)
  !(s.cores.toList.any fun k => k.chans.toList.any fun ch => ch.heads.any fun h => mine h.owner) &&
  !(s.lanes.toList.any fun l => l.jobs.any fun j => mine j.owner) &&
  !(s.engines.toList.any fun e => e.jobs.any fun j => mine j.owner) &&
  !(s.hbm.toList.any fun h => h.loads.any fun l => mine l.owner) && !fabricBusy s r

/-- All that a region waits for has completed (R106). -/
def regionDone (s : State) (l : Launch) (i : Nat) (r : Region) : Bool :=
  if r.leaf then decide (r.total ≤ r.ended) && workDone s ⟨l.id, i⟩
  else l.regions.all fun x => x.parent != some i || x.stored

/-- The completion store (R106): SEQ, with bit 63 where the region failed; where it cannot be made, a class E record. -/
def storeCompletion (l : Launch) (r : Region) : Prog := .get fun s =>
  match vaHomes s r.compl 8 true with
  | some h => writePieces h (l.seq % 2 ^ 63 + r.failed.toNat * 2 ^ 63) 0 none
  | none =>
    let code := if (vaHomes s r.compl 8 false).isNone then 0x0A else 0x0B
    errorRecord { code := code, cls := 1, source := 6, addr := r.addr, version := r.version, info := r.compl, detail := l.queue }

/-- A launch retires (R104): it frees the logs it claimed, and the next launch's root may be stored. Retired launches that no launch
yet to be read names as its parent are forgotten. -/
def retire (l : Launch) : Prog := .get fun s => Prog.all [
  setLaunch l.id (fun l => { l with state := .retired }),
  Prog.when_ l.ownsLog (Prog.each [0, 1] fun d => .eff (.die d fun y => { y with log := { y.log with ctl := 0 } })),
  .eff (.disp fun d =>
    let named := fun (m : Launch) => d.launches.any fun n => !n.validated && ((n.from_.map fun f => decide (f.launch = m.id)).getD false)
    { d with launches := d.launches.filter fun m => m.state != .retired || named m }),
  postEv 1 3 (.launchValidate (BitVec.ofNat 12 l.queue)),
  Prog.each ((liveLaunches s l.queue).filter fun m => m.id != l.id && m.validated) fun m =>
    postEv 1 3 (.regionComplete (BitVec.ofNat 32 m.id) 0)]

/-- REGION_COMPLETE (R106): a region whose work has completed stores its SEQ; a root's store waits for the roots before it. -/
def complete (launch i : Nat) : Prog := .get fun s =>
  match s.disp.launches.find? (fun l => l.id = launch) with
  | none => .done
  | some l => match l.regions[i]? with
    | none => .done
    | some r =>
      let first := r.parent.isSome || (((liveLaunches s l.queue).head?).map fun m => decide (m.id = l.id)).getD false
      if r.stored || l.state = .retired || !regionDone s l i r || !first then .done
      else Prog.all [
        storeCompletion l r,
        setRegion ⟨launch, i⟩ (fun r => { r with stored := true }),
        closeRegion ⟨launch, i⟩,
        match r.parent with
        | none => retire l
        | some p => Prog.all [
            Prog.when_ r.failed (setRegion ⟨launch, p⟩ fun x => { x with failed := true }),
            postEv 1 3 (.regionComplete (BitVec.ofNat 32 launch) (BitVec.ofNat 8 p))],
        kickQueue l.queue,
        kickSlots]

/-- REGION_COMPLETE. -/
def execRegionComplete (launch : BitVec 32) (region : BitVec 8) (s : State) : Host.Outcome State Fault Refusal :=
  ran (complete launch.toNat region.toNat) s

end Sys2Proof.Machine
end

