-- ==== Sys2Proof/Machine/Slots.lean ====
section
/-! DEFINITION. The slot table: bind records (R110, R111), displaced bindings (R112), the rotation rule (R114), and requests for
pre-emption and time-slices (R123, R402). -/

namespace Sys2Proof.Machine

/-- A pre-emption is requested of a core (R112, R123, R402): PREQ is set, and a forced one or a time-slice becomes due after 50,000
cycles. A parked task is saved at once, but for one in a trap handler, which only a forced request
interrupts (R38, R363). -/
def requestPreempt (c : Nat) (forced slice due : Bool) : Prog := .get fun s =>
  let k := s.core c
  match k.ctx with
  | none => .done
  | some _ =>
    let timed := forced || slice
    let p : Preempt := match k.preq with
      | none => ⟨forced, s.time, due, slice, timed⟩
      | some p => ⟨p.forced || forced, if timed && !p.timed then s.time else p.since, p.due || due, p.slice && slice, p.timed || timed⟩
    Prog.all [
      setCore c (fun k => { k with preq := some p, arch := k.arch.setPreq true }),
      Prog.when_ (timed && !due) (postEv Config.forceCycles 2 (.forcedPreemptTimeout (coreBV c))),
      Prog.when_ (k.flow = .parked && (!k.arch.inTrap || p.forced)) (Prog.all [
        setCore c (fun k => { k with flow := .saving }),
        postEv 0 2 (.contextSave (coreBV c))])]

/-- PREEMPT_REQUEST (R402): the host driver asks for one. -/
def execPreemptRequest (core : BitVec 8) (forced : Bool) (s : State) : Host.Outcome State Fault Refusal :=
  ran (requestPreempt core.toNat forced false false) s

/-- FORCED_PREEMPT_TIMEOUT (R402): 50,000 cycles have passed, and the next bundle boundary will do. -/
def forceNow (c : Nat) : Prog := .get fun s =>
  let k := s.core c
  match k.preq with
  | none => .done
  | some p =>
    if !p.timed || p.due then .done
    else if s.time < p.since + Config.forceCycles then
      postAt (p.since + Config.forceCycles) 2 (.forcedPreemptTimeout (coreBV c))
    else Prog.all [
      setCore c (fun k => { k with preq := some { p with due := true } }),
      Prog.when_ (k.flow = .parked && (!k.arch.inTrap || p.forced)) (Prog.all [
        setCore c (fun k => { k with flow := .saving }),
        postEv 0 2 (.contextSave (coreBV c))])]

/-- FORCED_PREEMPT_TIMEOUT. -/
def execForcedPreemptTimeout (core : BitVec 8) (s : State) : Host.Outcome State Fault Refusal := ran (forceNow core.toNat) s

/-- TIME_SLICE_YIELD (R123): a task whose physical core another logical core waits for yields once it has run 500,000 cycles, or at once
when it is parked. -/
def sliceOver (c : Nat) : Prog := .get fun s =>
  let k := s.core c
  match k.ctx, partnerOf s c with
  | some x, some p =>
    if !hasWork s p then .done
    else if k.flow = .parked then requestPreempt c false true true
    else if s.time < x.started + Config.sliceCycles then
      postAt (x.started + Config.sliceCycles) 3 (.timeSliceYield (coreBV c))
    else Prog.when_ (!((k.preq.map (·.timed)).getD false)) (requestPreempt c false true false)
  | _, _ => .done

/-- TIME_SLICE_YIELD. -/
def execTimeSliceYield (core : BitVec 8) (s : State) : Host.Outcome State Fault Refusal := ran (sliceOver core.toNat) s

/-- The tasks of a binding's cores that its slot no longer gives to their queue, or to their ordinal, go (R112, R120). -/
def displace (old keep : List Nat) (q : Option Nat) (forced : Bool) : Prog := .get fun s =>
  let stays := fun (c : Nat) (x : Ctx) => keep.contains c && q.isSome && ((launchOf s x.ref).map (·.queue)) = q && inPlace s x
  let freed := fun (y : Saved) => y.pinned && old.contains y.ctx.core && !stays y.ctx.core y.ctx
  (Prog.eff (.disp fun d => { d with saved := d.saved.map fun y => if freed y then { y with pinned := false } else y })).andThen <|
  Prog.each old fun c => Prog.all [
    Prog.when_ (((s.core c).staged.map fun x => !stays c x).getD false) (unstage c),
    Prog.when_ (((s.core c).ctx.map fun x => !stays c x).getD false) (requestPreempt c forced false false)]

/-- Fields of a bind record (R110). -/
def bindQueue (r : Nat) : Nat := field r 0 12
/-- See bindQueue. -/
def bindValid (r : Nat) : Bool := bit r 12 = 1
/-- See bindQueue. -/
def bindLease (r : Nat) : Nat := field r 64 23

/-- The rectangle a record names, as a slot of no state yet. -/
def bindRect (r : Nat) : Slot := { Slot.empty with col := field r 16 4, row := field r 20 3, width := field r 24 5, height := field r 32 4 }

/-- A record with VALID 0 and no width or height empties its slot (R110). -/
def bindEmpty (r : Nat) : Bool := !bindValid r && field r 24 5 = 0 && field r 32 4 = 0

/-- A host driver has created the queue: LOG2N, zero at reset, has been set to a legal value (R111, R418). -/
def queueCreated (s : State) (q : Nat) : Bool := decide (4 ≤ (s.queue q).log2n)

/-- Why a bind record is refused, in the order of R111; 0 accepts it. -/
def bindStatus (s : State) (d i r : Nat) : Nat :=
  let x := bindRect r
  let others := (s.die d).slots.toList.zipIdx.filter fun p => p.2 != i && p.1.present
  let q := bindQueue r
  let cells := slotCores d x
  if field r 14 2 != 0 || field r 23 1 != 0 || field r 29 3 != 0 || field r 36 28 != 0 || field r 87 41 != 0 || field r 200 312 != 0 ||
      bindLease r = 0 || decide (5000000 < bindLease r) ||
      (!bindEmpty r && !(decide (1 ≤ x.width ∧ x.col + x.width ≤ 16) && decide (1 ≤ x.height ∧ x.row + x.height ≤ 8))) then 3
  else if !queueCreated s q then 4
  else if !bindEmpty r && others.any (fun p => (slotCores d p.1).any cells.contains) then 1
  else if bindValid r && ((headCores s q).map fun n => decide (n < x.width * x.height)).getD false then 2
  else if bindValid r && ((headShape s q).map fun p => decide (p ≠ (x.width, x.height))).getD false then 5
  else if bindEmpty r && others.isEmpty then 6
  else 0

/-- Changes a slot. -/
def setSlot (d i : Nat) (f : Slot → Slot) : Prog := .eff (.die d fun y => { y with slots := updAt y.slots i f })

/-- Slot i of die d. -/
def slotAt (s : State) (d i : Nat) : Slot := nth (s.die d).slots i Slot.empty

/-- The cores of a rectangle look for tasks. -/
def kickCores (l : List Nat) : Prog := Prog.each l fun c => postEv 1 3 (.taskStage (coreBV c))

/-- A bind record is written (R110 to R112), as its 64 bytes stand when bytes 56 to 63 are written, which alone has an effect; bytes written
before that are seen nowhere else, so the event carries all of them. The record is refused with a STATUS and a record, or obeyed. A die that has stopped, or has not come up,
takes none (R407, R458). -/
def writeSlot (d i r : Nat) : Prog := .get fun s =>
  let st := bindStatus s d i r
  if (s.die d).stopped || !s.pkg.bootOk then .done
  else if st != 0 then Prog.all [
    setSlot d i (fun x => { x with status := st }),
    errorRecord { code := 0x12, cls := 1, source := 7, inst := i, die := d, info := st }]
  else
    let old := slotAt s d i
    let cells := if bindEmpty r then [] else slotCores d (bindRect r)
    let q := if bindValid r then some (bindQueue r) else none
    Prog.all [
      setSlot d i (fun _ => { bindRect r with
        present := !bindEmpty r
        bound := bindValid r
        queue := bindQueue r
        force := bit r 13 = 1
        lease := bindLease r
        expiry := s.time + bindLease r }),
      Prog.when_ old.bound (displace (slotCores d old) cells q (bit r 13 = 1)),
      kickCores cells,
      Prog.when_ (bindValid r) (postAt (s.time + bindLease r) 3 (.leaseExpiry (BitVec.ofNat 1 d) (BitVec.ofNat 6 i))),
      kickSlots]

/-- SLOT_BIND (R111): a record with VALID 1. -/
def execSlotBind (die : BitVec 1) (slot : BitVec 6) (rec_ : BitVec 512) (s : State) : Host.Outcome State Fault Refusal :=
  ran (writeSlot die.toNat slot.toNat rec_.toNat) s

/-- SLOT_IDLE (R110): a record with VALID 0 and a rectangle. -/
def execSlotIdle (die : BitVec 1) (slot : BitVec 6) (rec_ : BitVec 512) (s : State) : Host.Outcome State Fault Refusal :=
  ran (writeSlot die.toNat slot.toNat rec_.toNat) s

/-- SLOT_EMPTY (R110): a record with VALID 0 and no rectangle. -/
def execSlotEmpty (die : BitVec 1) (slot : BitVec 6) (rec_ : BitVec 512) (s : State) : Host.Outcome State Fault Refusal :=
  ran (writeSlot die.toNat slot.toNat rec_.toNat) s

/-- The first waiting queue from a die's rotation pointer on that a slot can take (R114, R466). -/
def nextWaiting (s : State) (d : Nat) (x : Slot) : Option Nat :=
  let w := waitingQueues s
  let rp := (s.die d).rp
  ((w.filter fun q => decide (rp ≤ q)) ++ w.filter fun q => decide (q < rp)).find? fun q =>
    match headShape s q with
    | none => true
    | some p => p = (x.width, x.height)

/-- The rule of R114 at one slot: it is bound to the next waiting queue. -/
def rotate_ (d i : Nat) : Prog := .get fun s =>
  let x := slotAt s d i
  match nextWaiting s d x with
  | none => .done
  | some w => Prog.all [
      Prog.when_ x.bound (displace (slotCores d x) [] none true),
      setSlot d i (fun x => { x with bound := true, queue := w, expiry := s.time + Config.leaseCycles }),
      .eff (.die d fun y => { y with rp := (w + 1) % 4096 }),
      postAt (s.time + Config.leaseCycles) 3 (.leaseExpiry (BitVec.ofNat 1 d) (BitVec.ofNat 6 i)),
      kickCores (slotCores d x)]

/-- R114 acts at a slot in this cycle: it is idle, its lease has ended, or its queue is not runnable. -/
def slotExpired (s : State) (d i : Nat) : Bool :=
  let x := slotAt s d i
  x.present && !(s.die d).stopped && (!x.bound || decide (x.expiry ≤ s.time) || !runnable s x.queue)

/-- The rule of R114 in one cycle: the slots of die 0 by number, then those of die 1. -/
def rotateAll : Prog := Prog.each [0, 1] fun d => Prog.each (List.range 64) fun i => .get fun s =>
  Prog.when_ (slotExpired s d i) (rotate_ d i)

/-- LEASE_EXPIRY (R114): the lease of a bound slot has ended. -/
def leaseOver (d i : Nat) : Prog := .get fun s =>
  let x := slotAt s d i
  Prog.when_ (x.present && x.bound && decide (x.expiry ≤ s.time) && !(s.die d).stopped) rotateAll

/-- LEASE_EXPIRY. -/
def execLeaseExpiry (die : BitVec 1) (slot : BitVec 6) (s : State) : Host.Outcome State Fault Refusal :=
  ran (leaseOver die.toNat slot.toNat) s

/-- SLOT_TAKE_WAITING (R114): an idle slot, or one whose queue is not runnable, takes a waiting queue. -/
def slotFree_ (d i : Nat) : Prog := .get fun s =>
  let x := slotAt s d i
  Prog.when_ (x.present && (!x.bound || !runnable s x.queue) && !(s.die d).stopped) rotateAll

/-- SLOT_TAKE_WAITING. -/
def execSlotTakeWaiting (die : BitVec 1) (slot : BitVec 6) (s : State) : Host.Outcome State Fault Refusal :=
  ran (slotFree_ die.toNat slot.toNat) s

/-- A slot as the cinch firmware and the host read it (R110). -/
def Slot.image (x : Slot) : Nat :=
  x.queue % 2 ^ 12 + x.bound.toNat * 2 ^ 12 + x.force.toNat * 2 ^ 13 + x.col % 16 * 2 ^ 16 + x.row % 8 * 2 ^ 20 +
  x.width % 32 * 2 ^ 24 + x.height % 16 * 2 ^ 32 + x.lease % 2 ^ 23 * 2 ^ 64 + x.expiry % 2 ^ 64 * 2 ^ 128 + x.status % 256 * 2 ^ 192

/-- An address lies in the error ring of a die (R386, R418). -/
def inErrorRing (s : State) (d a : Nat) : Bool := decide (nth s.pkg.errBase d 0 ≤ a ∧ a < nth s.pkg.errBase d 0 + 2 ^ 18)

/-- CINCH_MEMORY_ACCESS (R113, R386, R462): the firmware reads the error records of its die, 8 bytes at a time; any other access to region memory is refused: a read
returns zero, and an error record is written into the ring of the firmware's die. -/
def execCinchMemoryAccess (by_ : CinchAccess) (addr : BitVec 48) (s : State) : Host.Outcome State Fault Refusal :=
  ran (.get fun s => if !by_.wr && inErrorRing s by_.die.toNat addr.toNat then .eff (.out 0x113 (memRead s.mem addr.toNat 8)) else Prog.all [
    Prog.when_ (!by_.wr) (.eff (.out 0x113 0)),
    errorRecord { code := 0x0B, cls := 1, source := 11, die := by_.die.toNat, addr := addr.toNat, info := addr.toNat }]) s

end Sys2Proof.Machine
end

