-- ==== Sys2Proof/Machine/Save.lean ====
section
/-! DEFINITION. Paired save and restore (R402 to R406): the save area, what a save waits for, and a context's return; and the stop of a
die (R407). -/

namespace Sys2Proof.Machine

/-- Bytes of a save area (R404). -/
def saveBytes : Nat := 0x540000

/-- A number with n bytes of v at an offset: one section of an image. -/
def section_ (off n v : Nat) : Nat := v % 2 ^ (8 * n) * 2 ^ (8 * off)

/-- Sections put together. -/
def imageOf (l : List (Nat × Nat × Nat)) : Nat := l.foldl (fun acc p => acc + section_ p.1 p.2.1 p.2.2) 0

/-- The scalar ports of a unit by R48, in the order a, b, c, active a, b, c, y0, y1 (R404). -/
def unitFields (a : Arch) (u : Nat) : List (Bool × Vec) :=
  let p := a.unit u
  let vec := fun (port : Nat) => destDomain (u * 65536 + port * 16384) == .vector
  let res := srcDomain (2 * 1024 + u * 32) == .vector
  let act := match engineOf u with
    | none => []
    | some e =>
      let x := nth a.active e EngineSet.reset
      [(vec 0, x.a), (vec 1, x.b), (vec 2, x.c)]
  [(vec 0, p.a), (vec 1, p.b), (vec 2, p.c)] ++ act ++ [(res, p.y0), (res, p.y1)]

/-- Ports and results of every unit, of one domain, in unit order (R404). -/
def portFields (a : Arch) (vector : Bool) : List Nat :=
  ((List.range 19).flatMap fun i => unitFields a (i + 5)).filterMap fun p => if p.1 = vector then some p.2.toNat else none

/-- A list of numbers of w bits each, in order. -/
def packed (w : Nat) (l : List Nat) : Nat := ofDigits l.length w fun i => l.getD i 0

/-- The task-visible state in the layout of R404; where R404 leaves a place open the layout is the model's
(notes/assumptions/11.md). -/
def archImage (a : Arch) (pend : Nat) (inbound : List Word) : Nat :=
  let words := fun (n : Nat) (l : List Word) => packed 64 ((l.take n).map (·.toNat))
  let rec_ := fun (x : Acc) => x.tag.toNat + x.bandA.toNat * 2 ^ 16 + x.bandB.toNat * 2 ^ 32 + x.invalid.toNat * 2 ^ 48 + x.lastProfile * 2 ^ 56
  imageOf [
    (0x10, 192, words 24 a.st.toList),
    (0xD0, 16, a.srSeq.toNat + a.maSeq.toNat * 2 ^ 32 + a.ring.seq.toNat * 2 ^ 64 + a.ring.written % 2 ^ 16 * 2 ^ 80 +
      a.ring.popped % 2 ^ 16 * 2 ^ 96 + pend * 2 ^ 112),
    (0xE0, 256, words 32 a.g.toList),
    (0x1E0, 64, words 8 a.o.toList),
    (0x220, 8, packed 1 (a.f.toList.map (·.toNat)) + a.maHalt.toNat * 2 ^ 16),
    (0x228, 256, words 32 a.pb.toList),
    (0x328, 768, packed 64 ((portFields a false).map (· % 2 ^ 64))),
    (0x628, 128, packed 64 (a.slots.toList.map fun s => ((s.map (·.toNat)).getD 0)) + words 8 inbound * 2 ^ 512),
    (0x6A8, 64, packed 128 (a.accs.toList.map rec_)),
    (0x1000, 65536, packed 8192 (a.v.toList.map (·.toNat))),
    (0x11000, 8192, packed 8192 (a.vo.toList.map (·.toNat))),
    (0x13000, 512, packed 256 (a.p.toList.map (·.toNat))),
    (0x14000, 65536, packed 8192 (portFields a true)),
    (0x24000, 1024, packed 128 (a.tiles.toList.map fun t => t.word.toNat + t.word1 * 2 ^ 64)),
    (0x24400, 68608, packed 8576 (a.keepers.toList.map fun k => k.bytes.toNat + k.band.toNat * 2 ^ 8192 + k.gen.toNat * 2 ^ 8448)),
    (0x35000, 65536, packed 131072 (a.accs.toList.map accImage))]

/-- Pending faults, 16 bytes each (R404). -/
def pendImage (l : List PendFault) : Nat := packed 128 (l.map fun p => p.code + p.slot * 2 ^ 8 + p.info.toNat * 2 ^ 64)

/-- A deferred operation in 128 bytes of the save area (R389, R404): its destination word and trigger, its operands, and its copy of a
block. -/
def deferredImage (t : Trig) : Nat :=
  t.dest + t.seq % 2 ^ 32 * 2 ^ 32 + low t.a * 2 ^ 64 + low t.b * 2 ^ 128 + low t.c * 2 ^ 192 + (t.aux.toNat % 2 ^ 512) * 2 ^ 256

/-- A held-back completion record in 32 bytes of the save area (R11, R389): its trigger, and its VALUE, UNIT and OPCODE once finished. -/
def heldImage (e : RingEntry) : Nat :=
  e.seq % 2 ^ 32 + (match e.out with
    | none => 0
    | some (v, u, o) => 2 ^ 63 + v % 2 ^ 64 * 2 ^ 64 + u % 2 ^ 8 * 2 ^ 128 + o % 2 ^ 8 * 2 ^ 136)

/-- Pass state in a word of the save area (R398, R404): the mark passed, if one is. -/
def passWord (a : Arch) : Nat :=
  match a.rvPass with
  | none => 0
  | some i => i + 2 ^ 63

/-- Dirty marks of a segment (R388, R403), by R388's units of copying and in its order. DESIGN CHOICE: an item written with the value that it
had is saved as clean, for copying it back would change nothing (notes/assumptions/11.md). -/
def dirtyMarks (k : Core) (g : Segment) : Nat :=
  let a := k.arch
  let b := g.shadow
  let differs := fun {α : Type} [DecidableEq α] (x y : α) => (decide (x ≠ y)).toNat
  let marks := fun {α : Type} [DecidableEq α] (x y : List α) => (x.zip y).map fun p => differs p.1 p.2
  packed 1 (marks a.g.toList b.g.toList ++ marks a.o.toList b.o.toList ++ marks a.v.toList b.v.toList ++ marks a.vo.toList b.vo.toList ++
    marks a.p.toList b.p.toList ++ marks a.f.toList b.f.toList ++
    marks (a.units.toList.flatMap fun x => [x.a, x.b, x.c, x.y0, x.y1]) (b.units.toList.flatMap fun x => [x.a, x.b, x.c, x.y0, x.y1]) ++
    marks (a.active.toList.flatMap fun x => [x.a, x.b, x.c]) (b.active.toList.flatMap fun x => [x.a, x.b, x.c]) ++
    marks a.pb.toList b.pb.toList ++ marks a.st.toList b.st.toList ++
    [differs a.srSeq b.srSeq, differs a.maSeq b.maSeq, differs (a.ring.written, a.ring.popped, a.ring.seq) (b.ring.written, b.ring.popped, b.ring.seq)] ++
    marks a.tiles.toList b.tiles.toList ++ marks a.keepers.toList b.keepers.toList ++ marks a.accs.toList b.accs.toList ++
    [differs a.maHalt b.maHalt, differs a.slots b.slots ||| (!g.taken.isEmpty).toNat, differs a.rvPass b.rvPass])

/-- The segment state of a core (R403, R404): pass state and header, and the shadow with the deferred queue. -/
def segmentImage (k : Core) : Nat :=
  match k.seg with
  | none => section_ 0x800 8 (passWord k.arch)
  | some g => imageOf [
      (0x800, 8, passWord k.arch),
      (0x808, 16, 2 ^ 63 + g.id + g.entry * 2 ^ 8 + g.rewinds * 2 ^ 24 + g.first % 2 ^ 32 * 2 ^ 64),
      (0x45000, 0x45000, archImage g.shadow 0 g.taken + section_ 0x800 8 (passWord g.shadow)),
      (0x8A000, 0x2000, packed 1024 (k.defq.map deferredImage)),
      (0x8C000, 0x40000, packed 256 (k.arch.ring.reserved.map heldImage)),
      (0xCC000, 128, dirtyMarks k g)]

/-- The save area of a core's context (R404), its CRC included. -/
def saveImage (s : State) (c : Nat) : Nat :=
  let k := s.core c
  let id := (k.ctx.map (·.id)).getD 0
  let spad := ((k.ctx.map (·.spadk)).getD 0) * 1024
  let park := match k.park with
    | none => 0
    | some p => packed 64 [p.handle, p.thr, ((p.until_.map fun u => u - s.time).getD 0)]
  let body := archImage k.arch k.pend.length k.inbound + segmentImage k + imageOf [
    (8, 8, id + k.pc % 2 ^ 15 * 2 ^ 32 + k.arch.inTrap.toNat * 2 ^ 47),
    (0x6E8, 24, park),
    (0x700, 256, pendImage k.pend),
    (0x100000, 262144, memRead (nth s.lmem c []) 0x400000 262144),
    (0x140000, spad, memRead (nth s.lmem c []) 0 spad)]
  body + crc32c saveBytes body + 2 ^ 32

/-- The CRC of a save area in memory agrees (R404, R405). -/
def saveSound (s : State) (area : Nat) : Bool :=
  let v := memRead s.mem area saveBytes
  v % 2 ^ 32 = crc32c saveBytes (v / 2 ^ 64 * 2 ^ 64)

/-- The first free save area of a die's pool (R404, R418). -/
def freeArea (s : State) (d : Nat) : Option Nat :=
  let w := nth s.pkg.savePool d 0
  ((List.range (field w 0 16)).map fun i => field w 16 29 * 65536 + saveBytes * i).find? fun a =>
    s.disp.saved.all fun y => decide (y.area ≠ a)

/-- Every flow between a die that stops and the other one fails (R407). -/
def cutDie (d : Nat) : Prog := .get fun s =>
  Prog.each [0, 1] fun e => Prog.each ((s.die e).sends.filter fun f => f.node = s.pkg.nodeId && f.die != e) fun f =>
    flowDown s.pkg.nodeId e f.flow f.node f.die 0x1E 0x1E (lossInfo s.pkg.nodeId e f.flow 0) d

/-- A device error of class D stops the die (R407): one record says so where the ring can be written, its contexts end with their records,
and it takes no launch and no bind record. -/
def dieStop (d code : Nat) : Prog := .get fun s =>
  if (s.die d).stopped then .done
  else Prog.all [
    errorRecord { code := code, cls := 3, source := 11, die := d },
    Prog.each (List.range 128) (fun l => contextEnd (128 * d + l) fun s => coreRecord s (128 * d + l) code 2 0),
    dieEnds d,
    cutDie d]

/-- A save waits (R286, R327, R402): for stack-engine jobs of the context with LOCAL 1, for every landing, the wait of a parked task
apart, and for every access. -/
def saveWaits (s : State) (c : Nat) (x : Ctx) : Bool :=
  let k := s.core c
  let parked := fun (f : Flight) => (k.park.map fun p => decide (f.unit = 11 ∧ f.seq = p.seq)).getD false
  s.engines.toList.any (fun e => e.jobs.any fun j => decide (j.owner.id = x.id) && bit j.block.toNat 49 = 1) ||
  !{ k with flights := k.flights.filter fun f => !parked f }.quiet || !k.accesses.isEmpty

/-- A die reaches a save area: it is populated, and no lost link stands between (R407, R415). -/
def areaReached (s : State) (d area : Nat) : Bool :=
  populated s area && populated s (area + saveBytes - 1) && !homeCut s d (.pa area) && !homeCut s d (.pa (area + saveBytes - 1))

/-- CONTEXT_SAVE (R402, R404, R406): the context goes to its save area and frees its core. -/
def saveContext (c : Nat) : Prog := .get fun s =>
  let k := s.core c
  let d := dieOf c
  let again := postEv 1 2 (.contextSave (coreBV c))
  match k.ctx with
  | none => .done
  | some x =>
    if k.flow != .saving then .done
    else if saveWaits s c x then again
    else match freeArea s d with
      | none => again
      | some area =>
        if !areaReached s d area then dieStop d 0x0A
        else
          let p := k.preq.getD ⟨false, s.time, false, false, false⟩
          let park := k.park.map fun (y : Park) => { y with until_ := y.until_.map fun u => u - s.time }
          let kept := { k with park := park, preq := none, arch := k.arch.setPreq false }
          Prog.all [
            .eff (.gput area saveBytes (saveImage s c)),
            Prog.when_ p.forced (errorRecord { coreRecord s c 0x24 1 0 with source := 10, addr := area }),
            .eff (.disp fun y => { y with saved := y.saved ++ [⟨x, kept, area, d, p.slice⟩] }),
            .eff (.waiters fun l => l.filter fun w => w.ev != .cwaitWake (coreBV c)),
            .eff (.purge fun i => i.ofCore c),
            setCore c Core.clear,
            coreFreed c x.started,
            postEv 1 3 (.taskStage (coreBV c)),
            match launchOf s x.ref with
            | none => .done
            | some l => kickQueue l.queue,
            kickSlots]

/-- CONTEXT_SAVE. -/
def execContextSave (core : BitVec 8) (s : State) : Host.Outcome State Fault Refusal := ran (saveContext core.toNat) s

/-- Bytes of a save area as a number. -/
def areaPart (v off n : Nat) : Nat := v / 2 ^ (8 * off) % 2 ^ (8 * n)

/-- The field of a unit that unitFields lists at place j, set. -/
def setUnitField (a : Arch) (u j : Nat) (x : Vec) : Arch :=
  let ports := fun (f : Ports → Ports) => { a with units := updAt a.units (u - 5) f }
  let acts := (engineOf u).toList
  match j with
  | 0 => ports fun p => { p with a := x }
  | 1 => ports fun p => { p with b := x }
  | 2 => ports fun p => { p with c := x }
  | _ =>
    if acts.isEmpty || 5 < j then (if (j - acts.length * 3) = 3 then ports fun p => { p with y0 := x } else ports fun p => { p with y1 := x })
    else acts.foldl (fun (a : Arch) e => { a with active := updAt a.active e fun y =>
      if j = 3 then { y with a := x } else if j = 4 then { y with b := x } else { y with c := x } }) a

/-- Ports and results written back in the order in which portFields saved them (R404, R405). -/
def areaPorts (v : Nat) (a : Arch) : Arch :=
  let scal := areaPart v 0x328 768
  let vect := areaPart v 0x14000 65536
  let all := (List.range 19).flatMap fun i => (unitFields a (i + 5)).zipIdx.map fun p => (i + 5, p.2, p.1.1)
  (all.foldl (fun (acc : Arch × Nat × Nat) (x : Nat × Nat × Bool) =>
    if x.2.2 then (setUnitField acc.1 x.1 x.2.1 (BitVec.ofNat 8192 (digit vect 8192 acc.2.2)), acc.2.1, acc.2.2 + 1)
    else (setUnitField acc.1 x.1 x.2.1 (BitVec.ofNat 8192 (digit scal 64 acc.2.1)), acc.2.1 + 1, acc.2.2)) (a, 0, 0)).1

/-- A tile entry from its two words, with the counts of one that has landed (R214, R404). -/
def areaTile (x : Nat) (t : Tile) : Tile :=
  let w := x / 2 ^ 64
  { t with
    word := BitVec.ofNat 64 x
    state := if field w 0 2 = 0 then .empty else if field w 0 2 = 1 then .filling else if field w 0 2 = 2 then .ready else .draining
    buckle := if bit w 3 = 1 then some (field w 4 6, BitVec.ofNat 16 (field w 16 16)) else none
    stale := bit w 10 = 1
    cfg := bit w 11 = 1
    filler := if field w 0 2 = 1 then (if field w 12 2 = 0 then .program else if field w 12 2 = 1 then .copyEngine else .matrix) else t.filler }

/-- The handles of eight words of a save area, empty places left out. -/
def areaHandles (x : Nat) : List Word := ((List.range 8).map fun i => (BitVec.ofNat 64 (digit x 64 i) : Word)).filter (· != 0)

/-- The task-visible state written back from an image in the layout of R404 (R405); what the image has no place for stays as in `a`. -/
def areaArch (v : Nat) (a : Arch) : Arch :=
  let words := fun (n off : Nat) => let x := areaPart v off (8 * n); Vector.ofFn fun (i : Fin n) => (BitVec.ofNat 64 (digit x 64 i) : Word)
  let vecs := fun (n off : Nat) => let x := areaPart v off (1024 * n); Vector.ofFn fun (i : Fin n) => (BitVec.ofNat 8192 (digit x 8192 i) : Vec)
  let counts := areaPart v 0xD0 16
  let flags := areaPart v 0x220 8
  let preds := areaPart v 0x13000 512
  let tags := areaPart v 0x6A8 64
  let tiles := areaPart v 0x24000 1024
  let keeps := areaPart v 0x24400 68608
  let raw := areaPart v 0x35000 65536
  let popped := field counts 96 16
  let written := popped + (field counts 80 16 + 65536 - popped) % 65536
  let slots := areaPart v 0x628 64
  let pass := areaPart v 0x800 8
  { areaPorts v a with
    g := words 32 0xE0
    o := words 8 0x1E0
    v := vecs 64 0x1000
    vo := vecs 8 0x11000
    p := Vector.ofFn fun (i : Fin 16) => BitVec.ofNat 256 (digit preds 256 i)
    f := Vector.ofFn fun (i : Fin 16) => decide (bit flags i = 1)
    pb := words 32 0x228
    st := words 24 0x10
    srSeq := BitVec.ofNat 32 (field counts 0 32)
    maSeq := BitVec.ofNat 32 (field counts 32 32)
    ring := { a.ring with
      written := written
      popped := popped
      seq := BitVec.ofNat 16 (field counts 64 16) }
    tiles := Vector.ofFn fun (i : Fin 64) => areaTile (digit tiles 128 i) (nth a.tiles i Tile.reset)
    keepers := Vector.ofFn fun (i : Fin 64) => { nth a.keepers i Keeper.reset with
      bytes := BitVec.ofNat 8192 (digit keeps 8576 i)
      band := BitVec.ofNat 256 (digit keeps 8576 i / 2 ^ 8192)
      gen := BitVec.ofNat 16 (digit keeps 8576 i / 2 ^ 8448) }
    accs := Vector.ofFn fun (i : Fin 4) =>
      let t := digit tags 128 i
      let x := digit raw 131072 i
      { nth a.accs i (Acc.reset i) with
        els := Vector.ofFn fun (j : Fin 1024) => (accOfImage (digit x 128 j)).getD AccEl.zero
        tag := BitVec.ofNat 16 t
        bandA := BitVec.ofNat 16 (t / 2 ^ 16)
        bandB := BitVec.ofNat 16 (t / 2 ^ 32)
        invalid := bit t 48 = 1
        lastProfile := field t 56 8 }
    maHalt := bit flags 16 = 1
    slots := Vector.ofFn fun (i : Fin 8) => if digit slots 64 i = 0 then none else some (BitVec.ofNat 64 (digit slots 64 i))
    rvPass := if bit pass 63 = 1 then some (pass % 2 ^ 63) else none }

/-- A deferred operation written back from its 128 bytes (R405). -/
def areaDeferred (x : Nat) (t : Trig) : Trig := { t with
  a := BitVec.ofNat 8192 (field x 64 64)
  b := BitVec.ofNat 8192 (field x 128 64)
  c := BitVec.ofNat 8192 (field x 192 64)
  aux := BitVec.ofNat 8192 (field x 256 512) }

/-- A held-back completion record written back from its 32 bytes (R405). -/
def areaHeld (x : Nat) (e : RingEntry) : RingEntry := { e with
  out := if bit x 63 = 1 then some (field x 64 64, field x 128 8, field x 136 8) else none }

/-- A core's saved state with every item of its save area written back (R405): what R404 gives no place is kept beside the area
(notes/assumptions/11.md). -/
def Core.fromArea (k : Core) (v : Nat) : Core :=
  let pends := areaPart v 0x700 256
  let header := areaPart v 0x808 16
  let park := areaPart v 0x6E8 24
  let held := areaPart v 0x8C000 0x40000
  { k with
    arch := { ((areaArch v k.arch).setPreq false) with ring := { (areaArch v k.arch).ring with
      reserved := if k.seg.isSome then k.arch.ring.reserved.zipIdx.map (fun p => areaHeld (digit held 256 p.2) p.1) else k.arch.ring.reserved } }
    pc := field (areaPart v 8 8) 32 15
    inbound := areaHandles (areaPart v 0x668 64)
    park := k.park.map fun (p : Park) => { p with
      handle := digit park 64 0
      thr := digit park 64 1
      until_ := p.until_.map fun _ => digit park 64 2 }
    pend := k.pend.zipIdx.map fun (p : PendFault × Nat) => { p.1 with
      code := field (digit pends 128 p.2) 0 8
      slot := field (digit pends 128 p.2) 8 8
      info := BitVec.ofNat 64 (digit pends 128 p.2 / 2 ^ 64) }
    seg := k.seg.map fun (g : Segment) => { g with
      id := field header 0 8
      entry := field header 8 16
      rewinds := field header 24 39
      shadow := areaArch (v / 2 ^ (8 * 0x45000)) g.shadow
      taken := areaHandles (areaPart v (0x45000 + 0x668) 64) }
    defq := k.defq.zipIdx.map fun (p : Trig × Nat) => areaDeferred (digit (areaPart v 0x8A000 0x2000) 1024 p.2) p.1 }

/-- The core with a context back on it (R405): what was saved, in the time of this core, whose position LCOORD reads, and by which a
region that is not deterministic draws (R121, R152). -/
def Core.restored (k : Core) (y : Saved) (c now : Nat) : Core :=
  let u := now - k.heldTotal
  let here := fun (a : Arch) => a.setSr 18 (info (lcoord c))
  { k.clear with
    ctx := some { y.ctx with core := c, started := now, key := if y.ctx.det then y.ctx.key else lcoord c }
    arch := here y.core.arch
    pc := y.core.pc
    flow := if y.core.park.isSome then .parked else .running
    trigSeq := max k.trigSeq y.core.trigSeq
    flights := y.core.flights.map fun f => { f with bound := 0, due := now }
    fences := y.core.fences
    released := y.core.released
    defq := y.core.defq.map fun t => { t with core := c, u0 := u }
    seg := y.core.seg.map fun (g : Segment) => { g with shadow := here g.shadow }
    pend := y.core.pend
    park := y.core.park.map fun (p : Park) => { p with until_ := p.until_.map fun r => now + r }
    rewind := y.core.rewind
    outRewind := y.core.outRewind
    inbound := y.core.inbound ++ k.inbound
    staged := k.staged }

/-- The owner tags of a context's restored lines (R405). -/
def restoredTags (x : Ctx) (old : List (Nat × Nat)) : List (Nat × Nat) :=
  let lines := List.range (x.spadk * 16) ++ (List.range 4096).map (· + 0x400000 / 64)
  lines.map (fun l => (l, x.id % 65536)) ++ old.filter fun p => !(decide (p.1 < x.spadk * 16) || decide (0x10000 ≤ p.1 ∧ p.1 < 0x11000))

/-- A saved context is put back on core c (R405). -/
def putBack (c : Nat) (y : Saved) : Prog := .get fun s =>
  let y := { y with core := y.core.fromArea (memRead s.mem y.area saveBytes) }
  let x := y.ctx
  let spad := x.spadk * 1024
  let fresh_ := fun (w : Nat) => decide (w < spad / 8) || decide (0x80000 ≤ w ∧ w < 0x88000) ||
    decide (keeperBase 0 / 8 ≤ w ∧ w < dictBase / 8)
  Prog.all [
    .eff (.disp fun d => { d with saved := d.saved.filter fun z => decide (z.ctx.id ≠ x.id) }),
    .eff (.lput c 0 spad (memRead s.mem (y.area + 0x140000) spad)),
    .eff (.lput c 0x400000 262144 (memRead s.mem (y.area + 0x100000) 262144)),
    setCore c (fun k => { k.restored y c s.time with
      tags := restoredTags x k.tags
      poison := k.poison.filter fun w => !fresh_ w
      upsets := healUpsets fresh_ k.upsets }),
    inherit_ c x.id,
    installFor c x ((regionOf s x.ref).map (·.profile) |>.getD 1) (match y.core.park with
      | some p => Prog.all [
          .eff (.waiters fun l => l ++ [⟨p.handle, p.thr, .cwaitWake (coreBV c)⟩]),
          postEv 0 1 (.cwaitWake (coreBV c)),
          match p.until_ with
          | none => .done
          | some r => postEv r 1 (.cwaitTimeout (coreBV c))]
      | none => nextFetch c (1000 + x.spadk)),
    Prog.each ((List.range 64).filter fun n => (nth y.core.arch.tiles n Tile.reset).state = .draining) fun n =>
      postEv 1 3 (.tileDrainDone (coreBV c) (BitVec.ofNat 6 n)),
    postEv 1 3 (.taskStage (coreBV c)),
    Prog.when_ (partnerOf s c).isSome (postEv Config.sliceCycles 3 (.timeSliceYield (coreBV c)))]

/-- CONTEXT_RESTORE (R405, R407): the first saved context that core c may take; a CRC that fails ends it in class C. -/
def restoreContext (c : Nat) : Prog := .get fun s =>
  let k := s.core c
  match (coreQueue s c).bind fun q => s.disp.saved.find? (restorable s c q) with
  | none => .done
  | some y =>
    if k.ctx.isSome || !pairFree s c || (s.die (dieOf c)).stopped then .done
    else if !areaReached s (dieOf c) y.area then dieStop (dieOf c) 0x0A
    else if saveSound s y.area then putBack c y
    else Prog.all [
      errorRecord {
        code := 0x1B
        cls := 2
        source := 10
        inst := c % 128
        die := dieOf c
        ctx := y.ctx.id
        addr := y.area
        version := ((regionOf s y.ctx.ref).map (·.version)).getD 0
        info := y.area },
      domainEnd y.ctx.ref]

/-- CONTEXT_RESTORE. -/
def execContextRestore (core : BitVec 8) (s : State) : Host.Outcome State Fault Refusal := ran (restoreContext core.toNat) s

end Sys2Proof.Machine
end

