-- ==== Sys2Proof/Machine/Boot.lean ====
section
/-! DEFINITION. Bring-up (R458, R459), the recovery of a die (R407), attestation (R460, R461), and power (R463, R464). -/

namespace Sys2Proof.Machine

/-- The working physical cores of a die by the fuse map (R122). -/
def workingCores (fuse : List Nat) (d : Nat) : List Nat := (List.range 136).filter fun p => !fuse.contains (136 * d + p)

/-- The remap table of a die from its working cores (R122). -/
def remapOf (w : List Nat) : Vector (Nat × Bool) 128 :=
  let p := w.length
  let single := 2 * p - 128
  Vector.ofFn fun i =>
    if 128 ≤ p || i.val < single then (w.getD i.val 0, false) else (w.getD (single + (i.val - single) / 2) 0, true)

/-- The boot status word (R459). -/
def bootWord (step : Nat) (done fail : Bool) (cause item : Nat) : Word :=
  info (step + done.toNat * 2 ^ 4 + fail.toNat * 2 ^ 5 + cause * 2 ^ 8 + item % 65536 * 2 ^ 16)

/-- The message that an item's signature signs (R459): the digest of its bytes, its kind and its version, the first lowest
(notes/assumptions/14.md). -/
def BootItem.message (x : BootItem) : Nat :=
  (Config.sha256 x.bytes x.data).toNat + x.kind % 2 ^ 16 * 2 ^ 256 + x.version % 2 ^ 32 * 2 ^ 272

/-- The boot image: the flash's, or the one in host memory that the boot capability names when the flash holds none (R458). -/
def bootImage (p : Pkg) : List BootItem := if p.image.isEmpty then p.hostImage else p.image

/-- Why an item of the boot image fails, if it does (R459). -/
def itemCause (key floor : Nat) (x : BootItem) : Option Nat :=
  if !Config.signatureOk key x.message x.signature then some 4
  else if 2 < x.kind then some 6
  else if x.version < floor then some 5
  else none

/-- Bring-up stops (R458, R459). -/
def bootFails (step cause item : Nat) : Prog :=
  .eff (.pkg fun p => { p with boot := bootWord step false true cause item, bootOk := false })

/-- The calendar, the power windows, the scrubber and time sync run from package reset on (R259, R331, R416, R464). -/
def startClocks : Prog := Prog.all [
  postAt (29184 - 256) 4 .drainWindowOpen,
  postAt 1024 1 (.powerWindowEnd 0),
  postAt 1024 1 (.powerWindowEnd 1),
  postAt 1 3 (.scrubWord 0 0),
  postAt (2 ^ 20) 3 .timeSyncSend]

/-- Bring-up in the order of R458. -/
def bringUp : Prog := .get fun s =>
  let fuse := s.pkg.fuse
  (Prog.each [0, 1] fun d => .eff (.die d fun y => { y with remap := remapOf (workingCores fuse d) })).andThen <|
  if (workingCores fuse 0).length < 64 || (workingCores fuse 1).length < 64 then bootFails 1 1 0
  else if s.pkg.trainFails then bootFails 2 2 0
  else if (bootImage s.pkg).isEmpty then bootFails 4 3 0
  else match (bootImage s.pkg).zipIdx.findSome? fun p => (itemCause s.pkg.rootKey s.pkg.floor p.1).map fun c => (c, p.2) with
    | some (cause, item) => bootFails 5 cause item
    | none => Prog.all [
        Prog.each (bootImage s.pkg) (fun x => Prog.when_ (x.kind = 2 && x.bytes != 0) (.eff (.gput x.pa x.bytes x.data))),
        .eff (.pkg fun p => { p with boot := bootWord 7 true false 0 0, bootOk := true })]

/-- PACKAGE_RESET (R331, R458). -/
def execPackageReset (s : State) : Host.Outcome State Fault Refusal :=
  ran (Prog.all [.eff .restart, startClocks, bringUp]) s

/-- DIE_RESET (R109, R386, R407): a stopped die starts again, its slot table and its counters as at reset; what the boot ROM wrote
stays. -/
def resetDie (d : Nat) : Prog := .get fun s =>
  Prog.when_ (s.die d).stopped (Prog.all [
    .eff (.die d fun y => { Die.reset with remap := y.remap, limit := y.limit, power := y.power, hot := y.hot }),
    .eff (.ctrClear d),
    Prog.each (List.range 128) fun l => setCore (128 * d + l) fun k =>
      { k.clear with staged := none, tlb := [], handedOut := [], fxQ := [], chans := Vector.replicate 4 Channel.reset },
    kickSlots])

/-- DIE_RESET. -/
def execDieReset (die : BitVec 1) (s : State) : Host.Outcome State Fault Refusal := ran (resetDie die.toNat) s

/-- ROLLBACK_FLOOR_RAISE (R459): the floor only rises. -/
def execRollbackFloorRaise (floor : BitVec 32) (s : State) : Host.Outcome State Fault Refusal :=
  ran (.eff (.pkg fun p => { p with floor := max p.floor floor.toNat })) s

/-- Numbers of 64 bits, the first lowest. -/
def words64 (l : List Nat) : Nat := ofDigits l.length 64 fun i => l.getD i 0

/-- What an attestation signs, with its length in bytes (R460): the nonce, NODEID, the digest and version of every item installed, and the digest
of the fuse map, the first lowest; NODEID and a version take eight bytes (notes/assumptions/14.md). -/
def attestMessage (p : Pkg) (nonce : BitVec 256) : Nat × Nat :=
  let quarters := fun (d : BitVec 256) => (List.range 4).map fun i => digit d.toNat 64 i
  let fuse := ofDigits 272 1 fun i => (p.fuse.contains i).toNat
  let l := quarters nonce ++ [p.nodeId] ++
    ((bootImage p).flatMap fun x => quarters (Config.sha256 x.bytes x.data) ++ [x.version]) ++ quarters (Config.sha256 34 fuse)
  (8 * l.length, words64 l)

/-- ATTEST_REQUEST (R460, R461): a fresh block is burned before its first index, and the report over the nonce goes out; with every
block burned, or no firmware, the request is refused. -/
def attest (nonce : BitVec 256) : Prog := .get fun s =>
  let p := s.pkg
  if !p.bootOk || (p.attestLeft = 0 && decide (65536 ≤ p.attestBlocks)) then .eff (.out 0x461 0)
  else
    let blocks := if p.attestLeft = 0 then p.attestBlocks + 1 else p.attestBlocks
    let left := if p.attestLeft = 0 then 2 ^ 24 else p.attestLeft
    let index := blocks * 2 ^ 24 - left
    Prog.all [
      .eff (.pkg fun p => { p with attestBlocks := blocks, attestLeft := left - 1 }),
      .eff (.out 0x460 (Config.hssSign p.idSeed index (attestMessage p nonce).1 (attestMessage p nonce).2))]

/-- ATTEST_REQUEST. -/
def execAttestRequest (nonce : BitVec 256) (s : State) : Host.Outcome State Fault Refusal := ran (attest nonce) s

/-- POWER_LIMIT_SET (R464): the host sets a die's limit between 400 W and its 950 W. -/
def execPowerLimitSet (die : BitVec 1) (watts : BitVec 16) (s : State) : Host.Outcome State Fault Refusal :=
  ran (Prog.when_ (decide (400 ≤ watts.toNat ∧ watts.toNat ≤ 950)) (.eff (.die die.toNat fun y => { y with limit := watts.toNat }))) s

/-- Every queue with a launch that waits is looked at again. -/
def kickLaunches : Prog := .get fun s =>
  Prog.each ((s.disp.launches.filter fun l => l.state = .queued).map (·.queue)).dedup fun q =>
    postEv 1 3 (.launchValidate (BitVec.ofNat 12 q))

/-- The package has joined the fabric's time, and launches that waited for it may go (R416). -/
def joins : Prog := .get fun s => Prog.when_ (!s.pkg.joined) (Prog.all [
  .eff (.pkg fun p => { p with joined := true }),
  kickLaunches])

/-- Slewing (R416), once in each 4,096 cycles until the offset is zero: a package that is behind adds a count; one that is ahead withholds
one, so that its offset shrinks while package time, by which this model counts, goes on as before. -/
def slew : Prog := .get fun s =>
  let o := s.pkg.skew
  let left := if o < 0 then o + 1 else o - 1
  Prog.when_ (o != 0 && decide (s.time / 4096 ≠ (s.time - 1024) / 4096)) (Prog.all [
    .eff (.pkg fun p => { p with skew := left, skewSince := if left.natAbs ≤ 5 then none else p.skewSince }),
    Prog.when_ (decide (o < 0)) (.eff (.advance (s.time + 1))),
    Prog.when_ (left = 0) joins])

/-- The limit a die is held to: half while it is hot (R465). -/
def Die.effectiveLimit (y : Die) : Nat := if y.hot then y.limit / 2 else y.limit

/-- Cycles of a window in which an array may work while its die, which drew `power`, is to stay below `limit` (R464). DESIGN CHOICE: power
counts as proportional to that (notes/assumptions/2.md). -/
def dutyCycles (limit power : Nat) : Nat := (1024 * limit - 1) / power

/-- When an array may start in a throttled window that begins now: so late that what is left of an operation already started and what starts
then stay within the duty; in a later window where that operation alone fills it (R464). -/
def arrayStartFrom (now free duty : Nat) : Nat := if free - now < duty then now + 1024 - (duty - (free - now)) else now + 1024

/-- A die measures its power over the window that ends and throttles in the next one if it exceeded the limit (R464). What it drew is a free
value, since no rule derives power from what the die does. -/
def measure (d : Nat) : Prog := .get fun s =>
  let power := (Config.freeVec s.fresh).toNat % 2 ^ 16
  Prog.all [
    .eff (.fresh 1),
    .eff (.die d fun y => { y with
      power := power
      throttled := decide (y.effectiveLimit < power)
      arrayFrom := Vector.ofFn fun l => arrayStartFrom s.time (s.core (128 * d + l)).arrayFree (dutyCycles y.effectiveLimit power) })]

/-- POWER_WINDOW_END (R416, R464): package time slews; a die whose window exceeded its limit throttles in the next one. An uncorrectable error in the slot table,
the remap table or the counter bank, which comes from outside, stops the die here, and the flows to a die that a failed record has stopped
fail here (R407; notes/assumptions/20.md). -/
def execPowerWindowEnd (die : BitVec 1) (s : State) : Host.Outcome State Fault Refusal :=
  ran (Prog.all [
    Prog.when_ (s.die die.toNat).tableError (dieStop die.toNat 0x1B),
    Prog.when_ (s.die die.toNat).stopped (cutDie die.toNat),
    Prog.when_ (die = 0) slew,
    measure die.toNat,
    postEv 1024 1 (.powerWindowEnd die)]) s

end Sys2Proof.Machine
end

