-- ==== Sys2Proof/Machine/Host.lean ====
section
/-! DEFINITION. What the host and the cinch firmware do to the package: the register block (R418), translation registers (R256), code
rates (R422), ring and log counts (R386, R435), queues (R103, R418), host accesses (R417) and the die-to-die link (R415). -/

namespace Sys2Proof.Machine

/-- The register block takes a write: not where bring-up has stopped (R458). -/
def regWrite (p : Prog) : Prog := .get fun s => Prog.when_ s.pkg.bootOk p

/-- Some context is live (R97, R256). -/
def anyLive (s : State) : Bool := !(liveIds s).isEmpty

/-- TROOT (R256): ignored while any context is live. -/
def writeTroot (v : Nat) : Prog := .get fun s =>
  Prog.when_ (!anyLive s) (.eff (.pkg fun p => { p with troot := field v 9 36 * 512 }))

/-- TROOT_WRITE. -/
def execTrootWrite (val : BitVec 64) (s : State) : Host.Outcome State Fault Refusal := ran (regWrite (writeTroot val.toNat)) s

/-- An invalidation covers a translation (R256). -/
def invCovers (v : Nat) (e : TlbEntry) : Bool :=
  match field v 0 2 with
  | 0 => true
  | 1 => !e.large && e.vpage = field v 16 32
  | _ => e.large && e.vpage = field v 29 19

/-- TLBINV (R256): refused, or the translations leave every TLB and BUSY stands until old accesses are performed. -/
def writeTlbinv (v : Nat) : Prog := .get fun s =>
  let old := s.pkg.tlbinv.toNat
  if field v 0 2 = 3 || field v 2 14 != 0 || field v 48 14 != 0 || bit old 63 = 1 then
    .eff (.pkg fun p => { p with tlbinv := p.tlbinv ||| info (2 ^ 62) })
  else
    let keep := fun (e : TlbEntry) => !invCovers v e
    Prog.all [
      .eff (.pkg fun p => { p with tlbinv := info (v % 2 ^ 48 + 2 ^ 63) }),
      Prog.each (List.range 256) (fun c => setCore c fun k => { k with tlb := k.tlb.filter keep }),
      Prog.each [0, 1] (fun d => .eff (.die d fun y => { y with tlb2 := y.tlb2.filter fun p => keep p.2 })),
      postEv 1 3 .tlbinvComplete]

/-- TLBINV_ALL. -/
def execTlbinvAll (val : BitVec 64) (s : State) : Host.Outcome State Fault Refusal := ran (regWrite (writeTlbinv val.toNat)) s

/-- TLBINV_PAGE. -/
def execTlbinvPage (val : BitVec 64) (s : State) : Host.Outcome State Fault Refusal := ran (regWrite (writeTlbinv val.toNat)) s

/-- TLBINV_LARGE_PAGE. -/
def execTlbinvLargePage (val : BitVec 64) (s : State) : Host.Outcome State Fault Refusal := ran (regWrite (writeTlbinv val.toNat)) s

/-- Some access to global memory has been translated and not performed, a walk is under way, or an operation or a job with translations
of its own is still to make accesses (R49, R256, R307). -/
def globalPending (s : State) : Bool :=
  (s.lanes.toList.any fun l => l.stage = .run && !l.xlat.isEmpty) ||
  s.cores.toList.any fun k => k.walk.isSome || !k.walked.isEmpty ||
    (k.captured.toList.flatten.any fun t => (t.unit = 17 || t.unit = 22) && !t.tlb.isEmpty) ||
    k.accesses.any fun a => a.pieces.any fun p => match p.at_ with
      | .arr .. => false
      | _ => true

/-- TLBINV_COMPLETE (R256): BUSY clears once no translated access is left. -/
def execTlbinvComplete (s : State) : Host.Outcome State Fault Refusal :=
  ran (.get fun s =>
    if globalPending s then postEv 1 3 .tlbinvComplete
    else .eff (.pkg fun p => { p with tlbinv := info (p.tlbinv.toNat % 2 ^ 63) })) s

/-- FCRATE (R422): a write breaking its map is ignored. -/
def writeFcrate (c v : Nat) : Prog :=
  let k := field v 0 4
  let m := field v 4 3
  Prog.when_ (decide (1 ≤ k ∧ k ≤ 14 ∧ m ≤ 4 ∧ k + m ≤ 16) && field v 7 57 = 0)
    (.eff (.pkg fun p => { p with fcrate := updAt p.fcrate c fun _ => (k, m) }))

/-- FCRATE_WRITE. -/
def execFcrateWrite (cls : BitVec 3) (val : BitVec 64) (s : State) : Host.Outcome State Fault Refusal :=
  ran (regWrite (writeFcrate cls.toNat val.toNat)) s

/-- ERRRP (R386, R418): it moves neither backward nor past ERRWP. -/
def writeErrrp (d : Nat) (v : BitVec 32) : Prog := .get fun s =>
  let y := s.die d
  Prog.when_ (decide ((v - y.errRp).toNat ≤ (y.errWp - y.errRp).toNat)) (.eff (.die d fun y => { y with errRp := v }))

/-- ERRRP_WRITE. -/
def execErrrpWrite (die : BitVec 1) (val : BitVec 32) (s : State) : Host.Outcome State Fault Refusal :=
  ran (regWrite (writeErrrp die.toNat val)) s

/-- Changes a die's log registers. -/
def setLog (d : Nat) (f : LogRegs → LogRegs) : Prog := .eff (.die d fun y => { y with log := f y.log })

/-- RRRP_WRITE (R435): the firmware has drained entries; parties that a full log stalls look again. -/
def execRrrpWrite (die : BitVec 1) (val : BitVec 64) (s : State) : Host.Outcome State Fault Refusal :=
  ran (regWrite (setLog die.toNat fun g => { g with rp := val.toNat })) s

/-- A queue's EN, BASE, LOG2N and DOMAIN (R418). -/
def writeQueue (q v : Nat) : Prog := .get fun s =>
  let old := s.queue q
  let n := field v 48 4
  let log2n := if old.en || n < 4 then old.log2n else n
  let en := bit v 0 = 1 && decide (4 ≤ log2n)
  Prog.all [
    setQueue q (fun x => if x.en then { x with en := en } else
      { x with en := en, base := field v 12 33 * 4096, log2n := log2n, domain := field v 52 12 }),
    Prog.when_ en (postEv 1 3 (.launchValidate (BitVec.ofNat 12 q)))]

/-- QUEUE_CONFIG_WRITE. -/
def execQueueConfigWrite (q : BitVec 12) (val : BitVec 64) (s : State) : Host.Outcome State Fault Refusal :=
  ran (regWrite (writeQueue q.toNat val.toNat)) s

/-- TAIL (R103, R418): the entries it covers join the queue in ring order, or the write is ignored with a record. DESIGN CHOICE: bits 48 to
63 of an entry, which R103 reserves, are not looked at (notes/assumptions/15.md). -/
def writeTail (q : Nat) (v : BitVec 32) : Prog := .get fun s =>
  let x := s.queue q
  let tail := BitVec.ofNat 32 x.tail
  let head := BitVec.ofNat 32 x.head
  let ahead := (v - head).toNat
  if ahead < (tail - head).toNat || 2 ^ x.log2n < ahead then
    errorRecord { code := 0x12, cls := 1, source := 6, info := v.toNat, detail := q }
  else Prog.all [
    setQueue q (fun x => { x with tail := v.toNat }),
    Prog.each (List.range (v - tail).toNat) (fun i =>
      enqueue q (field (memRead s.mem (x.base + 16 * ((x.tail + i) % 2 ^ x.log2n)) 8) 0 48) none)]

/-- QUEUE_TAIL_WRITE. -/
def execQueueTailWrite (q : BitVec 12) (val : BitVec 32) (s : State) : Host.Outcome State Fault Refusal :=
  ran (regWrite (writeTail q.toNat val)) s

/-- The log registers of a die by their offset in its block (R433). -/
def writeLogReg (d o v : Nat) : Prog :=
  match o with
  | 0x00 => setLog d fun g => { g with base := field v 12 33 * 4096 }
  | 0x08 => Prog.when_ (decide (12 ≤ v ∧ v ≤ 28)) (setLog d fun g => { g with cnt := v })
  | 0x10 => setLog d fun g => { g with wp := v }
  | 0x18 => setLog d fun g => { g with rp := v }
  | _ => .done

/-- Four counter domains of 16 bits from a counter on (R360, R418). -/
def writeDomains (d c v : Nat) : Prog :=
  .eff (.die d fun y => { y with domains := (List.range 4).foldl (fun l i => assocSet l (c + i) (field v (16 * i) 12)) y.domains })

/-- A write of a package register by its offset (R418); what has no place in the map is ignored. -/
def writeRegister (off v : Nat) : Prog :=
  let set := fun (f : Pkg → Pkg) => Prog.eff (.pkg f)
  if off % 8 != 0 then .done
  else if off = 0x00 then Prog.all [set fun p => if p.launched then p else { p with nodeId := v % 2 ^ 15 }, kickLaunches]
  else if off = 0x08 then writeTroot v
  else if off = 0x10 then writeTlbinv v
  else if off = 0x18 then set fun p => { p with allocBase := field v 20 25 * 2 ^ 20 }
  else if off = 0x20 || off = 0x28 then set fun p => { p with errBase := updAt p.errBase ((off - 0x20) / 8) fun _ => field v 18 27 * 2 ^ 18 }
  else if off = 0x30 || off = 0x38 then set fun p => { p with savePool := updAt p.savePool ((off - 0x30) / 8) fun _ => v % 2 ^ 45 }
  else if off = 0x40 then set fun p => if 5000 ≤ v ∧ v ≤ 2 ^ 24 then { p with strdl := v } else p
  else if off = 0x48 then Prog.all [set fun p => { p with planeUp := BitVec.ofNat 16 v }, kickSend 0 0, kickSend 1 0]
  else if off = 0x50 then Prog.all [set fun p => { p with tsync := v % 2 ^ 15 }, kickLaunches]
  else if off = 0x70 || off = 0x78 then writeErrrp ((off - 0x70) / 8) (BitVec.ofNat 32 v)
  else if 0x80 ≤ off ∧ off < 0xC0 then writeFcrate ((off - 0x80) / 8) v
  else if 0x100 ≤ off ∧ off < 0x180 then writeLogReg ((off - 0x100) / 0x40) (off % 0x40) v
  else if 0x10000 ≤ off ∧ off < 0x20000 then
    (if off % 16 = 0 then writeQueue ((off - 0x10000) / 16) v else writeTail ((off - 0x10000) / 16) (BitVec.ofNat 32 v))
  else if 0x20000 ≤ off ∧ off < 0x60000 then writeDomains ((off - 0x20000) / 0x20000) ((off - 0x20000) % 0x20000 / 2) v
  else .done

/-- REGISTER_WRITE (R418). -/
def execRegisterWrite (off : BitVec 20) (val : BitVec 64) (s : State) : Host.Outcome State Fault Refusal :=
  ran (regWrite (writeRegister off.toNat val.toNat)) s

/-- A queue's 16 bytes in the register block (R418). -/
def Queue.image (x : Queue) : Nat :=
  x.en.toNat + x.base % 2 ^ 45 + x.log2n % 16 * 2 ^ 48 + x.domain % 2 ^ 12 * 2 ^ 52 + x.tail % 2 ^ 32 * 2 ^ 64 + x.head % 2 ^ 32 * 2 ^ 96

/-- A log register of a die as it is read (R433). -/
def readLogReg (g : LogRegs) (o : Nat) : Nat :=
  match o with
  | 0x00 => g.base
  | 0x08 => g.cnt
  | 0x10 => g.wp
  | 0x18 => g.rp
  | 0x20 => g.ctl
  | _ => 0

/-- A fabric count of a die as it is read (R418). -/
def readFabricCount (y : Die) (o : Nat) : Nat :=
  match o with
  | 0x00 => y.late
  | 0x08 => y.crcErr
  | 0x10 => y.noBuf
  | 0x18 => y.nak
  | 0x20 => y.retx
  | _ => 0

/-- What the host or the cinch firmware reads in the register block, 8 bytes at an offset (R418, R433): offsets not listed read as
zero. -/
def readRegister (s : State) (off : Nat) : Nat :=
  let p := s.pkg
  if off % 8 != 0 then 0
  else if off = 0x00 then p.nodeId
  else if off = 0x08 then p.troot
  else if off = 0x10 then p.tlbinv.toNat
  else if off = 0x18 then p.allocBase
  else if off = 0x20 || off = 0x28 then nth p.errBase ((off - 0x20) / 8) 0
  else if off = 0x30 || off = 0x38 then nth p.savePool ((off - 0x30) / 8) 0
  else if off = 0x40 then p.strdl
  else if off = 0x48 then p.planeUp.toNat
  else if off = 0x50 then p.tsync
  else if off = 0x60 || off = 0x68 then (s.die ((off - 0x60) / 8)).errWp.toNat
  else if off = 0x70 || off = 0x78 then (s.die ((off - 0x70) / 8)).errRp.toNat
  else if 0x80 ≤ off ∧ off < 0xC0 then
    let r := nth p.fcrate ((off - 0x80) / 8) (12, 4)
    r.1 + r.2 * 2 ^ 4
  else if 0x100 ≤ off ∧ off < 0x180 then readLogReg (s.die ((off - 0x100) / 0x40)).log (off % 0x40)
  else if 0x200 ≤ off ∧ off < 0x280 then readFabricCount (s.die ((off - 0x200) / 0x40)) (off % 0x40)
  else if 0x10000 ≤ off ∧ off < 0x20000 then
    field (s.queue ((off - 0x10000) / 16)).image (8 * (off % 16)) 64
  else if 0x20000 ≤ off ∧ off < 0x60000 then
    let y := s.die ((off - 0x20000) / 0x20000)
    ofDigits 4 16 fun i => (assoc y.domains ((off - 0x20000) % 0x20000 / 2 + i)).getD 0
  else 0

/-- What the host reads of the boot capability, at any time (R459). -/
def readBootStatus (s : State) : Word := s.pkg.boot

/-- What the cinch firmware reaches (R113, R122): a slot of a die's table, an entry of its remap table, a queue's state, and a record of the
snapshot of a tree. Its own memory has no place in the spec's memories. -/
inductive CinchTarget where
  | slot (die i : Nat)
  | remap (die l : Nat)
  | queue (q : Nat)
  | snapshot (root n : Nat)
  deriving DecidableEq, Repr

/-- What the cinch firmware reads there (R110, R113, R122, R418); a snapshot that the dispatcher does not hold reads as none. -/
def cinchRead (s : State) : CinchTarget → Option Nat
  | .slot d i => some (slotAt s d i).image
  | .remap d l =>
    let e := nth (s.die d).remap l (0, false)
    some (e.1 + e.2.toNat * 2 ^ 8)
  | .queue q => some (s.queue q).image
  | .snapshot root n => ((s.disp.snapshots.find? fun p => p.1 = root).bind fun p => p.2[n]?).map (·.bits.toNat)

/-- HOST_MEM_ACCESS (R332, R417): a CXL.mem access of 1, 2, 4 or 8 bytes to HBM4E; in a drain window or slot it waits. A read's data go
out to the host. -/
def hostAccess (wr : Bool) (size pa v : Nat) : Prog := .get fun s =>
  let n := 2 ^ size
  if 12 * 2 ^ 36 < pa + n then .done
  else if s.pkg.draining then
    postEv 16 2 (.hostMemAccess wr (BitVec.ofNat 2 size) (BitVec.ofNat 45 pa) (BitVec.ofNat 64 v))
  else if wr then writeLoc (.pa pa) n (v % 2 ^ (8 * n)) 0 none
  else .eff (.out pa (memRead s.mem pa n))

/-- HOST_MEM_ACCESS. -/
def execHostMemAccess (wr : Bool) (size : BitVec 2) (pa : BitVec 45) (val : BitVec 64) (s : State) : Host.Outcome State Fault Refusal :=
  ran (hostAccess wr size.toNat pa.toNat val.toNat) s

/-- D2D_FLIT_RETRY (R415): a resent flit that arrives changes only timing; a link that cannot deliver goes out of service until the next
long slot. -/
def execD2dFlitRetry (delivered : Bool) (s : State) : Host.Outcome State Fault Refusal :=
  ran (Prog.when_ (!delivered) (Prog.each [0, 1] fun d => Prog.all [
    .eff (.die d fun y => { y with linkUp := false }), kickSend d 0])) s

end Sys2Proof.Machine
end

