-- ==== Sys2Proof/Machine/Curry.lean ====
section
/-! DEFINITION. Curry slots as they come (R331 to R334, R465), and package time across packages (R416). -/

namespace Sys2Proof.Machine

/-- The next slot's drain window, with the erasure of the plane that a long slot retrains, both 256 cycles ahead (R332, R334). The window
opens once the operations of its cycle have made their requests. -/
def nextSlot : Prog := .get fun s =>
  let (_, start, _, kind) := slotAfter s.time
  Prog.all [
    postAt (start - 256) 4 .drainWindowOpen,
    Prog.when_ (kind = 1) (postAt (start - 256) 1 .planeEraseStart)]

/-- The global addresses of an access that waits (R333). -/
def Access.globals (a : Access) : List Nat := a.pieces.filterMap fun p => match p.at_ with
  | .arr .. => none
  | .pa x | .expand x => some x

/-- An atomic or a scatter-add, which queues behind others on its units (R333). -/
def Access.updates (a : Access) : Bool :=
  match a.kind with
  | .amo .. | .scatAdd .. | .window .. => true
  | _ => false

/-- The update of core c queues behind another one on a unit (R333). -/
def queuesBehind (s : State) (c : Nat) (a : Access) : Bool :=
  a.updates && (List.range 256).any fun d => (s.core d).accesses.any fun b =>
    b.updates && b.meets a && (if c = d then decide (b.seq < a.seq) else decide (b.due < a.due) || (b.due = a.due && decide (d < c)))

/-- The drain window lasts long enough for every accepted request but an update behind another one (R332, R333): it is performed before
the slot is due to start. -/
def drainAccess (s : State) (c last : Nat) (a : Access) : Access :=
  if a.globals.isEmpty || queuesBehind s c a then a else { a with due := min a.due last }

/-- DRAIN_WINDOW_OPEN (R332). -/
def execDrainWindowOpen (s : State) : Host.Outcome State Fault Refusal :=
  ran (.get fun s =>
    let start := (slotAfter s.time).2.1
    Prog.all [
      .eff (.pkg fun p => { p with draining := true, slotStart := start }),
      Prog.each ((List.range 256).filter fun c => (s.core c).accesses.any fun a => !a.globals.isEmpty) (fun c => Prog.all [
        setCore c (fun k => { k with accesses := k.accesses.map (drainAccess s c (start - 1)) }),
        postAt (start - 1) 1 (.accessPerformed (coreBV c))]),
      postAt start 1 .currySlotStart]) s

/-- Global requests outstanding on core c. -/
def outstanding (s : State) (c : Nat) : List (Access × Nat) :=
  (s.core c).accesses.filterMap fun a => (a.globals.head?).map fun x => (a, x)

/-- One overrun of a core's request (R333): its record, 0x1A at the context's next named point, and the count of its die. -/
def overrun (c : Nat) (p : Access × Nat) : Prog := .get fun s =>
  let d := dieOf c
  let i := 2 ^ (p.1.path % 8) + p.2 % 2 ^ 45 * 2 ^ 16
  let recent := (s.die d).overruns.filter fun t => decide (s.time ≤ t + 2500000)
  Prog.all [
    errorRecord { coreRecord s c 0x1A 0 i with source := 9, addr := p.2 },
    Prog.when_ (s.core c).ctx.isSome
      (addPending c { code := 0x1A, info := info i, slot := 0, seq := p.1.seq, ready := false, inSeg := false } p.1.inTrap),
    .eff (.die d fun y => { y with overruns := recent ++ [s.time] }),
    Prog.when_ (decide (2 ≤ recent.length)) (dieStop d 0x1A)]

/-- The plane that frame f retrains (R331). -/
def retrained (f : Nat) : Nat := f / 256 % 16

/-- What the sensors of site i read, dies first and then stacks. -/
def senseAt (s : State) (i : Nat) : Sense := nth s.pkg.sensors i ⟨0, 0, 0⟩

/-- A site's readings as they go to the host: the site, then temperature, voltage and power from bits 8, 24 and 40 on
(notes/assumptions/15.md). -/
def Sense.word (x : Sense) (i : Nat) : Nat := i + x.temperature * 2 ^ 8 + x.voltage * 2 ^ 24 + x.power * 2 ^ 40

/-- The sites of a die: itself and its six stacks (R248). -/
def sitesOf (d : Nat) : List Nat := d :: (List.range 6).map fun i => 2 + 6 * d + i

/-- The sensor sweep of a long slot (R465): the firmware, where it runs, publishes the results to the host; a hot die throttles, and each die's
highest reading is recorded or trips. -/
def sweep : Prog := .get fun s =>
  let t := fun (d : Nat) => (sitesOf d).foldl (fun m i => max m (senseAt s i).temperature) 0
  let code := (Config.freeVec s.fresh).toNat % 256
  Prog.all [
    .eff (.fresh 1),
    Prog.when_ s.pkg.bootOk (Prog.each (List.range 14) fun i => .eff (.out 0x465 ((senseAt s i).word i))),
    Prog.each [0, 1] (fun d => .eff (.die d fun y => { y with
      hot := decide (100 < (senseAt s d).temperature) || (y.hot && decide (95 < (senseAt s d).temperature)) })),
    Prog.each [0, 1] (fun d => Prog.when_ (decide (110 < t d)) (errorRecord { code := code, cls := 1, source := 11, die := d, info := t d })),
    Prog.when_ (decide (115 < max (t 0) (t 1))) (.eff (.pkg fun p => { p with tripped := true }))]

/-- The work of frame f's slot that changes state (R259, R331, R334, R465): a refresh slot scrubs the HBM half that it does not refresh, a
long slot checks the links and sweeps the sensors. -/
def slotWork (f kind : Nat) : Prog := .get fun s => Prog.all [
  Prog.when_ (kind = 0) (Prog.each (s.pkg.hbmUpsets.filter fun u => Config.bankHalf u.word == decide (f % 2 = 0)) fun u =>
    postEv 0 2 (.eccReread 0 true (BitVec.ofNat 45 (u.word * 8)))),
  Prog.when_ (kind = 1) (Prog.all [
    Prog.each [0, 1] (fun d => .eff (.die d fun y => { y with linkUp := true })),
    sweep])]

/-- CURRY_SLOT_START (R331, R333): at its time, or up to 128 cycles late where requests of before are still outstanding, of which each
update is an overrun. -/
def slotStarts : Prog := .get fun s =>
  let f := s.pkg.slotStart / frameCycles
  match frameSlot f with
  | none => .done
  | some (len, kind) =>
    let wait := (List.range 256).flatMap fun c => (outstanding s c).map fun p => (c, p)
    Prog.all [
      Prog.when_ (s.time = s.pkg.slotStart) (Prog.each (wait.filter fun x => x.2.1.updates) fun x => overrun x.1 x.2),
      if !wait.isEmpty && s.time < s.pkg.slotStart + 128 then postEv 1 1 .currySlotStart
      else Prog.all [slotWork f kind, postAt (s.pkg.slotStart + len) 1 .currySlotEnd]]

/-- CURRY_SLOT_START. -/
def execCurrySlotStart (s : State) : Host.Outcome State Fault Refusal := ran slotStarts s

/-- CURRY_SLOT_END (R332, R334): global requests are accepted again. -/
def execCurrySlotEnd (s : State) : Host.Outcome State Fault Refusal :=
  ran (.get fun s => Prog.all [
    .eff (.pkg fun p => { p with draining := false }),
    Prog.when_ (((frameSlot (s.pkg.slotStart / frameCycles)).map fun p => decide (p.2 = 1)).getD false) (postEv 256 1 .planeEraseEnd),
    nextSlot]) s

/-- The slot of the calendar whose drain window, length or, for a long one, erasure of a plane holds package time: its frame, start,
length and kind (R331, R332, R334). -/
def slotNow (time : Nat) : Option (Nat × Nat × Nat × Nat) :=
  (List.range 4).findSome? fun i =>
    let f := (time + 256) / frameCycles - i
    match frameSlot f with
    | none => none
    | some (len, kind) =>
      let start := frameCycles * f
      if start ≤ time + 256 && decide (time < start + len + 256 * kind) then some (f, start, len, kind) else none

/-- The calendar's events and states from package time as it stands on (R331, R332, R334). -/
def calendarFrom : Prog := .get fun s =>
  match slotNow s.time with
  | none => Prog.all [.eff (.pkg fun p => { p with draining := false, erased := none }), nextSlot]
  | some (f, start, len, kind) =>
    let open_ := decide (s.time < start + len)
    Prog.all [
      .eff (.pkg fun p => { p with
        draining := open_
        slotStart := start
        erased := if kind = 1 then some (retrained f) else none }),
      if s.time < start then postAt start 1 .currySlotStart
      else if open_ then (slotWork f kind).andThen (postAt (start + len) 1 .currySlotEnd)
      else (postAt (start + len + 256) 1 .planeEraseEnd).andThen nextSlot]

/-- An event of the calendar. -/
def calendarEvent (i : Instr) : Bool :=
  match i with
  | .drainWindowOpen | .planeEraseStart | .planeEraseEnd | .currySlotStart | .currySlotEnd => true
  | _ => false

/-- PLANE_ERASE_START (R334): senders treat the plane as erased. -/
def execPlaneEraseStart (s : State) : Host.Outcome State Fault Refusal :=
  ran (.get fun s => .eff (.pkg fun p => { p with erased := some (retrained ((slotAfter s.time).1)) })) s

/-- PLANE_ERASE_END (R334): the plane is in service again, and senders that held stripes look again. -/
def execPlaneEraseEnd (s : State) : Host.Outcome State Fault Refusal :=
  ran (Prog.all [.eff (.pkg fun p => { p with erased := none }), kickSend 0 0, kickSend 1 0]) s

/-- TIME_SYNC_SEND (R334, R416): the time master sends on every plane in service, the one that is erased left out. To whom is open: here to every node, as number 0x7FFF
(notes/assumptions/13.md). -/
def execTimeSyncSend (s : State) : Host.Outcome State Fault Refusal :=
  ran (.get fun s => Prog.all [
    Prog.when_ (s.pkg.bootOk && s.pkg.nodeId = s.pkg.tsync)
      (Prog.each ((List.range 16).filter fun p => s.pkg.planeUp.getLsbD p && s.pkg.erased != some p) fun p =>
        sendFrag p { type := 5, srcDie := p / 8, dstNode := 0x7FFF } 0),
    postEv (2 ^ 20) 3 .timeSyncSend]) s

/-- How far package time is ahead of the master's by its sync fragment (R416): the fragment carries 40 bits. -/
def offsetOf_ (now : Nat) (h : Hdr) : Int := sint (enc ((now : Int) - (h.time : Int) - (fragTransit : Int)) 40) 40

/-- A package that has launched nothing yet takes the master's time where it is behind (R416); the calendar goes by it. -/
def joinTime (ahead : Int) : Prog := .get fun s => Prog.all [
  .eff (.purge fun x => match x.what with
    | .ev i => calendarEvent i
    | .op _ => false),
  .eff (.advance (s.time + (-ahead).toNat)),
  .eff (.pkg fun p => { p with skew := 0, skewSince := none }),
  calendarFrom]

/-- FRAG_TIME_SYNC (R416): the offset from the master; one above 5 cycles that lasts raises the alarm. A package that is ahead joins once slewing
has brought it to the master's time, since package time never decreases. -/
def timeArrives (plane : Nat) (x : BitVec 4608) : Prog := .get fun s =>
  let h := hdrAt x.toNat
  if fragLost s plane x then .eff (.die (plane / 8) fun d => { d with crcErr := bump d.crcErr })
  else if s.pkg.nodeId = s.pkg.tsync || h.srcNode != s.pkg.tsync then .done
  else
    let o := offsetOf_ s.time h
    if !s.pkg.launched && decide (o < 0) then (joinTime o).andThen joins
    else (Prog.when_ (decide (o ≤ 0)) joins).andThen <|
    if o.natAbs ≤ 5 then .eff (.pkg fun p => { p with skew := o, skewSince := none })
    else Prog.all [
      Prog.when_ s.pkg.skewSince.isNone (Prog.all [
        .eff (.purge fun x => decide (x.what = .ev .timeSkewAlarm)),
        postEv (2 ^ 24) 3 .timeSkewAlarm]),
      .eff (.pkg fun p => { p with skew := o, skewSince := some (p.skewSince.getD s.time) })]

/-- FRAG_TIME_SYNC. -/
def execFragTimeSync (plane : BitVec 4) (frag : BitVec 4608) (s : State) : Host.Outcome State Fault Refusal :=
  ran (timeArrives plane.toNat frag) s

/-- TIME_SKEW_ALARM (R416): the offset has stayed above 5 cycles for 2^24 cycles; the code of the record is open. -/
def execTimeSkewAlarm (s : State) : Host.Outcome State Fault Refusal :=
  ran (.get fun s => match s.pkg.skewSince with
    | none => .done
    | some t =>
      if s.time < t + 2 ^ 24 then postAt (t + 2 ^ 24) 3 .timeSkewAlarm
      else Prog.all [
        .eff (.fresh 1),
        errorRecord { code := (Config.freeVec s.fresh).toNat % 256, cls := 1, source := 11, info := s.pkg.skew.natAbs }]) s

end Sys2Proof.Machine
end

