-- ==== Sys2Proof/Machine/Dispatch.lean ====
section
/-! DEFINITION. What each instruction means: one arm per constructor. -/

namespace Sys2Proof.Machine

/-- The meaning of an instruction. -/
def exec (i : Instr) (s : State) : Host.Outcome State Fault Refusal :=
  match i with
  | .dieReset die => Sys2Proof.Machine.execDieReset die s
  | .rollbackFloorRaise floor => Sys2Proof.Machine.execRollbackFloorRaise floor s
  | .powerLimitSet die watts => Sys2Proof.Machine.execPowerLimitSet die watts s
  | .attestRequest nonce => Sys2Proof.Machine.execAttestRequest nonce s
  | .powerWindowEnd die => Sys2Proof.Machine.execPowerWindowEnd die s
  | .registerWrite off val => Sys2Proof.Machine.execRegisterWrite off val s
  | .trootWrite val => Sys2Proof.Machine.execTrootWrite val s
  | .tlbinvAll val => Sys2Proof.Machine.execTlbinvAll val s
  | .tlbinvPage val => Sys2Proof.Machine.execTlbinvPage val s
  | .tlbinvLargePage val => Sys2Proof.Machine.execTlbinvLargePage val s
  | .fcrateWrite cls val => Sys2Proof.Machine.execFcrateWrite cls val s
  | .errrpWrite die val => Sys2Proof.Machine.execErrrpWrite die val s
  | .rrrpWrite die val => Sys2Proof.Machine.execRrrpWrite die val s
  | .queueConfigWrite q val => Sys2Proof.Machine.execQueueConfigWrite q val s
  | .queueTailWrite q val => Sys2Proof.Machine.execQueueTailWrite q val s
  | .hostMemAccess wr size pa val => Sys2Proof.Machine.execHostMemAccess wr size pa val s
  | .d2dFlitRetry delivered => Sys2Proof.Machine.execD2dFlitRetry delivered s
  | .slotBind die slot rec => Sys2Proof.Machine.execSlotBind die slot rec s
  | .slotIdle die slot rec => Sys2Proof.Machine.execSlotIdle die slot rec s
  | .slotEmpty die slot rec => Sys2Proof.Machine.execSlotEmpty die slot rec s
  | .preemptRequest core forced => Sys2Proof.Machine.execPreemptRequest core forced s
  | .leaseExpiry die slot => Sys2Proof.Machine.execLeaseExpiry die slot s
  | .slotTakeWaiting die slot => Sys2Proof.Machine.execSlotTakeWaiting die slot s
  | .forcedPreemptTimeout core => Sys2Proof.Machine.execForcedPreemptTimeout core s
  | .launchValidate q => Sys2Proof.Machine.execLaunchValidate q s
  | .taskStage core => Sys2Proof.Machine.execTaskStage core s
  | .taskStart core => Sys2Proof.Machine.execTaskStart core s
  | .timeSliceYield core => Sys2Proof.Machine.execTimeSliceYield core s
  | .contextSave core => Sys2Proof.Machine.execContextSave core s
  | .contextRestore core => Sys2Proof.Machine.execContextRestore core s
  | .regionComplete launch region => Sys2Proof.Machine.execRegionComplete launch region s
  | .fetch core => Sys2Proof.Machine.execFetch core s
  | .bundleIssue core => Sys2Proof.Machine.execBundleIssue core s
  | .engineOpStart core e => Sys2Proof.Machine.execEngineOpStart core e s
  | .resultLanding core unit => Sys2Proof.Machine.execResultLanding core unit s
  | .trapEntry core => Sys2Proof.Machine.execTrapEntry core s
  | .freezeTimeout core => Sys2Proof.Machine.execFreezeTimeout core s
  | .pageWalk core va => Sys2Proof.Machine.execPageWalk core va s
  | .eccReread core hbm addr => Sys2Proof.Machine.execEccReread core hbm addr s
  | .rewind core => Sys2Proof.Machine.execRewind core s
  | .scrubWord core addr => Sys2Proof.Machine.execScrubWord core addr s
  | .fragTimeSync plane frag => Sys2Proof.Machine.execFragTimeSync plane frag s
  | .cwaitWake core => Sys2Proof.Machine.execCwaitWake core s
  | .cwaitTimeout core => Sys2Proof.Machine.execCwaitTimeout core s
  | .mmaArrayStart core => Sys2Proof.Machine.execMmaArrayStart core s
  | .mmaComplete core => Sys2Proof.Machine.execMmaComplete core s
  | .mmaReplay core => Sys2Proof.Machine.execMmaReplay core s
  | .tileDrainDone core tile => Sys2Proof.Machine.execTileDrainDone core tile s
  | .ceRecordRead core ch => Sys2Proof.Machine.execCeRecordRead core ch s
  | .cePrewaitMet core ch => Sys2Proof.Machine.execCePrewaitMet core ch s
  | .ceRingClaim core ch => Sys2Proof.Machine.execCeRingClaim core ch s
  | .ceWaitTimeout core ch => Sys2Proof.Machine.execCeWaitTimeout core ch s
  | .ceRecordComplete core ch => Sys2Proof.Machine.execCeRecordComplete core ch s
  | .tableLoadApply stack => Sys2Proof.Machine.execTableLoadApply stack s
  | .xlaneJobStart lane => Sys2Proof.Machine.execXlaneJobStart lane s
  | .xlanePrewaitMet lane => Sys2Proof.Machine.execXlanePrewaitMet lane s
  | .xlaneTransition lane => Sys2Proof.Machine.execXlaneTransition lane s
  | .xlaneWaitTimeout lane => Sys2Proof.Machine.execXlaneWaitTimeout lane s
  | .xlaneJobEnd lane => Sys2Proof.Machine.execXlaneJobEnd lane s
  | .seJobStart eng => Sys2Proof.Machine.execSeJobStart eng s
  | .sePrewaitMet eng => Sys2Proof.Machine.execSePrewaitMet eng s
  | .seColumnBlock eng => Sys2Proof.Machine.execSeColumnBlock eng s
  | .seWaitTimeout eng => Sys2Proof.Machine.execSeWaitTimeout eng s
  | .seJobEnd eng => Sys2Proof.Machine.execSeJobEnd eng s
  | .fxQueueDepart core => Sys2Proof.Machine.execFxQueueDepart core s
  | .stripeSend die => Sys2Proof.Machine.execStripeSend die s
  | .fragData plane frag => Sys2Proof.Machine.execFragData plane frag s
  | .fragReservedType plane frag => Sys2Proof.Machine.execFragReservedType plane frag s
  | .stripeDeliver die => Sys2Proof.Machine.execStripeDeliver die s
  | .fragAck plane frag => Sys2Proof.Machine.execFragAck plane frag s
  | .fragNak plane frag => Sys2Proof.Machine.execFragNak plane frag s
  | .stripeBusyResend die id => Sys2Proof.Machine.execStripeBusyResend die id s
  | .stripeDeadline die id => Sys2Proof.Machine.execStripeDeadline die id s
  | .ackTimeout die id => Sys2Proof.Machine.execAckTimeout die id s
  | .fragReadRequest plane frag => Sys2Proof.Machine.execFragReadRequest plane frag s
  | .fragReadResponse plane frag => Sys2Proof.Machine.execFragReadResponse plane frag s
  | .fragContribution plane frag => Sys2Proof.Machine.execFragContribution plane frag s
  | .fragContribAck plane frag => Sys2Proof.Machine.execFragContribAck plane frag s
  | .contribResendTimeout die id => Sys2Proof.Machine.execContribResendTimeout die id s
  | .mergedPartialApply id => Sys2Proof.Machine.execMergedPartialApply id s
  | .keyIncompleteTimeout id => Sys2Proof.Machine.execKeyIncompleteTimeout id s
  | .replayWaitTimeout core => Sys2Proof.Machine.execReplayWaitTimeout core s
  | .add u => Sys2Proof.Machine.execAdd u s
  | .sub u => Sys2Proof.Machine.execSub u s
  | .and u => Sys2Proof.Machine.execAnd u s
  | .or u => Sys2Proof.Machine.execOr u s
  | .xor u => Sys2Proof.Machine.execXor u s
  | .andn u => Sys2Proof.Machine.execAndn u s
  | .shl u => Sys2Proof.Machine.execShl u s
  | .shr u => Sys2Proof.Machine.execShr u s
  | .sar u => Sys2Proof.Machine.execSar u s
  | .rol u => Sys2Proof.Machine.execRol u s
  | .ceq u => Sys2Proof.Machine.execCeq u s
  | .cne u => Sys2Proof.Machine.execCne u s
  | .clt u => Sys2Proof.Machine.execClt u s
  | .cltu u => Sys2Proof.Machine.execCltu u s
  | .cle u => Sys2Proof.Machine.execCle u s
  | .cleu u => Sys2Proof.Machine.execCleu u s
  | .min u => Sys2Proof.Machine.execMin u s
  | .max u => Sys2Proof.Machine.execMax u s
  | .minu u => Sys2Proof.Machine.execMinu u s
  | .maxu u => Sys2Proof.Machine.execMaxu u s
  | .sel u => Sys2Proof.Machine.execSel u s
  | .clz u => Sys2Proof.Machine.execClz u s
  | .ctz u => Sys2Proof.Machine.execCtz u s
  | .popc u => Sys2Proof.Machine.execPopc u s
  | .sext u => Sys2Proof.Machine.execSext u s
  | .zext u => Sys2Proof.Machine.execZext u s
  | .addsh u => Sys2Proof.Machine.execAddsh u s
  | .bfx u => Sys2Proof.Machine.execBfx u s
  | .bfi u => Sys2Proof.Machine.execBfi u s
  | .fcvtif ty rm => Sys2Proof.Machine.execFcvtif ty rm s
  | .fcvtfi ty rm => Sys2Proof.Machine.execFcvtfi ty rm s
  | .ldb sp => Sys2Proof.Machine.execLdb sp s
  | .ldbu sp => Sys2Proof.Machine.execLdbu sp s
  | .ldh sp => Sys2Proof.Machine.execLdh sp s
  | .ldhu sp => Sys2Proof.Machine.execLdhu sp s
  | .ldw sp => Sys2Proof.Machine.execLdw sp s
  | .ldwu sp => Sys2Proof.Machine.execLdwu sp s
  | .ldd sp => Sys2Proof.Machine.execLdd sp s
  | .stb sp => Sys2Proof.Machine.execStb sp s
  | .sth sp => Sys2Proof.Machine.execSth sp s
  | .stw sp => Sys2Proof.Machine.execStw sp s
  | .std sp => Sys2Proof.Machine.execStd sp s
  | .pref sp => Sys2Proof.Machine.execPref sp s
  | .aadd sp dbl uns => Sys2Proof.Machine.execAadd sp dbl uns s
  | .amax sp dbl uns => Sys2Proof.Machine.execAmax sp dbl uns s
  | .amin sp dbl uns => Sys2Proof.Machine.execAmin sp dbl uns s
  | .axchg sp dbl uns => Sys2Proof.Machine.execAxchg sp dbl uns s
  | .acas sp dbl uns => Sys2Proof.Machine.execAcas sp dbl uns s
  | .afadd sp dbl uns => Sys2Proof.Machine.execAfadd sp dbl uns s
  | .aand sp dbl uns => Sys2Proof.Machine.execAand sp dbl uns s
  | .aor sp dbl uns => Sys2Proof.Machine.execAor sp dbl uns s
  | .crpop hdr => Sys2Proof.Machine.execCrpop hdr s
  | .vadd u ty md => Sys2Proof.Machine.execVadd u ty md s
  | .vsub u ty md => Sys2Proof.Machine.execVsub u ty md s
  | .vmul u ty md => Sys2Proof.Machine.execVmul u ty md s
  | .vmin u ty => Sys2Proof.Machine.execVmin u ty s
  | .vmax u ty => Sys2Proof.Machine.execVmax u ty s
  | .vand u => Sys2Proof.Machine.execVand u s
  | .vor u => Sys2Proof.Machine.execVor u s
  | .vxor u => Sys2Proof.Machine.execVxor u s
  | .vandn u => Sys2Proof.Machine.execVandn u s
  | .vshl u ty => Sys2Proof.Machine.execVshl u ty s
  | .vshr u ty => Sys2Proof.Machine.execVshr u ty s
  | .vsar u ty => Sys2Proof.Machine.execVsar u ty s
  | .vceq u ty => Sys2Proof.Machine.execVceq u ty s
  | .vcne u ty => Sys2Proof.Machine.execVcne u ty s
  | .vclt u ty => Sys2Proof.Machine.execVclt u ty s
  | .vcle u ty => Sys2Proof.Machine.execVcle u ty s
  | .vsel u => Sys2Proof.Machine.execVsel u s
  | .vabs u ty sat => Sys2Proof.Machine.execVabs u ty sat s
  | .vneg u ty sat => Sys2Proof.Machine.execVneg u ty sat s
  | .vclamp u ty => Sys2Proof.Machine.execVclamp u ty s
  | .vcvt u src dst => Sys2Proof.Machine.execVcvt u src dst s
  | .viota u ty => Sys2Proof.Machine.execViota u ty s
  | .pand u => Sys2Proof.Machine.execPand u s
  | .por u => Sys2Proof.Machine.execPor u s
  | .pxor u => Sys2Proof.Machine.execPxor u s
  | .pandn u => Sys2Proof.Machine.execPandn u s
  | .pnot u => Sys2Proof.Machine.execPnot u s
  | .pcnt u cr => Sys2Proof.Machine.execPcnt u cr s
  | .pfirst u cr => Sys2Proof.Machine.execPfirst u cr s
  | .psetn u => Sys2Proof.Machine.execPsetn u s
  | .ppack u hi => Sys2Proof.Machine.execPpack u hi s
  | .punpack u hi => Sys2Proof.Machine.execPunpack u hi s
  | .vfma ty rm => Sys2Proof.Machine.execVfma ty rm s
  | .vfms ty rm => Sys2Proof.Machine.execVfms ty rm s
  | .vfnma ty rm => Sys2Proof.Machine.execVfnma ty rm s
  | .vdiv ty rm => Sys2Proof.Machine.execVdiv ty rm s
  | .vsqrt ty rm => Sys2Proof.Machine.execVsqrt ty rm s
  | .vrcp ty rm => Sys2Proof.Machine.execVrcp ty rm s
  | .vrsq ty rm => Sys2Proof.Machine.execVrsq ty rm s
  | .vexp2 ty rm => Sys2Proof.Machine.execVexp2 ty rm s
  | .vlog2 ty rm => Sys2Proof.Machine.execVlog2 ty rm s
  | .vtanh ty rm => Sys2Proof.Machine.execVtanh ty rm s
  | .vdot4 ty md => Sys2Proof.Machine.execVdot4 ty md s
  | .vmac ty sat => Sys2Proof.Machine.execVmac ty sat s
  | .vshuf ty => Sys2Proof.Machine.execVshuf ty s
  | .vrot ty => Sys2Proof.Machine.execVrot ty s
  | .vbcast ty => Sys2Proof.Machine.execVbcast ty s
  | .vzip ty hi => Sys2Proof.Machine.execVzip ty hi s
  | .vunzip ty hi => Sys2Proof.Machine.execVunzip ty hi s
  | .vslide ty => Sys2Proof.Machine.execVslide ty s
  | .vpack fmt => Sys2Proof.Machine.execVpack fmt s
  | .vunpack fmt => Sys2Proof.Machine.execVunpack fmt s
  | .vcompress cr => Sys2Proof.Machine.execVcompress cr s
  | .vaccrd ty rm => Sys2Proof.Machine.execVaccrd ty rm s
  | .vaccwr ty => Sys2Proof.Machine.execVaccwr ty s
  | .vplane fmt => Sys2Proof.Machine.execVplane fmt s
  | .vld g => Sys2Proof.Machine.execVld g s
  | .vst g => Sys2Proof.Machine.execVst g s
  | .vlds g ty => Sys2Proof.Machine.execVlds g ty s
  | .vsts g ty => Sys2Proof.Machine.execVsts g ty s
  | .vgath g cr => Sys2Proof.Machine.execVgath g cr s
  | .vscat g cr => Sys2Proof.Machine.execVscat g cr s
  | .vscatadd g cr => Sys2Proof.Machine.execVscatadd g cr s
  | .vldz g => Sys2Proof.Machine.execVldz g s
  | .vstz g ty cr => Sys2Proof.Machine.execVstz g ty cr s
  | .vrsum ty cr => Sys2Proof.Machine.execVrsum ty cr s
  | .vrmax ty cr => Sys2Proof.Machine.execVrmax ty cr s
  | .vrmin ty cr => Sys2Proof.Machine.execVrmin ty cr s
  | .vargmax ty cr => Sys2Proof.Machine.execVargmax ty cr s
  | .vargmin ty cr => Sys2Proof.Machine.execVargmin ty cr s
  | .vscan ty cr ex => Sys2Proof.Machine.execVscan ty cr ex s
  | .vmerge comb dz cr pt => Sys2Proof.Machine.execVmerge comb dz cr pt s
  | .vsort ty desc => Sys2Proof.Machine.execVsort ty desc s
  | .vtopk ty cr desc => Sys2Proof.Machine.execVtopk ty cr desc s
  | .vuniq ty cr => Sys2Proof.Machine.execVuniq ty cr s
  | .kmov rebind => Sys2Proof.Machine.execKmov rebind s
  | .kadde rebind enc => Sys2Proof.Machine.execKadde rebind enc s
  | .kmax rebind enc => Sys2Proof.Machine.execKmax rebind enc s
  | .kmin rebind enc => Sys2Proof.Machine.execKmin rebind enc s
  | .kcvt rebind enc denc => Sys2Proof.Machine.execKcvt rebind enc denc s
  | .kfold rebind enc => Sys2Proof.Machine.execKfold rebind enc s
  | .kamax rebind enc => Sys2Proof.Machine.execKamax rebind enc s
  | .kgen cr => Sys2Proof.Machine.execKgen cr s
  | .kld rebind => Sys2Proof.Machine.execKld rebind s
  | .cque g => Sys2Proof.Machine.execCque g s
  | .rinit g => Sys2Proof.Machine.execRinit g s
  | .rawait g => Sys2Proof.Machine.execRawait g s
  | .rrel g => Sys2Proof.Machine.execRrel g s
  | .tdmk g => Sys2Proof.Machine.execTdmk g s
  | .xjob g => Sys2Proof.Machine.execXjob g s
  | .xtab g => Sys2Proof.Machine.execXtab g s
  | .sejob g => Sys2Proof.Machine.execSejob g s
  | .fwrite g => Sys2Proof.Machine.execFwrite g s
  | .fread g => Sys2Proof.Machine.execFread g s
  | .fred g => Sys2Proof.Machine.execFred g s
  | .frwinRegister g => Sys2Proof.Machine.execFrwinRegister g s
  | .frwinRemove g => Sys2Proof.Machine.execFrwinRemove g s
  | .accessPerformed core => Sys2Proof.Machine.execAccessPerformed core s
  | .cinchMemoryAccess by_ addr => Sys2Proof.Machine.execCinchMemoryAccess by_ addr s
  | .packageReset => Sys2Proof.Machine.execPackageReset s
  | .tlbinvComplete => Sys2Proof.Machine.execTlbinvComplete s
  | .drainWindowOpen => Sys2Proof.Machine.execDrainWindowOpen s
  | .currySlotStart => Sys2Proof.Machine.execCurrySlotStart s
  | .currySlotEnd => Sys2Proof.Machine.execCurrySlotEnd s
  | .planeEraseStart => Sys2Proof.Machine.execPlaneEraseStart s
  | .planeEraseEnd => Sys2Proof.Machine.execPlaneEraseEnd s
  | .timeSyncSend => Sys2Proof.Machine.execTimeSyncSend s
  | .timeSkewAlarm => Sys2Proof.Machine.execTimeSkewAlarm s
  | .mul => Sys2Proof.Machine.execMul s
  | .mulh => Sys2Proof.Machine.execMulh s
  | .mulhu => Sys2Proof.Machine.execMulhu s
  | .div => Sys2Proof.Machine.execDiv s
  | .divu => Sys2Proof.Machine.execDivu s
  | .rem => Sys2Proof.Machine.execRem s
  | .remu => Sys2Proof.Machine.execRemu s
  | .fadd => Sys2Proof.Machine.execFadd s
  | .fsub => Sys2Proof.Machine.execFsub s
  | .fmul => Sys2Proof.Machine.execFmul s
  | .fma => Sys2Proof.Machine.execFma s
  | .fdiv => Sys2Proof.Machine.execFdiv s
  | .fsqrt => Sys2Proof.Machine.execFsqrt s
  | .fmin => Sys2Proof.Machine.execFmin s
  | .fmax => Sys2Proof.Machine.execFmax s
  | .fceq => Sys2Proof.Machine.execFceq s
  | .fclt => Sys2Proof.Machine.execFclt s
  | .fcle => Sys2Proof.Machine.execFcle s
  | .fclass => Sys2Proof.Machine.execFclass s
  | .qmark => Sys2Proof.Machine.execQmark s
  | .fence => Sys2Proof.Machine.execFence s
  | .br => Sys2Proof.Machine.execBr s
  | .jmp => Sys2Proof.Machine.execJmp s
  | .call => Sys2Proof.Machine.execCall s
  | .calli => Sys2Proof.Machine.execCalli s
  | .ret => Sys2Proof.Machine.execRet s
  | .loop => Sys2Proof.Machine.execLoop s
  | .lset => Sys2Proof.Machine.execLset s
  | .enter => Sys2Proof.Machine.execEnter s
  | .leave => Sys2Proof.Machine.execLeave s
  | .trap => Sys2Proof.Machine.execTrap s
  | .halt => Sys2Proof.Machine.execHalt s
  | .cadd => Sys2Proof.Machine.execCadd s
  | .cwait => Sys2Proof.Machine.execCwait s
  | .cread => Sys2Proof.Machine.execCread s
  | .mvst => Sys2Proof.Machine.execMvst s
  | .mvts => Sys2Proof.Machine.execMvts s
  | .pbw => Sys2Proof.Machine.execPbw s
  | .curqStart => Sys2Proof.Machine.execCurqStart s
  | .curqDesc => Sys2Proof.Machine.execCurqDesc s
  | .grpinc => Sys2Proof.Machine.execGrpinc s
  | .launch => Sys2Proof.Machine.execLaunch s
  | .eret => Sys2Proof.Machine.execEret s
  | .rlog => Sys2Proof.Machine.execRlog s
  | .vexpand => Sys2Proof.Machine.execVexpand s
  | .vldt => Sys2Proof.Machine.execVldt s
  | .vstt => Sys2Proof.Machine.execVstt s
  | .mma => Sys2Proof.Machine.execMma s
  | .mdrain => Sys2Proof.Machine.execMdrain s
  | .msave => Sys2Proof.Machine.execMsave s
  | .mload => Sys2Proof.Machine.execMload s
  | .mrawadd => Sys2Proof.Machine.execMrawadd s
  | .mzero => Sys2Proof.Machine.execMzero s
  | .mchk => Sys2Proof.Machine.execMchk s
  | .mclr => Sys2Proof.Machine.execMclr s
  | .mseed => Sys2Proof.Machine.execMseed s
  | .kbind => Sys2Proof.Machine.execKbind s
  | .kunbind => Sys2Proof.Machine.execKunbind s
  | .krebind => Sys2Proof.Machine.execKrebind s
  | .kst => Sys2Proof.Machine.execKst s
  | .tcfg => Sys2Proof.Machine.execTcfg s
  | .tstate => Sys2Proof.Machine.execTstate s
  | .trel => Sys2Proof.Machine.execTrel s
  | .tmarkOpen => Sys2Proof.Machine.execTmarkOpen s
  | .tmarkClose => Sys2Proof.Machine.execTmarkClose s
  | .tmarkReopen => Sys2Proof.Machine.execTmarkReopen s
  | .thand => Sys2Proof.Machine.execThand s
  | .ttake => Sys2Proof.Machine.execTtake s
  | .cstat => Sys2Proof.Machine.execCstat s
  | .cclrRetry => Sys2Proof.Machine.execCclrRetry s
  | .cclrAbandonChain => Sys2Proof.Machine.execCclrAbandonChain s
  | .cclrAbandonAll => Sys2Proof.Machine.execCclrAbandonAll s
  | .fflowOpen => Sys2Proof.Machine.execFflowOpen s
  | .fflowAccept => Sys2Proof.Machine.execFflowAccept s
  | .fflowCloseSend => Sys2Proof.Machine.execFflowCloseSend s
  | .fflowCloseRecv => Sys2Proof.Machine.execFflowCloseRecv s
  | .fcadd => Sys2Proof.Machine.execFcadd s
  | .frate => Sys2Proof.Machine.execFrate s

end Sys2Proof.Machine
end

