-- ==== Sys2Proof/Machine/Step.lean ====
section
/-! DEFINITION. One step of the machine: the earliest pending item runs. -/

namespace Sys2Proof.Machine

/-- One step: the next instruction (dueItem) runs by exec, or the machine stops by name. -/
def step (s : State) : Host.Outcome State Fault Refusal :=
  match dueItem s with
  | .stop f => .fault f
  | .refuse r => .refused r
  | .run i t => exec i t

/-- The state with one instruction placed as the next step (notes/assumptions/16.md). -/
def State.withFetchWord (s : State) (_nbits w : Nat) : State :=
  { s with agenda := placedItem s w :: s.agenda }

end Sys2Proof.Machine
end

