-- ==== Sys2Proof/Safety.lean ====
section
/-! DEFINITION. What a good state is: the invariant of the machine, in the terms its claims use. -/

namespace Sys2Proof.Safety
open Sys2Proof.Machine

/-- Pending steps stand in order of time and priority. -/
abbrev agendaSorted (l : List Item) : Prop := l.Pairwise (fun x y => x.key ≤ y.key)

/-- Every pending priority is below 8, and no pending step lies in the past. -/
abbrev agendaLive (s : State) : Prop := ∀ x ∈ s.agenda, x.prio < 8 ∧ s.time ≤ x.at_

/-- Every memory of the package is in canonical form. -/
abbrev memoriesWf (s : State) : Prop := Memory.wf s.mem ∧ ∀ m ∈ s.lmem, Memory.wf m

/-- Every counter holds a 64-bit value (R275, R362). -/
abbrev countersFit (s : State) : Prop := ∀ x ∈ s.ctrs, x.2 < 2 ^ 64

/-- The invariant every step keeps. -/
structure Inv (s : State) : Prop where
  sorted : agendaSorted s.agenda
  live : agendaLive s
  mem : memoriesWf s
  ctrs : countersFit s

/-- The state in which the running operation is under way on its core as flight f: it stands in trigger order, and where its
outcome is known its landing is pending. Nothing else differs (R14, R26). -/
def withFlight (s : State) (f : Flight) : State :=
  { s with
    cores := updAt s.cores s.cur.core (fun k => putFlight k f)
    agenda := if f.ready then
      insertItem ⟨max f.due s.time, 1, .ev (.resultLanding (coreBV s.cur.core) (BitVec.ofNat 5 f.unit))⟩ s.agenda
      else s.agenda }

/-- The running operation of a unit as a flight with a latency bound: it may land `bound` cycles after its trigger, or after its release
where it was deferred (R26, R389). -/
def flying (s : State) (unit bound : Nat) : Flight where
  unit := unit
  seq := s.cur.seq
  slot := s.cur.slot
  bound := s.cur.u0 + bound
  due := (if s.cur.released then s.time else s.cur.t0) + bound
  ready := true
  lands := true
  dropped := false
  y0 := 0
  y1 := none
  mask := s.cur.mask
  regs := []
  preds := []
  posts := []
  cause := 1
  deferred := false
  inTrap := s.cur.inTrap

/-- The operation lands one result. -/
def lands (s : State) (unit bound : Nat) (y : Vec) : State := withFlight s { flying s unit bound with y0 := y }

/-- The operation lands a 64-bit scalar. -/
def landsWord (s : State) (unit bound : Nat) (y : Word) : State := lands s unit bound (y.setWidth 8192)

/-- The operation lands nothing and is complete after its bound. -/
def completes (s : State) (unit bound : Nat) : State := withFlight s { flying s unit bound with lands := false }

/-- The state with one core changed. -/
def withCore (s : State) (c : Nat) (f : Core → Core) : State := { s with cores := updAt s.cores c f }

/-- The scalar in port a, b or c of the running trigger (R14). -/
def opA (s : State) : Word := s.cur.a.setWidth 64

/-- See opA. -/
def opB (s : State) : Word := s.cur.b.setWidth 64

/-- See opA. -/
def opC (s : State) : Word := s.cur.c.setWidth 64

/-- The operation of FS lands a 32-bit value, and its flags are raised at landing (R69, R70). -/
def landsFloat (s : State) (bound v : Nat) (g : FpFlags) : State :=
  withFlight s { flying s 8 bound with y0 := wide v, posts := [.fpFlags g.bits] }

/-- The running operation gives a precise fault: its core stops issuing, and the trap entry is pending (R34, R35). `tile` says that i names a
tile, and no address, in a record of the fault (R384, R385). -/
def faults (s : State) (code : Nat) (i : Word) (tile : Bool := false) : State :=
  { s with
    cores := updAt s.cores s.cur.core (fun k => { k with
      trapReq := some
        { code := code, info := i, slot := s.cur.slot, blevel := false, pc := some s.cur.pc, inTrap := s.cur.inTrap, tile := tile }
      flow := .trapping
      fetched := none })
    agenda := insertItem ⟨s.time, 2, .ev (.trapEntry (coreBV s.cur.core))⟩ s.agenda }

/-- The code tables that an access binds as it is queued (R315, R319): those of the expanded streams that it loads from. -/
def bindings (s : State) (kind : AccessKind) (pieces : List Piece) : List (Nat × Nat × Nat) :=
  if kind.isLoad then (pieceFrames pieces).flatMap (frameCodes s) else []

/-- The running operation's access stands in its core's queues, in trigger order, and comes due `wait` cycles after the trigger (R77, R271). -/
def withAccess (s : State) (path unit : Nat) (kind : AccessKind) (pieces : List Piece) (wait : Nat) : State :=
  let due := max s.time (s.cur.t0 + wait)
  { s with
    cores := updAt s.cores s.cur.core (fun k => { k with
      accesses := queueIn k.accesses ⟨path, s.cur.seq, unit, s.cur.slot, kind, pieces, due, s.cur.inTrap, bindings s kind pieces⟩ })
    agenda := insertItem ⟨due, 1, .ev (.accessPerformed (coreBV s.cur.core))⟩ s.agenda }

/-- The running operation comes again after `wait` cycles, its check made, in its second stage. -/
def again (s : State) (unit wait : Nat) : State :=
  { s with agenda := insertItem ⟨s.time + wait, 2, .op { s.cur with unit := unit, stage := 1, checked := true }⟩ s.agenda }

/-- The task-visible state of the running operation's core, changed. -/
def withArch (s : State) (f : Arch → Arch) : State := withCore s s.cur.core fun k => { k with arch := f k.arch }

/-- The task-visible state of the running operation's core, changed for the operation: an open segment's shadow as well where the
operation was triggered before the segment (R388). -/
def withArchAt (s : State) (f : Arch → Arch) : State := withCore s s.cur.core fun k => k.updArch s.cur.seq f

/-- The running operation has reserved its completion record, with `cr` and unless its bundle did so (R11, R158). -/
def reserving (s : State) (cr : Bool) : State :=
  if cr && !s.cur.checked then withCore s s.cur.core fun k => k.reserveRing s.cur.seq else s

/-- The running operation has counted its stochastic rounding, unless its bundle did so (R153). -/
def countingSr (s : State) (sr : Bool) : State :=
  if sr && !s.cur.checked then withArch s fun a => { a with srSeq := a.srSeq + 1 } else s

/-- The operation lands one result and finishes its completion record with a value (R10, R158). -/
def landsRecorded (s : State) (unit bound : Nat) (cr : Bool) (y : Vec) (v : Nat) : State :=
  withFlight (reserving s cr) { flying s unit bound with
    y0 := y, posts := if cr then [.record v unit (s.cur.dest / 64 % 256)] else [] }

/-- The trigger of the running operation, in a unit. -/
def asUnit (s : State) (unit : Nat) : Trig := { s.cur with unit := unit }

/-- The operation's access stands in its queue, and its result is awaited for as long as the bound. -/
def withLoad (s : State) (path unit bound : Nat) (kind : AccessKind) (pieces : List Piece) : State :=
  withAccess (withFlight s { flying s unit bound with ready := false }) path unit kind pieces (bound - 1)

/-- Lane l passes the guard of the running operation (R21). -/
def shown (s : State) (l : Nat) : Bool := match s.cur.mask with | none => true | some m => m.getLsbD l

/-- No datum is in error anywhere (R258, R392). -/
def intact (s : State) : Prop :=
  (∀ c, (s.core c).poison = [] ∧ (s.core c).upsets = []) ∧ s.pkg.hbmPoison = [] ∧ s.pkg.hbmUpsets = []

/-- n bytes of v put at a home; nothing else changes. -/
def memPutAt (s : State) (l : Loc) (n v : Nat) : State :=
  match l with
  | .arr d a => { s with lmem := updAt s.lmem d fun m => memPut m a n v }
  | .pa a | .expand a => { s with mem := memPut s.mem a n v }

/-- The error ring of die d stands in populated memory that the die reaches, and no conversion counts wait for a record: writing a record
there stops nothing and writes that record alone (R322, R386, R407). -/
def recordable (s : State) (d : Nat) : Prop :=
  (∀ i, i < 4096 → populated s (nth s.pkg.errBase d 0 + 64 * i) = true ∧ homeCut s d (.pa (nth s.pkg.errBase d 0 + 64 * i)) = false) ∧
  s.pkg.expEvents = []

/-- t holds the memory that s holds, byte for byte. -/
def SameMemory (s t : State) : Prop := t.lmem = s.lmem ∧ t.mem = s.mem

/-- t holds the task-visible state of every core that s holds. -/
def SameArch (s t : State) : Prop := ∀ d, (t.core d).arch = (s.core d).arch

/-- A pending step beside those of s, n cycles from now. -/
def posted (s : State) (n prio : Nat) (i : Instr) : State := { s with agenda := insertItem ⟨s.time + n, prio, .ev i⟩ s.agenda }

/-- Core c stops issuing for a fault, and its trap entry is pending (R34, R35). -/
def trapping (s : State) (c : Nat) (r : TrapReq) : State :=
  posted (withCore s c fun k => { k with trapReq := some r, flow := .trapping, fetched := none }) 0 2 (.trapEntry (coreBV c))

/-- The next bundle boundary of core c is pending, n cycles from now, in place of one posted earlier. -/
def refetching (s : State) (c n : Nat) : State :=
  { s with
    agenda := insertItem ⟨s.time + n, 4, .ev (.fetch (coreBV c))⟩
      (s.agenda.filter fun x => decide (x.what ≠ .ev (.fetch (coreBV c)) ∧ x.what ≠ .ev (.bundleIssue (coreBV c)))) }

/-- The state with one die changed. -/
def withDie (s : State) (d : Nat) (f : Die → Die) : State := { s with dies := updAt s.dies d f }

/-- A fragment leaves on a plane for another node (R419). -/
def sent (s : State) (plane : Nat) (h : Hdr) (payload : Nat) : State :=
  { s with tx := s.tx ++ [(plane, fragOf { h with srcNode := s.pkg.nodeId, time := s.time } payload)] }

/-- The fragment has arrived whole, on a plane in service, at its node (R419), at a port of its die or with the link standing where it
crosses to the other; a contribution stays at its port (R415, R429). -/
def arrives (s : State) (plane : Nat) (x : BitVec 4608) : Prop :=
  let h := hdrAt x.toNat
  fragSound x = true ∧ s.pkg.planeUp.getLsbD plane = true ∧ h.dstNode = s.pkg.nodeId ∧ (h.type = 3 ∨ linkDown s (plane / 8) h.dstDie = false)

/-- The state as the running operation finds it: with the translations made before its bundle issued (R75, R256), and with what a later
THAND hands on still its core's own (R235). Nothing else differs from s. -/
def view (s : State) : State := s.cur.sees s

/-- The checks of an instruction's operation have passed: when its bundle issued, or as it runs (R34). -/
def admitted (i : Instr) (s : State) : Prop :=
  s.cur.checked = true ∨ ∃ o, opOf i = some o ∧ o.chk (view s) { s.cur with unit := o.unit } = .go

/-- t differs from s in pending steps and in what core c has in flight, and in nothing else: no register, port, tile, keeper,
accumulator, counter or memory byte changes. -/
def SameButFlights (c : Nat) (s t : State) : Prop :=
  t = { s with cores := t.cores, agenda := t.agenda } ∧
  (∀ k, k ≠ c → t.core k = s.core k) ∧
  t.core c = { s.core c with flights := (t.core c).flights }

end Sys2Proof.Safety
end

