-- ==== Sys2Proof/Certificates/Slice0/Obligations.lean ====
section
/-! DEFINITION. The statements for the provers, by the spec's own order: words and steps, the core, the units, the machine events,
the whole machine. -/

open Sys2Proof Sys2Proof.Machine Sys2Proof.Safety

/-- The order of pending steps is the model's choice (notes/assumptions/1.md). A package that has tripped, an empty agenda and a
destination word that decodes to nothing stop the step by name. Otherwise package time moves to the first item's, the item
leaves the agenda, and the step is exec of its instruction: of an operation, the one its destination word and its captured mode
operand decode to, with that operation current; of a machine event, the event, with no operation current. An instruction word
placed from outside (notes/assumptions/16.md) is what the next step runs. (02_encoding.md R47, 02_encoding.md R51,
02_encoding.md R52, 01_core_machine.md R14). -/
def Obligations.StepRunsDecodedInstruction : Prop :=
  ∀ (s : State),
    (s.pkg.tripped = true → step s = .fault .poweredOff) ∧
    (s.pkg.tripped = false →
      (s.agenda = [] → step s = .fault .idle) ∧
      (∀ (n p : Nat) (rest : List Item), let t := { s with time := max s.time n, agenda := rest }
        (∀ i : Instr, s.agenda = ⟨n, p, .ev i⟩ :: rest → step s = exec i { t with cur := Trig.none }) ∧
        (∀ g : Trig, s.agenda = ⟨n, p, .op g⟩ :: rest →
          (∀ i : Instr, decodeTrigger g.dest (g.a.toNat % 2 ^ 64) (g.b.toNat % 2 ^ 64) = .ok i → step s = exec i { t with cur := g }) ∧
          (∀ e : DecodeError, decodeTrigger g.dest (g.a.toNat % 2 ^ 64) (g.b.toNat % 2 ^ 64) = .error e →
            step s = .refused (.undecodable g.dest)))) ∧
      (∀ (i : Instr) (k : Nat), i.wellFormed = true → ∃ g : Trig, (g.checked = false ∧ (bitOf (encode i) 23 = true → g = Trig.none)) ∧
        (bitOf (encode i) 23 = false → g.dest = encode i % 2 ^ 21 ∧ g.core = 0 ∧ g.t0 = s.time ∧ g.mask = none) ∧
        step (s.withFetchWord k (encode i)) = exec i { s with cur := g }))

/-- The words are unit times 0x10000, plus 0xC000, plus opcode times 64, plus modifier: ADD on ia0 and on ia1, DIV, FCVTIF of ui32,
LDW from global memory, RET, ACAS in global memory, MVTS, VADD of f32 on va1 rounding upward, VCVT from bf16 to i8, VPACK to
format 8, VLDS of f32, VSTZ of bf16 to global memory with a completion record, MZERO, KCVT from encoding 0 to 1, TTAKE, XTAB and
FRED from global memory. Opcode 0, an opcode beyond a unit's map, the bits of another port, a register-file unit, a nonzero
unused modifier bit, a rounding mode above 4 and a reserved unit give nothing. (02_encoding.md R47, 02_encoding.md R51,
02_encoding.md R52, 02_encoding.md R53). -/
def Obligations.DecodedWords : Prop :=
  [0x5C040, 0x6C040, 0x7C100, 0x8C305, 0x9C141, 0xAC140, 0xBC201, 0xCC080, 0xEC056, 0xDC547, 0x10C1C8, 0x11C0CC, 0x11C25F, 0x13C180,
    0x14C150, 0x15C180, 0x16C241, 0x17C141].map (decodeTableWord 24) =
    [some (.add false), some (.add true), some .div, some (.fcvtif .ui32 0), some (.ldw .glob), some .ret, some (.acas .glob false false),
      some .mvts, some (.vadd true .f32 2), some (.vcvt false .bf16 .i8), some (.vpack 8), some (.vlds false .f32),
      some (.vstz true .bf16 true), some .mzero, some (.kcvt false 0 1), some .ttake, some (.xtab true), some (.fred true)] ∧
  [0x5C000, 0x5C780, 0x58040, 0xC040, 0x5C041, 0xDC06E, 0x18C040].map (decodeTableWord 24) = List.replicate 7 none

/-- For every instruction word and every instruction, with every operand at every value its encoding admits: the decoder reads the
instruction from the word if and only if the instruction is well formed and the word is its encoding. So decoding an encoded
instruction gives it back, no bit is dropped, no two words name one instruction and no two instructions share a word. The words
of machine events and the two selector bits are the model's numbering (notes/assumptions/7.md, notes/assumptions/8.md).
(02_encoding.md R47, 02_encoding.md R51, 02_encoding.md R52, 02_encoding.md R53). -/
def Obligations.EachWordNamesOneInstruction : Prop :=
  ∀ (w : Nat) (i : Instr), decodeWord? w = some i ↔ (i.wellFormed = true ∧ encode i = w)

/-- The machine at power-on meets the invariant. Package reset alone is pending; no core runs a task; memory and counters read zero
(notes/assumptions/4.md); slots 0 to 15 of each die are idle and hold the clusters and the others are empty; every plane is up,
the stripe deadline is 50,000 cycles and each die's limit 950 W. Registers with no reset value in the spec are zero by the
model's choice (notes/assumptions/3.md). (24_bringup_power.md R458, 04_execution_model.md R109, 21_package_fabric.md R418,
01_core_machine.md R32). -/
def Obligations.ResetState : Prop :=
  Inv State.reset ∧ State.reset.agenda = [⟨0, 2, .ev .packageReset⟩] ∧ State.reset.pkg.planeUp = 0xFFFF ∧ State.reset.pkg.strdl = 50000 ∧
  (∀ c, (State.reset.core c).ctx = none ∧ (State.reset.core c).flow = .idle) ∧
  (∀ d, (State.reset.die d).limit = 950 ∧ (State.reset.die d).stopped = false) ∧
  (∀ d n, d < 2 → n < 64 → (slotAt State.reset d n).present = decide (n < 16) ∧ (slotAt State.reset d n).bound = false ∧
    (n < 16 → ((slotAt State.reset d n).col, (slotAt State.reset d n).row) = (4 * (n % 4), 2 * (n / 4)) ∧
      ((slotAt State.reset d n).width, (slotAt State.reset d n).height) = (4, 2))) ∧
  (∀ h a, ctrValue State.reset.ctrs h = 0 ∧ memByte State.reset.mem a = 0)

/-- From every state that meets the invariant, and not from runs alone, a step that answers a next state answers one that meets it:
pending steps stand in order of package time and priority and none lies in the past, the package's memory and every core's stay
in canonical form, and every counter holds a 64-bit value. Package time does not go back but where package reset starts it
again. (01_core_machine.md R14, 04_execution_model.md R103, 10_memory_hierarchy.md R256, 15_memory_engine_sync_ops.md R362). -/
def Obligations.StepKeepsInvariant : Prop :=
  ∀ (s t : State), Inv s → step s = .next t → Inv t ∧
    (s.time ≤ t.time ∨ ∃ p r, s.agenda = ⟨p, r, .ev .packageReset⟩ :: s.agenda.drop 1 ∧ t.time = 0)

/-- For each of ADD, SUB, ADDSH, MIN, MAX, MINU, MAXU, SEL, CEQ, CNE, CLT, CLTU, CLE and CLEU, on either unit and in every state,
the step completes: the operation is in flight with the 64-bit result of the table and bound 1, and nothing else changes. For
each of AND, OR, XOR, ANDN, SHL, SHR, SAR, ROL, SEXT, ZEXT, BFX, BFI, CLZ, CTZ and POPC the step completes with the result of
the table and bound 1; shift counts are b<0..5>; a field has position b<0..5> and width min(b<8..14>, 64); CLZ and CTZ of 0 are
64; BFI is said bit by bit. MUL, MULH and MULHU complete in every state with the low or the high half of the product and bound
3. With a divisor that is not zero DIV, DIVU, REM and REMU complete with bound 20; the quotient is truncated toward zero and the
remainder has the sign of the dividend. With divisor zero and the check not yet made, each division gives the precise fault 0x07
with the dividend as TRAPINFO. (03_scalar_control_ops.md R66, 03_scalar_control_ops.md R67, 03_scalar_control_ops.md R68). -/
def Obligations.ScalarIntegerResults : Prop :=
  ((∀ (u : Bool) (s : State),
      let a := opA s
      let b := opB s
      let c := opC s
      let gives := fun (i : Instr) (y : Word) => exec i s = .next (landsWord s (if u then 6 else 5) 1 y)
      gives (.add u) (a + b) ∧ gives (.sub u) (a - b) ∧ gives (.addsh u) (a + b <<< (c.toNat % 4)) ∧
      gives (.min u) (if a.sle b then a else b) ∧ gives (.max u) (if a.sle b then b else a) ∧
      gives (.minu u) (if a.ule b then a else b) ∧ gives (.maxu u) (if a.ule b then b else a) ∧
      gives (.sel u) (if c.getLsbD 0 then a else b) ∧
      gives (.ceq u) (if a = b then 1 else 0) ∧ gives (.cne u) (if a = b then 0 else 1) ∧
      gives (.clt u) (if a.slt b then 1 else 0) ∧ gives (.cltu u) (if a.ult b then 1 else 0) ∧
      gives (.cle u) (if a.sle b then 1 else 0) ∧ gives (.cleu u) (if a.ule b then 1 else 0)) ∧
   (∀ (u : Bool) (s : State),
      let a := opA s
      let b := opB s
      let c := opC s
      let n := b.toNat % 64
      let w := min (b.toNat / 256 % 128) 64
      let gives := fun (i : Instr) (y : Word) => exec i s = .next (landsWord s (if u then 6 else 5) 1 y)
      gives (.and u) (a &&& b) ∧ gives (.or u) (a ||| b) ∧ gives (.xor u) (a ^^^ b) ∧ gives (.andn u) (a &&& ~~~b) ∧
      gives (.shl u) (a <<< n) ∧ gives (.shr u) (a >>> n) ∧ gives (.sar u) (a.sshiftRight n) ∧ gives (.rol u) (a.rotateLeft n) ∧
      gives (.sext u) ((a.setWidth (n + 1)).signExtend 64) ∧ gives (.zext u) ((a.setWidth (n + 1)).setWidth 64) ∧
      gives (.bfx u) (((a >>> n).setWidth w).setWidth 64) ∧
      (∃ y, gives (.bfi u) y ∧ ∀ i, i < 64 →
        y.getLsbD i = if n ≤ i ∧ i < n + w then c.getLsbD (i - n) else a.getLsbD i) ∧
      (∃ k, k ≤ 64 ∧ gives (.clz u) (BitVec.ofNat 64 k) ∧ (∀ i, 64 - k ≤ i → b.getLsbD i = false) ∧
        (k < 64 → b.getLsbD (63 - k) = true)) ∧
      (∃ k, k ≤ 64 ∧ gives (.ctz u) (BitVec.ofNat 64 k) ∧ (∀ i, i < k → b.getLsbD i = false) ∧ (k < 64 → b.getLsbD k = true)) ∧
      gives (.popc u) (BitVec.ofNat 64 ((List.range 64).countP fun i => b.getLsbD i)))) ∧
  (∀ (s : State),
     let a := opA s
     let b := opB s
     let gives := fun (i : Instr) (n : Nat) (y : Word) => exec i s = .next (landsWord s 7 n y)
     let traps := fun (i : Instr) => exec i s = .next (faults s 0x07 a)
     (gives .mul 3 (a * b) ∧ gives .mulh 3 (BitVec.ofInt 64 (a.toInt * b.toInt / 2 ^ 64)) ∧
       gives .mulhu 3 (BitVec.ofNat 64 (a.toNat * b.toNat / 2 ^ 64))) ∧
     (b ≠ 0 → gives .div 20 (BitVec.ofInt 64 (a.toInt.tdiv b.toInt)) ∧ gives .divu 20 (a.udiv b) ∧
       gives .rem 20 (BitVec.ofInt 64 (a.toInt.tmod b.toInt)) ∧ gives .remu 20 (a.umod b)) ∧
     (b = 0 → s.cur.checked = false → traps .div ∧ traps .divu ∧ traps .rem ∧ traps .remu))

/-- FADD, FSUB, FMUL, FMA, FDIV and FSQRT complete with the exact value rounded once under FPSTAT.RM, or the canonical NaN, and with
the flags they raise at landing. A signalling NaN, the sum of infinities of opposite signs, zero times an infinity, 0/0,
infinity over infinity and the root of a negative number are invalid; a finite nonzero number over zero raises divide by zero.
FMIN and FMAX of two numbers give the smaller and the larger, -0 below +0, and with one NaN the other operand. FCEQ, FCLT and
FCLE land 1 or 0; FCLT and FCLE raise invalid on any NaN, FCEQ on a signalling one. FCLASS lands one of ten bits by sign,
exponent and fraction. FCVTIF rounds the integer of its type and raises inexact alone; FCVTFI lands the converted integer
extended to 64 bits, and a saturation raises invalid and counts. (03_scalar_control_ops.md R69, 03_scalar_control_ops.md R70,
03_scalar_control_ops.md R72, 03_scalar_control_ops.md R71). -/
def Obligations.ScalarFloatOperations : Prop :=
  (∀ (s : State), s.cur.core < 256 →
     let rm := (s.core s.cur.core).arch.fsRm
     let x := f32 (opA s).toNat
     let y := f32 (opB s).toNat
     let z := f32 (opC s).toNat
     let p := Machine.Num.mul x y
     let gives := fun (i : Instr) (n : Nat) (v : Machine.Num) (invalid : Bool) (dz : Bool) =>
       exec i s = .next (landsFloat s n (if v.isNan then 0x7FC00000 else (fsRound rm v).1)
         { (if v.isNan then ({} : FpFlags) else (fsRound rm v).2) with invalid := invalid, divZero := dz })
     let negative := match y with | .inf n => n | .fin n m _ => n && m != 0 | .nan _ => false
     let bothInf := match x, y with | .inf _, .inf _ => true | _, _ => false
     let finite := match x with | .fin _ m _ => m != 0 | _ => false
     gives .fadd 4 (Machine.Num.add (rm = 3) x y) (x.isSig || y.isSig || infClash x y) false ∧
     gives .fsub 4 (Machine.Num.add (rm = 3) x y.negate) (x.isSig || y.negate.isSig || infClash x y.negate) false ∧
     gives .fmul 4 p (x.isSig || y.isSig || zeroTimesInf x y) false ∧
     gives .fma 4 (Machine.Num.add (rm = 3) p z) (x.isSig || y.isSig || z.isSig || zeroTimesInf x y || infClash p z) false ∧
     gives .fdiv 12 (Machine.Num.div x y) (x.isSig || y.isSig || (x.isZero && y.isZero) || bothInf) (finite && y.isZero) ∧
     gives .fsqrt 12 y.sqrt (y.isSig || negative) false) ∧
  (∀ (s : State),
     let a := (opA s).toNat % 2 ^ 32
     let b := (opB s).toNat % 2 ^ 32
     let x := f32 (opA s).toNat
     let y := f32 (opB s).toNat
     let below := x.lt y || (x.eq y && x.neg? && !y.neg?)
     let gives := fun (i : Instr) (v : Nat) (invalid : Bool) => exec i s = .next (landsFloat s 4 v { invalid := invalid })
     let e := b / 2 ^ 23 % 256
     let f := b % 2 ^ 23
     let neg : Bool := 2 ^ 31 ≤ b
     let cls := if e = 255 then (if f = 0 then (if neg then 0 else 7) else if f < 2 ^ 22 then 8 else 9)
       else if e = 0 then (if f = 0 then (if neg then 3 else 4) else if neg then 2 else 5)
       else if neg then 1 else 6
     ((!x.isNan && !y.isNan) = true →
       gives .fmin (if below then a else b) false ∧ gives .fmax (if below then b else a) false) ∧
     ((x.isNan && !y.isNan) = true → gives .fmin b x.isSig ∧ gives .fmax b x.isSig) ∧
     ((!x.isNan && y.isNan) = true → gives .fmin a y.isSig ∧ gives .fmax a y.isSig) ∧
     ((x.isNan && y.isNan) = true →
       gives .fmin 0x7FC00000 (x.isSig || y.isSig) ∧ gives .fmax 0x7FC00000 (x.isSig || y.isSig)) ∧
     gives .fceq (x.eq y).toNat (x.isSig || y.isSig) ∧
     gives .fclt (x.lt y).toNat (x.isNan || y.isNan) ∧
     gives .fcle (x.lt y || x.eq y).toNat (x.isNan || y.isNan) ∧
     gives .fclass (2 ^ cls) false ∧
     (∀ (ty : ElemType) (rm : BitVec 3),
       let v := fsRound rm.toNat (Machine.Num.ofInt (tyInt ty ((opB s).toNat % 2 ^ tyWidth ty)))
       exec (.fcvtif ty rm) s = .next (landsFloat s 4 v.1 { inexact := v.2.inexact })) ∧
     (∀ (ty : ElemType) (rm : BitVec 3),
       let r := convertInt (tyWidth ty) (tySigned ty) rm.toNat 0 y
       let g : FpFlags := { invalid := decide (r.sat > 0), inexact := decide (r.sat = 0) && r.inexact }
       exec (.fcvtfi ty rm) s = .next (withFlight s { flying s 8 4 with
         y0 := wide (enc (intOperand ty r.code) 64), posts := [.fpFlags g.bits, .conv r.sat r.flush 0] })))

/-- An admitted load of 1, 2, 4 or 8 bytes is in flight within the bound of its space, and its access at (a + b) mod 2^64 stands in
the S queue; an admitted store is complete after 1 cycle, and its access with the data of port c stands in the queue; an
admitted atomic at address a, where no reduction window is registered, is in flight, and its update stands in the queue. PREF is
complete after 1 cycle and changes no visible state. Nothing else changes. With no fence pending on its core, its check not yet
made and, for a global address, no hold or walk due at it, a load or store whose address (a + b) mod 2^64 is not a multiple of
its size, and an atomic whose address a is not a multiple of its unit, give the precise fault 0x08 with the address as TRAPINFO:
the core turns to trapping, and nothing is queued. An aligned load or store gives 0x09 beyond the task's scratchpad, the local
space or scalar memory's offsets, 0x0A at or beyond 2^48, at a page with no translation or with none that is populated, 0x0B for
a store to the parameter block or a page that denies the access, and 0x0C in a cluster-window slot that holds no handle. (03_scalar_control_ops.md R73, 03_scalar_control_ops.md R76,
03_scalar_control_ops.md R79, 15_memory_engine_sync_ops.md R365, 03_scalar_control_ops.md R75). -/
def Obligations.ScalarAccesses : Prop :=
  (∀ (sp : Space) (dbl uns : Bool) (s : State),
     let c := s.cur.core
     let a := (opA s + opB s).toNat
     let m := if dbl then 8 else 4
     let loads := fun (i : Instr) (n : Nat) (signed : Bool) => admitted i s →
       let b := loadBound (sClass sp a n)
       exec i s = .next (withAccess (withFlight s { flying s 9 b with ready := false }) pathS 9 (.load n signed [])
         (piecesFrom 0 (sHomes (view s) c sp false false a n)) (b - 1))
     let stores := fun (i : Instr) (n : Nat) => admitted i s →
       exec i s = .next (withAccess (completes s 9 1) pathS 9 (.store s.cur.c)
         (piecesFrom 0 (sHomes (view s) c sp true false a n)) storeWait)
     let updates := fun (i : Instr) (op : Amo) => admitted i s → s.pkg.windows = [] →
       let b := amoBound (sClass sp (opA s).toNat m)
       exec i s = .next (withAccess (withFlight s { flying s 11 b with ready := false }) pathS 11 (.amo op (opB s) (opC s))
         (piecesFrom 0 (sHomes (view s) c sp true true (opA s).toNat m)) (b - 1))
     loads (.ldb sp) 1 true ∧ loads (.ldbu sp) 1 false ∧ loads (.ldh sp) 2 true ∧ loads (.ldhu sp) 2 false ∧
     loads (.ldw sp) 4 true ∧ loads (.ldwu sp) 4 false ∧ loads (.ldd sp) 8 false ∧
     stores (.stb sp) 1 ∧ stores (.sth sp) 2 ∧ stores (.stw sp) 4 ∧ stores (.std sp) 8 ∧
     exec (.pref sp) s = .next (completes s 9 1) ∧
     updates (.aadd sp dbl uns) .add ∧ updates (.amax sp dbl uns) (.max uns) ∧ updates (.amin sp dbl uns) (.min uns) ∧
     updates (.axchg sp dbl uns) .xchg ∧ updates (.acas sp dbl uns) .cas ∧ updates (.afadd sp dbl uns) .fadd ∧
     updates (.aand sp dbl uns) .and ∧ updates (.aor sp dbl uns) .or) ∧
  (∀ (sp : Space) (dbl uns : Bool) (s : State), s.cur.checked = false → (s.core s.cur.core).fences = [] →
     let a := opA s + opB s
     let calm := fun (write amo : Bool) (x n : Nat) => sp = .glob → ∃ l, coreAccess (view s) s.cur.core pathS true write amo x n = .ok l
     let traps := fun (i : Instr) (w : Bool) (n : Nat) => a.toNat % n ≠ 0 → calm w false a.toNat n → exec i s = .next (faults s 0x08 a)
     let m := if dbl then 8 else 4
     let trapsAt := fun (i : Instr) => (opA s).toNat % m ≠ 0 → calm true true (opA s).toNat m → exec i s = .next (faults s 0x08 (opA s))
     traps (.ldh sp) false 2 ∧ traps (.ldhu sp) false 2 ∧ traps (.ldw sp) false 4 ∧ traps (.ldwu sp) false 4 ∧ traps (.ldd sp) false 8 ∧
     traps (.sth sp) true 2 ∧ traps (.stw sp) true 4 ∧ traps (.std sp) true 8 ∧
     trapsAt (.aadd sp dbl uns) ∧ trapsAt (.amax sp dbl uns) ∧ trapsAt (.amin sp dbl uns) ∧ trapsAt (.axchg sp dbl uns) ∧
     trapsAt (.acas sp dbl uns) ∧ trapsAt (.afadd sp dbl uns) ∧ trapsAt (.aand sp dbl uns) ∧ trapsAt (.aor sp dbl uns)) ∧
  (∀ (sp : Space) (s : State), s.cur.checked = false → (s.core s.cur.core).fences = [] →
     let c := s.cur.core
     let x := opA s + opB s
     let a := x.toNat
     let page := tlbHit (view s) c a
     let traps := fun (code : Nat) (when_ : Bool → Nat → Prop) =>
       let one := fun (i : Instr) (w : Bool) (n : Nat) => a % n = 0 → when_ w n → exec i s = .next (faults s code x)
       one (.ldb sp) false 1 ∧ one (.ldbu sp) false 1 ∧ one (.ldh sp) false 2 ∧ one (.ldhu sp) false 2 ∧ one (.ldw sp) false 4 ∧
       one (.ldwu sp) false 4 ∧ one (.ldd sp) false 8 ∧ one (.stb sp) true 1 ∧ one (.sth sp) true 2 ∧ one (.stw sp) true 4 ∧
       one (.std sp) true 8
     (sp = .loc →
       traps 0x09 (fun _ n => spadLimit s c < a + n ∧ a + n ≤ 0x400000 ∨ 0x1000000 < a + n) ∧
       traps 0x0B (fun w n => w = true ∧ 0x480000 ≤ a ∧ a + n ≤ 0x480100) ∧
       traps 0x0C (fun _ n => 0x800000 ≤ a ∧ a + n ≤ 0x1000000 ∧
         nth ((view s).core c).arch.slots ((a - 0x800000) / 0x100000) none = none)) ∧
     (sp = .smem → traps 0x09 fun _ n => 0x40000 < a + n) ∧
     (sp = .glob → s.pkg.draining = false →
       traps 0x0A (fun _ n => 2 ^ 48 < a + n ∨ page = none ∧ walkFailed ((view s).core c) a = true ∧ a + n ≤ 2 ^ 48 ∨
         ∃ e, page = some e ∧ paThrough s e.pte.toNat e.large a = none) ∧
       traps 0x0B (fun w n => a + n ≤ 2 ^ 48 ∧ ∃ e pa, page = some e ∧ paThrough s e.pte.toNat e.large a = some pa ∧
         pagePermits e.pte.toNat (((s.core c).ctx.map (·.domain)).getD 0) (!w) w false = false)))

/-- When ACCESS_PERFORMED meets the one queued access of a core, on the S path, due and in a scratchpad or scalar memory of its die
with no word in error, or at a physical address that the die reaches with no line in error and no decision to record, a scalar
load's operation gets the little-endian bytes there, sign- or zero-extended, and no memory changes; an atomic's operation gets
the old value, and the bytes become the sum, the larger or smaller value, b, c where b was found, the single-precision sum rounded
once, or the bitwise and or or. The queue is empty then, and the operation may land. A due store of n bytes at address a of core
d's arrays puts byte i of its data at a + i; every other byte of core d's arrays, of every other core's arrays and of global
memory reads as before, and no register of any core changes; one at a physical address changes its n bytes alone.
(03_scalar_control_ops.md R74, 11_memory_model.md R270, 11_memory_model.md R271, 15_memory_engine_sync_ops.md R365,
03_scalar_control_ops.md R76). -/
def Obligations.PerformedScalarAccesses : Prop :=
  let value := fun (op : Amo) (n old b o : Nat) =>
    let w := 8 * n
    let x := BitVec.ofNat w old
    let y := BitVec.ofNat w b
    (match op with
    | .add => x + y
    | .max u => if (if u then x.ult y else x.slt y) then y else x
    | .min u => if (if u then y.ult x else y.slt x) then y else x
    | .xchg => y
    | .cas => if x = y then BitVec.ofNat w o else x
    | .fadd => BitVec.ofNat w (roundIeee .f32 0 (Machine.Num.add false (f32 old) (f32 b)))
    | .and => x &&& y
    | .or => x ||| y).toNat
  (∀ (core : BitVec 8) (s : State) (x : Access) (f : Flight) (d a n : Nat),
     let c := core.toNat
     (s.core c).accesses = [x] → x.path = pathS → x.due ≤ s.time → x.pieces = [⟨.arr d a, n, 0⟩] → n ≤ 8 → a < 0x440000 →
     d / 128 = c / 128 → d < 256 → (s.core d).poison = [] → (s.core d).upsets = [] →
     (s.core c).flights = [f] → f.unit = x.unit → f.seq = x.seq →
     let old := memRead (nth s.lmem d []) a n
     (∀ signed, x.kind = .load n signed [] →
       ∃ t, exec (.accessPerformed core) s = .next t ∧ (t.core c).accesses = [] ∧ t.lmem = s.lmem ∧ t.mem = s.mem ∧
         (t.core c).flights = [{ f with y0 := wide (extended n signed old), ready := true, deferred := false, due := max s.time f.due }]) ∧
     (∀ op b o, x.kind = .amo op b o → (op = .fadd → n = 4) →
       ∃ t, exec (.accessPerformed core) s = .next t ∧ (t.core c).accesses = [] ∧ t.mem = s.mem ∧
         t.lmem = updAt s.lmem d (fun m => memPut m a n (value op n old b.toNat o.toNat)) ∧
         (t.core c).flights = [{ f with y0 := wide old, ready := true, deferred := false, due := max s.time f.due }])) ∧
  (∀ (core : BitVec 8) (s : State) (x : Access) (f : Flight) (a n : Nat),
     let c := core.toNat
     (s.core c).accesses = [x] → x.path = pathS → x.due ≤ s.time → x.pieces = [⟨.pa a, n, 0⟩] → n ≤ 8 →
     homeCut s (c / 128) (.pa a) = false → s.pkg.hbmPoison = [] → s.pkg.hbmUpsets = [] →
     (∀ y, (s.core c).ctx = some y → rrMode s y = 0) → (s.core c).flights = [f] → f.unit = x.unit → f.seq = x.seq →
     let old := memRead s.mem a n
     let ready := fun (y : Nat) => { f with y0 := wide y, ready := true, deferred := false, due := max s.time f.due }
     let gives := fun (mem : Memory) (g : Flight) => ∃ t, exec (.accessPerformed core) s = .next t ∧ (t.core c).accesses = [] ∧
       t.lmem = s.lmem ∧ t.mem = mem ∧ (t.core c).flights = [g]
     (∀ signed, x.kind = .load n signed [] → gives s.mem (ready (extended n signed old))) ∧
     (∀ op b o, x.kind = .amo op b o → (op = .fadd → n = 4) → gives (memPut s.mem a n (value op n old b.toNat o.toNat)) (ready old)) ∧
     (∀ data, x.kind = .store data → gives (memPut s.mem a n (data.toNat % 2 ^ (8 * n))) f)) ∧
  (∀ (core : BitVec 8) (s : State) (x : Access) (d a n : Nat) (data : Vec),
     let c := core.toNat
     (s.core c).accesses = [x] → x.path = pathS → x.kind = .store data → x.due ≤ s.time → x.pieces = [⟨.arr d a, n, 0⟩] →
     d / 128 = c / 128 → d < 256 → (s.core d).poison = [] → (s.core d).upsets = [] → Memory.wf (nth s.lmem d []) →
     ∃ t, exec (.accessPerformed core) s = .next t ∧ (t.core c).accesses = [] ∧
       (∀ i, i < n → memByte (nth t.lmem d []) (a + i) = data.extractLsb' (8 * i) 8) ∧
       (∀ b, b < a ∨ a + n ≤ b → memByte (nth t.lmem d []) b = memByte (nth s.lmem d []) b) ∧
       (∀ e, e ≠ d → nth t.lmem e [] = nth s.lmem e []) ∧ t.mem = s.mem ∧ (∀ k, (t.core k).arch = (s.core k).arch))

/-- QMARK is complete after 1 cycle; behind a queued S access it leaves a marker in the S queue, and with none it makes the pending
faults of code 0x1C deliverable at once. A FENCE at its trigger awaits its outcome and notes its paths and scope on its core;
once every access of its paths before it has been performed, it is noted no longer, its flight is ready to land, and the pending
faults of code 0x1C are deliverable; until then it looks again in each next cycle (notes/assumptions/2.md). (03_scalar_control_ops.md R77, 03_scalar_control_ops.md R78, 11_memory_model.md R274). -/
def Obligations.MarkersAndFences : Prop :=
  ∀ (s : State), s.cur.core < 256 →
    let c := s.cur.core
    let paths := BitVec.ofNat 8 (opB s).toNat
    ((s.core c).accesses.any (fun a => a.path = pathS) = true →
      exec .qmark s = .next (withCore (completes s 9 1) c fun k =>
        { k with accesses := queueIn k.accesses ⟨pathS, s.cur.seq, 9, s.cur.slot, .marker, [], 0, s.cur.inTrap, []⟩ })) ∧
    ((s.core c).accesses.any (fun a => a.path = pathS) = false →
      exec .qmark s = .next (withCore (completes s 9 1) c fun k =>
        { k with pend := (k.pend.map fun p => if p.code = 0x1C then { p with ready := true } else p) })) ∧
    (s.cur.stage = 0 → ∃ t, exec .fence s = .next t ∧
      (t.core c).fences = (s.core c).fences ++ [⟨s.cur.seq, paths, (opA s).toNat % 8⟩] ∧
      (t.core c).flights = (putFlight (s.core c) { flying s 9 1 with lands := false, ready := false, cause := 8 }).flights ∧
      (t.core c).arch = (s.core c).arch ∧ (∀ k, k ≠ c → t.core k = s.core k) ∧ t.lmem = s.lmem ∧ t.mem = s.mem) ∧
    (∀ f : Flight, s.cur.stage ≠ 0 → pathsDone s c paths s.cur.seq = true → (s.core c).flights = [f] → f.unit = 9 → f.seq = s.cur.seq →
      ∃ t, exec .fence s = .next t ∧
      (t.core c).fences = (s.core c).fences.filter (fun w => w.seq ≠ s.cur.seq) ∧
      (t.core c).flights = [{ f with ready := true, deferred := false, due := max s.time f.due }] ∧
      (t.core c).pend = (s.core c).pend.map (fun p => if p.code = 0x1C then { p with ready := true } else p) ∧
      (t.core c).arch = (s.core c).arch ∧ (∀ k, k ≠ c → t.core k = s.core k) ∧ t.lmem = s.lmem ∧ t.mem = s.mem) ∧
    (s.cur.stage ≠ 0 → pathsDone s c paths s.cur.seq = false →
      exec .fence s = .next { s with agenda := insertItem ⟨s.time + 1, 2, .op (asUnit s 9)⟩ s.agenda })

/-- With a target of at most 32,767, which is the bundle's pc plus b for BR and CALL and b for JMP, CALLI and RET, the jump
completes: the next pc is the target, CALL and CALLI write the return pc into g31, and no other register, port or byte of memory
changes. With a greater target and the check not yet made, it is the precise fault 0x01 with the target as TRAPINFO. TRAP
outside a trap handler, with fewer than 16 faults pending, adds the pending fault 0x06 with b as its information and is complete
after 1 cycle. HALT at its trigger turns the core to halting. Once every operation has landed, the queues are empty, no segment
is open and no fault is pending, HALT ends the task: the core is idle and has no context. (03_scalar_control_ops.md R80,
03_scalar_control_ops.md R81, 03_scalar_control_ops.md R84, 03_scalar_control_ops.md R85, 01_core_machine.md R36). -/
def Obligations.JumpsTrapsAndHalts : Prop :=
  (∀ (s : State), s.cur.core < 256 →
     let c := s.cur.core
     let rel := BitVec.ofInt 64 (s.cur.pc + (opB s).toInt)
     let link := fun (a : Arch) => { a with g := updAt a.g 31 (fun _ => BitVec.ofNat 64 s.cur.nextPc) }
     let jumps := fun (i : Instr) (target : Word) (f : Arch → Arch) =>
       (target.toNat ≤ 32767 → exec i s = .next (withCore (completes s 10 1) c fun k =>
         { k with pc := target.toNat, arch := f k.arch })) ∧
       (32767 < target.toNat → s.cur.checked = false → exec i s = .next (faults s 0x01 target))
     jumps .br rel id ∧ jumps .jmp (opB s) id ∧ jumps .call rel link ∧ jumps .calli (opB s) link ∧ jumps .ret (opB s) id) ∧
  (∀ (s : State), s.cur.core < 256 →
     let c := s.cur.core
     let k := s.core c
     (s.cur.inTrap = false → k.pend.length < 16 →
       exec .trap s = .next (withCore (completes s 10 1) c fun k => { k with pend := k.pend ++
         [⟨0x06, opB s, s.cur.slot, s.cur.seq, true, k.seg.isSome, 0⟩] })) ∧
     (s.cur.stage = 0 → k.flow ≠ .returning → ∃ t, exec .halt s = .next t ∧
       t.core c = { k with flow := .halting } ∧ (∀ d, d ≠ c → t.core d = s.core d) ∧ t.lmem = s.lmem ∧ t.mem = s.mem) ∧
     (s.cur.stage ≠ 0 → k.flow = .halting → k.quiet = true → k.accesses = [] → k.seg = none → k.pend = [] → k.rewind = none →
       ∃ t, exec .halt s = .next t ∧ (t.core c).ctx = none ∧ (t.core c).flow = .idle ∧
         (t.core c).arch.g = k.arch.g ∧ t.lmem = s.lmem ∧ t.mem = s.mem))

/-- LOOP with LOOPC above 1 and a target within index memory decrements LOOPC and makes the target the next pc; with LOOPC 0 or 1 it
sets LOOPC to 0 and leaves the pc; either way ROTB and ROTP step down by one, modulo 32 and 8. LSET sets LOOPC to b and ROTB and
ROTP to 0. No other register of the core and no memory changes. With LOOPC above 1, a target beyond index memory and the check not
yet made, LOOP is the precise fault 0x01 with the target as TRAPINFO. (03_scalar_control_ops.md R80, 03_scalar_control_ops.md
R81, 03_scalar_control_ops.md R82). -/
def Obligations.LoopsCountAndRotate : Prop :=
  ∀ (s : State), s.cur.core < 256 →
    let c := s.cur.core
    let a := (s.core c).arch
    let n := (a.sr 9).toNat
    let target := (BitVec.ofInt 64 (s.cur.pc + (opB s).toInt)).toNat
    let keeps := fun (t : State) => t.lmem = s.lmem ∧ t.mem = s.mem ∧ (∀ k, k ≠ c → t.core k = s.core k) ∧
      (t.core c).arch = { a with st := (t.core c).arch.st } ∧
      (∀ i, i ≠ 7 → i ≠ 8 → i ≠ 9 → (t.core c).arch.sr i = a.sr i)
    (n ≤ 1 ∨ target ≤ 32767 → ∃ t, exec .loop s = .next t ∧ keeps t ∧
      (t.core c).arch.sr 9 = (if n ≤ 1 then 0 else BitVec.ofNat 64 (n - 1)) ∧
      (t.core c).arch.sr 7 = BitVec.ofNat 64 (((a.sr 7).toNat % 32 + 31) % 32) ∧
      (t.core c).arch.sr 8 = BitVec.ofNat 64 (((a.sr 8).toNat % 8 + 7) % 8) ∧
      (t.core c).pc = (if n ≤ 1 then (s.core c).pc else target)) ∧
    (1 < n → 32767 < target → s.cur.checked = false → exec .loop s = .next (faults s 0x01 (BitVec.ofNat 64 target))) ∧
    (∃ t, exec .lset s = .next t ∧ keeps t ∧ (t.core c).arch.sr 9 = opB s ∧ (t.core c).arch.sr 7 = 0 ∧
      (t.core c).arch.sr 8 = 0 ∧ (t.core c).pc = (s.core c).pc)

/-- An admitted ENTER writes the stack pointer g30, the frame pointer g29 and the vector stack pointer g28, and queues its three
stores: the link, the old frame pointer and the old vsp at 8, 16 and 24 bytes below the old stack pointer. An admitted LEAVE
with no S access queued gives g30 the frame pointer at once, and queues the load of the three words, which are to land in g31,
g29 and g28 within 5 cycles. With no fence pending and its check not yet made, ENTER with a frame size that is no multiple of 16
from 32 to 262,144, or more than 4,095 vectors, is the precise fault 0x08, whose TRAPINFO no rule states; with a new stack pointer
below SLIMIT or a new vector stack pointer below VSLIMIT it is 0x05, with the size in the low and the vectors in the high half of
TRAPINFO. (01_core_machine.md R41, 01_core_machine.md R42, 03_scalar_control_ops.md R83). -/
def Obligations.FramesOpenAndClose : Prop :=
  ∀ (s : State), s.cur.core < 256 →
    let c := s.cur.core
    let k := s.core c
    let w := fun (i : Nat) => (s.cur.aux.extractLsb' (64 * i) 64 : Word)
    let piece := fun (write : Bool) (at_ : Nat) (x : Word) => piecesFrom at_ (sHomes (view s) c .smem write false x.toNat 8)
    let store := fun (x v : Word) => (⟨pathS, s.cur.seq, 10, s.cur.slot, .store (wide v.toNat), piece true 0 x,
      max s.time (s.cur.t0 + storeWait), s.cur.inTrap, []⟩ : Access)
    (admitted .enter s → (opA s).toNat ≤ (w 2).toNat → (opB s).toNat * 1024 ≤ (w 0).toNat → ∃ t, exec .enter s = .next t ∧
      (t.core c).accesses = queueIn (queueIn (queueIn k.accesses (store (w 2 - 8) (w 3))) (store (w 2 - 16) (w 1))) (store (w 2 - 24) (w 0)) ∧
      (t.core c).arch = { k.arch with
        g := updAt (updAt (updAt k.arch.g 29 (fun _ => w 2)) 30 (fun _ => w 2 - opA s)) 28
          (fun _ => w 0 - BitVec.ofNat 64 ((opB s).toNat * 1024)) } ∧
      (t.core c).pc = k.pc ∧ t.lmem = s.lmem ∧ t.mem = s.mem) ∧
    (admitted .leave s → k.accesses = [] → ∃ t, exec .leave s = .next t ∧
      (t.core c).accesses = [⟨pathS, s.cur.seq, 10, s.cur.slot, .load 24 false [(31, 0), (28, 64), (29, 128)],
        piece false 0 (w 1 - 8) ++ piece false 64 (w 1 - 24) ++ piece false 128 (w 1 - 16),
        max s.time (s.cur.t0 + 4), s.cur.inTrap, []⟩] ∧
      (t.core c).flights = (putFlight k { flying s 10 5 with lands := false, ready := false, regs := [28, 29, 31] }).flights ∧
      (t.core c).arch = { k.arch with g := updAt k.arch.g 30 (fun _ => w 1) } ∧
      (t.core c).pc = k.pc ∧ t.lmem = s.lmem ∧ t.mem = s.mem) ∧
    (s.cur.checked = false → k.fences = [] →
      let size := (opA s).toNat
      let n := (opB s).toNat
      let bad := size % 16 ≠ 0 ∨ size < 32 ∨ 262144 < size ∨ 4095 < n
      (bad → ∃ x, exec .enter s = .next (faults s 0x08 x)) ∧
      (¬ bad → ((w 2).toNat < size ∨ (w 2).toNat - size < (k.arch.sr 5).toNat ∨ (w 0).toNat < 1024 * n ∨
          (w 0).toNat - 1024 * n < (k.arch.sr 6).toNat) →
        exec .enter s = .next (faults s 0x05 (BitVec.ofNat 64 (size + n * 2 ^ 32)))))

/-- With its checks passed, no segment open and the link in service, CADD at its trigger is in flight with bound 20 (40 on the other
die) and comes again at once; then, once every access of its paths has been performed, with nothing recorded and nobody waiting
on the counter, it adds b to the counter, the sum sticking at 2^64 - 1 with 0x18 pending at landing, and no other counter
changes. CWAIT lands the counter's value where it is at or above the threshold, and parks the task otherwise. CREAD lands the
value of the counter in b. A handle of another package gives the precise fault 0x03. (15_memory_engine_sync_ops.md R360,
15_memory_engine_sync_ops.md R361, 15_memory_engine_sync_ops.md R362, 15_memory_engine_sync_ops.md R363,
15_memory_engine_sync_ops.md R364). -/
def Obligations.CountersAddWaitAndRead : Prop :=
  ∀ (s : State), s.cur.core < 256 →
    let c := s.cur.core
    let k := s.core c
    let h := (opA s).toNat % 2 ^ 32
    let n := h % 2 ^ 17
    let g := (opB s).toNat % 2 ^ 32
    let near := fun (h : Nat) => if h / 2 ^ 16 % 2 = c / 128 then 20 else 40
    let reached := fun (h : Nat) => linkDown s (c / 128) (h / 2 ^ 16 % 2) = false
    (admitted .cadd s → k.seg = none → reached h → s.cur.stage = 0 →
      exec .cadd s = .next (again (withFlight s { flying s 11 (near h) with lands := false, ready := false }) 11 0)) ∧
    (∀ f : Flight, admitted .cadd s → k.seg = none → s.cur.stage ≠ 0 →
      pathsDone s c (BitVec.ofNat 8 (opC s).toNat) (s.cur.covers s) = true → (∀ x, k.ctx = some x → rrMode s x = 0) →
      (∀ w ∈ s.waiters, ctrHome w.handle ≠ n) → k.flights = [f] → f.unit = 11 → f.seq = s.cur.seq →
      ∃ t, exec .cadd s = .next t ∧
        (∀ m, ctrValue t.ctrs m = if m = n then min (ctrValue s.ctrs n + (opB s).toNat) (2 ^ 64 - 1) else ctrValue s.ctrs m) ∧
        (t.core c).flights = [{ f with
          ready := true, deferred := false, due := max s.time f.due,
          posts := if 2 ^ 64 ≤ ctrValue s.ctrs n + (opB s).toNat then [.fault 0x18 (BitVec.ofNat 64 h) s.cur.slot] else [] }] ∧
        (∀ d, (t.core d).arch = (s.core d).arch) ∧ t.lmem = s.lmem ∧ t.mem = s.mem) ∧
    (admitted .cwait s → reached h → (opB s).toNat ≤ ctrValue s.ctrs n →
      exec .cwait s = .next (landsWord s 11 (near h) (BitVec.ofNat 64 (ctrValue s.ctrs n)))) ∧
    (admitted .cwait s → reached h → ctrValue s.ctrs n < (opB s).toNat → ∃ t, exec .cwait s = .next t ∧
      let tmo := (opC s).toNat % 2 ^ 40
      (t.core c).flow = .parked ∧
      (t.core c).park = some ⟨h, (opB s).toNat, if tmo = 0 then none else some (s.cur.t0 + tmo), s.cur.seq, ctrValue s.ctrs n⟩ ∧
      t.waiters = s.waiters ++ [⟨h, (opB s).toNat, .cwaitWake (coreBV c)⟩] ∧
      (∀ d, (t.core d).arch = (s.core d).arch) ∧ t.lmem = s.lmem ∧ t.mem = s.mem ∧ t.ctrs = s.ctrs) ∧
    (admitted .cread s → reached g →
      exec .cread s = .next (landsWord s 11 (near g) (BitVec.ofNat 64 (ctrValue s.ctrs (g % 2 ^ 17))))) ∧
    (s.cur.checked = false → h / 2 ^ 17 ≠ s.pkg.nodeId →
      exec .cadd s = .next (faults s 0x03 (opA s)) ∧ exec .cwait s = .next (faults s 0x03 (opA s))) ∧
    (s.cur.checked = false → g / 2 ^ 17 ≠ s.pkg.nodeId → exec .cread s = .next (faults s 0x03 (opB s)))

/-- MVST with b below 24 lands the register named, TIME as package time at the trigger, with bound 2. MVTS completes in 1 cycle and
writes the writable bits alone: TRAPBASE its 15 address bits and bit 63, VSLIMIT whole KiB, ROTB and ROTP their fields, CONVCNT
and CONVTHR 48 bits, and of FPSTAT it clears the flags that are written 1, sets the enables, and sets RM where the code is
legal; registers that no rule lets it write keep their value. With no record reserved, MVTS to CRBASE writes the ring's offset with
the bits below CRSIZE + 4 clear and to CRSIZE a size from 4 to 12, which clears the bits of CRBASE that it covers, and either
empties the ring. PBW writes word b of the parameter block. A register index of 24
or more gives the precise fault 0x03; a word index of 32 or more gives 0x09 with the index as TRAPINFO, by the model's choice
(notes/assumptions/20.md). (03_scalar_control_ops.md R86, 03_scalar_control_ops.md R87, 01_core_machine.md R11,
01_core_machine.md R32, 01_core_machine.md R33). -/
def Obligations.StateRegistersAndParameterWords : Prop :=
  ∀ (s : State), s.cur.core < 256 →
    let c := s.cur.core
    let a := (s.core c).arch
    let v := opA s
    let n := (opB s).toNat
    let writes := fun (i : Nat) (w : Word) => n = i → exec .mvts s = .next (withArch (completes s 12 1) fun a => a.setSr i w)
    (n < 24 → exec .mvst s = .next (landsWord s 12 2 (if n = 17 then BitVec.ofNat 64 s.cur.t0 else a.sr n))) ∧
    (n < 32 → exec .pbw s = .next (withArch (completes s 12 1) fun a => { a with pb := updAt a.pb n (fun _ => v) })) ∧
    writes 1 (v &&& 0x8000000000007FFF) ∧ writes 3 v ∧ writes 5 v ∧ writes 6 (v >>> 10 <<< 10) ∧ writes 7 (v &&& 31) ∧
    writes 8 (v &&& 7) ∧ writes 9 v ∧ writes 10 v ∧ writes 11 v ∧ writes 12 (v &&& 0xFFFFFFFFFFFF) ∧
    writes 13 (v &&& 0xFFFFFFFFFFFF) ∧ writes 15 (v &&& 15) ∧
    (∃ w, writes 14 w ∧ ∀ i, i < 64 → w.getLsbD i =
      if i < 5 then (a.sr 14).getLsbD i && !v.getLsbD i
      else if 8 ≤ i ∧ i < 13 then v.getLsbD i
      else if 16 ≤ i ∧ i < 19 then (if v.getLsbD 18 then (a.sr 14).getLsbD i else v.getLsbD i) else false) ∧
    (s.cur.checked = true ∨ a.ring.reserved = [] →
      let m := (a.sr 22).toNat % 16
      let size := if 4 ≤ v.toNat % 16 ∧ v.toNat % 16 ≤ 12 then v.toNat % 16 else m
      let base := fun (x m : Nat) => (BitVec.ofNat 64 (x % 2 ^ 18 / 2 ^ (m + 4) * 2 ^ (m + 4)) : Word)
      let emptied := fun (f : Arch → Arch) => exec .mvts s = .next (withArch (completes s 12 1) fun a => { f a with
        ring := { a.ring with written := 0, popped := 0, reserved := [] } })
      (n = 21 → emptied fun a => a.setSr 21 (base v.toNat m)) ∧
      (n = 22 → emptied fun a => (a.setSr 22 (BitVec.ofNat 64 size)).setSr 21 (base (a.sr 21).toNat size))) ∧
    (n ∈ [0, 2, 4, 16, 17, 18, 19, 20, 23] → exec .mvts s = .next (completes s 12 1)) ∧
    (s.cur.checked = false → 24 ≤ n → exec .mvst s = .next (faults s 0x03 (opB s)) ∧ exec .mvts s = .next (faults s 0x03 (opB s))) ∧
    (s.cur.checked = false → 32 ≤ n → exec .pbw s = .next (faults s 0x09 (opB s)))

/-- CRPOP at its trigger is in flight with bound 4 and comes again. Then, with a record in a ring that lies in scalar memory, it
lands bits 0 to 63 of the oldest record, counts it as popped and clears its VALID bit in memory, and a flag that b names is to
become 1 where a record is left; with .hdr it lands bits 64 to 127 and leaves ring and memory as they are. (01_core_machine.md
R10, 01_core_machine.md R11, 03_scalar_control_ops.md R88). -/
def Obligations.CompletionRingPops : Prop :=
  ∀ (s : State) (hdr : Bool) (f : Flight), s.cur.core < 256 →
    let c := s.cur.core
    let k := s.core c
    let at_ := 0x400000 + k.arch.crBase + 16 * (k.arch.ring.popped % 2 ^ k.arch.crSize)
    let top := memRead (nth s.lmem c []) (at_ + 8) 8
    let left : Bool := k.arch.ring.popped + 1 < k.arch.ring.written
    (s.cur.stage = 0 → exec (.crpop hdr) s = .next (again (withFlight s { flying s 12 4 with ready := false }) 12 0)) ∧
    (s.cur.stage ≠ 0 → k.arch.ring.popped < k.arch.ring.written → at_ + 16 ≤ 0x440000 → k.poison = [] → k.upsets = [] →
      k.flights = [f] → f.unit = 12 → f.seq = s.cur.seq →
      ∃ t, exec (.crpop hdr) s = .next t ∧
        (t.core c).flights = [{ f with
          ready := true, deferred := false, due := max s.time f.due,
          y0 := wide (if hdr then top else memRead (nth s.lmem c []) at_ 8),
          posts := if (opB s).getLsbD 4 then [.flag ((opB s).toNat % 16) (!hdr && left)] else [] }] ∧
        (t.core c).arch = { k.arch with ring := if hdr then k.arch.ring else { k.arch.ring with popped := k.arch.ring.popped + 1 } } ∧
        t.lmem = (if hdr then s.lmem else updAt s.lmem c (fun m => memPut m (at_ + 8) 8 (top % 2 ^ 63))) ∧
        (∀ d, d ≠ c → t.core d = s.core d) ∧ t.mem = s.mem)

/-- CURQ lands the start of the first frame after the bundle that starts a slot, and with b = 1 the slot's length and kind. Frames
are 9,728 cycles long; frames from 3 on start a slot unless their number is 1 or 2 modulo 256, a long one of 25,000 cycles and
kind 1 where it is a multiple of 256, else one of 960 cycles and kind 0. Any other b gives the precise fault 0x03.
(03_scalar_control_ops.md R89, 14_stack_engines_curry.md R331). -/
def Obligations.NextCurrySlot : Prop :=
  ∀ (s : State),
    let starts := fun (f : Nat) => 3 ≤ f ∧ (f % 256 = 0 ∨ 3 ≤ f % 256)
    (∃ f, starts f ∧ s.cur.t0 < 9728 * f ∧ (∀ g, starts g → s.cur.t0 < 9728 * g → f ≤ g) ∧
      exec .curqStart s = .next (landsWord s 12 2 (BitVec.ofNat 64 (9728 * f))) ∧
      (opB s = 1 → exec .curqDesc s = .next (landsWord s 12 2 (if f % 256 = 0 then 25000 + 2 ^ 16 else 960)))) ∧
    (opB s ≠ 1 → s.cur.checked = false → exec .curqDesc s = .next (faults s 0x03 (opB s)))

/-- Outside a segment GRPINC lands the group count of the task's region and adds b<0..31> to it, or lands all ones and changes
nothing where the sum would pass 2^32 - 1. An admitted LAUNCH outside a segment, with the S, V and M accesses of its task before
it performed, to a queue with room lands the queue's next sequence value, and the launch stands last in the dispatcher's list;
to one that is full it lands 0. ERET turns its core to returning, and once every operation has landed the pc is TRAPPC and
INTRAP is clear; with INTRAP clear already it is the precise fault 0x03. RLOG of a task whose region neither records nor replays lands
b<0..31>. When a queue counts as full for LAUNCH, that LAUNCH waits for its task's accesses on S, V and M, and the TRAPINFO of ERET's
fault, its destination, are the model's choices (notes/assumptions/19.md, notes/assumptions/20.md, notes/assumptions/21.md). (03_scalar_control_ops.md R90,
03_scalar_control_ops.md R91, 03_scalar_control_ops.md R92, 03_scalar_control_ops.md R93, 03_scalar_control_ops.md R94,
01_core_machine.md R37, 04_execution_model.md R103). -/
def Obligations.GroupsLaunchesReturnsAndLogs : Prop :=
  ∀ (s : State), s.cur.core < 256 →
    let c := s.cur.core
    let k := s.core c
    let b := (opB s).toNat
    (∀ (x : Ctx) (r : Region), k.ctx = some x → regionOf s x.ref = some r → k.seg = none →
      (2 ^ 32 ≤ r.g + b % 2 ^ 32 → exec .grpinc s = .next (landsWord s 12 40 (BitVec.allOnes 64))) ∧
      (r.g + b % 2 ^ 32 < 2 ^ 32 → ∃ t, exec .grpinc s = .next t ∧ t.cores = (landsWord s 12 40 (BitVec.ofNat 64 r.g)).cores ∧
        regionOf t x.ref = some { r with g := r.g + b % 2 ^ 32 } ∧ t.lmem = s.lmem ∧ t.mem = s.mem ∧ t.ctrs = s.ctrs)) ∧
    (admitted .launch s → k.seg = none → pathsDone s c 7 (s.cur.covers s) = true →
      let q := s.queue b
      (decide (2 ^ q.log2n ≤ queuedCount s b) = true → exec .launch s = .next (landsWord s 12 60 0)) ∧
      (decide (2 ^ q.log2n ≤ queuedCount s b) = false → ∃ t, exec .launch s = .next t ∧
        t.cores = (landsWord s 12 60 (BitVec.ofNat 64 q.nextSeq)).cores ∧
        t.disp.launches = s.disp.launches ++ [⟨s.disp.nextLaunch, b, q.nextSeq, (opA s).toNat % 2 ^ 48, k.ctx.map (·.ref), .queued,
          false, false, false, []⟩] ∧
        t.queue b = { q with nextSeq := q.nextSeq + 1 } ∧ t.lmem = s.lmem ∧ t.mem = s.mem ∧ t.ctrs = s.ctrs)) ∧
    (admitted .eret s → s.cur.stage = 0 →
      exec .eret s = .next (again (withCore s c fun k => { k with flow := .returning }) 12 1)) ∧
    (admitted .eret s → s.cur.stage ≠ 0 → k.flow = .returning → k.quiet = true → ∃ t, exec .eret s = .next t ∧
      t.core c = { k with flow := .running, pc := (k.arch.sr 3).toNat, arch := k.arch.setSr 0 (k.arch.sr 0 &&& ~~~1) } ∧
      (∀ d, d ≠ c → t.core d = s.core d) ∧ t.lmem = s.lmem ∧ t.mem = s.mem) ∧
    (s.cur.checked = false → k.arch.inTrap = false → exec .eret s = .next (faults s 0x03 (BitVec.ofNat 64 s.cur.dest))) ∧
    (s.cur.stage = 0 → (∀ x, k.ctx = some x → rrMode s x = 0) →
      exec .rlog s = .next (landsWord s 12 8 ((opB s).setWidth 32 |>.setWidth 64)))

/-- On every integer type each of these lands, within 2 cycles (VMAC 4), a vector each of whose elements is the exact result on the
elements of the operands, reduced modulo 2^w or, with .sat, clamped to the type's range; minima, maxima and clamping choose by
the type's order. Nothing else changes. (06_vector_ops.md R155, 06_vector_ops.md R163, 06_vector_ops.md R164, 06_vector_ops.md
R169). -/
def Obligations.VectorIntegerArithmetic : Prop :=
  ∀ (s : State) (u sat : Bool) (ty : ElemType), tyFloat ty = false →
    let w := tyWidth ty
    let hi : Int := if tySigned ty then 2 ^ (w - 1) - 1 else 2 ^ w - 1
    let lo : Int := if tySigned ty then -(2 ^ (w - 1)) else 0
    let md : BitVec 3 := if sat then 1 else 0
    let A := fun (j : Nat) => tyInt ty (el s.cur.a w j)
    let B := fun (j : Nat) => tyInt ty (el s.cur.b w j)
    let C := fun (j : Nat) => tyInt ty (el s.cur.c w j)
    let gives := fun (i : Instr) (unit bound : Nat) (f : Nat → Int) => ∃ y, exec i s = .next (lands s unit bound y) ∧
      ∀ j, j < 8192 / w → ((el y w j : Nat) : Int) = (if sat then max lo (min hi (f j)) else f j) % 2 ^ w
    let va := if u then 14 else 13
    gives (.vadd u ty md) va 2 (fun j => A j + B j) ∧ gives (.vsub u ty md) va 2 (fun j => A j - B j) ∧
    gives (.vmul u ty md) va 2 (fun j => A j * B j) ∧ gives (.vmac ty sat) 15 4 (fun j => C j + A j * B j) ∧
    gives (.vabs u ty sat) va 2 (fun j => |B j|) ∧ gives (.vneg u ty sat) va 2 (fun j => -(B j)) ∧
    gives (.vmin u ty) va 2 (fun j => min (A j) (B j)) ∧ gives (.vmax u ty) va 2 (fun j => max (A j) (B j)) ∧
    gives (.vclamp u ty) va 2 (fun j => min (max (B j) (A j)) (C j))

/-- On f32 and bf16 elements VADD, VSUB and VMUL (bound 2), VFMA, VFMS and VFNMA (4), VDIV and VSQRT (12), VRCP and VRSQ (8), VEXP2,
VLOG2 and VTANH (10) land a vector each of whose elements is the exact result on the operands' elements, rounded once under the
rounding modifier. VABS and VNEG clear and flip the sign bit, and a NaN gives the canonical NaN. VMIN and VMAX give the smaller and
the larger of two numbers, -0 below +0, the other operand where one is a NaN, and the canonical NaN for two; VCLAMP gives
min(max(x, lo), hi) by these, so that a NaN bound is ignored, and the canonical NaN for a NaN x. (06_vector_ops.md R162, 06_vector_ops.md R164, 06_vector_ops.md R169,
06_vector_ops.md R171). -/
def Obligations.VectorFloatArithmetic : Prop :=
  ∀ (s : State) (u sat : Bool) (ty : ElemType) (rm : BitVec 3), tyFloat ty = true →
    let w := tyWidth ty
    let A := fun (j : Nat) => tyNum ty (el s.cur.a w j)
    let B := fun (j : Nat) => tyNum ty (el s.cur.b w j)
    let C := fun (j : Nat) => tyNum ty (el s.cur.c w j)
    let va := if u then 14 else 13
    let lands_ := fun (i : Instr) (unit bound : Nat) (f : Nat → Nat) => ∃ y, exec i s = .next (lands s unit bound y) ∧
      ∀ j, j < 8192 / w → el y w j = f j % 2 ^ w
    let gives := fun (i : Instr) (unit bound : Nat) (f : Nat → Machine.Num) =>
      lands_ i unit bound fun j => roundIeee (tyFmt ty) rm.toNat (f j)
    let sum := Machine.Num.add (rm = 3)
    let sign := fun (f : Bool → Bool) (j : Nat) => if (B j).isNan then (tyFmt ty).nanCode
      else el s.cur.b w j % 2 ^ (w - 1) + (f (s.cur.b.getLsbD (w * j + w - 1))).toNat * 2 ^ (w - 1)
    gives (.vadd u ty rm) va 2 (fun j => sum (A j) (B j)) ∧ gives (.vsub u ty rm) va 2 (fun j => sum (A j) (B j).negate) ∧
    gives (.vmul u ty rm) va 2 (fun j => (A j).mul (B j)) ∧
    gives (.vfma ty rm) 15 4 (fun j => sum ((A j).mul (B j)) (C j)) ∧
    gives (.vfms ty rm) 15 4 (fun j => sum ((A j).mul (B j)) (C j).negate) ∧
    gives (.vfnma ty rm) 15 4 (fun j => sum ((A j).mul (B j)).negate (C j)) ∧
    gives (.vdiv ty rm) 15 12 (fun j => (A j).div (B j)) ∧ gives (.vsqrt ty rm) 15 12 (fun j => (B j).sqrt) ∧
    gives (.vrcp ty rm) 15 8 (fun j => (B j).rcp) ∧ gives (.vrsq ty rm) 15 8 (fun j => (B j).rsq) ∧
    gives (.vexp2 ty rm) 15 10 (fun j => (B j).exp2) ∧ gives (.vlog2 ty rm) 15 10 (fun j => (B j).log2) ∧
    gives (.vtanh ty rm) 15 10 (fun j => (B j).tanh) ∧
    lands_ (.vabs u ty sat) va 2 (sign fun _ => false) ∧ lands_ (.vneg u ty sat) va 2 (sign fun n => !n) ∧
    (let nan := fun (p : Nat) => (tyNum ty p).isNan
     let below := fun (p q : Nat) => (tyNum ty p).lt (tyNum ty q) || ((tyNum ty p).eq (tyNum ty q) && (tyNum ty p).neg? && !(tyNum ty q).neg?)
     let pick := fun (p q z : Nat) => if nan p && nan q then (tyFmt ty).nanCode else if nan p then q else if nan q then p else z
     let mn := fun (p q : Nat) => pick p q (if below p q then p else q)
     let mx := fun (p q : Nat) => pick p q (if below p q then q else p)
     let a := fun (j : Nat) => el s.cur.a w j
     let b := fun (j : Nat) => el s.cur.b w j
     let c := fun (j : Nat) => el s.cur.c w j
     lands_ (.vmin u ty) va 2 (fun j => mn (a j) (b j)) ∧ lands_ (.vmax u ty) va 2 (fun j => mx (a j) (b j)) ∧
     lands_ (.vclamp u ty) va 2 (fun j => if nan (b j) then (tyFmt ty).nanCode else mn (mx (a j) (b j)) (c j)))

/-- In every state, within 2 cycles and with nothing else changed, the logic operations land the bitwise result; the shifts land
elements shifted by the element of b, a count of the width or more giving zeros, or for VSAR the sign fill; VSEL lands lanes of
a where bit 0 of c's lane is 1 and lanes of b elsewhere; VIOTA lands elements that count up from lane 0 of b. Each lands, within
2 cycles, a vector whose elements are 1 where the relation of the operands' elements holds and 0 elsewhere, by the order of the
type; on floats a NaN is unequal to everything and not below anything, and -0 equals +0. Nothing else changes. (06_vector_ops.md
R164, 06_vector_ops.md R166). -/
def Obligations.VectorLogicAndComparisons : Prop :=
  (∀ (s : State) (u : Bool) (ty : ElemType),
     let a := s.cur.a
     let b := s.cur.b
     let w := tyWidth ty
     let gives := fun (i : Instr) (y : Vec) => exec i s = .next (lands s (if u then 14 else 13) 2 y)
     let each := fun (i : Instr) (f : Nat → BitVec w) => ∃ y, gives i y ∧ ∀ j, j < 8192 / w → y.extractLsb' (w * j) w = f j
     gives (.vand u) (a &&& b) ∧ gives (.vor u) (a ||| b) ∧ gives (.vxor u) (a ^^^ b) ∧ gives (.vandn u) (a &&& ~~~b) ∧
     each (.vshl u ty) (fun j => if w ≤ el b w j then 0 else a.extractLsb' (w * j) w <<< el b w j) ∧
     each (.vshr u ty) (fun j => if w ≤ el b w j then 0 else a.extractLsb' (w * j) w >>> el b w j) ∧
     each (.vsar u ty) (fun j => (a.extractLsb' (w * j) w).sshiftRight (min (el b w j) (w - 1))) ∧
     each (.viota u ty) (fun j => BitVec.ofNat w (b.toNat % 2 ^ 32 + j)) ∧
     (∃ y, gives (.vsel u) y ∧ ∀ l, l < 256 → lane y l = if s.cur.c.getLsbD (32 * l) then lane a l else lane b l)) ∧
  (∀ (s : State) (u : Bool) (ty : ElemType),
     let w := tyWidth ty
     let gives := fun (i : Instr) (r : Int → Int → Bool) (f : Machine.Num → Machine.Num → Bool) =>
       ∃ y, exec i s = .next (lands s (if u then 14 else 13) 2 y) ∧ ∀ j, j < 8192 / w →
         (let p := el s.cur.a w j; let q := el s.cur.b w j
          el y w j = (if tyFloat ty then f (tyNum ty p) (tyNum ty q) else r (tyInt ty p) (tyInt ty q)).toNat)
     gives (.vceq u ty) (fun x y => x = y) Machine.Num.eq ∧ gives (.vcne u ty) (fun x y => x ≠ y) (fun x y => !x.eq y) ∧
     gives (.vclt u ty) (fun x y => x < y) Machine.Num.lt ∧ gives (.vcle u ty) (fun x y => x ≤ y) (fun x y => x.lt y || x.eq y))

/-- Predicate logic and PSETN land lanes of 0 or 1 within 2 cycles. An admitted PCNT lands in every lane the number of lanes that
pass the guard and whose bit 0 of b is 1, PFIRST the lowest such lane or 256, with a completion record under .cr. PPACK lands
bit j of lane l as bit l of the predicate named j, or with .hi 8 + j, and PUNPACK lands b and writes eight predicates, named
through ROTP as its bundle found it. (06_vector_ops.md R157, 06_vector_ops.md R158, 06_vector_ops.md R167, 06_vector_ops.md
R168). -/
def Obligations.PredicateOperations : Prop :=
  ∀ (s : State) (u cr hi : Bool),
    let a := s.cur.a
    let b := s.cur.b
    let va := if u then 14 else 13
    let gives := fun (i : Instr) (f : Nat → Bool) => ∃ y, exec i s = .next (lands s va 2 y) ∧
      ∀ l, l < 256 → lane y l = (f l).toNat
    let bitA := fun (l : Nat) => a.getLsbD (32 * l)
    let bitB := fun (l : Nat) => b.getLsbD (32 * l)
    let hits := (List.range 256).filter fun l => shown s l && bitB l
    let base := if hi then 8 else 0
    let rotp := s.cur.aux.toNat / 2 ^ 4096 % 8
    let phys := fun (j : Nat) => if hi then 8 + (j + rotp) % 8 else j
    gives (.pand u) (fun l => bitA l && bitB l) ∧ gives (.por u) (fun l => bitA l || bitB l) ∧
    gives (.pxor u) (fun l => bitA l ^^ bitB l) ∧ gives (.pandn u) (fun l => bitA l && !bitB l) ∧
    gives (.pnot u) (fun l => !bitB l) ∧ gives (.psetn u) (fun l => l < b.toNat % 2 ^ 32) ∧
    (admitted (.pcnt u cr) s →
      exec (.pcnt u cr) s = .next (landsRecorded s va 2 cr (broadcast hits.length) hits.length)) ∧
    (admitted (.pfirst u cr) s →
      exec (.pfirst u cr) s = .next (landsRecorded s va 2 cr (broadcast (hits.head?.getD 256)) (hits.head?.getD 256))) ∧
    (∃ y, exec (.ppack u hi) s = .next (lands s va 2 y) ∧ ∀ l j, l < 256 → j < 32 →
      y.getLsbD (32 * l + j) = (decide (j < 8) && s.cur.aux.getLsbD (256 * (base + j) + l))) ∧
    (∃ f : Nat → Mask, (∀ j l, l < 256 → (f j).getLsbD l = b.getLsbD (32 * l + j)) ∧
      exec (.punpack u hi) s = .next (withFlight s { flying s va 2 with
        y0 := b, preds := (List.range 8).map phys, posts := (List.range 8).map (fun j => Post.pred (phys j) (f j)) }))

/-- An admitted VCVT lands, in the destination elements that its quarter names, the source elements converted under the rounding
code of lane 0 of a, and the elements of c elsewhere; at landing it counts the events of the converted elements in lanes that
pass. VDOT4 lands, in each lane, the lane of c plus four byte products, wrapped or saturated to 32 bits, or plus two bf16
products rounded once to f32. (06_vector_ops.md R165, 06_vector_ops.md R170, 05_numbers.md R134, 05_numbers.md R135,
05_numbers.md R138). -/
def Obligations.VectorConversionsAndDots : Prop :=
  ∀ (s : State) (u : Bool) (src dst ty : ElemType) (md : BitVec 3),
    (admitted (.vcvt u src dst) s →
      let p := s.cur.a.toNat % 2 ^ 32
      let rm := p % 8
      let q := p / 16 % 4
      let ws := tyWidth src
      let wd := tyWidth dst
      let n := 8192 / max ws wd
      let first := if wd < ws then q * n else 0
      let from_ := if ws < wd then q * n else 0
      let one := fun (j : Nat) => cvtElem src dst rm
        (if rm = 4 then randomBits s s.cur.core s.cur.srSeq 2 0 j else 0) (s.cur.a.getLsbD 3) (el s.cur.b ws (from_ + (j - first)))
      let counted := ((List.range n).map (· + first)).filter fun j => shown s (j * wd / 32)
      ∃ y, exec (.vcvt u src dst) s = .next (withFlight (countingSr s (rm = 4)) { flying s (if u then 14 else 13) 2 with
          y0 := y, posts := [.conv ((counted.map fun j => (one j).sat).sum) ((counted.map fun j => (one j).flush).sum)
            ((counted.map fun j => (one j).nan).sum)] }) ∧
        ∀ j, j < 8192 / wd → el y wd j = if first ≤ j ∧ j < first + n then (one j).code % 2 ^ wd else el s.cur.c wd j) ∧
    (∃ y, exec (.vdot4 ty md) s = .next (lands s 15 4 y) ∧ ∀ l, l < 256 →
      let c := lane s.cur.c l
      let byte := fun (i : Nat) => tyInt ty (el s.cur.a 8 (4 * l + i)) * tyInt ty (el s.cur.b 8 (4 * l + i))
      let half := fun (i : Nat) => (tyNum .bf16 (el s.cur.a 16 (2 * l + i))).mul (tyNum .bf16 (el s.cur.b 16 (2 * l + i)))
      let out : ElemType := if tySigned ty then .i32 else .ui32
      let z := tyInt out c + byte 0 + byte 1 + byte 2 + byte 3
      (ty = .bf16 → lane y l = roundIeee .f32 md.toNat
        (Machine.Num.add (md = 3) (Machine.Num.add (md = 3) (half 0) (half 1)) (f32 c)) % 2 ^ 32) ∧
      (ty ≠ .bf16 → ((lane y l : Nat) : Int) = (if md.getLsbD 0 then tyClamp out z else z) % 2 ^ 32))

/-- In every state each lands, within 3 cycles, the elements of the table: with s the parameter of b and n the element count, VSHUF
a[b[j]] or 0, VROT a[(j - s) mod n], VBCAST a[s] or 0, VZIP the halves of a and b interleaved, VUNZIP their even or odd
elements, VSLIDE element j + s of a, then c, then zeros. Nothing else changes. VEXPAND lands in a selected lane the lane of a
numbered by the selected lanes below it, and in the others the lane of c. An admitted VCOMPRESS lands the selected lanes of a at
positions 0 upward and lanes of c beyond them; the count of selected lanes is its second result, in every lane, and with .cr its
record. (06_vector_ops.md R155, 06_vector_ops.md R156, 06_vector_ops.md R172, 06_vector_ops.md R157, 06_vector_ops.md R158,
06_vector_ops.md R173). -/
def Obligations.VectorPermutesAndExpansion : Prop :=
  (∀ (s : State) (ty : ElemType) (hi : Bool),
     let w := tyWidth ty
     let n : Nat := 8192 / w
     let A := fun (j : Nat) => el s.cur.a w j
     let B := fun (j : Nat) => el s.cur.b w j
     let C := fun (j : Nat) => el s.cur.c w j
     let k : Nat := s.cur.b.toNat % 2 ^ 32
     let h := if hi then n / 2 else 0
     let o := if hi then 1 else 0
     let gives := fun (i : Instr) (f : Nat → Nat) => ∃ y, exec i s = .next (lands s 16 3 y) ∧ ∀ j, j < n → el y w j = f j
     gives (.vshuf ty) (fun j => if n ≤ B j then 0 else A (B j)) ∧
     gives (.vrot ty) (fun j => A (((j : Int) - (k : Int)) % (n : Int)).toNat) ∧
     gives (.vbcast ty) (fun _ => if n ≤ k then 0 else A k) ∧
     (∃ y, exec (.vzip ty hi) s = .next (lands s 16 3 y) ∧
       ∀ i, i < n / 2 → el y w (2 * i) = A (i + h) ∧ el y w (2 * i + 1) = B (i + h)) ∧
     (∃ y, exec (.vunzip ty hi) s = .next (lands s 16 3 y) ∧
       ∀ i, i < n / 2 → el y w i = A (2 * i + o) ∧ el y w (n / 2 + i) = B (2 * i + o)) ∧
     gives (.vslide ty) (fun j => if j + k < n then A (j + k) else if j + k < 2 * n then C (j + k - n) else 0)) ∧
  (∀ (s : State) (cr : Bool),
     let sel := fun (l : Nat) => s.cur.b.getLsbD (32 * l)
     let below := fun (l : Nat) => (List.range l).countP sel
     let k := below 256
     (∃ y, exec .vexpand s = .next (lands s 16 4 y) ∧
       ∀ l, l < 256 → lane y l = if sel l then lane s.cur.a (below l) else lane s.cur.c l) ∧
     (admitted (.vcompress cr) s → ∃ y, exec (.vcompress cr) s = .next (withFlight (reserving s cr) { flying s 16 4 with
         y0 := y, y1 := some (broadcast k), posts := if cr then [.record k 16 (s.cur.dest / 64 % 256)] else [] }) ∧
       (∀ l, l < 256 → sel l = true → lane y (below l) = lane s.cur.a l) ∧
       (∀ l, k ≤ l → l < 256 → lane y l = lane s.cur.c l)))

/-- On a core whose data are intact, an admitted VPACK puts the 256 elements of a, quantised under the keeper's scales and the control word of b, into part p of c,
and counts their events; where blocks hold a NaN it counts one for each and is to write 0xFF into their scale bytes, as one
write of the keeper. An admitted VUNPACK lands the 256 elements of part p of a, decoded under their scales and converted to f32.
VPLANE replaces 128 bytes of c by plane np of the elements of a. (06_vector_ops.md R174, 06_vector_ops.md R175, 06_vector_ops.md
R177, 05_numbers.md R136, 05_numbers.md R137, 05_numbers.md R138). -/
def Obligations.PackUnpackAndPlanes : Prop :=
  ∀ (s : State) (fmt : BitVec 4),
    let c := s.cur.core
    let f := Fmt.ofCode fmt.toNat
    let p := s.cur.b.toNat % 2 ^ 32
    let keep := p % 64
    let soff := p / 2 ^ 6 % 2 ^ 10
    let rm := p / 2 ^ 16 % 8
    let part := p / 2 ^ 20 % 8
    let kp := nth (s.core c).arch.keepers keep Keeper.reset
    let z := if f = .bsf4 then 8 else 32
    let scale := fun (j : Nat) => if f = .bf16 then 127 else digit kp.bytes.toNat 8 (soff + j / z)
    let band := if f = .bsf4 then digit kp.band.toNat 16 (p / 2 ^ 23 % 16) else 0x3F80
    let random := fun (j : Nat) => if rm = 4 then randomBits s c s.cur.srSeq 2 0 (256 * part + j) else 0
    let x := fun (j : Nat) => f32 (lane s.cur.a j)
    let mode := fun (j : Nat) => if f = .bf16 then BlockMode.plain
      else blockMode (f = .bsf4) (scale j) band ((List.range z).map fun i => x (j / z * z + i))
    let packed := fun (j : Nat) => quantise f (mode j) (scale j) band rm (random j) (s.cur.b.getLsbD 19) (x j)
    let opened := fun (j : Nat) => convert .f32 rm (random j) false
      (scaledValue f (scale j) band (digit s.cur.a.toNat f.width (256 * part + j)))
    let lane_ := fun (j : Nat) => (part * 256 + j) * f.width / 32
    let starts := (List.range (256 / z)).map (· * z)
    let nans := starts.filter fun j => mode j = .nanBlock
    let old := starts.filter fun j => mode j = .nanScale && (List.range z).any fun i => shown s (lane_ (j + i))
    let counted := (List.range 256).filter fun j => shown s (lane_ j)
    let sum := fun (l : List Nat) (g : Nat → Nat) => (l.map g).sum
    let size := 256 * f.width
    let marked := fun (s : State) => if nans = [] then s
      else withArch s fun a => { a with keepers := updAt a.keepers keep (fun y => { y with writes := y.writes + 1 }) }
    let sound := (s.core c).poison = [] ∧ (s.core c).upsets = []
    (admitted (.vpack fmt) s → sound → ∃ y, exec (.vpack fmt) s = .next (withFlight (marked (countingSr s (rm = 4))) { flying s 16 6 with
        y0 := y,
        posts := .conv (sum counted fun j => (packed j).sat) (sum counted fun j => (packed j).flush)
            (nans.length + old.length + sum counted fun j => (packed j).nan) ::
          (if nans = [] then []
           else [.keeper keep (byteMask (nans.map fun j => soff + j / z)) (BitVec.allOnes 8192) 0 0 false]) }) ∧
      ∀ i, i < 8192 → y.getLsbD i = if part * size ≤ i ∧ i < part * size + size
        then (packed ((i - part * size) / f.width)).code.testBit ((i - part * size) % f.width) else s.cur.c.getLsbD i) ∧
    (admitted (.vunpack fmt) s → sound → ∃ y, exec (.vunpack fmt) s = .next (withFlight (countingSr s (rm = 4)) { flying s 16 6 with
        y0 := y,
        posts := [.conv (sum ((List.range 256).filter (shown s)) fun j => (opened j).sat)
          (sum ((List.range 256).filter (shown s)) fun j => (opened j).flush)
          (sum ((List.range 256).filter (shown s)) fun j => (opened j).nan)] }) ∧
      ∀ j, j < 256 → lane y j = (opened j).code % 2 ^ 32) ∧
    (∃ y, exec (.vplane fmt) s = .next (lands s 16 4 y) ∧ ∀ i, i < 8192 → y.getLsbD i =
      if i / 1024 = p / 32 % 8 then decide (planeBit f (p % 32) (digit s.cur.a.toNat f.width (i % 1024)) = 1)
      else s.cur.c.getLsbD i)

/-- An admitted VACCRD lands, raw, the 16-byte images of 64 elements, or 256 elements rounded with band scales of 1, counting events
in the lanes that pass. An admitted VACCWR is to hold its accumulator busy until it lands, and writes the elements whose lanes
pass, from f32 codes or from raw images; an ill-formed image among those written marks the accumulator invalid, writes no
element and is to raise 0x12. No other accumulator and no other state changes. (06_vector_ops.md R178, 06_vector_ops.md R179,
05_numbers.md R146, 05_numbers.md R150). -/
def Obligations.AccumulatorReadsAndWrites : Prop :=
  ∀ (s : State) (ty : ElemType) (rm : BitVec 3), s.cur.core < 256 →
    let c := s.cur.core
    let k := s.core c
    let n := s.cur.b.toNat % 4
    let q := s.cur.b.toNat / 16 % 16
    let acc := nth k.arch.accs n (Acc.reset n)
    let at_ := fun (a : Acc) (i : Nat) => nth a.els i AccEl.zero
    let raw : Bool := ty = .ui32
    let code := fun (m : Nat) => drainEl (tyFmt ty) rm.toNat
      (if rm = 4 then randomBits s c s.cur.srSeq 2 0 (256 * q + m) else 0) (at_ acc (256 * q + m)) 0x3F80 0x3F80
    let seen := (List.range 256).filter (shown s)
    let image := fun (m : Nat) => s.cur.a.toNat / 2 ^ (128 * m) % 2 ^ 128
    let whole := fun (m : Nat) => (List.range 4).all fun i => shown s (4 * m + i)
    let bad : Bool := raw && (List.range 64).any fun m => whole m && (accOfImage (image m)).isNone
    (admitted (.vaccrd ty rm) s → raw = true → ∃ y, exec (.vaccrd ty rm) s = .next (lands s 16 8 y) ∧
      ∀ m, m < 64 → y.toNat / 2 ^ (128 * m) % 2 ^ 128 = (at_ acc (64 * q + m)).image) ∧
    (admitted (.vaccrd ty rm) s → raw = false → ∃ y,
      exec (.vaccrd ty rm) s = .next (withFlight (countingSr s (rm = 4)) { flying s 16 8 with
        y0 := y,
        posts := [.conv (seen.map fun m => (code m).sat).sum (seen.map fun m => (code m).flush).sum
          (seen.map fun m => (code m).nan).sum] }) ∧
      ∀ m, m < 256 → lane y m = (code m).code % 2 ^ 32) ∧
    (admitted (.vaccwr ty) s → ∃ t, exec (.vaccwr ty) s = .next t ∧
      (t.core c).arch = { k.arch with accs := (t.core c).arch.accs } ∧
      (∀ m, m < 4 → m ≠ n → nth (t.core c).arch.accs m acc = nth k.arch.accs m acc) ∧
      nth (t.core c).arch.accs n acc = { acc with
        els := (nth (t.core c).arch.accs n acc).els
        busy := acc.busy ++ [2 ^ 32 + s.cur.seq]
        invalid := acc.invalid || bad } ∧
      (∀ i, i < 1024 → at_ (nth (t.core c).arch.accs n acc) i =
        if bad then at_ acc i
        else if raw then (if i / 64 = q ∧ whole (i % 64) then (accOfImage (image (i % 64))).getD (at_ acc i) else at_ acc i)
        else if i / 256 = q ∧ shown s (i % 256) then accOfF32 (lane s.cur.a (i % 256)) else at_ acc i) ∧
      (∃ x, (t.core c).flights = (putFlight k { flying s 16 8 with
        lands := false,
        posts := .accFree n (2 ^ 32 + s.cur.seq) :: if bad then [.fault 0x12 x s.cur.slot] else [] }).flights) ∧
      (∀ d, d ≠ c → t.core d = s.core d) ∧ t.lmem = s.lmem ∧ t.mem = s.mem)

/-- Admitted, each reduction lands one scalar in every lane within 8 cycles and records it with .cr. On integers the sum is taken
modulo 2^32, the extreme is an input that no input passes, or the type's neutral value where no lane passes, and VARGMAX and
VARGMIN land the lane of an extreme input that precedes its ties in the order of the tie hash and the lane, or all ones. VSCAN
lands in lane l the sum of the passing inputs at lanes up to l, with .ex below l, within 10 cycles, and its record is the total.
(05_numbers.md R154, 06_vector_ops.md R180, 06_vector_ops.md R181, 06_vector_ops.md R182, 06_vector_ops.md R183). -/
def Obligations.ReductionsAndScan : Prop :=
  ∀ (s : State) (ty : ElemType) (cr ex : Bool),
    let ins := ((List.range 256).filter (shown s)).map fun l => (l, lane s.cur.b l)
    let total := fun (l : List (Nat × Nat)) => if tyFloat ty then sumOf ty l else ((l.map fun (x : Nat × Nat) => tyInt ty x.2).sum % 2 ^ 32).toNat
    let gives := fun (i : Instr) (v : Nat) => exec i s = .next (landsRecorded s 18 8 cr (broadcast v) v)
    let h := fun (l : Nat) => tieHash s s.cur.core l
    let firstOf := fun (up : Bool) (l : Nat) => let v := lane s.cur.b l; (l, v) ∈ ins ∧ keyNan ty v = false ∧ ∀ x ∈ ins, keyNan ty x.2 = true ∨ x.1 = l ∨
      (if up then keyLess ty x.2 v else keyLess ty v x.2) = true ∨
      (keyLess ty x.2 v = false ∧ keyLess ty v x.2 = false ∧ (h l < h x.1 ∨ h l = h x.1 ∧ l < x.1))
    (tyWidth ty = 32 → admitted (.vrsum ty cr) s → gives (.vrsum ty cr) (total ins)) ∧
    (admitted (.vrmax ty cr) s → gives (.vrmax ty cr) (extremeOf ty true ins)) ∧
    (admitted (.vrmin ty cr) s → gives (.vrmin ty cr) (extremeOf ty false ins)) ∧
    (tyFloat ty = false → ins ≠ [] → extremeOf ty true ins ∈ ins.map (·.2) ∧ extremeOf ty false ins ∈ ins.map (·.2) ∧
      ∀ x ∈ ins, tyInt ty x.2 ≤ tyInt ty (extremeOf ty true ins) ∧ tyInt ty (extremeOf ty false ins) ≤ tyInt ty x.2) ∧
    (ins = [] → extremeOf .i32 true ins = 2 ^ 31 ∧ extremeOf .i32 false ins = 2 ^ 31 - 1 ∧ extremeOf .ui32 true ins = 0 ∧
      extremeOf .ui32 false ins = 2 ^ 32 - 1 ∧ extremeOf .f32 true ins = 0xFF800000 ∧ extremeOf .f32 false ins = 0x7F800000) ∧
    (admitted (.vargmax ty cr) s → (∃ l, firstOf true l ∧ gives (.vargmax ty cr) l) ∨
      (∀ x ∈ ins, keyNan ty x.2 = true) ∧ gives (.vargmax ty cr) (2 ^ 32 - 1)) ∧
    (admitted (.vargmin ty cr) s → (∃ l, firstOf false l ∧ gives (.vargmin ty cr) l) ∨
      (∀ x ∈ ins, keyNan ty x.2 = true) ∧ gives (.vargmin ty cr) (2 ^ 32 - 1)) ∧
    (tyWidth ty = 32 → admitted (.vscan ty cr ex) s → ∃ y, exec (.vscan ty cr ex) s = .next (withFlight (reserving s cr) { flying s 18 10 with
        y0 := y, posts := if cr then [.record (total ins) 18 (s.cur.dest / 64 % 256)] else [] }) ∧
      ∀ l, l < 256 → lane y l = total (ins.filter fun (x : Nat × Nat) => decide (if ex then x.1 < l else x.1 ≤ l)))

/-- On 32-bit types VSORT lands the passing keys in order, ties by hash and lane, a NaN as the canonical one, with the lanes of b
beside them. An admitted VTOPK lands the first k of the keys that are no NaN, from the largest, or with .desc from the smallest,
and their lanes; VUNIQ one key of each class of equal keys in ascending order, the one that precedes its ties, and its lane.
VMERGE walks the pairs of both operands up to their end keys: while fewer than 128 pairs are out it takes the pair with the smaller
key, or at equal keys both with their payloads combined, and puts it out unless .dz drops its zero; it lands those pairs, then end
keys, and the three counts, which it records with .cr; a single NaN is put out as the canonical one. (05_numbers.md R128,
05_numbers.md R154, 06_vector_ops.md R180, 06_vector_ops.md R181, 06_vector_ops.md R184, 06_vector_ops.md R185, 06_vector_ops.md R186,
06_vector_ops.md R187). -/
def Obligations.SortsSelectionsAndMerges : Prop :=
  ∀ (s : State) (ty : ElemType) (cr desc dz : Bool) (comb pt : BitVec 2), tyWidth ty = 32 →
    let ins := ((List.range 256).filter (shown s)).map fun l => (⟨lane s.cur.a l, l, tieHash s s.cur.core l⟩ : Keyed)
    let record := fun (v : Nat) => if cr then [Post.record v 18 (s.cur.dest / 64 % 256)] else []
    let two := fun (n : Nat) (x y : List Nat) => { flying s 18 n with y0 := lanesOf x, y1 := some (lanesOf y) }
    let pad := fun (n : Nat) (l : List Nat) => l ++ List.replicate (n - l.length) (2 ^ 32 - 1)
    let k := s.cur.b.toNat % 2 ^ 32
    let out := fun (x : Nat) => if ty = .f32 ∧ keyNan ty x = true then 0x7FC00000 else x
    (∃ l : List Keyed, l.Perm ins ∧ l.Pairwise (fun x y => x.before ty desc y = true) ∧
      exec (.vsort ty desc) s = .next (withFlight s (two 32 (l.map fun x => out x.key) (l.map fun x => lane s.cur.b x.lane)))) ∧
    (admitted (.vtopk ty cr desc) s → k ≤ 256 → ∃ l : List Keyed, l.Perm (ins.filter fun x => !keyNan ty x.key) ∧
      l.Pairwise (fun x y => x.before ty (!desc) y = true) ∧
      exec (.vtopk ty cr desc) s = .next (withFlight (reserving s cr) { two 24 ((l.take k).map (·.key)) (pad k ((l.take k).map (·.lane))) with
        posts := record (min k l.length) })) ∧
    (admitted (.vuniq ty cr) s → ∃ l : List Keyed, (∀ x ∈ l, x ∈ ins) ∧ l.Pairwise (fun x y => keyLess ty x.key y.key = true) ∧
      (∀ x ∈ ins, ∃ r ∈ l, keyLess ty r.key x.key = false ∧ keyLess ty x.key r.key = false ∧ (r = x ∨ r.tie x = true)) ∧
      exec (.vuniq ty cr) s = .next (withFlight (reserving s cr) { two 16 (pad 256 (l.map fun x => out x.key)) (pad 256 (l.map (·.lane))) with
        posts := record l.length })) ∧
    (admitted (.vmerge comb dz cr pt) s → comb ≠ 3 → pt ≠ 3 →
      let ty : ElemType := if pt = 0 then .f32 else if pt = 1 then .i32 else .ui32
      let key := fun (v : Vec) (i : Nat) => lane v (2 * i)
      let load := fun (v : Vec) (i : Nat) => lane v (2 * i + 1)
      let alone := fun (x : Nat) => if pt = 0 ∧ keyNan .f32 x = true then 0x7FC00000 else x
      let both := fun (x y : Nat) =>
        if comb = 0 then (if pt = 0 then roundIeee .f32 0 (Machine.Num.add false (f32 x) (f32 y)) else (x + y) % 2 ^ 32)
        else pickElem ty (comb = 2) x y
      let zero := fun (v : Nat) => v = 0 ∨ pt = 0 ∧ v = 2 ^ 31
      let ends := fun (v : Vec) (n : Nat) => n ≤ 128 ∧ (∀ i, i < n → key v i ≠ 2 ^ 32 - 1) ∧ (n < 128 → key v n = 2 ^ 32 - 1)
      ∃ (nx ny steps : Nat) (I J N K V : Nat → Nat), ends s.cur.a nx ∧ ends s.cur.b ny ∧ I 0 = 0 ∧ J 0 = 0 ∧ N 0 = 0 ∧
        (let open_ := fun (m : Nat) => N m < 128 ∧ (I m < nx ∨ J m < ny)
         (∀ m, m < steps → open_ m ∧
           (let first := J m = ny ∨ I m < nx ∧ key s.cur.a (I m) < key s.cur.b (J m)
            let second := I m = nx ∨ key s.cur.b (J m) < key s.cur.a (I m)
            let takes := fun (i j k v : Nat) => I (m + 1) = I m + i ∧ J (m + 1) = J m + j ∧
              (dz = true ∧ zero v → N (m + 1) = N m) ∧ (¬ (dz = true ∧ zero v) → N (m + 1) = N m + 1 ∧ K (N m) = k ∧ V (N m) = v)
            (first → takes 1 0 (key s.cur.a (I m)) (alone (load s.cur.a (I m)))) ∧
            (¬ first → second → takes 0 1 (key s.cur.b (J m)) (alone (load s.cur.b (J m)))) ∧
            (¬ first → ¬ second → takes 1 1 (key s.cur.a (I m)) (both (load s.cur.a (I m)) (load s.cur.b (J m)))))) ∧
         ¬ open_ steps) ∧
        (∀ m, N steps ≤ m → K m = 2 ^ 32 - 1 ∧ V m = 0) ∧
        exec (.vmerge comb dz cr pt) s = .next (withFlight (reserving s cr)
          { two 16 ((List.range 128).flatMap fun m => [K m, V m]) [I steps, J steps, N steps] with
            posts := record (I steps + J steps * 2 ^ 16 + N steps * 2 ^ 32) }))

/-- Admitted, VLD and VST access the 1,024 bytes at a, VLDS and VSTS the elements at a + j * c whose lane passes, VLDT and VSTT a
part or a block-row of the tile that the selector names. A load is in flight with the bound of the space it reaches (8 in the
scratchpad, 40 in the window, 700 beyond) and its access stands in the V queue; VLDT's tile, which has one more reader from the
trigger on, has one fewer once it lands. A store is complete after 1 cycle, and its access, with the bytes of the passing lanes
of b, stands in the V queue. Nothing else changes. (06_vector_ops.md R160, 10_memory_hierarchy.md R245, 11_memory_model.md R268,
11_memory_model.md R270, 15_memory_engine_sync_ops.md R337, 15_memory_engine_sync_ops.md R340, 15_memory_engine_sync_ops.md
R342, 15_memory_engine_sync_ops.md R343, 15_memory_engine_sync_ops.md R345, 15_memory_engine_sync_ops.md R346). -/
def Obligations.VectorLoadsAndStores : Prop :=
  ∀ (s : State) (g : Bool) (ty : ElemType), s.cur.core < 256 →
    let c := s.cur.core
    let t := asUnit s 17
    let n := (opA s).toNat % 64
    let part := (opA s).toNat / 2 ^ 8 % 2 ^ 12
    let x := tileAt s c n
    let w := x.word.toNat
    let reach := fun (a : Nat) => vlBound 8 40 700 (spaceClass g a)
    let homes := fun (write : Bool) => accessHomes (view s) c pathV g write false (opA s).toNat 1024
    let elems := stridedElems ty t
    let size := tyWidth ty / 8
    let pieces := fun (write : Bool) => elemPieces (view s) c g write false size (elems.map fun (x : Nat × Nat) => (x.1 * tyWidth ty, x.2))
    let bound := if elems = [] then 8 else (elems.map fun (x : Nat × Nat) => reach x.2).foldl max 0
    let stored := completes s 17 1
    (∀ p ∈ elems, shown s (p.1 * tyWidth ty / 32) = true ∧ p.1 < 8192 / tyWidth ty ∧
      (p.2 : Int) = ((opA s).toNat + p.1 * (opC s).toInt) % 2 ^ 64) ∧
    (∀ j, j < 8192 / tyWidth ty → shown s (j * tyWidth ty / 32) = true → j ∈ elems.map (·.1)) ∧
    (admitted (.vld g) s → exec (.vld g) s = .next (withLoad s pathV 17 (reach (opA s).toNat) (.load 1024 false [])
      (piecesFrom 0 (homes false)))) ∧
    (admitted (.vst g) s → exec (.vst g) s = .next (withAccess stored pathV 17 (.store s.cur.b)
      (maskedPieces t (homes true)) storeWait)) ∧
    (admitted (.vlds g ty) s → exec (.vlds g ty) s = .next (withLoad s pathV 17 bound (.load 1024 false []) (pieces false))) ∧
    (admitted (.vsts g ty) s → exec (.vsts g ty) s = .next (withAccess stored pathV 17 (.store s.cur.b) (pieces true) storeWait)) ∧
    (admitted .vldt s → let b := if tHold w = 0 then 8 else 40
      exec .vldt s = .next (withAccess (withFlight s { flying s 17 b with ready := false, posts := [.tileRead n] })
        pathV 17 (.load 1024 false []) (piecesFrom 0 (tileHomes (view s) c pathV false n (1024 * part) (min 1024 (tileSize w - 1024 * part))))
        (b - 1))) ∧
    (admitted .vstt s → tPlanes w = true → exec .vstt s = .next (withAccess stored pathV 17
      (.planes (tFmt w) ((opA s).toNat / 2 ^ 20 % 2) s.cur.b s.cur.mask)
      (piecesFrom 0 (tileHomes (view s) c pathV true n (part * blockRowBytes (tFmt w)) (blockRowBytes (tFmt w)))) storeWait)) ∧
    (admitted .vstt s → tPlanes w = false → exec .vstt s = .next (withAccess stored pathV 17 (.store s.cur.b)
      (maskedPieces t (tileHomes (view s) c pathV true n (1024 * part) (min 1024 (tileSize w - 1024 * part)))) storeWait))

/-- Admitted, with d the descriptor at a, as the bundle has read it or as it stands, each passing lane whose index selects an element reaches that element's address; the
others are counted, and the count is recorded with .cr. VGATH is in flight and its access stands in the V queue; the count is
its second result. VSCAT and VSCATADD land the count, in every lane, within 4 cycles; VSCAT's store stands in the V queue, and
VSCATADD's updates, one for each distinct address, in lane order. (10_memory_hierarchy.md R262, 10_memory_hierarchy.md R264,
10_memory_hierarchy.md R266, 15_memory_engine_sync_ops.md R347, 15_memory_engine_sync_ops.md R348, 15_memory_engine_sync_ops.md
R349). -/
def Obligations.GathersAndScatters : Prop :=
  ∀ (s : State) (g cr : Bool),
    let c := s.cur.core
    let d := if s.cur.checked then s.cur.head.toNat else descAt (view s) c pathV g (opA s).toNat
    let ty := gatherType d
    let lanes := fun (idx : Vec) => (List.range 256).filterMap fun l =>
      if shown s l then (indexed d (sint (lane idx l) 32)).map fun i => (l, elemAddr d (offsetOf d i)) else none
    let out := fun (idx : Vec) => (List.range 256).countP fun l => shown s l && (indexed d (sint (lane idx l) 32)).isNone
    let pieces := fun (write amo : Bool) (l : List (Nat × Nat)) =>
      elemPieces (view s) c (!dLocal d) write amo (tyWidth ty / 8) (l.map fun (x : Nat × Nat) => (32 * x.1, x.2))
    let record := fun (n : Nat) => if cr then [Post.record n 17 (s.cur.dest / 64 % 256)] else []
    let landed := landsRecorded s 17 4 cr (broadcast (out s.cur.aux)) (out s.cur.aux)
    let reach := fun (a : Nat) => vlBound 16 48 900 (spaceClass (!dLocal d) a)
    let bound := if lanes s.cur.b = [] then 16 else ((lanes s.cur.b).map fun (x : Nat × Nat) => reach x.2).foldl max 0
    (admitted (.vgath g cr) s → exec (.vgath g cr) s = .next (withAccess
      (withFlight (reserving s cr) { flying s 17 bound with
        ready := false, y1 := some (broadcast (out s.cur.b)), posts := record (out s.cur.b) })
      pathV 17 (.load 1024 false []) (pieces false false (lanes s.cur.b)) (bound - 1))) ∧
    (admitted (.vscat g cr) s → exec (.vscat g cr) s = .next (withAccess landed pathV 17 (.store s.cur.b)
      (pieces true false (lanes s.cur.aux)) storeWait)) ∧
    (admitted (.vscatadd g cr) s → exec (.vscatadd g cr) s = .next (((lanes s.cur.aux).map (·.2)).dedup.foldl (fun u a =>
      withAccess u pathV 17 (.scatAdd ty s.cur.b) (pieces true true ((lanes s.cur.aux).filter fun x => x.2 = a)) storeWait) landed))

/-- An admitted VLDZ whose header, as the bundle has read it or as it stands, is of point 3 is in flight, the access to its payload stands in the V queue, and its second result
is the offset of the next buffer; otherwise it loads 1,024 bytes. An admitted VSTZ lands the payload's length, recorded with
.cr, and the store of header and payload stands in the V queue: the header's fields, then the count, the mask of kept elements
and the kept elements of b in order. (13_transducer_lanes.md R320, 15_memory_engine_sync_ops.md R350,
15_memory_engine_sync_ops.md R351). -/
def Obligations.CompressedVectors : Prop :=
  ∀ (s : State) (g cr : Bool) (ty : ElemType),
    let c := s.cur.core
    let a := (opA s).toNat
    let h := if s.cur.checked then s.cur.head.toNat else zipHeader (view s) g (asUnit s 17)
    let homes := fun (write : Bool) (a n : Nat) => piecesFrom 0 (accessHomes (view s) c pathV g write false a n)
    let b := vlBound 16 48 720 (spaceClass g a)
    let w := tyWidth ty
    let n := 8192 / w
    let kept := (List.range n).filter fun j => shown s (j * w / 32) && el s.cur.b w j != 0
    let len := 4 + n / 8 + kept.length * w / 8
    (admitted (.vldz g) s → h / 2 ^ 36 % 4 = 3 → exec (.vldz g) s = .next (withAccess
      (withFlight s { flying s 17 b with ready := false, y1 := some (broadcast (64 + h / 2 ^ 128 % 2 ^ 32)) })
      pathV 17 (.unzip h a s.cur.slot) (homes false (a + 64) (h / 2 ^ 96 % 2 ^ 32)) (b - 1))) ∧
    (admitted (.vldz g) s → h / 2 ^ 36 % 4 ≠ 3 → exec (.vldz g) s = .next (withAccess
      (withFlight s { flying s 17 b with ready := false, y1 := some (broadcast 1024) })
      pathV 17 (.load 1024 false []) (homes false a 1024) (b - 1))) ∧
    (admitted (.vstz g ty cr) s → ∃ image : Nat,
      (image % 2 ^ 512 = 0x5A434C42 + (opC s).toNat / 2 ^ 24 % 4 * 2 ^ 36 + (opC s).toNat / 2 ^ 26 % 2 * 2 ^ 38 +
        (w / 16) * 2 ^ 40 + 1024 * 2 ^ 64 + len * 2 ^ 96 + (opC s).toNat % 2 ^ 24 * 2 ^ 128) ∧
      image / 2 ^ 512 % 2 ^ 32 = kept.length % 2 ^ 16 + (n - 1) * 2 ^ 16 ∧
      (∀ j, j < n → image.testBit (544 + j) = decide (j ∈ kept)) ∧
      (∀ i, i < kept.length → image / 2 ^ (544 + n + w * i) % 2 ^ w = el s.cur.b w (kept.getD i 0)) ∧
      (let first := withAccess (landsRecorded s 17 4 cr (broadcast len) len) pathV 17 (.store (BitVec.ofNat 8192 image))
        (homes true a (min (64 + len) 1024)) storeWait
       exec (.vstz g ty cr) s = .next (if 64 + len ≤ 1024 then first
        else withAccess first pathV 17 (.store (BitVec.ofNat 8192 (image / 2 ^ 8192))) (homes true (a + 1024) (64 + len - 1024))
          storeWait)))

/-- When ACCESS_PERFORMED meets the one queued access of a core, on the V path with no captured trigger before it, due and at one place
of a scratchpad of its die where no word is in error, a vector load's operation gets the bytes there; a scatter-add writes the sum of its element type; a store into planes
puts the given codes into the block-row and makes its header true; an expansion's operation gets the expanded bytes. The queue
is empty then, and no other byte changes. At a physical address that the die reaches and with no line in error, a load's operation
gets the bytes there, and a store changes those alone. (10_memory_hierarchy.md R245, 10_memory_hierarchy.md R266, 11_memory_model.md R270,
15_memory_engine_sync_ops.md R342, 15_memory_engine_sync_ops.md R346, 15_memory_engine_sync_ops.md R350). -/
def Obligations.PerformedVectorAccesses : Prop :=
  ∀ (core : BitVec 8) (s : State) (x : Access) (f : Flight) (d a n : Nat),
    let c := core.toNat
    (s.core c).accesses = [x] → x.path = pathV → (∀ g ∈ nth (s.core c).captured 1 [], x.seq ≤ g.seq) → x.due ≤ s.time →
    (x.pieces = [⟨.pa a, n, 0⟩] → homeCut s (c / 128) (.pa a) = false → s.pkg.hbmPoison = [] → s.pkg.hbmUpsets = [] →
      (s.core c).flights = [f] → f.unit = x.unit → f.seq = x.seq →
      (x.kind = .load 1024 false [] → ∃ t, exec (.accessPerformed core) s = .next t ∧ (t.core c).accesses = [] ∧ t.lmem = s.lmem ∧
        t.mem = s.mem ∧ (t.core c).flights = [{ f with
          y0 := BitVec.ofNat 8192 (memRead s.mem a n), ready := true, deferred := false, due := max s.time f.due }]) ∧
      (∀ data, x.kind = .store data → ∃ t, exec (.accessPerformed core) s = .next t ∧ (t.core c).accesses = [] ∧ t.lmem = s.lmem ∧
        t.mem = memPut s.mem a n (data.toNat % 2 ^ (8 * n)) ∧ (t.core c).flights = [f])) ∧
    (x.pieces = [⟨.arr d a, n, 0⟩] → a + n ≤ 0x400000 → d / 128 = c / 128 → d < 256 → (s.core d).poison = [] → (s.core d).upsets = [] →
    (s.core c).flights = [f] → f.unit = x.unit → f.seq = x.seq →
    let old := memRead (nth s.lmem d []) a n
    let gets := fun (y : Vec) (posts : List Post) => ∃ t, exec (.accessPerformed core) s = .next t ∧ (t.core c).accesses = [] ∧
      t.lmem = s.lmem ∧ t.mem = s.mem ∧ (t.core c).flights = [{ f with
        y0 := y, ready := true, deferred := false, due := max s.time f.due, posts := posts }]
    let writes := fun (v : Nat) => ∃ t, exec (.accessPerformed core) s = .next t ∧ (t.core c).accesses = [] ∧ t.mem = s.mem ∧
      t.lmem = updAt s.lmem d (fun m => memPut m a n v) ∧ (t.core c).flights = [f]
    (x.kind = .load 1024 false [] → gets (BitVec.ofNat 8192 old) f.posts) ∧
    (∀ ty data, x.kind = .scatAdd ty data → writes (scatSum ty old (data.toNat % 2 ^ (8 * n)))) ∧
    (∀ fmt half data mask, x.kind = .planes fmt half data mask →
      writes (putElements (Fmt.ofCode fmt) old (givenCodes fmt half data mask))) ∧
    (∀ header at_ slot v, x.kind = .unzip header at_ slot → expandBuffer none header old = .ok v →
      gets (BitVec.ofNat 8192 v) f.posts) ∧
    (∀ header at_ slot code, x.kind = .unzip header at_ slot → expandBuffer none header old = .error code →
      gets 0 (f.posts ++ [.fault code (BitVec.ofNat 64 at_) slot])))

/-- A block without specials whose exponents lie in the product window contributes the exact sum of its products. A finite
contribution that is not zero is added exactly; a sum of zero gives the zero element, and any other is truncated toward zero by
the fewest bits that bring it into 95 bits, or becomes an infinity beyond exponent 2,047. NaN and infinities combine by class. A
well-formed element is the one its 16-byte image gives. Outside profile 2 the skip enable leaves every element of an MMA's
product as it is. (05_numbers.md R143, 05_numbers.md R146, 05_numbers.md R147, 07_matrix_array.md R193). -/
def Obligations.WindowAccumulatorArithmetic : Prop :=
  (∀ (a b : List BlockEl) (wa wb : Nat) (xa xb : Nat), xa < 255 → xb < 255 →
    (∀ x ∈ a, x.inf = false ∧ x.nan = false) → (∀ x ∈ b, x.inf = false ∧ x.nan = false) →
    let l := a.zip b
    let q := fun (p : BlockEl × BlockEl) => p.1.q + p.2.q
    ∀ top : Int, (∃ p ∈ l, q p = top) → (∀ p ∈ l, q p ≤ top) →
    let e := top + wa + wb + 5 - 75
    (∀ p ∈ l, e ≤ q p) →
    blockProduct a b wa wb (some (xa, xb)) =
      ⟨.fin, (l.map fun p => (if p.1.neg ^^ p.2.neg then -1 else 1) * (p.1.m * p.2.m * 2 ^ (q p - e).toNat : Int)).sum,
        e + (xa - 127) + (xb - 127)⟩) ∧
  (∀ (a : AccEl) (c : Contribution), a.cls = .fin → c.cls = .fin → c.p ≠ 0 →
    let m := min a.e c.e
    let x := a.s * 2 ^ (a.e - m).toNat + c.p * 2 ^ (c.e - m).toNat
    let fits := fun (n : Nat) => -(2 ^ 94) ≤ x.tdiv (2 ^ n) ∧ x.tdiv (2 ^ n) < 2 ^ 94
    (x = 0 → accAdd a c = AccEl.zero) ∧
    (x ≠ 0 → ∃ n : Nat, fits n ∧ (∀ k, k < n → ¬ fits k) ∧ accAdd a c =
      if 2047 < m + n then ⟨if x < 0 then .ninf else .pinf, 0, -2048⟩ else ⟨.fin, x.tdiv (2 ^ n), m + n⟩)) ∧
  (∀ (a : AccEl) (c : Contribution),
    let special := fun (k : AccClass) => accAdd a c = ⟨k, 0, -2048⟩
    (a.cls = .nan ∨ c.cls = .nan ∨ (a.cls = .pinf ∧ c.cls = .ninf) ∨ (a.cls = .ninf ∧ c.cls = .pinf) → special .nan) ∧
    (a.cls ≠ .nan → a.cls ≠ .ninf → c.cls = .pinf → special .pinf) ∧
    (a.cls ≠ .nan → a.cls ≠ .pinf → c.cls = .ninf → special .ninf) ∧
    (a.cls ≠ .nan → c.cls = .fin → a.cls ≠ .fin ∨ c.p = 0 → accAdd a c = a)) ∧
  (∀ a : AccEl, -(2 ^ 94) ≤ a.s → a.s < 2 ^ 94 → -2048 ≤ a.e → a.e ≤ 2047 → (a.s = 0 → a.e = -2048) →
    (a.cls ≠ .fin → a.s = 0) → accOfImage a.image = some a) ∧
  (∀ (m : MmaIn) (s : State) (a : Acc), m.pcw.profile ≠ 2 →
    let skipping := fun (b : Bool) => (MmaIn.product { m with pcw := { m.pcw with skip := b } } s a).1
    skipping true = skipping false)

/-- With MA not halted and its bundle's checks made, an MMA that passes the command checks stands last in the array's queue, and one
that fails any marks its accumulator invalid and halts MA. MMA_ARRAY_START of the one MMA in the queue, once its start is
reached and with no check cell in error, writes the product and the band pair into the accumulator and sets its completion 24 +
2 * (digits) cycles after its array start, 2 more where the cells are checked. MMA_COMPLETE after the last cycle frees tiles,
keepers and the accumulator. MMA_REPLAY runs a marked MMA again from the cycle after its pass while replays are left, and
otherwise restores its accumulator, marks it invalid and halts MA. Records of errors are taken to find a populated error ring, and
no operation of MA to wait for its start. (07_matrix_array.md R188, 07_matrix_array.md R195, 07_matrix_array.md R196, 07_matrix_array.md R198, 07_matrix_array.md R200,
08_matrix_keeper_tile_ops.md R205, 08_matrix_keeper_tile_ops.md R206, 08_matrix_keeper_tile_ops.md R209). -/
def Obligations.MmaRunsOnTheArray : Prop :=
  ∀ (s : State), s.cur.core < 256 →
    let c := s.cur.core
    let core := coreBV c
    let k := s.core c
    let a := opA s
    let n := a.toNat % 4
    let sum := fun (l : List Nat) => l.foldl (· + ·) 0
    let acc := accAt s c n
    let keep := fun (i : Nat) => s.cur.aux.toNat / 2 ^ (64 * i) % 2 ^ 64
    let input : MmaIn := ⟨c, pcwOf (opB s).toNat, a.toNat / 2 ^ 8 % 64, a.toNat / 2 ^ 16 % 64, keep 0 - 1, keep 1 - 1⟩
    let others := fun (t : State) => (∀ d, d ≠ c → t.core d = s.core d) ∧ t.lmem = s.lmem
    (s.cur.checked = true → k.arch.maHalt = false → input.failing (view s) acc = 0 → ∃ t, exec .mma s = .next t ∧ others t ∧ t.mem = s.mem ∧
      t.core c = { k with maQ := (t.core c).maQ } ∧ ∃ m : MmaOp, (t.core c).maQ = k.maQ ++ [m] ∧ m.seq = s.cur.seq ∧
        m.maSeq = s.cur.maSeq ∧ m.acc = n ∧ m.tileA = input.tileA ∧ m.tileB = input.tileB ∧ m.pcw = (opB s).toNat % 2 ^ 32 ∧
        m.start = s.time ∧ m.slot = s.cur.slot ∧ m.inTrap = s.cur.inTrap ∧ m.began = none ∧ m.tilesHeld = true ∧
        m.marked = false ∧ m.replays = 0 ∧ m.keeps = [keep 0, keep 1] ∧ m.limit = (k.arch.sr 15).toNat % 16) ∧
    (s.cur.checked = true → s.cur.dest / 64 % 256 = 1 → k.arch.maHalt = false → input.failing (view s) acc ≠ 0 →
      nth k.captured 0 [] = [] → recordable s (dieOf c) →
      ∃ t, exec .mma s = .next t ∧ others t ∧
        (t.core c).arch.maHalt = true ∧ (accAt t c n).invalid = true ∧ (accAt t c n).els = acc.els ∧
        (accAt t c n).busy = acc.busy.filter (· ≠ s.cur.maSeq.toNat)) ∧
    (∀ m : MmaOp, k.maQ = [m] → m.began = none → m.marked = false → m.acc < 4 → k.cellFaults = [] → k.poison = [] → k.upsets = [] →
      let from_ := throttledUntil s c (max m.start k.arrayFree)
      let x : MmaIn := ⟨c, pcwOf m.pcw, m.tileA, m.tileB, (m.keeps.getD 0 0) - 1, (m.keeps.getD 1 0) - 1⟩
      let v := asOf s c m.seq
      let old := accAt s c m.acc
      let r := x.product v old
      from_ ≤ s.time → x.bad v = [] →
      ∃ t, exec (.mmaArrayStart core) s = .next t ∧ others t ∧ t.mem = s.mem ∧
        accAt t c m.acc = { old with
          els := r.1, lastProfile := x.pcw.profile,
          bandA := if x.pcw.accmode = 1 then (x.bands v).1 else old.bandA, bandB := if x.pcw.accmode = 1 then (x.bands v).2 else old.bandB } ∧
        (let last := from_ + 24 + 2 * sum r.2
         let done := last + if x.pcw.check then 2 else 0
         (t.core c).maQ = [{ m with
           began := some from_, lastAcc := last, before := some old, complete := done, digits := r.2, mr := 0, mc := 0, badBlock := 0,
           bufs := if x.pcw.check then x.residues v old else m.bufs }] ∧
         (t.core c).arrayFree = done - 24)) ∧
    (∀ (m : MmaOp) (b : Nat), k.maQ = [m] → m.began = some b → m.marked = false → b + 24 ≤ s.time → m.lastAcc + 1 ≤ s.time →
      m.complete + 1 ≤ s.time → ∃ t, exec (.mmaComplete core) s = .next t ∧ others t ∧ t.mem = s.mem ∧
        (t.core c).maQ = [] ∧
        (t.core c).arch =
          (let a := k.arch.readKeepers m.keeps (· - 1)
           let a := if m.tilesHeld then a.holdTiles [m.tileA, m.tileB] (· - 1) else a
           (a.setAcc m.acc fun x => { x with busy := x.busy.filter (· ≠ m.maSeq.toNat) }).engineDone 19)) ∧
    (∀ m : MmaOp, k.maQ = [m] → m.marked = true → m.complete + 1 ≤ s.time → nth k.captured 0 [] = [] → recordable s (dieOf c) →
      ∃ t, exec (.mmaReplay core) s = .next t ∧ others t ∧
      (m.replays < m.limit → k.cellFaults = [] → (t.core c).arch = k.arch ∧
        (t.core c).maQ = [{ m with
          marked := false, replays := m.replays + 1, mr := 0, mc := 0, badBlock := 0,
          complete := m.complete + 24 + 2 * sum m.digits + if (pcwOf m.pcw).check then 2 else 0 }]) ∧
      (m.limit ≤ m.replays → m.acc < 4 → (t.core c).maQ = [] ∧ (t.core c).arch.maHalt = true ∧ (accAt t c m.acc).invalid = true ∧
        (accAt t c m.acc).els = (m.before.getD (accAt s c m.acc)).els))

/-- With MA not halted and its bundle's checks made, a well-formed MDRAIN to a tile of the core's own scratchpad writes the drained
elements of the columns that c shows row by row into the tile, which fills, keeping a buckle that it had while empty, and is to be
ready on completion after 24 cycles, and zeroes the accumulator where b says so. MSAVE writes the 16 KiB image of the accumulator
at b; MLOAD takes an image's elements, and MRAWADD adds them, where every element of it is well formed; otherwise the accumulator
is marked invalid and MA halts. That the output is written at the start, 24 cycles before it completes, is the model's own choice
(logs 24 and 2). (05_numbers.md R146, 05_numbers.md R149, 05_numbers.md R150, 08_matrix_keeper_tile_ops.md R203,
08_matrix_keeper_tile_ops.md R211, 08_matrix_keeper_tile_ops.md R212, 08_matrix_keeper_tile_ops.md R216). -/
def Obligations.DrainsAndAccumulatorImages : Prop :=
  ∀ (s : State), s.cur.core < 256 → s.cur.checked = true → (s.core s.cur.core).arch.maHalt = false →
    let c := s.cur.core
    let k := s.core c
    let n := (opA s).toNat % 4
    let acc := accAt s c n
    let b := (opB s).toNat
    let done := fun (bound : Nat) (posts : List Post) =>
      { flying s 19 bound with lands := false, posts := Post.accFree n s.cur.maSeq.toNat :: posts }
    let others := fun (t : State) => (∀ d, d ≠ c → (t.core d).arch = (s.core d).arch) ∧ t.mem = s.mem
    (let tile := (opA s).toNat / 2 ^ 8 % 64
     let x := tileAt s c tile
     let w := x.word.toNat
     let f : Fmt := if b % 8 = 6 then .f32 else .bf16
     let rm := b / 8 % 8
     let size := f.width / 8
     let rows := (List.range 1024).filter fun r => b / 2 ^ 7 % 2 = 0 || s.cur.c.getLsbD (32 * (r % 32))
     let out := fun (r : Nat) => drainEl f rm (if rm = 4 then randomBits s c s.cur.srSeq 1 acc.tag.toNat r else 0)
       (nth acc.els r AccEl.zero) acc.bandA.toNat acc.bandB.toNat
     drainFailing { s.cur with unit := 19 } w = 0 → tHold w = 0 → tBase w + 1024 * size ≤ min (spadLimit s c) 0x400000 →
     k.handedOut = [] → k.parted = [] → k.poison = [] → k.upsets = [] → ∃ t, exec .mdrain s = .next t ∧ others t ∧
      t.lmem = updAt s.lmem c (fun m => rows.foldl (fun m r => memPut m (tBase w + r * size) size ((out r).code % 2 ^ (8 * size))) m) ∧
      (t.core c).arch =
        (let a := k.arch.setTile tile fun x =>
          { x with state := .filling, filler := .matrix, buckle := if x.state = .empty then x.buckle else none }
         if b / 2 ^ 6 % 2 = 1 then a.setAcc n fun x => { x with els := Vector.replicate 1024 AccEl.zero } else a) ∧
      (t.core c).flights = (putFlight k (done 24 [.tileReady tile, .conv ((rows.map fun r => (out r).sat).sum)
        ((rows.map fun r => (out r).flush).sum) ((rows.map fun r => (out r).nan).sum)])).flights) ∧
    (∀ d at_, localHome (view s) c 2 true (spadLimit s c) b 16384 = .ok (.arr d at_) → (s.core d).poison = [] → (s.core d).upsets = [] →
      ∃ t, exec .msave s = .next t ∧ others t ∧
      t.lmem = updAt s.lmem d (fun m => memPut m at_ 16384 (ofDigits 1024 128 fun i => (nth acc.els i AccEl.zero).image)) ∧
      (t.core c).arch = k.arch) ∧
    (∀ (d at_ : Nat) (e : Nat → AccEl), localHome (view s) c 2 false (spadLimit s c) b 16384 = .ok (.arr d at_) → at_ + 16384 ≤ 0x400000 →
      (s.core d).poison = [] → (s.core d).upsets = [] →
      (∀ i, i < 1024 → accOfImage (memRead (nth s.lmem d []) at_ 16384 / 2 ^ (128 * i) % 2 ^ 128) = some (e i)) →
      let extra := if 0x800000 ≤ b then 40 else 0
      exec .mload s = .next (withFlight (withArchAt s fun a => a.setAcc n fun x => { x with
        els := Vector.ofFn (fun i => e i.val), invalid := false, bandA := 0x3F80, bandB := 0x3F80, lastProfile := 1 })
        (done (40 + extra) [])) ∧
      exec .mrawadd s = .next (withFlight (withArchAt s fun a => a.setAcc n fun x => { x with
        els := Vector.ofFn (fun i => accAddUnder x.lastProfile (nth x.els i.val AccEl.zero) (e i.val).contribution) })
        (done (48 + extra) []))) ∧
    (∀ d at_ i, localHome (view s) c 2 false (spadLimit s c) b 16384 = .ok (.arr d at_) → at_ + 16384 ≤ 0x400000 →
      (s.core d).poison = [] → (s.core d).upsets = [] → i < 1024 →
      accOfImage (memRead (nth s.lmem d []) at_ 16384 / 2 ^ (128 * i) % 2 ^ 128) = none →
      s.cur.dest / 64 % 256 = 5 ∨ s.cur.dest / 64 % 256 = 6 → nth k.captured 0 [] = [] → recordable s (dieOf c) →
      (∃ t, exec .mload s = .next t ∧ (t.core c).arch.maHalt = true ∧ (accAt t c n).invalid = true ∧ (accAt t c n).els = acc.els) ∧
      (∃ t, exec .mrawadd s = .next t ∧ (t.core c).arch.maHalt = true ∧ (accAt t c n).invalid = true ∧ (accAt t c n).els = acc.els))

/-- With MA not halted and its bundle's checks made, MZERO zeroes the accumulator, clears its invalid mark and its band pair and is
complete after 2 cycles; MCHK lands the CRC-32C of its image and the count of its elements that are not finite, after 40; MSEED
sets its tag. MCLR clears the halt of MA. A halted MA discards MZERO, and marks its accumulator, being a target, invalid.
(07_matrix_array.md R200, 08_matrix_keeper_tile_ops.md R206, 08_matrix_keeper_tile_ops.md R207, 08_matrix_keeper_tile_ops.md
R213). -/
def Obligations.AccumulatorControls : Prop :=
  ∀ (s : State), s.cur.core < 256 → s.cur.checked = true →
    let c := s.cur.core
    let k := s.core c
    let n := (opA s).toNat % 4
    let acc := accAt s c n
    let image := ofDigits 1024 128 fun i => (nth acc.els i AccEl.zero).image
    let special := (List.range 1024).countP fun i => (nth acc.els i AccEl.zero).cls != .fin
    let done := fun (s' : State) (bound : Nat) =>
      withFlight s' { flying s 19 bound with lands := false, posts := [.accFree n s.cur.maSeq.toNat] }
    (k.arch.maHalt = false →
      exec .mzero s = .next (done (withArchAt s fun a => a.setAcc n fun x => { x with
        els := Vector.replicate 1024 ⟨.fin, 0, -2048⟩, invalid := false, bandA := 0x3F80, bandB := 0x3F80, lastProfile := 1 }) 2) ∧
      exec .mseed s = .next (done (withArchAt s fun a => a.setAcc n fun x => { x with tag := (opB s).setWidth 16 }) 1) ∧
      exec .mchk s = .next (withFlight s { flying s 19 40 with
        y0 := wide (crc32c 16384 image + special * 2 ^ 32), posts := [.accFree n s.cur.maSeq.toNat] })) ∧
    (s.cur.dest / 64 % 256 = 8 →
      exec .mclr s = .next (withFlight (withArchAt s fun a => { a with maHalt := false }) { flying s 19 1 with lands := false })) ∧
    (k.arch.maHalt = true → s.cur.dest / 64 % 256 = 4 → recordable s (dieOf c) → ∃ t, exec .mzero s = .next t ∧
      (t.core c).arch.maHalt = true ∧ (accAt t c n).invalid = true ∧ (accAt t c n).els = acc.els ∧
      (∀ d, d ≠ c → t.core d = s.core d) ∧ t.lmem = s.lmem)

/-- Admitted at its trigger under a guard whose lane 0 passes, with no earlier KP operation waiting and no datum of its core in
error, an operation has one more write of KD pending and is in flight with one keeper write of KD that lands after 4 cycles (6
for KCVT and KFOLD, 8 for KAMAX). KMOV writes every entry of KS. The others write the entries from SOFF on (KCVT from c<8..17>),
count of them: KADDE the clamped sum of exponents, KMAX and KMIN the larger or smaller code, with 0xFF prevailing, KCVT, KFOLD
and KAMAX the rounded values; KADDE leaves NaN entries, and E3M5 zeros, alone, and KFOLD makes its band entry 1.0. Where lane 0
fails, nothing is written. (08_matrix_keeper_tile_ops.md R225, 08_matrix_keeper_tile_ops.md R226, 08_matrix_keeper_tile_ops.md
R227, 08_matrix_keeper_tile_ops.md R228, 08_matrix_keeper_tile_ops.md R229, 08_matrix_keeper_tile_ops.md R230,
08_matrix_keeper_tile_ops.md R231, 08_matrix_keeper_tile_ops.md R232). -/
def Obligations.KeeperArithmetic : Prop :=
  ∀ (s : State) (r : Bool) (e x : BitVec 2), s.cur.core < 256 →
    let c := s.cur.core
    let ctl := s.cur.b.toNat
    let w := s.cur.c.toNat
    let d := ctl % 64
    let off := ctl / 2 ^ 12 % 2 ^ 10
    let cnt := ctl / 2 ^ 22 % 2 ^ 10 + 1
    let kept := fun (n : Nat) => keeperView (s.core c) n
    let entry := fun (enc : BitVec 2) (k : Keeper) (i : Nat) => (if enc = 2 then k.band.toNat / 2 ^ (16 * i) % 2 ^ 16 else k.bytes.toNat / 2 ^ (8 * i) % 2 ^ 8 : Nat)
    let fails := fun (i : Instr) (bound : Nat) => shown s 0 = false → exec i s = .next (completes s 20 bound)
    -- the entries of an encoding that f gives become what it says, and no others change
    let writes := fun (i : Instr) (bound : Nat) (enc : BitVec 2) (fold : Bool) (f : Nat → Option Nat) => ∃ bm bytes dm band conv,
      exec i s = .next (withFlight (withArch s fun a => { a with keepers := updAt a.keepers d fun k => { k with writes := k.writes + 1 } })
        { flying s 20 bound with lands := false, posts := [.keeper d bm bytes dm band r, conv] }) ∧
      (enc ≠ 2 → dm = if fold then BitVec.twoPow 16 (w / 8 % 16) else 0) ∧
      (fold = true → band.toNat / 2 ^ (16 * (w / 8 % 16)) % 2 ^ 16 = 0x3F80) ∧
      ∀ j, j < (if enc = 2 then 16 else 1024) →
        (if enc = 2 then dm.getLsbD j = (f j).isSome ∧ bm = 0 else bm.getLsbD j = (f j).isSome) ∧
        ∀ v, f j = some v → (if enc = 2 then band.toNat / 2 ^ (16 * j) % 2 ^ 16 else bytes.toNat / 2 ^ (8 * j) % 2 ^ 8) = v
    let range := fun (off cnt : Nat) (g : Nat → Option Nat) (j : Nat) => if off ≤ j ∧ j < off + cnt then g j else none
    let addTo := fun (j : Nat) =>
      let v := entry e (kept d) j
      let n := sint w 9
      if e = 0 then (if v = 255 then none else some (max 0 (min 254 (v + n))).toNat)
      else if e = 1 then (if v = 0 ∨ v = 255 then none else
        let u := ((v / 32 : Nat) : Int) + n
        some (if 7 < u then 0xFE else if u < 0 then 0 else u.toNat * 32 + v % 32))
      else some (convert .bf16 0 0 false (Machine.Num.mul (Fmt.bf16.decode v) (.fin false 1 n))).code
    let pick := fun (max_ : Bool) (j : Nat) =>
      let u := entry e (kept (ctl / 64 % 64)) j
      let v := entry e (kept (w % 64)) j
      some (if e = 2 then (if (Fmt.bf16.decode u).isNan || (Fmt.bf16.decode v).isNan then 0x7FC0 else pickElem .bf16 max_ u v)
        else if u = 255 ∨ v = 255 then 255 else if max_ then max u v else min u v)
    let beta := entry 2 (kept d) (w / 8 % 16)
    let amax := fun (j : Nat) => f32 (lane s.cur.a (j - off))
    e ≠ 3 → x ≠ 3 →
    (fails (.kmov r) 4 ∧ fails (.kadde r e) 4 ∧ fails (.kmax r e) 4 ∧ fails (.kmin r e) 4 ∧ fails (.kcvt r e x) 6 ∧ fails (.kfold r e) 6 ∧
      fails (.kamax r e) 8) ∧
    (shown s 0 = true → s.cur.stage = 0 → (s.core c).poison = [] → (s.core c).upsets = [] →
      (∀ f ∈ (s.core c).flights, f.unit = 20 → f.seq < s.cur.seq → f.ready = true) →
      (admitted (.kmov r) s → exec (.kmov r) s = .next (withFlight
        (withArch s fun a => { a with keepers := updAt a.keepers d fun k => { k with writes := k.writes + 1 } })
        { flying s 20 4 with
          lands := false
          posts := [.keeper d (BitVec.allOnes 1024) (kept (ctl / 64 % 64)).bytes (BitVec.allOnes 16) (kept (ctl / 64 % 64)).band r] })) ∧
      (admitted (.kadde r e) s → writes (.kadde r e) 4 e false (range off cnt addTo)) ∧
      (admitted (.kmax r e) s → writes (.kmax r e) 4 e false (range off cnt (pick true))) ∧
      (admitted (.kmin r e) s → writes (.kmin r e) 4 e false (range off cnt (pick false))) ∧
      (s.cur.checked = false → admitted (.kcvt r e x) s → writes (.kcvt r e x) 6 x false (range (w / 2 ^ 8 % 2 ^ 10) cnt fun j =>
        some (kConvert e.toNat x.toNat (w % 8) (entry e (kept (ctl / 64 % 64)) (off + (j - w / 2 ^ 8 % 2 ^ 10)))).code)) ∧
      (e ≠ 2 → admitted (.kfold r e) s → writes (.kfold r e) 6 e true (range off cnt fun j =>
        some (kFoldByte e.toNat (w % 8) beta (entry e (kept d) j)).code)) ∧
      (e ≠ 2 → admitted (.kamax r e) s → writes (.kamax r e) 8 e false (range off cnt fun j =>
        some (if e = 0 then amaxE8m0 (Fmt.ofCode (w / 2 ^ 8 % 16)) (w % 2 = 1) (amax j) else amaxE3m5 beta (amax j)).code)))

/-- Admitted and under a guard whose lane 0 passes, KBIND and KREBIND are in flight for 2 cycles and then give tile c the buckle
(KD, its generation), KUNBIND none. With no earlier KP operation waiting, KGEN lands KD's generation in every lane, whatever the
guard, recorded with .cr, and KST's two stores of KD, of the 1,056 bytes at c, stand in the V queue. KLD has a write of KD
pending, and its read of the 1,056 bytes at c stands in the V queue. Where lane 0 fails, the others complete and change nothing;
a tile number of 64 or more gives the precise fault 0x03, nothing holding the bundle, and a misaligned image 0x08. No datum of the
core is taken to be in error where a keeper is read. (08_matrix_keeper_tile_ops.md R220,
08_matrix_keeper_tile_ops.md R225, 08_matrix_keeper_tile_ops.md R226, 08_matrix_keeper_tile_ops.md R227,
08_matrix_keeper_tile_ops.md R233, 08_matrix_keeper_tile_ops.md R234). -/
def Obligations.KeeperBindingsAndImages : Prop :=
  ∀ (s : State) (cr r : Bool), s.cur.core < 256 →
    let c := s.cur.core
    let d := s.cur.b.toNat % 64
    let w := s.cur.c.toNat % 2 ^ 32
    let kept := keeperView (s.core c) d
    let gen := (nth (s.core c).arch.keepers d Keeper.reset).gen
    let at_ := w % 2 ^ 22
    let bound := { flying s 20 2 with lands := false }
    let turn := s.cur.stage = 0 ∧ ∀ f ∈ (s.core c).flights, f.unit = 20 → f.seq < s.cur.seq → f.ready = true
    let pieces := fun (write : Bool) (off n : Nat) => piecesFrom 0 (accessHomes (view s) c pathV false write false (at_ + off) n)
    let sound := (s.core c).poison = [] ∧ (s.core c).upsets = []
    (admitted (.kgen cr) s → turn → sound → exec (.kgen cr) s = .next (landsRecorded s 20 2 cr (broadcast kept.gen.toNat) kept.gen.toNat)) ∧
    (shown s 0 = false →
      exec .kbind s = .next (completes s 20 2) ∧ exec .kunbind s = .next (completes s 20 2) ∧ exec .krebind s = .next (completes s 20 2) ∧
      exec (.kld r) s = .next (completes s 20 16) ∧ exec .kst s = .next (completes s 20 16)) ∧
    (shown s 0 = true →
      (admitted .kbind s → sound → exec .kbind s = .next (withFlight s { bound with posts := [.bind (w % 64) (some (d, gen))] })) ∧
      (admitted .krebind s → sound → exec .krebind s = .next (withFlight s { bound with posts := [.bind (w % 64) (some (d, gen))] })) ∧
      (admitted .kunbind s → exec .kunbind s = .next (withFlight s { bound with posts := [.bind (w % 64) none] })) ∧
      (admitted (.kld r) s →
        exec (.kld r) s = .next (withAccess
          (withFlight (withArch s fun a => { a with keepers := updAt a.keepers d fun k => { k with writes := k.writes + 1 } })
            { flying s 20 16 with lands := false, ready := false })
          pathV 20 (.keeper d r) (pieces false 0 1056) 15)) ∧
      (admitted .kst s → turn → sound →
        exec .kst s = .next (withAccess
          (withAccess (completes s 20 16) pathV 20 (.store kept.bytes) (pieces true 0 1024) storeWait)
          pathV 20 (.store (kept.band.setWidth 8192)) (pieces true 1024 32) storeWait)) ∧
      (s.cur.checked = false → 64 ≤ w → (tileAt s c (w % 64)).busy = 0 → (nth (s.core c).arch.keepers d Keeper.reset).writes = 0 →
        exec .kbind s = .next (faults s 0x03 (BitVec.ofNat 64 w)) ∧
        exec .kunbind s = .next (faults s 0x03 (BitVec.ofNat 64 w)) ∧ exec .krebind s = .next (faults s 0x03 (BitVec.ofNat 64 w))) ∧
      (s.cur.checked = false → at_ % 32 ≠ 0 → fenceHold s c pathV = false → (nth (s.core c).arch.keepers d Keeper.reset).readers = 0 →
        exec (.kld r) s = .next (faults s 0x08 (BitVec.ofNat 64 at_)) ∧ exec .kst s = .next (faults s 0x08 (BitVec.ofNat 64 at_))))

/-- Admitted, TCFG makes the entry b empty and unbound with the word in a; TREL makes a ready tile drain without its buckle; TMARK
open makes an empty tile fill, and reopen a ready one, buckle kept; each completes in 1 cycle and changes nothing else. TREL and
TMARK name the entry by b<0..5> alone. TSTATE lands word a<0> of the entry, its status as bit fields, as its bundle found it. TMARK
close comes again, and where every earlier LS and VL store has been performed the tile is to be ready. An entry number of 64 or
more gives TCFG and TSTATE, and a mode of 3 TMARK, the fault 0x03; an event that the tile's state does not allow gives 0x0D with
tile, state and configuration; a tile past the scratchpad gives 0x09. That a ready tile drains at once though it is busy, and is
looked at in each cycle, is the model's own choice (logs 30 and 2). (03_scalar_control_ops.md R63, 08_matrix_keeper_tile_ops.md
R214, 08_matrix_keeper_tile_ops.md R215, 08_matrix_keeper_tile_ops.md R216, 08_matrix_keeper_tile_ops.md R218,
08_matrix_keeper_tile_ops.md R219). -/
def Obligations.TileTable : Prop :=
  ∀ (s : State), s.cur.core < 256 →
    let c := s.cur.core
    let n := (opB s).toNat
    let w := (opA s).toNat
    let e := n % 64
    let x := tileAt s c e
    let code := match x.state with | .empty => 0 | .filling => 1 | .ready => 2 | .draining => 3
    let word1 := code + (if x.busy = 0 then 0 else 4) + (match x.buckle with | none => 0 | some b => 8 + b.1 % 64 * 2 ^ 4 + b.2.toNat * 2 ^ 16) +
      (if x.stale then 2 ^ 10 else 0) + (if x.cfg then 2 ^ 11 else 0) +
      (if x.state = .filling then (match x.filler with | .program => 0 | .copyEngine => 2 ^ 12 | .matrix => 2 ^ 13) else 0)
    let becomes := fun (f : Tile → Tile) => withArch (completes s 21 1) fun a => a.setTile e f
    let refused := fun (i : Instr) => exec i s = .next (faults s 0x0D (BitVec.ofNat 64 (e + code * 2 ^ 8 + (if x.cfg then 2 ^ 10 else 0))))
    let rows := w / 2 ^ 16 % 2 ^ 10 + 1
    let cols := w / 2 ^ 26 % 2 ^ 10 + 1
    let size := if w.testBit 40 then rows / 32 * blockRowBytes (w / 2 ^ 36 % 16) else rows * cols * tBits (w / 2 ^ 36 % 16) / 8
    (n < 64 → admitted .tcfg s → exec .tcfg s = .next (becomes fun x =>
      { x with word := opA s, state := .empty, buckle := none, stale := false, cfg := true })) ∧
    (admitted .tstate s → exec .tstate s = .next (landsWord s 21 2 (BitVec.ofNat 64 (s.cur.aux.toNat / 2 ^ (64 * (w % 2)) % 2 ^ 64)))) ∧
    (∀ u z f, n < 64 → (bundleReads s c (21 * 2 ^ 16 + 2 * 2 ^ 6) u n z f).toNat = x.word.toNat + word1 * 2 ^ 64) ∧
    (admitted .trel s → exec .trel s = .next (let u := becomes fun x =>
        if x.state = .ready then { x with state := .draining, buckle := none } else x
      { u with agenda := insertItem ⟨s.time + 1, 3, .ev (.tileDrainDone (coreBV c) (BitVec.ofNat 6 e))⟩ u.agenda })) ∧
    (admitted .tmarkOpen s → exec .tmarkOpen s = .next (becomes fun x =>
      { x with state := .filling, filler := .program })) ∧
    (admitted .tmarkReopen s → exec .tmarkReopen s = .next (becomes fun x => { x with state := .filling, filler := .program })) ∧
    (admitted .tmarkClose s → s.cur.stage = 0 → exec .tmarkClose s = .next (again (withFlight (completes s 21 1)
      { flying s 31 1 with lands := false, ready := false }) 21 0)) ∧
    (∀ f : Flight, admitted .tmarkClose s → s.cur.stage ≠ 0 → (s.core c).flights = [f] → f.unit = 31 → f.seq = s.cur.seq →
      storesDone s c s.cur.seq = true →
      ∃ t, exec .tmarkClose s = .next t ∧ (∀ d, (t.core d).arch = (s.core d).arch) ∧ t.lmem = s.lmem ∧ t.mem = s.mem ∧
        (t.core c).flights = [{ f with ready := true, deferred := false, due := max s.time f.due, posts := [.tileReady e] }]) ∧
    (s.cur.checked = false → 64 ≤ n → ∀ i ∈ [Instr.tcfg, .tstate], exec i s = .next (faults s 0x03 (opB s))) ∧
    (s.cur.checked = false →
      (n < 64 → x.busy = 0 → (x.state = .filling ∨ x.state = .draining) → refused .tcfg) ∧
      (x.cfg = false ∨ x.state = .filling → refused .trel) ∧
      (w % 4 = 3 → ∀ i ∈ [Instr.tmarkOpen, .tmarkClose, .tmarkReopen], exec i s = .next (faults s 0x03 (opA s))) ∧
      (w % 4 ≠ 3 → x.busy = 0 → x.cfg = false ∨ x.state ≠ .empty → refused .tmarkOpen) ∧
      (w % 4 ≠ 3 → x.busy = 0 → x.cfg = false ∨ x.state ≠ .ready → refused .tmarkReopen) ∧
      (w % 4 ≠ 3 → x.cfg = false ∨ x.state ≠ .filling ∨ x.filler ≠ .program → refused .tmarkClose) ∧
      (n < 64 → x.busy = 0 → (x.state = .empty ∨ x.state = .ready) → tileWordLegal w = false → exec .tcfg s = .next (faults s 0x03 (opA s))) ∧
      (n < 64 → x.busy = 0 → (x.state = .empty ∨ x.state = .ready) → tileWordLegal w = true → w / 2 ^ 12 % 16 = 0 →
        spadLimit s c < w % 2 ^ 12 * 1024 + size → exec .tcfg s = .next (faults s 0x09 (BitVec.ofNat 64 (w % 2 ^ 12 * 1024)))))

/-- Admitted outside a segment, THAND completes in 1 cycle, its core loses the range or the slot at once, and a fence on paths 0 to
3 stands; it comes again. Once those paths and the range's tiles are idle, the handle, with the cluster's next SERIAL, joins the
target's inbound queue. TTAKE with a handle waiting lands it: its owner gets its range back, any other core gets the handle in
slot b; with none, it stays in flight. A foreign handle and a full slot b make TTAKE's result a fault 0x03. That THAND is complete
once it has been accepted, its handle being delivered later, is the model's own reading (log 24). (08_matrix_keeper_tile_ops.md
R203, 08_matrix_keeper_tile_ops.md R235, 08_matrix_keeper_tile_ops.md R236, 08_matrix_keeper_tile_ops.md R237). -/
def Obligations.BufferHandles : Prop :=
  ∀ (s : State), s.cur.core < 256 →
    let c := s.cur.core
    let k := s.core c
    let w := (opA s).toNat
    let n := (opB s).toNat
    let own := w.testBit 23 = false
    let base := w % 2 ^ 12
    let len := w / 2 ^ 12 % 2 ^ 11
    let dst := coreAtPos c n
    let handle := if own then base + len * 2 ^ 12 + posOf c * 2 ^ 23
      else ((nth ((view s).core c).arch.slots (w % 8) none).getD 0).toNat % 2 ^ 26
    let serial := (nth (s.die (c / 128)).serial (clusterOf c) 0).toNat
    (admitted .thand s → s.cur.stage = 0 → k.seg = none → ∃ t, exec .thand s = .next t ∧
      t.lmem = s.lmem ∧ t.mem = s.mem ∧ (∀ d, d ≠ c → t.core d = s.core d) ∧
      (t.core c).fences = k.fences ++ [⟨s.cur.seq, 0x0F, 0⟩] ∧
      (t.core c).flights = ((completes s 21 1).core c).flights ∧
      (t.core c).handedOut = (if own then k.handedOut ++ [⟨base, len, s.cur.aux.toNat % 2 ^ 64, .away⟩] else k.handedOut) ∧
      (t.core c).parted = (if own then k.parted else
        k.parted ++ ((nth k.arch.slots (w % 8) none).map fun h => (⟨s.cur.aux.toNat % 2 ^ 64, w % 8, h⟩ : Parted)).toList) ∧
      (t.core c).arch = (if own then k.arch else { k.arch with slots := updAt k.arch.slots (w % 8) fun _ => none }) ∧
      ⟨s.time, 2, .op { s.cur with unit := 21, stage := 1, checked := true, aux := wide handle }⟩ ∈ t.agenda) ∧
    (s.cur.checked = true → s.cur.stage = 1 → exec .thand s = .next
      (let u := withFlight s { flying s 30 1 with lands := false, ready := false, cause := 7 }
       { u with agenda := insertItem ⟨s.time, 2, .op { s.cur with unit := 21, stage := 2 }⟩ u.agenda })) ∧
    (s.cur.checked = true → s.cur.stage = 2 → pathsDone s c 0x0F s.cur.seq = true → rangeIdle s s.cur = true →
      (s.core dst).inbound.length < 8 → ∃ t, exec .thand s = .next t ∧ t.lmem = s.lmem ∧ t.mem = s.mem ∧ t.ctrs = s.ctrs ∧
      (t.core dst).inbound = (s.core dst).inbound ++ [BitVec.ofNat 64 (s.cur.aux.toNat % 2 ^ 64 + serial * 2 ^ 32)] ∧
      (∀ d, d ≠ dst → (t.core d).inbound = (s.core d).inbound) ∧ (∀ d, (t.core d).arch = (s.core d).arch) ∧
      (nth (t.die (c / 128)).serial (clusterOf c) 0).toNat = (serial + 1) % 2 ^ 32 ∧
      (t.core c).fences = k.fences.filter (fun x => decide (x.seq ≠ s.cur.seq))) ∧
    (s.cur.checked = true → s.cur.stage = 0 → k.inbound = [] → (∀ f ∈ k.flights, f.unit = 21 → f.ready = true) →
      exec .ttake s = .next (let u := withFlight s { flying s 21 40 with ready := false }
        { u with agenda := insertItem ⟨s.time + 1, 2, .op { s.cur with unit := 21, stage := 1, checked := true }⟩ u.agenda })) ∧
    (∀ (h : Handle) (l : List Handle) (f : Flight), s.cur.checked = true → s.cur.stage ≠ 0 → k.inbound = h :: l → k.flights = [f] →
      f.unit = 21 → f.seq = s.cur.seq → f.ready = false →
      let mine := coreAtPos c (h.toNat / 2 ^ 23 % 8) = c
      let slot := nth ((view s).core c).arch.slots n none
      (mine ∨ slot = none → ∃ t, exec .ttake s = .next t ∧ (t.core c).inbound = l ∧
        (t.core c).flights = [{ f with ready := true, deferred := false, due := max s.time f.due, y0 := h.setWidth 8192 }] ∧
        (t.core c).arch = (if mine then k.arch else { k.arch with slots := updAt k.arch.slots n fun _ => some h }) ∧
        (t.core c).handedOut = (if mine then k.handedOut.filter fun x => !(x.basek = h.toNat % 2 ^ 12 && x.lenk = h.toNat / 2 ^ 12 % 2 ^ 11)
          else k.handedOut) ∧ (∀ d, d ≠ c → t.core d = s.core d) ∧ t.lmem = s.lmem ∧ t.mem = s.mem) ∧
      (¬ mine → slot ≠ none → ∃ t, exec .ttake s = .next t ∧ t.core c = { k with flights := [{ f with
        ready := true, deferred := false, due := max s.time f.due, posts := [.fault 0x03 (opB s) s.cur.slot] }] }))

/-- Outside a segment an admitted CQUE to a channel with fewer than 16 heads, none of another context, lands 0, and the head stands
last in the channel's queue and is looked at 2 cycles on; to any other channel it lands 1 and changes nothing. CSTAT lands the
channel's state, occupancy, fault code and record address, or bit 7 alone for another context's channel. CCLR on a halted
channel of the task's own chains reads the record afresh, or abandons the chain or all chains, and otherwise completes and does
nothing. A channel number of 4 or more, and a CCLR mode of 3 or more, give the precise fault 0x03. (12_copy_engine.md R288,
12_copy_engine.md R299, 12_copy_engine.md R300, 15_memory_engine_sync_ops.md R353). -/
def Obligations.CopyEngineChannels : Prop :=
  ∀ (s : State) (g : Bool), s.cur.core < 256 →
    let c := s.cur.core
    let n := (opB s).toNat
    let x := ctxOf s c
    let ch := chanAt s c n
    let other := ch.heads.any fun h => h.owner.id != x.id
    let read := Instr.ceRecordRead (coreBV c) (BitVec.ofNat 2 n)
    let withChan := fun (s : State) (y : Channel) => withCore s c fun k => { k with chans := updAt k.chans n fun _ => y }
    let state := match ch.stage with
      | .halted => 3 | .prewait | .claim => 2 | .idle => (if ch.heads = [] then 0 else 1) | _ => 1
    let clears := fun (i : Instr) (y : Channel) (own : Bool) => n < 4 → s.cur.checked = true ∨ (opA s).toNat < 3 → ch.stage = .halted → other = false → ∃ t, exec i s = .next t ∧
      t.cores = (withChan (completes s 22 1) y).cores ∧ SameMemory s t ∧ t.ctrs = s.ctrs ∧
      ⟨s.time + 1, 2, .ev read⟩ ∈ t.agenda ∧ (own = true → ∀ h ∈ ch.heads.take 1,
        ⟨s.time + 1, 3, .ev (.regionComplete (BitVec.ofNat 32 h.owner.launch) (BitVec.ofNat 8 h.owner.region))⟩ ∈ t.agenda)
    (admitted (.cque g) s → (s.core c).seg = none → n < 4 → ch.heads.length < 16 → other = false →
      exec (.cque g) s = .next (posted
        (withChan (landsWord s 22 2 0) { ch with heads := ch.heads ++ [⟨⟨g, (opA s).toNat⟩, x, s.cur.seq⟩] }) 2 2 read)) ∧
    (admitted (.cque g) s → (s.core c).seg = none → 16 ≤ ch.heads.length ∨ other = true → exec (.cque g) s = .next (landsWord s 22 2 1)) ∧
    (n < 4 → exec .cstat s = .next (landsWord s 22 2 (BitVec.ofNat 64 (if other then 2 ^ 7 else
      state + min ch.heads.length 16 * 2 ^ 2 + (if ch.stage = .halted then ch.code else 0) * 2 ^ 8 + ch.recAddr.addr % 2 ^ 48 * 2 ^ 16)))) ∧
    clears .cclrRetry { ch with stage := .reading, code := 0 } false ∧
    clears .cclrAbandonChain { ch with heads := ch.heads.tail, stage := .idle, code := 0 } true ∧
    clears .cclrAbandonAll { ch with heads := [], stage := .idle, code := 0 } true ∧
    (n < 4 → s.cur.checked = true ∨ (opA s).toNat < 3 → ch.stage ≠ .halted ∨ other = true → ∀ i ∈ [Instr.cclrRetry, .cclrAbandonChain, .cclrAbandonAll],
      exec i s = .next (completes s 22 1)) ∧
    (s.cur.checked = false → 4 ≤ n → exec .cstat s = .next (faults s 0x03 (opB s))) ∧
    (s.cur.checked = false → ∀ i ∈ [Instr.cclrRetry, .cclrAbandonChain, .cclrAbandonAll],
      (3 ≤ (opA s).toNat → exec i s = .next (faults s 0x03 (opA s))) ∧
      ((opA s).toNat < 3 → 4 ≤ n → exec i s = .next (faults s 0x03 (opB s))))

/-- With no datum in error and a home that the access reaches, an admitted RINIT writes b into RDP, then into WRP and CLAIM, and no
other byte changes. RAWAIT, no drain window standing in its way, of a published slot lands the slot's address; of one not yet
published it stays in flight and looks again after a cycle; a misused ring makes its result a fault 0x23. An admitted RREL
outside a segment, with the accesses before it performed, writes n + 1 into RDP where RDP is n and slot n is published, and
otherwise has the fault 0x23. An admitted TDMK writes the seal of the descriptor at b, or of what its bundle read there, as its
last 4 bytes, and stands as a marker in a queue that is not empty, unless its bundle has placed one. That an operation that waits
looks again after a cycle, and that a misaligned BASE misuses a ring, are the model's own choices (logs 2 and 26). (10_memory_hierarchy.md R263, 12_copy_engine.md R301, 12_copy_engine.md R302, 12_copy_engine.md
R303, 15_memory_engine_sync_ops.md R354, 15_memory_engine_sync_ops.md R355, 15_memory_engine_sync_ops.md R356,
15_memory_engine_sync_ops.md R357, 15_memory_engine_sync_ops.md R367). -/
def Obligations.RingsAndSeals : Prop :=
  ∀ (s : State) (g : Bool) (l : Loc) (r : Nat), s.cur.core < 256 → intact s →
    let c := s.cur.core
    let k := s.core c
    let x := ctxOf s c
    let a := (opA s).toNat
    let n := (opB s).toNat % 2 ^ 32
    let reach := fun (off n : Nat) =>
      engineAccess (view s) x ⟨g, a + off⟩ true false n = .ok [(l.plus off, 0, n)] ∧ homeCut s (dieOf x.core) (l.plus off) = false
    let wrp := r / 2 ^ 128 % 2 ^ 32
    let published : Bool := 1 ≤ (wrp + 2 ^ 32 - n) % 2 ^ 32 && (wrp + 2 ^ 32 - n) % 2 ^ 32 ≤ 2 ^ 31
    let slot := r % 2 ^ 48 + n % 2 ^ (r / 2 ^ 56 % 2 ^ 5) * (r / 2 ^ 64 % 2 ^ 32)
    let f := flying s 22 (if g then 700 else 20)
    let lands := fun (y : Nat) (p : List Post) => withFlight s { f with y0 := BitVec.ofNat 64 y |>.setWidth 8192, posts := p, due := max s.time f.due }
    (admitted (.rinit g) s → engineAccess (view s) x ⟨g, a⟩ true false 64 = .ok [(l, 0, 64)] → reach 24 4 → reach 16 8 → ∃ t, exec (.rinit g) s = .next t ∧
      SameMemory (memPutAt (memPutAt s (l.plus 24) 4 n) (l.plus 16) 8 (n + n * 2 ^ 32)) t ∧ SameArch s t ∧
      (t.core c).flights = ((completes s 22 1).core c).flights ∧ t.agenda = (completes s 22 1).agenda) ∧
    (admitted (.rawait g) s → s.cur.stage = 0 → s.cur.drained s = false → engineGet (view s) x ⟨g, a⟩ false 64 = .ok r →
      (ringBad r = false → published = true → exec (.rawait g) s = .next (lands slot [])) ∧
      (ringBad r = false → published = false → exec (.rawait g) s = .next (again (withFlight s { f with ready := false }) 22 1)) ∧
      (ringBad r = true → exec (.rawait g) s = .next (lands 0 [.fault 0x23 (opA s) s.cur.slot]))) ∧
    (admitted (.rrel g) s → k.seg = none → s.cur.drained s = false → pathsDone s c 7 (s.cur.covers s) = true → engineGet (view s) x ⟨g, a⟩ false 64 = .ok r →
      (r / 2 ^ 192 % 2 ^ 32 = n → published = true → reach 24 4 → ∃ t, exec (.rrel g) s = .next t ∧
        SameMemory (memPutAt s (l.plus 24) 4 ((n + 1) % 2 ^ 32)) t ∧ SameArch s t ∧
        (t.core c).flights = ((completes s 22 1).core c).flights ∧ t.agenda = (completes s 22 1).agenda) ∧
      (r / 2 ^ 192 % 2 ^ 32 ≠ n ∨ published = false →
        exec (.rrel g) s = .next (withFlight s { flying s 22 1 with lands := false, posts := [.fault 0x23 (opA s) s.cur.slot] }))) ∧
    (admitted (.tdmk g) s → accessHomes (view s) c pathS g true false ((opB s).toNat + 124) 4 = [(l, 0, 4)] →
      accessHomes (view s) c pathS g false false (opB s).toNat 128 ≠ [] → ∃ t, exec (.tdmk g) s = .next t ∧
      SameMemory (memPutAt s l 4 (sealOf s (if s.cur.checked then s.cur.head.toNat
        else readPieces (view s) (accessHomes (view s) c pathS g false false (opB s).toNat 128)) % 2 ^ 32)) t ∧
      SameArch s t ∧ (t.core c).flights = ((completes s 22 1).core c).flights ∧
      (t.core c).accesses = (if s.cur.checked = false ∧ k.accesses.any (fun y => y.path = 0) then
        queueIn k.accesses ⟨0, s.cur.seq, 22, s.cur.slot, .marker, [], 0, s.cur.inTrap, []⟩ else k.accesses))

/-- Outside a segment, the link standing, an admitted XJOB or SEJOB whose block of 128 bytes is read lands 0 and its copy of the block stands last
among the lane's or engine's jobs, which starts when it is at rest; where 8 jobs stand there it lands 1 and changes nothing. An
admitted XTAB whose named stacks have room completes in 1 cycle, and its load stands last in the queue of every stack that
b<8..19> names and of no other; the counter to add to is c<0..31> where c<32> is 1. A lane or engine number out of range, or no
stack at all, gives the precise fault 0x03. (13_transducer_lanes.md R305, 13_transducer_lanes.md R315, 14_stack_engines_curry.md
R323, 15_memory_engine_sync_ops.md R358, 15_memory_engine_sync_ops.md R359). -/
def Obligations.JobsAndTableLoads : Prop :=
  ∀ (s : State) (g : Bool) (v : Nat), s.cur.core < 256 → (s.core s.cur.core).seg = none →
    let c := s.cur.core
    let n := (opB s).toNat
    let block : EAddr := ⟨g, (opA s).toNat⟩
    let job : Job := ⟨block, BitVec.ofNat 1024 v, ctxOf s c, s.cur.seq⟩
    let named := fun (i : Nat) => n.testBit (8 + i)
    let load : TableLoad := ⟨false, n % 16, block, if (opC s).toNat.testBit 32 then some ((opC s).toNat % 2 ^ 32) else none, ctxOf s c,
      s.cur.seq⟩
    let linked := fun (d : Nat) => linkDown s (c / 128) d = false
    (admitted (.xjob g) s → n < 384 → linked (n / 192) → 8 ≤ (laneAt s n).jobs.length → exec (.xjob g) s = .next (landsWord s 22 60 1)) ∧
    (admitted (.xjob g) s → n < 384 → linked (n / 192) → (laneAt s n).jobs.length < 8 → engineGet (view s) (ctxOf s c) block false 128 = .ok v →
      exec (.xjob g) s = .next (posted { landsWord s 22 60 0 with lanes := updAt s.lanes n fun l => { l with jobs := l.jobs ++ [job] } }
        1 2 (.xlaneJobStart (BitVec.ofNat 9 n)))) ∧
    (admitted (.sejob g) s → n < 24 → linked (n / 12) → 8 ≤ (engineAt s n).jobs.length → exec (.sejob g) s = .next (landsWord s 22 60 1)) ∧
    (admitted (.sejob g) s → n < 24 → linked (n / 12) → (engineAt s n).jobs.length < 8 → engineGet (view s) (ctxOf s c) block false 128 = .ok v →
      exec (.sejob g) s = .next (posted { landsWord s 22 60 0 with engines := updAt s.engines n fun l => { l with jobs := l.jobs ++ [job] } }
        1 2 (.seJobStart (BitVec.ofNat 5 n)))) ∧
    (admitted (.xtab g) s → (∀ i, i < 12 → named i = true → linked (i / 6) ∧ (stackAt s i).loads.length < 16) → ∃ t, exec (.xtab g) s = .next t ∧
      t.cores = (completes s 22 1).cores ∧ SameMemory s t ∧ t.lanes = s.lanes ∧ t.ctrs = s.ctrs ∧
      (∀ i, i < 12 → stackAt t i = (if named i then { stackAt s i with loads := (stackAt s i).loads ++ [load] } else stackAt s i)) ∧
      ∀ i, i < 12 → named i = true → ⟨s.time + 1, 2, .ev (.tableLoadApply (BitVec.ofNat 4 i))⟩ ∈ t.agenda) ∧
    (s.cur.checked = false → fenceHold s c 4 = false → fenceHold s c 5 = false → (g = false ∨ accessCheck s c 3 true false false (opA s).toNat 128 = .go) →
      (384 ≤ n → exec (.xjob g) s = .next (faults s 0x03 (opB s))) ∧ (24 ≤ n → exec (.sejob g) s = .next (faults s 0x03 (opB s))) ∧
      (n / 2 ^ 8 % 2 ^ 12 = 0 → exec (.xtab g) s = .next (faults s 0x03 (opB s))))

/-- Outside a segment each operation, its checks made, is in flight at its trigger and comes again after its bound (40, FRATE 2).
Then FFLOW open and accept add the entry of the flow word and land 0, or land 1 where one exists, and accept 2 at 4,096 entries;
close removes the task's own entry and lands 0, a send entry only once no message of it is left, or lands 3 where it has none.
FRATE lands the previous code word and sets the code. FRWIN registers the window of the block or removes the region's own,
landing 0, and lands 1 where it cannot. No memory and no task-visible register changes but through the landing.
(21_package_fabric.md R420, 22_fabric_system_ops.md R442, 22_fabric_system_ops.md R443, 22_fabric_system_ops.md R444,
22_fabric_system_ops.md R450, 22_fabric_system_ops.md R452). -/
def Obligations.FlowsRatesAndWindows : Prop :=
  ∀ (s : State) (g : Bool) (f : Flight), s.cur.core < 256 → s.cur.checked = true → (s.core s.cur.core).seg = none → intact s →
    let c := s.cur.core
    let k := s.core c
    let die := c / 128
    let d := s.die die
    let x := ctxOf s c
    let w := (opA s).toNat
    let flow := w % 2 ^ 10
    let node := w / 2 ^ 10 % 2 ^ 15
    let peer := w / 2 ^ 25 % 2
    let b := (opB s).toNat
    let send := d.sends.find? fun y => y.flow = flow
    let recv := d.recvs.find? fun y => y.node = node && y.die = peer && y.flow = flow
    let begins := fun (bound : Nat) => again (withFlight s { flying s 23 bound with ready := false }) 23 bound
    let status := fun (i : Instr) (n : Nat) (P : State → Prop) => ∃ t, exec i s = .next t ∧ SameMemory s t ∧ SameArch s t ∧
      (∀ e, e ≠ c → t.core e = s.core e) ∧ t.ctrs = s.ctrs ∧
      (t.core c).flights = [{ f with ready := true, deferred := false, due := max s.time f.due, y0 := BitVec.ofNat 8192 n }] ∧ P t
    let dieIs := fun (y : Die) (t : State) => t.dies = updAt s.dies die (fun _ => y) ∧ t.pkg = s.pkg
    let winIs := fun (l : List Window) (t : State) => t.pkg.windows = l ∧ t.dies = s.dies
    let block := s.cur.aux.toNat
    let fld := fun (lo n : Nat) => block / 2 ^ lo % 2 ^ n
    let win := s.pkg.windows.find? fun y => y.id = b % 64
    (s.cur.stage = 0 →
      (∀ i ∈ [Instr.fflowOpen, .fflowAccept, .fflowCloseSend, .fflowCloseRecv], exec i s = .next (begins 40)) ∧
      exec .frate s = .next (begins 2) ∧
      (∀ i ∈ [Instr.frwinRegister g, .frwinRemove g], exec i s = .next (begins 40))) ∧
    (s.cur.stage ≠ 0 → k.flights = [f] → f.unit = 23 → f.seq = s.cur.seq →
      (send = none → status .fflowOpen 0 (dieIs { d with
        sends := d.sends ++ [⟨flow, node, peer, w / 2 ^ 26 % 8, w.testBit 29, x.ref, 0, 0, none⟩] })) ∧
      (send ≠ none → status .fflowOpen 1 (dieIs d)) ∧
      (recv = none → d.recvs.length < 4096 → status .fflowAccept 0 (dieIs { d with
        recvs := d.recvs ++ [⟨node, peer, flow, x.ref, x.domain, 0, [], [], [], [], [], none⟩] })) ∧
      (recv = none → 4096 ≤ d.recvs.length → status .fflowAccept 2 (dieIs d)) ∧
      (recv ≠ none → status .fflowAccept 1 (dieIs d)) ∧
      (∀ y, send = some y → y.region = x.ref → y.node = node → y.die = peer → d.messages = [] → d.stripes = [] →
        ((∀ e, (s.core e).fxQ = []) → status .fflowCloseSend 0 (dieIs { d with sends := d.sends.filter fun z => z.flow ≠ flow })) ∧
        (k.fxQ.any (fun q => q.op != 5 && q.flow = flow) = true → exec .fflowCloseSend s = .next (again s 23 1))) ∧
      ((∀ y, send = some y → y.region ≠ x.ref ∨ y.node ≠ node ∨ y.die ≠ peer) → status .fflowCloseSend 3 (dieIs d)) ∧
      (∀ y, recv = some y → y.region = x.ref → d.messages = [] → d.stripes = [] → d.bufs = [] → status .fflowCloseRecv 0 (dieIs { d with
        recvs := d.recvs.filter fun z => !(z.node = node && z.die = peer && z.flow = flow) })) ∧
      ((∀ y, recv = some y → y.region ≠ x.ref) → status .fflowCloseRecv 3 (dieIs d)) ∧
      (∀ y, send = some y → y.region = x.ref →
        let old := match y.code with
          | some (m, n) => m + n * 2 ^ 4
          | none => (nth s.pkg.fcrate y.cls (12, 4)).1 + (nth s.pkg.fcrate y.cls (12, 4)).2 * 2 ^ 4 + 2 ^ 7
        let new := if b.testBit 7 then none else some (b % 16, b / 16 % 8)
        status .frate old (dieIs { d with sends := d.sends.map fun z => if z.flow = flow then { z with code := new } else z })) ∧
      (win = none → status (.frwinRegister g) 0 (winIs (s.pkg.windows ++ [⟨b % 64, fld 0 48, fld 64 32, fld 48 1 = 1, fld 49 2,
        fld 51 1 = 1, fld 96 32, fld 52 3, x.ref, x.domain⟩]))) ∧
      (win ≠ none → status (.frwinRegister g) 1 (winIs s.pkg.windows)) ∧
      (∀ y, win = some y → y.region = x.ref → status (.frwinRemove g) 0 (winIs (s.pkg.windows.filter fun z => z.id ≠ y.id))) ∧
      ((∀ y, win = some y → y.region ≠ x.ref) → status (.frwinRemove g) 1 (winIs s.pkg.windows)))

/-- Admitted outside a segment, with no datum in error, an operation of a core with fewer than 16 queued lands 0 within 4 cycles and
stands last in the queue with its operands and its copy of the block; the queue is looked at in the next cycle. With 16 queued
it lands 1. FWRITE and FREAD, unless their bundle has done so, first place a marker in the scalar queue where that is not empty.
Nothing else changes. An FFLOW mode above 3 gives the precise fault 0x03, and with no fence pending FCADD on a flow that the
task's region has not open 0x0B. (22_fabric_system_ops.md R437, 22_fabric_system_ops.md R438, 22_fabric_system_ops.md R439,
22_fabric_system_ops.md R440, 22_fabric_system_ops.md R445, 22_fabric_system_ops.md R449, 22_fabric_system_ops.md R451). -/
def Obligations.FabricOperationsQueue : Prop :=
  ∀ (s : State) (g : Bool), s.cur.core < 256 → (s.core s.cur.core).seg = none → intact s →
    let c := s.cur.core
    let k := s.core c
    let op := fun (n flow : Nat) (g : Bool) => (⟨n, ctxOf s c, flow, opA s, opB s, opC s, g, s.cur.aux.setWidth 512, s.cur.covers s⟩ : FxOp)
    let joins := fun (q : FxOp) => if 16 ≤ k.fxQ.length then landsWord s 23 4 1 else
      posted (withCore (landsWord s 23 4 0) c fun k => { k with fxQ := k.fxQ ++ [q] }) 1 2 (.fxQueueDepart (coreBV c))
    let marked := fun (i : Instr) (q : FxOp) => ∃ t, exec i s = .next t ∧ SameMemory s t ∧ SameArch s t ∧
      (∀ e, e ≠ c → t.core e = s.core e) ∧ t.dies = s.dies ∧ t.pkg = s.pkg ∧ t.ctrs = s.ctrs ∧
      (t.core c).fxQ = ((joins q).core c).fxQ ∧ (t.core c).flights = ((joins q).core c).flights ∧ t.agenda = (joins q).agenda ∧
      (t.core c).accesses =
        if s.cur.checked = false ∧ k.accesses.any (fun y => y.path = 0) then
          queueIn k.accesses ⟨0, s.cur.seq, 23, s.cur.slot, .marker, [], 0, s.cur.inTrap, []⟩ else k.accesses
    (admitted (.fwrite g) s → marked (.fwrite g) (op 2 ((opB s).toNat % 1024) g)) ∧
    (admitted (.fread g) s → marked (.fread g) (op 3 ((opB s).toNat % 1024) g)) ∧
    (admitted .fcadd s → exec .fcadd s = .next (joins (op 4 ((opC s).toNat % 1024) false))) ∧
    (admitted (.fred g) s → exec (.fred g) s = .next (joins (op 5 0 g))) ∧
    (s.cur.checked = false → 4 ≤ (opB s).toNat → exec .fflowCloseRecv s = .next (faults s 0x03 (opB s))) ∧
    (s.cur.checked = false → k.fences = [] → (∀ y ∈ (s.die (c / 128)).sends, y.flow = (opC s).toNat % 1024 → y.region ≠ (ctxOf s c).ref) →
      exec .fcadd s = .next (faults s 0x0B (opC s)))

/-- On a running core with nothing else to take at the boundary, FETCH finds the dictionary entry that the index at the pc names, or
after an escape the legal literal of the next 24 indices, and issue follows in the same cycle; an index from 0x1000 to 0xFFFE,
an unloaded entry, an escape that would pass the end of index memory and a pc past 32,767 give 0x01 at bundle level. A literal
with an illegal header, or past its limits, gives 0x02 at bundle level with the pc, and one with an illegal transport 0x03 at
its lowest illegal slot with the transport and the pc. No word of the core's memories is taken to be in error. A bundle that must wait is held a cycle and comes again; one in fault takes no effect and its trap entry follows; else it issues: the pc
moves past it, held cycles start anew, the register files and ports are as all its writes leave them, every general register
that a transport names takes the value that was read before any write, each operation outside the engines is pending in this
cycle with ports a and c of its unit as they now stand and b as its transport carried it, and the next boundary is a cycle on.
The oldest captured operation of an engine starts once its delay has passed, one start a cycle and, where it makes global
requests, no drain, and its operands move to the active set. A segment-entry bundle with a nonzero id, with no segment open and
no fault pending, goes on as in its segment. (01_core_machine.md R13, 01_core_machine.md R14, 01_core_machine.md R22, 01_core_machine.md R28, 01_core_machine.md R34,
01_core_machine.md R23, 02_encoding.md R49, 02_encoding.md R50, 02_encoding.md R53, 19_faults_preemption.md R387). -/
def Obligations.BundlesFetchAndIssue : Prop :=
  ∀ (s : State) (v : BitVec 8) (f : Fetched) (w : Wait) (r : TrapReq) (b : Bundle),
    let c := v.toNat
    let k := s.core c
    let plain := k.flow = .running ∧ k.rewind = none ∧ k.pend = [] ∧ k.preq = none ∧ k.poison = [] ∧ k.upsets = []
    let at_ := fun (j : Nat) => ((k.idx[k.pc + j]?).getD 0xFFFE).toNat
    let found := fun (g : Fetched) =>
      exec (.fetch v) s = .next (posted (withCore s c fun k => { k with fetched := some g }) 0 5 (.bundleIssue v))
    let stops := fun (code i slot : Nat) (level : Bool) =>
      exec (.fetch v) s = .next (trapping s c ⟨code, BitVec.ofNat 64 i, slot, level, some k.pc, k.arch.inTrap, 0, false⟩)
    let illegal := fun (i : Nat) => stops 0x01 i 0 true
    let literal := plain ∧ k.pc + 24 ≤ 32767 ∧ at_ 0 = 0xFFFF ∧ ∀ j, j < 24 → field b.toNat (16 * j) 16 = at_ (j + 1)
    let header := b.toNat / 2 ^ 368
    let ready := k.fetched = some f ∧ k.flow = .running ∧ k.regError = false
    let go := hdrKind f.bits ≠ 1 ∨ (k.seg.map (·.again)).getD false = true
    (plain → k.pc ≤ 32767 → at_ 0 < 4096 → k.dict[at_ 0]? = some b → found ⟨b, 1⟩) ∧
    (literal → validate b = none → found ⟨b, 25⟩) ∧
    (literal → header % 64 ≠ 0 ∨ 3 ≤ header / 2 ^ 13 ∨ (header / 2 ^ 13 = 0 ∧ header / 2 ^ 6 % 64 ≠ 0) ∨
      (header / 2 ^ 12 % 2 = 1 ∧ b.toNat / 2 ^ 64 % 2 ^ 28 ≠ 0) → stops 0x02 k.pc 0 true) ∧
    (literal → headerLegal b = true → ∀ i, badSlot b = some i →
      stops 0x03 (b.toNat / 2 ^ (322 - 46 * i) % 2 ^ 46 + k.pc * 2 ^ 48) i false) ∧
    (literal → headerLegal b = true → 24 ≤ b.toNat / 2 ^ 344 % 2 ^ 5 → stops 0x03 (b.toNat / 2 ^ 322 % 2 ^ 46 + k.pc * 2 ^ 48) 0 false) ∧
    (literal → headerLegal b = true → badSlot b = none → limitsLegal b = false → stops 0x02 k.pc 0 true) ∧
    (plain → k.pc ≤ 32767 → (4096 ≤ at_ 0 ∧ at_ 0 < 0xFFFF ∨ at_ 0 = 0xFFFF ∧ 32767 < k.pc + 24 ∨
      at_ 0 < 4096 ∧ k.dict[at_ 0]? = none) → illegal (at_ 0)) ∧
    (plain → 32767 < k.pc → illegal k.pc) ∧
    (ready → go → bundleWait s c f = some w → k.held + 1 < 2 ^ ((k.ctx.map (·.wdlim)).getD 22) → ∀ a u n, w = .hold a u n →
      exec (.bundleIssue v) s = .next (refetching (withCore s c fun k => { k with
        heldTotal := k.heldTotal + 1, held := k.held + 1,
        holdInfo := BitVec.ofNat 64 (u % 32 + a * 2 ^ 8 + n % 64 * 2 ^ 16) }) c 1)) ∧
    (ready → go → bundleWait s c f = none → bundleFault s c f = some r →
      r.code ≠ 0x20 →
      exec (.bundleIssue v) s = .next (trapping (withCore s c fun k => { k with walk := none, walked := [] }) c r)) ∧
    (ready → go → bundleWait s c f = none → bundleFault s c f = none → ∃ t, exec (.bundleIssue v) s = .next t ∧
      let a := written s c f.bits
      let z := (t.core c).arch
      (t.core c).pc = k.pc + f.size ∧ (t.core c).fetched = none ∧ (t.core c).held = 0 ∧ (t.core c).flow = .running ∧
      z.g = a.g ∧ z.o = a.o ∧ z.v = a.v ∧ z.vo = a.vo ∧ z.p = a.p ∧ z.f = a.f ∧ z.units = a.units ∧ z.st = k.arch.st ∧ z.pb = k.arch.pb ∧
      (∀ p ∈ acting s c f.bits, tDest p.2 < 2048 → field (tDest p.2) 0 6 = 0 →
        nth z.g (tDest p.2 / 64) 0 = (srcValue s c false (literalOf f.bits) (tSrc p.2) (s.fresh + 2 * p.1)).setWidth 64) ∧
      (∀ x ∈ trigsOf s c f, x.unit < 24 → x.a = (a.unit x.unit).a ∧ x.c = (a.unit x.unit).c ∧
        ∃ p ∈ acting s c f.bits, x.slot = p.1 ∧ x.dest = tDest p.2 ∧
          let vector := destDomain (tDest p.2) = .vector
          let y := srcValue s c vector (literalOf f.bits) (tSrc p.2) (s.fresh + 2 * p.1)
          x.b = if vector then y else (y.setWidth 64).setWidth 8192) ∧
      (∀ x ∈ trigsOf s c f, engineOf x.unit = none →
        ∃ n, (⟨s.time, 2, .op { x with srSeq := n, checked := true }⟩ : Item) ∈ t.agenda) ∧
      (⟨s.time + 1, 4, .ev (.fetch v)⟩ : Item) ∈ t.agenda ∧
      (∀ d, d ≠ c → t.core d = s.core d) ∧ SameMemory s t ∧ t.ctrs = s.ctrs) ∧
    (ready → hdrKind f.bits = 1 → k.seg = none → hdrId f.bits ≠ 0 → k.pend = [] →
      exec (.bundleIssue v) s = exec (.bundleIssue v) (withCore s c fun k => { k with
        seg := some ⟨hdrId f.bits, k.pc, 0, k.trigSeq, k.arch, [], true, false⟩
        arch := k.arch.setSegAct true })) ∧
    (∀ (e : Engine) (x : Trig) (rest : List Trig), nth k.captured e.code [] = x :: rest →
      (unheld s c < x.u0 + x.delay → exec (.engineOpStart v e) s = .next (posted s 1 0 (.engineOpStart v e))) ∧
      (x.u0 + x.delay ≤ unheld s c → nth k.engLast e.code 0 < s.time → x.drained s = false → ∃ t, exec (.engineOpStart v e) s = .next t ∧
        t.agenda = insertItem ⟨s.time, 2, .op { x with t0 := s.time, u0 := unheld s c, checked := true }⟩ s.agenda ∧
        nth (t.core c).captured e.code [] = rest ∧ nth (t.core c).engLast e.code 0 = s.time ∧
        (let o := nth k.arch.active e.code EngineSet.reset
         (t.core c).arch = { k.arch with active := updAt k.arch.active e.code fun _ =>
           { o with a := x.a, b := x.b, c := x.c, running := o.running + 1 } }) ∧
        (∀ d, d ≠ c → t.core d = s.core d) ∧ SameMemory s t))

/-- The only operation in flight of a unit, its time come and no result of it or, of VS, no other unit's record in this cycle,
lands: y0 takes the result in the lanes its guard passes, y1 the whole previous y0, or, of two results, the second under the
same guard; ports a, b and c and every other unit's stay. An operation that lands nothing leaves all ports. Registers and flags
it names are written, a predicate under the guard, floating-point flags and conversion counts are joined, an enabled one making
0x17 and a count above its threshold 0x16 pending, a tile becomes ready, a read of a tile ends, an accumulator is no longer held, a buckle is bound, a keeper takes the bytes and entries its masks name
with its generation one up, and a fault it carries joins the pending ones. Nothing else of the task-visible state changes. A
tile that drains becomes empty once nothing holds it. (01_core_machine.md R14, 01_core_machine.md R21, 01_core_machine.md R33,
05_numbers.md R138, 08_matrix_keeper_tile_ops.md R218, 08_matrix_keeper_tile_ops.md R221, 06_vector_ops.md R157). -/
def Obligations.ResultsLandInTriggerOrder : Prop :=
  ∀ (s : State) (v : BitVec 8) (u : BitVec 5) (f : Flight), 5 ≤ u.toNat → u.toNat ≤ 23 →
    let c := v.toNat
    let k := s.core c
    let due := k.flights = [f] ∧ f.unit = u.toNat ∧ f.ready = true ∧ f.due ≤ s.time ∧
      (f.lands = true → assoc k.lastLand f.unit ≠ some s.time ∧ (f.unit = 18 → k.portAt ≠ some s.time))
    let old := k.arch.unit u.toNat
    let base := fun (t : State) => (t.core c).flights = [] ∧ (∀ d, d ≠ c → t.core d = s.core d) ∧ SameMemory s t ∧ t.ctrs = s.ctrs
    let quiet := due ∧ f.lands = false ∧ engineOf u.toNat = none
    let turns := fun (p : Post) (g : Arch → Arch) => quiet → f.posts = [p] →
      ∃ t, exec (.resultLanding v u) s = .next t ∧ base t ∧ (t.core c).arch = g k.arch
    let pends := fun (p : Post) (code : Nat) (i : Word) (slot : Nat) (g : Arch → Arch) =>
      quiet → f.posts = [p] → f.inTrap = false → k.pend.length < 16 →
      ∃ t, exec (.resultLanding v u) s = .next t ∧ base t ∧ (t.core c).arch = g k.arch ∧
        (t.core c).pend = k.pend ++ [⟨code, i, slot, f.seq, true, k.seg.isSome, 0⟩]
    let counts := fun (a : Arch) (x y z : Nat) => (BitVec.ofNat 64 (min (field (a.sr 12).toNat 0 16 + x) 65535 +
      min (field (a.sr 12).toNat 16 16 + y) 65535 * 2 ^ 16 + min (field (a.sr 12).toNat 32 16 + z) 65535 * 2 ^ 32) : Word)
    (due → f.lands = true → f.posts = [] → ∃ t, exec (.resultLanding v u) s = .next t ∧ base t ∧
      let new := (t.core c).arch.unit u.toNat
      (∀ l, l < 256 → lane new.y0 l = if (f.mask.map (·.getLsbD l)).getD true then lane f.y0 l else lane old.y0 l) ∧
      (f.y1 = none → new.y1 = old.y0) ∧
      (∀ y, f.y1 = some y → ∀ l, l < 256 → lane new.y1 l = if (f.mask.map (·.getLsbD l)).getD true then lane y l else lane old.y1 l) ∧
      new.a = old.a ∧ new.b = old.b ∧ new.c = old.c ∧
      (engineOf u.toNat = none → (t.core c).arch = { k.arch with units := (t.core c).arch.units }) ∧
      (∀ w, 5 ≤ w → w ≠ u.toNat → (t.core c).arch.unit w = k.arch.unit w)) ∧
    (quiet → f.posts = [] → ∃ t, exec (.resultLanding v u) s = .next t ∧ base t ∧ (t.core c).arch = k.arch) ∧
    (∀ n x, turns (.gpr n x) fun a => { a with g := updAt a.g n fun _ => x }) ∧
    (∀ n x, turns (.flag n x) fun a => { a with f := updAt a.f n fun _ => x }) ∧
    (∀ n m, turns (.pred n m) fun a => { a with p := updAt a.p n fun o => match f.mask with
      | none => m
      | some g => (m &&& g) ||| (o &&& ~~~g) }) ∧
    (∀ b, b < 32 → (k.arch.sr 14).toNat / 256 % 32 &&& b = 0 →
      turns (.fpFlags b) fun a => a.setSr 14 (a.sr 14 ||| BitVec.ofNat 64 b)) ∧
    (∀ b, b < 32 → (k.arch.sr 14).toNat / 256 % 32 &&& b ≠ 0 →
      pends (.fpFlags b) 0x17 (BitVec.ofNat 64 b) f.slot fun a => a.setSr 14 (a.sr 14 ||| BitVec.ofNat 64 b)) ∧
    (∀ x y z, k.arch.sr 13 = 0 → turns (.conv x y z) fun a => a.setSr 12 (counts a x y z)) ∧
    (∀ x y z i, i < 3 → 0 < field (k.arch.sr 13).toNat (16 * i) 16 →
      field (k.arch.sr 13).toNat (16 * i) 16 < field (counts k.arch x y z).toNat (16 * i) 16 →
      pends (.conv x y z) 0x16 (counts k.arch x y z) f.slot fun a => a.setSr 12 (counts a x y z)) ∧
    (∀ n, turns (.tileReady n) fun a => { a with tiles := updAt a.tiles n fun x => { x with state := .ready } }) ∧
    (∀ n, turns (.tileRead n) fun a => { a with tiles := updAt a.tiles n fun x => { x with reads := x.reads - 1 } }) ∧
    (∀ n q, turns (.accFree n q) fun a => { a with accs := updAt a.accs n fun x => { x with busy := x.busy.filter (· ≠ q) } }) ∧
    (∀ n b, turns (.bind n b) fun a => { a with tiles := updAt a.tiles n fun x => { x with buckle := b, stale := false } }) ∧
    (∀ n bm y dm d, n < 64 → k.poison = [] → k.upsets = [] → (∀ i, (nth k.arch.tiles i Tile.reset).buckle = none) → quiet → f.posts = [.keeper n bm y dm d false] →
      ∃ t, exec (.resultLanding v u) s = .next t ∧ base t ∧
      let o := nth k.arch.keepers n Keeper.reset
      let z := nth (t.core c).arch.keepers n Keeper.reset
      z.gen = o.gen + 1 ∧ z.writes = o.writes - 1 ∧ z.readers = o.readers ∧
      (∀ i, i < 1024 → digit z.bytes.toNat 8 i = digit (if bm.getLsbD i then y else o.bytes).toNat 8 i) ∧
      (∀ i, i < 16 → digit z.band.toNat 16 i = digit (if dm.getLsbD i then d else o.band).toNat 16 i) ∧
      (∀ i, i ≠ n → nth (t.core c).arch.keepers i Keeper.reset = nth k.arch.keepers i Keeper.reset) ∧
      (t.core c).arch.tiles = k.arch.tiles) ∧
    (∀ code i slot, pends (.fault code i slot) code i slot id) ∧
    (due → f.posts = [] → ∀ g : Segment, k.seg = some g → f.lands = true → engineOf u.toNat = none →
      ∃ t, exec (.resultLanding v u) s = .next t ∧ (t.core c).seg = some (if f.seq < g.first then
        { g with shadow := g.shadow.setUnit u.toNat (landPorts f) } else g)) ∧
    (∀ n : BitVec 6, let x := nth k.arch.tiles n.toNat Tile.reset
      x.state = .draining →
      (x.busy + x.reads ≠ 0 → exec (.tileDrainDone v n) s = .next (posted s 1 3 (.tileDrainDone v n))) ∧
      (x.busy + x.reads = 0 → exec (.tileDrainDone v n) s = .next (withCore s c fun k => { k with
        arch := { k.arch with tiles := updAt k.arch.tiles n.toNat fun x => { x with state := .empty } } }))) ∧
    (∀ w n o, quiet → f.posts = [.record w n o] → k.seg = none → k.arch.ring.reserved = [⟨f.seq, none⟩] → intact s →
      ∃ t, exec (.resultLanding v u) s = .next t ∧
        (let r := k.arch.ring
         (t.core c).arch = { k.arch with ring := { r with written := r.written + 1, reserved := [], seq := r.seq + 1 } } ∧
         t.lmem = updAt s.lmem c (fun m => memPut m (0x400000 + k.arch.crBase + 16 * (r.written % 2 ^ k.arch.crSize)) 16
           (w % 2 ^ 64 + n * 2 ^ 64 + o * 2 ^ 72 + r.seq.toNat * 2 ^ 80 + 2 ^ 127))) ∧
        (t.core c).flights = [] ∧ (∀ d, d ≠ c → t.core d = s.core d) ∧ t.mem = s.mem)

/-- With every operation landed and no segment open, trap entry writes TRAPCAUSE, TRAPPC and TRAPINFO, sets INTRAP and moves the pc
to TRAPBASE's; a pending fault goes before the bundle's own. With TRAPBASE disabled or INTRAP set, or for an operation of a
handler, the context ends instead: its core is idle, its region has failed and the error ring holds one record more, of that
code. A hold at the watchdog's limit gives 0x19 with its cause and unit, and a result that the bundle waited for is discarded. A
rewind restores the registers, ports and keepers of the segment's shadow and its entry pc and drops what the segment deferred; a
fourth ends the context with 0x1D, a replay's wait past its limit with 0x1F. Slot 0 and bundle level 0 in the TRAPCAUSE of 0x19
are the model's own choice (log 20). (01_core_machine.md R29, 01_core_machine.md R35,
19_faults_preemption.md R383, 19_faults_preemption.md R388, 19_faults_preemption.md R395, 19_faults_preemption.md R399,
21_package_fabric.md R436). -/
def Obligations.TrapsRewindsAndTimeouts : Prop :=
  ∀ (s : State) (v : BitVec 8),
    let c := v.toNat
    let k := s.core c
    let d := c / 128
    let idle := k.flights = [] ∧ (∀ e, e < 4 → nth k.captured e [] = []) ∧ k.maQ = []
    let at_ := nth s.pkg.errBase d 0 + 64 * ((s.die d).errWp.toNat % 4096)
    let ends := fun (i : Instr) (code : Nat) => ∀ x g, k.ctx = some x → regionOf s x.ref = some g → g.fdom = true →
      (s.die d).errWp - (s.die d).errRp ≠ 4096 → recordable s d → ∃ t, exec i s = .next t ∧ (t.core c).ctx = none ∧ (t.core c).flow = .idle ∧
        (t.core c).flights = [] ∧ (regionOf t x.ref).map (·.failed) = some true ∧ (t.die d).errWp = (s.die d).errWp + 1 ∧
        memRead t.mem at_ 1 = code ∧ t.lmem = s.lmem ∧ (∀ e, (s.core e).ctx = none → (t.core e).arch = (s.core e).arch)
    let enters := fun (r : TrapReq) (pend : List PendFault) => exec (.trapEntry v) s = .next (refetching (withCore s c fun k => { k with
      pend := pend, trapReq := none, flow := .running, pc := (k.arch.sr 1).toNat % 2 ^ 15
      arch := (((k.arch.setSr 2 (BitVec.ofNat 64 (r.code + r.slot * 2 ^ 8 + r.blevel.toNat * 2 ^ 11))).setSr 3
        (BitVec.ofNat 64 (r.pc.getD k.pc))).setSr 4 r.info).setSr 0 (k.arch.sr 0 ||| 1) }) c 1)
    let traps := k.flow = .trapping ∧ k.rewind = none ∧ k.seg = none ∧ idle
    let enabled := (k.arch.sr 1).getLsbD 63 = true ∧ (k.arch.sr 0).getLsbD 0 = false
    let stuck := k.flow = .running ∧ k.held ≠ 0 ∧ 2 ^ ((k.ctx.map (·.wdlim)).getD 22) ≤ k.held ∧ k.arch.ring.reserved = []
    let frozen : TrapReq := ⟨0x19, k.holdInfo, 0, false, some k.pc, k.arch.inTrap, 0, false⟩
    (∀ r : TrapReq, traps → k.trapReq = some r → k.pend = [] → enabled → r.inTrap = false → enters r []) ∧
    (∀ p : PendFault, traps → k.pend = [p] → p.ready = true → enabled → enters ⟨p.code, p.info, p.slot, false, some k.pc, false, p.tag, false⟩ []) ∧
    (∀ r : TrapReq, traps → k.trapReq = some r → k.pend = [] → r.code < 256 →
      ((k.arch.sr 1).getLsbD 63 = false ∨ (k.arch.sr 0).getLsbD 0 = true ∨ r.inTrap = true) → ends (.trapEntry v) r.code) ∧
    (stuck → field k.holdInfo.toNat 8 8 ≠ 1 → field k.holdInfo.toNat 8 8 ≠ 9 → exec (.freezeTimeout v) s =
      .next (trapping (withCore s c fun k => { k with held := 0, walk := none, walked := [] }) c frozen)) ∧
    (∀ f : Flight, stuck → field k.holdInfo.toNat 8 8 = 1 → field k.holdInfo.toNat 0 5 = f.unit → k.flights = [f] → f.lands = true →
      f.bound ≤ unheld s c → f.ready = true → f.posts = [] → k.seg = none → exec (.freezeTimeout v) s =
      .next (trapping (posted (withCore s c fun k => { k with
        held := 0, walk := none, walked := []
        flights := [{ f with lands := false, dropped := true, regs := [], preds := [] }] }) 1 1 (.resultLanding v (BitVec.ofNat 5 f.unit)))
        c frozen)) ∧
    (∀ (g : Segment) (a : Nat × Nat), k.flow = .rewinding → idle → k.seg = some g → k.rewind = some a →
      (3 ≤ g.rewinds → ends (.rewind v) 0x1D) ∧
      (g.rewinds < 3 → recordable s d → ∃ t, exec (.rewind v) s = .next t ∧ t.lmem = s.lmem ∧ (∀ d, d ≠ c → t.core d = s.core d) ∧
        (t.core c).pc = g.entry ∧ (t.core c).flow = .running ∧ (t.core c).defq = [] ∧ (t.core c).rewind = none ∧
        (t.core c).pend = k.pend.filter (fun p => !p.inSeg) ∧ (t.core c).seg.map (·.rewinds) = some (g.rewinds + 1) ∧
        (⟨s.time + 1, 4, .ev (.fetch v)⟩ : Item) ∈ t.agenda ∧
        let z := (t.core c).arch
        z.g = g.shadow.g ∧ z.o = g.shadow.o ∧ z.v = g.shadow.v ∧ z.vo = g.shadow.vo ∧ z.p = g.shadow.p ∧ z.f = g.shadow.f ∧
        z.units = g.shadow.units ∧ z.pb = g.shadow.pb ∧ z.srSeq = g.shadow.srSeq ∧ z.maSeq = g.shadow.maSeq ∧
        (∀ i, i ≠ 0 → z.sr i = g.shadow.sr i) ∧ (∀ i, (z.sr 0).getLsbD i = if i = 8 then true
          else if i = 7 then (k.arch.sr 0).getLsbD 7 else (g.shadow.sr 0).getLsbD i) ∧
        (∀ i, i < 64 → (nth z.keepers i Keeper.reset).bytes = (nth g.shadow.keepers i Keeper.reset).bytes) ∧
        (∀ i, i < 4 → (nth z.accs i (Acc.reset 0)).els = (nth g.shadow.accs i (Acc.reset 0)).els))) ∧
    (∀ since die id : Nat, k.replayWait = some (since, die, id) →
      let lim := since + 2 ^ ((k.ctx.map (·.wdlim)).getD 22)
      (s.time < lim → exec (.replayWaitTimeout v) s =
        .next { s with agenda := insertItem ⟨lim, 3, .ev (.replayWaitTimeout v)⟩ s.agenda }) ∧
      (lim ≤ s.time → ends (.replayWaitTimeout v) 0x1F))

/-- A parked task whose counter has reached the threshold runs again and lands the counter's value, and one whose timeout has come
the last value read; before that nothing changes. A page walk fills the core's TLB with what the tables give, leaves a
translation fault to the access where they give nothing, and waits while a curry slot drains. A second read of a word in error
poisons its line where the error persists; a transient error is forgotten, and its consumer has 0x1B pending with bit 63 of the
address set, or rewinds the segment that consumed it; a correctable one raises nothing and is counted by a record (its form is the
model's, log 9). The scrubber does the same, records a persistent error, and goes on to the
next word that is in error, at most 65,536 words and as many cycles on, which is the model's own pace (log 27). (15_memory_engine_sync_ops.md R363,
10_memory_hierarchy.md R255, 10_memory_hierarchy.md R258, 10_memory_hierarchy.md R259, 19_faults_preemption.md R392,
19_faults_preemption.md R394, 14_stack_engines_curry.md R332). -/
def Obligations.WaitsWalksAndRereads : Prop :=
  ∀ (s : State) (v : BitVec 8),
    let c := v.toNat
    let k := s.core c
    let wakes := fun (i : Instr) (y : Nat) => ∀ f p, k.park = some p → k.flights = [f] → f.unit = 11 → f.seq = p.seq → ∃ t, exec i s = .next t ∧
      t.core c = { k with
        park := none, flow := .running
        flights := [{ f with ready := true, deferred := false, due := max s.time f.due, y0 := wide y }] } ∧
      t.waiters = s.waiters.filter (fun w => w.ev ≠ .cwaitWake v) ∧ (⟨s.time + 1, 4, .ev (.fetch v)⟩ : Item) ∈ t.agenda ∧
      (∀ d, d ≠ c → t.core d = s.core d) ∧ SameMemory s t ∧ t.ctrs = s.ctrs
    (∀ p x, k.park = some p → k.ctx = some x → rrMode s x = 0 →
      let n := ctrValue s.ctrs (p.handle % 2 ^ 17)
      (n < p.thr → exec (.cwaitWake v) s = .next s) ∧ (p.thr ≤ n → wakes (.cwaitWake v) n)) ∧
    (∀ p u, k.park = some p → p.until_ = some u →
      (s.time < u → exec (.cwaitTimeout v) s = .next { s with agenda := insertItem ⟨u, 1, .ev (.cwaitTimeout v)⟩ s.agenda }) ∧
      (u ≤ s.time → wakes (.cwaitTimeout v) p.last)) ∧
    (∀ va : BitVec 48, let a := va.toNat
      k.walk = some (a / 2 ^ 16) →
      (s.pkg.draining = true → exec (.pageWalk v va) s = .next (posted s 1 3 (.pageWalk v va))) ∧
      (s.pkg.draining = false → (s.die (c / 128)).tlb2 = [] →
        (walkTables s a = none → exec (.pageWalk v va) s = .next (withCore s c fun k =>
          { k with walk := none, walked := (a / 2 ^ 16, none) :: k.walked })) ∧
        (∀ pte large pa, walkTables s a = some (pte, large) → paThrough s pte large a = some pa →
          ∃ t, exec (.pageWalk v va) s = .next t ∧
            let e : TlbEntry := ⟨large, if large then a / 2 ^ 29 else a / 2 ^ 16, BitVec.ofNat 64 pte⟩
            t.core c = { k with
              walk := none
              walked := (a / 2 ^ 16, some e) :: k.walked
              tlb := (t.core c).tlb } ∧
            (t.core c).tlb.head? = some e ∧
            (t.core c).tlb.length ≤ 192 ∧ (∀ d, d ≠ c → t.core d = s.core d) ∧ SameMemory s t))) ∧
    (∀ (hbm : Bool) (a : BitVec 45) (p : Bool), let n := a.toNat
      let u : Upset := ⟨n / 8, p, false, false, []⟩
      let ups := fun (s : State) => if hbm then s.pkg.hbmUpsets else (s.core c).upsets
      let bad := fun (s : State) (w : Nat) => if hbm then w / 8 ∈ s.pkg.hbmPoison else w ∈ (s.core c).poison
      (ups s = [] → exec (.eccReread v hbm a) s = .next s) ∧
      (ups s = [u] → ∃ t, exec (.eccReread v hbm a) s = .next t ∧ ups t = [] ∧ SameArch s t ∧ SameMemory s t ∧
        (∀ w, bad t w ↔ bad s w ∨ p = true ∧ w / 8 = n / 64)) ∧
      (∀ us, let e := if hbm then dieOfPa (n / 8 * 8) else c / 128
        ups s = [⟨n / 8, p, false, true, us⟩] → (s.die e).errWp - (s.die e).errRp ≠ 4096 → recordable s e →
        ∃ t, exec (.eccReread v hbm a) s = .next t ∧ ups t = [] ∧ SameArch s t ∧ t.lmem = s.lmem ∧ (∀ w, bad t w ↔ bad s w) ∧
          (t.die e).errWp = (s.die e).errWp + 1) ∧
      (∀ (d : Nat) (w : Who), coreOf s w.ctx = some d → ups s = [⟨n / 8, false, false, false, [w]⟩] →
        let tag := if hbm then 0 else (assoc (s.core c).tags (n / 64)).getD 0
        (∀ g : Segment, (s.core d).seg = some g → g.first ≤ w.seq → g.closing = false → ∃ t, exec (.eccReread v hbm a) s = .next t ∧
          ups t = [] ∧ (t.core d).rewind = some (n, tag) ∧ SameArch s t ∧ SameMemory s t) ∧
        ((s.core d).seg = none → w.inTrap = false → (s.core d).pend.length < 16 → ∃ t, exec (.eccReread v hbm a) s = .next t ∧
          ups t = [] ∧ SameMemory s t ∧
          (t.core d).pend = (s.core d).pend ++ [⟨0x1B, BitVec.ofNat 64 (n + 2 ^ 63), w.slot, w.seq, true, false, tag⟩] ∧
          ∀ i, i < 4 → w.acc = some i → (nth (t.core d).arch.accs i (Acc.reset 0)).invalid = true))) ∧
    (∀ (a : BitVec 32) (p : Bool), let n := a.toNat
      let gap := scrubGap s c (n / 8)
      0 < gap ∧ gap ≤ 65536 ∧
      (k.upsets = [] → exec (.scrubWord v a) s = .next (posted s gap 3 (.scrubWord
        (coreBV ((c + (n / 8 + gap) / 0xCC000) % 256)) (BitVec.ofNat 32 ((n / 8 + gap) % 0xCC000 * 8))))) ∧
      (k.upsets = [⟨n / 8, p, false, false, []⟩] → (s.die (c / 128)).errWp - (s.die (c / 128)).errRp ≠ 4096 → recordable s (c / 128) →
        ∃ t, exec (.scrubWord v a) s = .next t ∧ (t.core c).upsets = [] ∧ SameArch s t ∧ t.lmem = s.lmem ∧
          (∀ w, w ∈ (t.core c).poison ↔ w ∈ k.poison ∨ p = true ∧ w / 8 = n / 64) ∧
          (t.die (c / 128)).errWp = (s.die (c / 128)).errWp + (if p then 1 else 0)))

/-- While a curry slot drains, a channel's record read, ring claim and completion come again after 16 cycles where they would make a
global request. A step whose one page the core's TLB lacks runs as from the state in which both TLBs hold it; what follows is of
steps whose pages the TLB holds. A record read that is well formed goes to its transfer, to its ring claim, or waits for its counter, until that
has reached the threshold; an ill-formed one halts the channel with 0x12 and one error record. A ring claim takes the slot
CLAIM, which goes up by one, waits while the ring is full, and halts with 0x23 on a misused ring; its wait is limited from the
claim's first look on; a wait past its limit halts with 0x12. A transfer begins once tiles and keepers are free. A one-
dimensional byte box between local descriptors puts byte i of the source at byte i of the destination; the record takes STATUS
0, the count of bytes and OWN 0, no other byte changes, and the chain goes on with NEXT or the next head. The 8 and 16 cycles, the
TLBs' replacement and BASE's alignment in a misused ring are the model's own choices (logs 2, 12 and 26). (10_memory_hierarchy.md
R255, 12_copy_engine.md R289, 12_copy_engine.md R290, 12_copy_engine.md R291, 12_copy_engine.md R296, 12_copy_engine.md R297, 12_copy_engine.md R298,
12_copy_engine.md R302, 12_copy_engine.md R303, 14_stack_engines_curry.md R332). -/
def Obligations.CopyEngineRuns : Prop :=
  ∀ (s : State) (v : BitVec 8) (h : BitVec 2) (x : Ctx), intact s → x.core < 256 →
    let c := v.toNat
    let n := h.toNat
    let k := chanAt s c n
    let r := k.record.toNat
    let see := chanView s c n
    let withChan := fun (s : State) (y : Channel) => withCore s c fun k => { k with chans := updAt k.chans n fun _ => y }
    let reached := fun (r : Nat) => field r 256 64 ≤ ctrValue s.ctrs (field r 192 17)
    let limit := 2 ^ (x.wdlim + 4)
    let cached := ∀ a ∈ chanVas see c n, (s.core c).tlb.any (·.covers a) = true
    let owned := s.pkg.draining = false ∧ k.owner = some x ∧ cached
    let room := (s.die (c / 128)).errWp - (s.die (c / 128)).errRp ≠ 4096
    let halts := fun (i : Instr) (code : Nat) => k.filling = false → ctxLive s x = true → room → recordable s (c / 128) → ∃ t, exec i s = .next t ∧
      (chanAt t c n).stage = .halted ∧ (chanAt t c n).code = code ∧ (chanAt t c n).heads = k.heads ∧
      (t.die (c / 128)).errWp = (s.die (c / 128)).errWp + 1 ∧ SameArch s t ∧ t.ctrs = s.ctrs
    let at_ := if k.stage = .idle then (k.heads.head?.map (·.addr)).getD ⟨false, 0⟩ else k.recAddr
    let reads := owned ∧ (k.stage = .idle ∨ k.stage = .reading)
    let mine := fun (a n : Nat) => localHome see x.core 3 true (x.spadk * 1024) a n = .ok (.arr x.core a) ∧ a + n ≤ 0x440000
    (s.pkg.draining = true → chanGlobal s c n = true →
      ∀ i ∈ [Instr.ceRecordRead v h, .ceRingClaim v h, .ceRecordComplete v h], exec i s = .next (posted s 16 2 i)) ∧
    (∀ (a : Nat) (e : TlbEntry), s.pkg.draining = false → k.stage ≠ .transfer → chanVas see c n = [a] → c < 256 →
      let page := a / 2 ^ 16 * 2 ^ 16
      (s.core c).tlb.any (·.covers page) = false → walked s c page = some e →
      ∀ i ∈ [Instr.ceRecordRead v h, .ceRingClaim v h, .ceRecordComplete v h], exec i s = exec i
        (withDie (withCore s c fun k => { k with tlb := (e :: k.tlb.filter (· ≠ e)).take 192 }) (c / 128) fun d => { d with
          tlb2 := ((clusterOf c, e) :: (d.tlb2.filter (·.1 = clusterOf c)).filter (· ≠ (clusterOf c, e))).take 4096 ++
            d.tlb2.filter (·.1 ≠ clusterOf c) })) ∧
    (∀ q, q < 2 ^ 1024 → reads → engineGet see x at_ false 128 = .ok q →
      let y := { k with recAddr := at_, record := BitVec.ofNat 1024 q }
      let ill := recordIll see x q || boxTooBig see x q
      (ill = true → halts (.ceRecordRead v h) 0x12) ∧
      (ill = false → (q.testBit 56 = false ∨ reached q) → field q 50 2 ≠ 2 → exec (.ceRecordRead v h) s =
        .next (posted (withChan s { y with stage := .transfer, filling := false }) 1 2 (.ceRecordComplete v h))) ∧
      (ill = false → (q.testBit 56 = false ∨ reached q) → field q 50 2 = 2 → exec (.ceRecordRead v h) s =
        .next (posted (posted (withChan s { y with stage := .claim, since := s.time }) limit 3 (.ceWaitTimeout v h)) 1 2
          (.ceRingClaim v h))) ∧
      (ill = false → q.testBit 56 = true → ¬ reached q → ∃ t, exec (.ceRecordRead v h) s = .next t ∧
        t.cores = (withChan s { y with stage := .prewait, since := s.time }).cores ∧
        t.waiters = s.waiters.filter (fun w => w.ev ≠ .cePrewaitMet v h) ++ [⟨field q 192 32, field q 256 64, .cePrewaitMet v h⟩] ∧
        (⟨s.time + limit, 3, .ev (.ceWaitTimeout v h)⟩ : Item) ∈ t.agenda ∧ SameMemory s t)) ∧
    (k.stage = .prewait → ¬ reached r → exec (.cePrewaitMet v h) s = .next s) ∧
    (k.stage = .prewait → reached r → ∃ t, exec (.cePrewaitMet v h) s = .next t ∧ t.cores = (withChan s (if field r 50 2 = 2
        then { k with stage := .claim, since := s.time } else { k with stage := .transfer, filling := false })).cores ∧
      (⟨s.time + 1, 2, .ev (if field r 50 2 = 2 then .ceRingClaim v h else .ceRecordComplete v h)⟩ : Item) ∈ t.agenda ∧
      t.waiters = s.waiters.filter (fun w => w.ev ≠ .cePrewaitMet v h) ∧ SameMemory s t) ∧
    (∀ o : Nat, owned → k.stage = .claim → engineGet see x (cAddr r 448) false 64 = .ok o →
      let next := field o 160 32
      (ringBad o = true → halts (.ceRingClaim v h) 0x23) ∧
      (ringBad o = false → (next + 2 ^ 32 - field o 192 32) % 2 ^ 32 = 2 ^ field o 56 5 → ∃ t, exec (.ceRingClaim v h) s = .next t ∧
        t.cores = s.cores ∧ SameMemory s t ∧ (⟨s.time + 8, 2, .ev (.ceRingClaim v h)⟩ : Item) ∈ t.agenda) ∧
      (∀ l : Loc, ringBad o = false → (next + 2 ^ 32 - field o 192 32) % 2 ^ 32 ≠ 2 ^ field o 56 5 →
        engineAccess see x ((cAddr r 448).plus 16) true false 8 = .ok [(l, 0, 8)] → homeCut s (x.core / 128) l = false →
        ∃ t, exec (.ceRingClaim v h) s = .next t ∧ chanAt t c n = { k with stage := .transfer, slot := next, filling := false } ∧
          SameMemory (memPutAt s l 8 (field o 128 32 + (next + 1) % 2 ^ 32 * 2 ^ 32)) t ∧ SameArch s t ∧
          (⟨s.time + 1, 2, .ev (.ceRecordComplete v h)⟩ : Item) ∈ t.agenda)) ∧
    (owned → k.stage = .prewait ∨ k.stage = .claim →
      (s.time < k.since + limit → exec (.ceWaitTimeout v h) s =
        .next { s with agenda := insertItem ⟨k.since + limit, 3, .ev (.ceWaitTimeout v h)⟩ s.agenda }) ∧
      (k.since + limit ≤ s.time → halts (.ceWaitTimeout v h) 0x12)) ∧
    (∀ src dst : Side, owned → k.stage = .transfer → sourceOf see x r = .ok src → destOf see x r k.slot = .ok dst →
      (boxIll r src dst = true → halts (.ceRecordComplete v h) 0x12) ∧
      (boxIll r src dst = false → k.filling = false → boxWaits (archOf see x) r = true →
        exec (.ceRecordComplete v h) s = .next (posted s 8 2 (.ceRecordComplete v h))) ∧
      (boxIll r src dst = false → k.filling = false → boxWaits (archOf see x) r = false → runsOn s x = some c → (s.core c).seg = none →
        exec (.ceRecordComplete v h) s = .next (posted (withCore s c fun j => { j with
          arch := boxBegin r j.arch
          chans := updAt j.chans n fun _ => { k with filling := true } })
          (24 + boxCount (boxExt r src) * src.bits / 512) 2 (.ceRecordComplete v h)))) ∧
    (∀ d e : Nat, owned → k.stage = .transfer → k.filling = true → field r 49 9 = 0 → cLocal r = true → k.recAddr.glob = false →
      sourceOf see x r = .ok (.desc d) → destOf see x r k.slot = .ok (.desc e) → boxIll r (.desc d) (.desc e) = false →
      dFmt d = 0 → dBits d = 8 → dRank d = 1 → dStride d 0 = 1 → dStride e 0 = 1 → dLocal d = true → dLocal e = true →
      let p := k.recAddr.addr
      let z := cExt r 0
      let from_ := dBase d + (cSorg r 0).toNat
      let to_ := dBase e + cDorg r 0
      let m := fun (s : State) => nth s.lmem x.core []
      Memory.wf (m s) → 0 ≤ cSorg r 0 → (cSorg r 0).toNat + z ≤ dSize d 0 → cDorg r 0 + z ≤ dSize e 0 → (to_ + z ≤ p ∨ p + 128 ≤ to_) → mine p 128 →
      (∀ j, j = 6 ∨ j = 49 → mine (p + j) 1) → mine (p + 124) 4 → (∀ i, i < z → mine (from_ + i) 1 ∧ mine (to_ + i) 1) →
      ∃ t, exec (.ceRecordComplete v h) s = .next t ∧
        (∀ a, memByte (m t) a = if to_ ≤ a ∧ a < to_ + z then memByte (m s) (a - to_ + from_)
          else if a = p + 49 then 0 else if p + 124 ≤ a ∧ a < p + 128 then BitVec.ofNat 8 (z / 2 ^ (8 * (a - p - 124)))
          else if a = p + 6 then BitVec.ofNat 8 (field r 48 8 / 2 * 2) else memByte (m s) a) ∧
        (∀ d, d ≠ x.core → nth t.lmem d [] = nth s.lmem d []) ∧ t.mem = s.mem ∧ SameArch s t ∧
        chanAt t c n = (if field r 0 48 = 0 then { k with heads := k.heads.tail, stage := .idle, filling := false }
          else { k with stage := .reading, recAddr := ⟨false, field r 0 48⟩, filling := false }) ∧
        (⟨s.time + 1, 2, .ev (.ceRecordRead v h)⟩ : Item) ∈ t.agenda)

/-- While a curry slot drains, a lane's steps, the end of a job with a local block apart, and a table load of a global image come again
after 16 cycles, which is the model's own choice (log 2). A well-formed job goes on to its binding, or waits for its counter; an ill-formed one, and a wait past its limit, end with STATUS 0x12
and an error record. A bound job starts at START with nothing consumed. A STEP of a 16-way state consumes one nibble, goes to
NEXT and emits its literal bytes where they fit, else the job ends with 0x14; input that is exhausted ends it with 0 and FAIL
with 0x12. A job at its end writes the lengths, counts and STATUS into its block, clears OWN, adds to its counter where STATUS
is 0, and the lane goes on. A table image that is accepted becomes the current copy with the next generation, the old one
standby; a refused one leaves the current copy and clears the standby one. (13_transducer_lanes.md R306, 13_transducer_lanes.md
R308, 13_transducer_lanes.md R310, 13_transducer_lanes.md R312, 13_transducer_lanes.md R313, 13_transducer_lanes.md R315,
15_memory_engine_sync_ops.md R359). -/
def Obligations.LanesRunJobs : Prop :=
  ∀ (s : State) (v : BitVec 9) (w : BitVec 4) (job : Job) (rest : List Job), v.toNat < 384 → w.toNat < 12 → intact s →
    let n := v.toNat
    let l := laneAt s n
    let j := job.block.toNat
    let x := job.owner
    let withLane := fun (s : State) (y : Lane) => { s with lanes := updAt s.lanes n fun _ => y }
    let head := l.jobs = job :: rest ∧ s.pkg.draining = false
    let reached := field j 384 64 ≤ ctrValue s.ctrs (field j 320 17)
    let limit := 2 ^ (x.wdlim + 4)
    let fails := fun (i : Instr) (code : Nat) => (s.die (n / 192)).errWp - (s.die (n / 192)).errRp ≠ 4096 →
      recordable s (n / 192) → ∃ t, exec i s = .next t ∧
      (laneAt t n).stage = .ending ∧ (laneAt t n).status = code ∧ (laneAt t n).jobs = l.jobs ∧ (laneAt t n).outlen ≤ l.outlen ∧
      (t.die (n / 192)).errWp = (s.die (n / 192)).errWp + 1 ∧ (⟨s.time + 1, 2, .ev (.xlaneJobEnd v)⟩ : Item) ∈ t.agenda ∧
      t.cores = s.cores ∧ t.lmem = s.lmem
    let fresh : Lane := { l with
      stage := .prewait, state := 0, cursor := 0, outlen := 0, status := 0, since := s.time
      sats := field j 512 32, flushes := field j 544 32, nans := field j 576 32 }
    (s.pkg.draining = true → ∀ i ∈ [Instr.xlaneJobStart v, .xlanePrewaitMet v, .xlaneTransition v],
      exec i s = .next (posted s 16 2 i)) ∧
    (s.pkg.draining = true → l.jobs = job :: rest → l.stage = .ending → job.addr.glob = true →
      exec (.xlaneJobEnd v) s = .next (posted s 16 2 (.xlaneJobEnd v))) ∧
    (∀ ld : TableLoad, s.pkg.draining = true → loadReady s w.toNat [] (stackAt s w.toNat).loads = some ld → ld.applied = false →
      ld.image.glob = true →
      exec (.tableLoadApply w) s = .next (posted s 16 2 (.tableLoadApply w))) ∧
    (head → l.stage = .idle →
      (jobIll s x j = true → fails (.xlaneJobStart v) 0x12) ∧
      (jobIll s x j = false → j.testBit 62 = false ∨ reached →
        exec (.xlaneJobStart v) s = .next (posted (withLane s fresh) 0 2 (.xlanePrewaitMet v))) ∧
      (jobIll s x j = false → j.testBit 62 = true → ¬ reached → exec (.xlaneJobStart v) s = .next { withLane s fresh with
        waiters := s.waiters ++ [⟨field j 320 32, field j 384 64, .xlanePrewaitMet v⟩]
        agenda := insertItem ⟨s.time + limit, 3, .ev (.xlaneWaitTimeout v)⟩ s.agenda })) ∧
    (head → l.stage = .prewait →
      (j.testBit 62 = true → ¬ reached → exec (.xlanePrewaitMet v) s = .next s) ∧
      (∀ t cg, j.testBit 62 = false ∨ reached → bindTables s (n / 32) j = .ok (t, cg) → ∃ u, exec (.xlanePrewaitMet v) s = .next u ∧
        u.lanes = (withLane s { l with
          stage := .run, state := field j 272 10, cursor := 0, holds := 0, acc := 0, apos := 0, outlen := 0
          sats := field j 512 32, flushes := field j 544 32, nans := field j 576 32, tgen := t, cgen := cg, status := 0
          xlat := pagesOf s (field j 0 48) (field j 64 32) ++
            if field j 192 32 = 0 then [] else pagesOf s (field j 128 48) (field j 192 32) }).lanes ∧
        (⟨s.time + 1, 2, .ev (.xlaneTransition v)⟩ : Item) ∈ u.agenda ∧ u.cores = s.cores ∧ SameMemory s u) ∧
      (s.time < l.since + limit → exec (.xlaneWaitTimeout v) s =
        .next { s with agenda := insertItem ⟨l.since + limit, 3, .ev (.xlaneWaitTimeout v)⟩ s.agenda }) ∧
      (l.since + limit ≤ s.time → fails (.xlaneWaitTimeout v) 0x12)) ∧
    (∀ (t : TableCopy) (sw e b : Nat), head → l.stage = .run → (tableAt s (n / 32) (field j 49 4)).copyOf l.tgen = some t → t.code = false →
      t.states[l.state]? = some sw → sw.testBit 0 = false →
      let at_ : EAddr := ⟨true, field j 0 48 + l.cursor / 2⟩
      let inside := l.cursor < 2 * field j 64 32 ∧ l.sats < 2 ^ 32 ∧ l.flushes < 2 ^ 32 ∧ l.nans < 2 ^ 32 ∧
        engineGet s x at_ true 1 (n / 192) (some l.xlat) = .ok b ∧
        t.entries[field sw 16 16 + (if l.cursor % 2 = 0 then b % 16 else b / 16 % 16)]? = some e
      let size := field e 14 2
      let out : EAddr := ⟨true, field j 128 48 + l.outlen⟩
      let moved : Lane := { l with state := field e 0 10, cursor := l.cursor + 1, holds := 0 }
      (2 * field j 64 32 ≤ l.cursor → ∃ u, exec (.xlaneTransition v) s = .next u ∧ laneAt u n = { l with stage := .ending, status := 0 } ∧
        (⟨s.time + 1, 2, .ev (.xlaneJobEnd v)⟩ : Item) ∈ u.agenda ∧ u.cores = s.cores ∧ SameMemory s u) ∧
      (inside → field e 10 4 = 0 → size = 0 →
        exec (.xlaneTransition v) s = .next (posted (withLane s moved) 1 2 (.xlaneTransition v))) ∧
      (∀ p : Nat, inside → field e 10 4 = 0 → 0 < size → size < 3 → l.outlen + size ≤ field j 192 32 →
        engineAccess s x out true true size (some l.xlat) = .ok [(.pa p, 0, size)] → homeCut s (n / 192) (.pa p) = false → exec (.xlaneTransition v) s =
        .next (posted { withLane s { moved with outlen := l.outlen + size } with mem := memPut s.mem p size (field e 16 16) } 1 2
          (.xlaneTransition v))) ∧
      (inside → field e 10 4 = 0 → 0 < size → size < 3 → field j 192 32 < l.outlen + size → fails (.xlaneTransition v) 0x14) ∧
      (inside → field e 10 4 = 7 → size = 0 → fails (.xlaneTransition v) 0x12)) ∧
    (head → l.stage = .ending → rrMode s x = 0 →
      let put := fun (s : State) (off n v : Nat) => { s with lmem := updAt s.lmem x.core fun m => memPut m (job.addr.addr + off) n v }
      let post := j.testBit 63 && l.status = 0
      (post = true → ctrCut s (n / 192) (field j 448 32) = false) → linkDown s (n / 192) (x.core / 128) = false →
      (∀ q ∈ [(28, 4), (88, 4), (64, 4), (68, 4), (72, 4), (37, 1), (6, 1)],
        engineAccess s x (job.addr.plus q.1) true false q.2 = .ok [(.arr x.core (job.addr.addr + q.1), 0, q.2)]) →
      ∃ t, exec (.xlaneJobEnd v) s = .next t ∧ SameMemory (put (put (put (put (put (put (put s 28 4 l.outlen) 88 4 ((l.cursor + 1) / 2))
          64 4 l.sats) 68 4 l.flushes) 72 4 l.nans) 37 1 l.status) 6 1 (field j 48 8 / 2 * 2)) t ∧
        laneAt t n = { l with jobs := rest, stage := .idle } ∧ SameArch s t ∧ (⟨s.time + 1, 2, .ev (.xlaneJobStart v)⟩ : Item) ∈ t.agenda ∧
        (⟨s.time + 1, 3, .ev (.regionComplete (BitVec.ofNat 32 x.launch) (BitVec.ofNat 8 x.region))⟩ : Item) ∈ t.agenda ∧
        (post = true → field j 480 32 + ctrValue s.ctrs (field j 448 17) < 2 ^ 64 → t.ctrs = ctrPlus s.ctrs (field j 448 17) (field j 480 32)) ∧
        (post = false → t.ctrs = s.ctrs)) ∧
    (∀ ld : TableLoad, (stackAt s w.toNat).loads = [ld] → ld.applied = false → ld.ctr = none → s.pkg.draining = false →
      (tableAt s w.toNat ld.id).standby = none → ld.id < 16 →
      let o := tableAt s w.toNat ld.id
      let g := if (o.gen + 1) % 2 ^ 16 = 0 then 1 else (o.gen + 1) % 2 ^ 16
      (∀ y, loadImage s ld.owner ld.image g = .ok y → ∃ t, exec (.tableLoadApply w) s = .next t ∧
        tableAt t w.toNat ld.id = ⟨some y, o.cur, g⟩ ∧ (stackAt t w.toNat).loads = [] ∧ t.lanes = s.lanes ∧ t.cores = s.cores ∧ SameMemory s t ∧
        (∀ i, i < 16 → i ≠ ld.id → tableAt t w.toNat i = tableAt s w.toNat i)) ∧
      (∀ b, loadImage s ld.owner ld.image g = .error b → b.home = none → b.code = 0x12 →
        (s.die (w.toNat / 6)).errWp - (s.die (w.toNat / 6)).errRp ≠ 4096 → recordable s (w.toNat / 6) → ∃ t, exec (.tableLoadApply w) s = .next t ∧
        tableAt t w.toNat ld.id = { o with standby := none } ∧ (stackAt t w.toNat).loads = [] ∧
        (t.die (w.toNat / 6)).errWp = (s.die (w.toNat / 6)).errWp + 1 ∧ t.lanes = s.lanes ∧ t.cores = s.cores))

/-- While a curry slot drains, a stack engine's start and column steps, and the end of a job with a global block, come again after 16
cycles, which is the model's own choice (log 2). A well-formed job goes on to its first column
block, or waits for its counter; an ill-formed one, and a wait past its limit, end with STATUS 0x12 and an error record. A
column block whose operands are read is written as an accumulator image of 1,024 elements at its place, and the next follows, or
after the last the job ends with 0; a second residue mismatch ends it with 0x11. At its end the job's STATUS and DONE are
written, OWN is cleared, the counter is added to where STATUS is 0, and the engine goes on. (14_stack_engines_curry.md R324,
14_stack_engines_curry.md R325, 14_stack_engines_curry.md R326, 14_stack_engines_curry.md R328, 14_stack_engines_curry.md R332). -/
def Obligations.StackEnginesRunJobs : Prop :=
  ∀ (s : State) (v : BitVec 5) (job : Job) (rest : List Job), v.toNat < 24 → intact s →
    let n := v.toNat
    let e := engineAt s n
    let b := job.block.toNat
    let x := job.owner
    let withEngine := fun (s : State) (y : StackEngine) => { s with engines := updAt s.engines n fun _ => y }
    let head := e.jobs = job :: rest ∧ s.pkg.draining = false
    let reached := field b 448 64 ≤ ctrValue s.ctrs (field b 384 17)
    let limit := 2 ^ (x.wdlim + 4)
    let fails := fun (i : Instr) (code : Nat) => (s.die (n / 12)).errWp - (s.die (n / 12)).errRp ≠ 4096 →
      recordable s (n / 12) → ∃ t, exec i s = .next t ∧
      (engineAt t n).stage = .ending ∧ (engineAt t n).status = code ∧ (engineAt t n).jobs = e.jobs ∧
      (t.die (n / 12)).errWp = (s.die (n / 12)).errWp + 1 ∧ (⟨s.time + 1, 2, .ev (.seJobEnd v)⟩ : Item) ∈ t.agenda ∧
      t.cores = s.cores ∧ t.lmem = s.lmem
    let fresh : StackEngine := { e with stage := .prewait, block := 0, status := 0, since := s.time }
    (s.pkg.draining = true → ∀ i ∈ [Instr.seJobStart v, .seColumnBlock v], exec i s = .next (posted s 16 2 i)) ∧
    (s.pkg.draining = true → e.jobs = job :: rest → e.stage = .ending → job.addr.glob = true →
      exec (.seJobEnd v) s = .next (posted s 16 2 (.seJobEnd v))) ∧
    (head → e.stage = .idle →
      (blockIll s x b = true → fails (.seJobStart v) 0x12) ∧
      (blockIll s x b = false → b.testBit 53 = false ∨ reached →
        exec (.seJobStart v) s = .next (posted (withEngine s fresh) 0 2 (.sePrewaitMet v))) ∧
      (blockIll s x b = false → b.testBit 53 = true → ¬ reached → exec (.seJobStart v) s = .next { withEngine s fresh with
        waiters := s.waiters ++ [⟨field b 384 32, field b 448 64, .sePrewaitMet v⟩]
        agenda := insertItem ⟨s.time + limit, 3, .ev (.seWaitTimeout v)⟩ s.agenda })) ∧
    (head → e.stage = .prewait →
      (b.testBit 53 = true → ¬ reached → exec (.sePrewaitMet v) s = .next s) ∧
      (b.testBit 53 = false ∨ reached → ∃ t, exec (.sePrewaitMet v) s = .next t ∧ engineAt t n = { e with stage := .run } ∧
        t.waiters = s.waiters.filter (fun w => w.ev ≠ .sePrewaitMet v) ∧ (⟨s.time + 1, 2, .ev (.seColumnBlock v)⟩ : Item) ∈ t.agenda ∧
        t.cores = s.cores ∧ SameMemory s t) ∧
      (s.time < e.since + limit → exec (.seWaitTimeout v) s =
        .next { s with agenda := insertItem ⟨e.since + limit, 3, .ev (.seWaitTimeout v)⟩ s.agenda }) ∧
      (e.since + limit ≤ s.time → fails (.seWaitTimeout v) 0x12)) ∧
    (∀ (els : Vector AccEl 1024) (homes : List (Loc × Nat × Nat)), head → e.stage = .run →
      let at_ : EAddr := ⟨!b.testBit 49, field b 256 48 + 16384 * e.block⟩
      let last := e.block + 1 = field b 336 16
      (e.mismatches = 0 → columnImage s x n b e.block = .ok els → spadOk x at_ 16384 = true →
        engineAccess s x at_ true true 16384 = .ok homes → (∀ p ∈ homes, homeCut s (n / 12) p.1 = false) → ∃ t, exec (.seColumnBlock v) s = .next t ∧
        (let image := ofDigits 1024 128 fun i => (nth els i AccEl.zero).image
         SameMemory (homes.foldl (fun m p => memPutAt m p.1 p.2.2 (image / 2 ^ (8 * p.2.1) % 2 ^ (8 * p.2.2))) s) t) ∧ SameArch s t ∧
        engineAt t n = (if last then { e with block := e.block + 1, stage := .ending, status := 0 } else { e with block := e.block + 1 }) ∧
        (if last then ⟨s.time + 1, 2, .ev (.seJobEnd v)⟩ else ⟨s.time + field b 320 16, 2, .ev (.seColumnBlock v)⟩ : Item) ∈ t.agenda) ∧
      (2 ≤ e.mismatches → recordable s (n / 12) → ∃ t, exec (.seColumnBlock v) s = .next t ∧ t.cores = s.cores ∧ t.lmem = s.lmem ∧
        engineAt t n = { e with stage := .ending, status := 0x11, mismatches := e.mismatches - 2 } ∧
        (⟨s.time + 1, 2, .ev (.seJobEnd v)⟩ : Item) ∈ t.agenda)) ∧
    (head → e.stage = .ending → rrMode s x = 0 →
      let put := fun (s : State) (off n v : Nat) => { s with lmem := updAt s.lmem x.core fun m => memPut m (job.addr.addr + off) n v }
      let post := b.testBit 54 && e.status = 0
      (post = true → ctrCut s (n / 12) (field b 416 32) = false) → linkDown s (n / 12) (x.core / 128) = false →
      (∀ q ∈ [(44, 1), (68, 4), (6, 1)],
        engineAccess s x (job.addr.plus q.1) true false q.2 = .ok [(.arr x.core (job.addr.addr + q.1), 0, q.2)]) →
      ∃ t, exec (.seJobEnd v) s = .next t ∧
        SameMemory (put (put (put s 44 1 e.status) 68 4 e.block) 6 1 (field b 48 8 / 2 * 2)) t ∧
        engineAt t n = { e with jobs := rest, stage := .idle } ∧ SameArch s t ∧ (⟨s.time + 1, 2, .ev (.seJobStart v)⟩ : Item) ∈ t.agenda ∧
        (⟨s.time + 1, 3, .ev (.regionComplete (BitVec.ofNat 32 x.launch) (BitVec.ofNat 8 x.region))⟩ : Item) ∈ t.agenda ∧
        (post = true → field b 512 32 + ctrValue s.ctrs (field b 416 17) < 2 ^ 64 → t.ctrs = ctrPlus s.ctrs (field b 416 17) (field b 512 32)) ∧
        (post = false → t.ctrs = s.ctrs))

/-- A fragment whose CRC fails or whose plane is out of service is counted at its die, and one for another node is ignored, a time
sync apart, with no other effect. The only queued write, read or add of a core whose flow is open becomes a message with the
flow's next sequence number; a contribution takes its 512 bytes and is kept until acknowledged. The next stripe of a message
leaves as k data and m parity fragments on the planes in service from the flow's own onward, each with a sound CRC and, of the
data, its 512 bytes. An ACK retires its stripe and, with the last, the message and its local add; a busy NAK sends the stripe
again after 2,048 cycles, another NAK or the timeout once with RETRY, and then the flow's source region ends with 0x1E and the
flow closes. A stripe and a contribution leave in their region's turn. What an answer's first byte names, and the cycles after which
a queue is looked at again, are the model's own choices (logs 13 and 2). (21_package_fabric.md R419, 21_package_fabric.md R420, 21_package_fabric.md R421, 21_package_fabric.md R423,
21_package_fabric.md R424, 21_package_fabric.md R425, 21_package_fabric.md R427, 22_fabric_system_ops.md R438, 22_fabric_system_ops.md R446,
22_fabric_system_ops.md R448, 22_fabric_system_ops.md R451). -/
def Obligations.FabricSends : Prop :=
  ∀ (s : State) (e : BitVec 1) (v : BitVec 8) (pl : BitVec 4) (x : BitVec 4608) (i : BitVec 32) (m : Message) (st : SentStripe), intact s →
    let d := e.toNat
    let c := v.toNat
    let y := s.die d
    let h := hdrAt x.toNat
    let send : Item := ⟨s.time + 1, 2, .ev (.stripeSend e)⟩
    let dieIs := fun (d : Nat) (y : Die) (t : State) => t.dies = updAt s.dies d (fun _ => y) ∧ SameMemory s t ∧ SameArch s t ∧ t.pkg = s.pkg
    let code := rateOf s d m
    let rot := rotOf s d m
    let lost := fun (f : Nat) => planeErased s ((rot + f) % 16)
    let named := (s.die h.dstDie).stripes = [st] ∧ (s.die h.dstDie).messages = [m] ∧ st.msg = m.id ∧ st.stripe = h.stripe ∧
      m.kind = payloadOf x % 256 ∧ m.flow = h.flow ∧ m.seq = h.seq ∧ m.rnode = h.srcNode ∧ m.rdie = h.srcDie ∧ h.dstDie < 2
    let events := [Instr.fragData pl x, .fragAck pl x, .fragNak pl x, .fragContribution pl x, .fragContribAck pl x, .fragReadRequest pl x,
      .fragReadResponse pl x, .fragReservedType pl x]
    let fails := fun (i : Instr) => (st.retry = false → ∃ t, exec i s = .next t ∧ send ∈ t.agenda ∧ dieIs d { y with
        retx := min (y.retx + 1) (2 ^ 64 - 1), stripes := [{ st with retry := true, wait := true }] } t) ∧
      (∀ f r, st.retry = true → m.kind = 0 → y.sends = [f] → f.flow = m.flow → regionOf s f.region = some r → r.fdom = true →
        m.rnode ≠ s.pkg.nodeId → y.errWp - y.errRp ≠ 4096 → recordable s d → ∃ t, exec i s = .next t ∧ (t.die d).sends = [] ∧ (t.die d).messages = [] ∧
        (t.die d).stripes = [] ∧ (t.die d).errWp = y.errWp + 1 ∧ (regionOf t f.region).map (·.failed) = some true)
    (fragSound x = false ∨ s.pkg.planeUp.getLsbD pl.toNat = false → ∀ j ∈ .fragTimeSync pl x :: events, exec j s =
      .next (withDie s (pl.toNat / 8) fun y => { y with crcErr := min (y.crcErr + 1) (2 ^ 64 - 1) })) ∧
    (fragSound x = true → s.pkg.planeUp.getLsbD pl.toNat = true → h.dstNode ≠ s.pkg.nodeId → ∀ j ∈ events, exec j s = .next s) ∧
    (arrives s pl.toNat x → exec (.fragReservedType pl x) s = .next s) ∧
    ((s.core c).fxQ = [] → ∃ t, exec (.fxQueueDepart v) s = .next t ∧ t.cores = s.cores ∧ t.dies = s.dies ∧ SameMemory s t) ∧
    (∀ q f data, (s.core c).fxQ = [q] → fxMayGo s c [] q = true → c / 128 = d →
      (q.op ∈ [2, 3, 4] → y.sends = [f] → f.flow = q.flow → (q.op = 2 → engineGet s q.owner (mLaddr q.block.toNat) false (mLen q.block.toNat) = .ok data) →
        ∃ t, exec (.fxQueueDepart v) s = .next t ∧ (t.core c).fxQ = [] ∧ send ∈ t.agenda ∧ SameMemory s t ∧ SameArch s t ∧
        t.dies = updAt s.dies d (fun y => { y with
          nextId := (y.nextId + 1) % 2 ^ 32
          sends := [{ f with nextSeq := (f.nextSeq + 1) % 2 ^ 32 }]
          messages := (t.die d).messages }) ∧ (t.die d).messages.dropLast = y.messages ∧
        (t.die d).messages.getLast?.map (fun z => (z.id, z.flow, z.seq, z.kind, z.rnode, z.rdie, z.cut)) =
          some (y.nextId, f.flow, f.nextSeq, if q.op = 3 then 6 else 0, f.node, f.die, 0) ∧
        (t.die d).messages.getLast?.map (fun z => (z.data, z.len)) =
          some (if q.op = 2 then data else 0, if q.op = 4 then 1 else mLen q.block.toNat)) ∧
      (q.op = 5 → linkDown s d (1 - d) = false → engineGet s q.owner ⟨q.glob, q.a.toNat⟩ false 512 = .ok data → ∃ t, exec (.fxQueueDepart v) s = .next t ∧
        (t.core c).fxQ = [] ∧ SameMemory s t ∧ SameArch s t ∧ (t.die d).contributions.dropLast = y.contributions ∧
        (t.die d).contributions.getLast?.map (fun z => (z.id, payloadOf z.frag, z.resent, z.acked, z.owner)) =
          some (y.nextId, data % 2 ^ 4096, false, false, q.owner) ∧
        (⟨s.time + 2 * s.pkg.strdl, 2, .ev (.contribResendTimeout e (BitVec.ofNat 32 y.nextId))⟩ : Item) ∈ t.agenda)) ∧
    (y.messages = [] → y.stripes = [] → exec (.stripeSend e) s = .next s) ∧
    (y.messages = [m] → y.stripes = [] → m.whole = false → m.kind ≠ 6 → stripeHeld s d m code.1 code.2 = false → linkDown s d (1 - d) = false →
      regionTurn s d (readyRegions s d) m.owner.ref = true → m.rnode ≠ s.pkg.nodeId → m.cut < 2 ^ 20 → m.kind < 16 → ∃ t, exec (.stripeSend e) s = .next t ∧ SameMemory s t ∧ t.cores = s.cores ∧
      (t.die d).stripes = [⟨y.nextId, m.id, m.cut, code.1, code.2, false, false⟩] ∧
      (t.die d).messages.map (fun z => (z.id, z.cut, z.whole)) = [(m.id, m.cut + 1, decide (m.len ≤ 512 * code.1 * (m.cut + 1)))] ∧
      t.tx.map (·.1) = s.tx.map (·.1) ++ ((List.range (code.1 + code.2)).filter (fun f => !lost f)).map (fun f => (rot + f) % 16) ∧
      (∀ f, f < code.1 + code.2 → code.1 + code.2 ≤ 16 → lost f = false → ∃ z ∈ t.tx, z.1 = (rot + f) % 16 ∧ fragSound z.2 = true ∧
        (let g := hdrAt z.2.toNat
         g.type = m.kind ∧ g.flow = m.flow % 1024 ∧ g.seq = m.seq % 2 ^ 32 ∧ g.stripe = m.cut ∧ g.frag = f ∧ g.dstNode = m.rnode % 2 ^ 15 ∧
         g.last = decide (m.len ≤ 512 * code.1 * (m.cut + 1)) ∧ g.daddr = m.daddr % 2 ^ 48 ∧ g.mlen = m.len % 2 ^ 32) ∧
        (f < code.1 → payloadOf z.2 = m.data / 2 ^ (4096 * (code.1 * m.cut + f)) % 2 ^ 4096)) ∧
      (⟨s.time + 2 * s.pkg.strdl, 2, .ev (.ackTimeout e (BitVec.ofNat 32 y.nextId))⟩ : Item) ∈ t.agenda) ∧
    (arrives s pl.toNat x → named → m.lctr = none → ∃ t, exec (.fragAck pl x) s = .next t ∧ dieIs h.dstDie { s.die h.dstDie with
        stripes := [], messages := if m.whole && (m.kind = 0 || m.kind = 7) then [] else [m] } t ∧
      (m.whole = true → m.kind = 0 →
        (⟨s.time + 1, 3, .ev (.regionComplete (BitVec.ofNat 32 m.owner.launch) (BitVec.ofNat 8 m.owner.region))⟩ : Item) ∈ t.agenda)) ∧
    (∀ n inc, arrives s pl.toNat x → named → m.lctr = some (n, inc) → m.kind = 0 → m.whole = true → rrMode s m.owner = 0 →
      ctrCut s h.dstDie n = false → ctrValue s.ctrs (n % 2 ^ 17) + inc < 2 ^ 64 →
      ∃ t, exec (.fragAck pl x) s = .next t ∧ t.ctrs = ctrPlus s.ctrs (n % 2 ^ 17) inc ∧ (t.die h.dstDie).messages = [] ∧ SameMemory s t) ∧
    (arrives s pl.toNat x → named → st.wait = false → st.retry = h.retry →
      (h.busy = true → exec (.fragNak pl x) s =
        .next (posted s 2048 2 (.stripeBusyResend (BitVec.ofNat 1 h.dstDie) (BitVec.ofNat 32 st.id)))) ∧
      (h.busy = false → h.dstDie = d → fails (.fragNak pl x))) ∧
    (arrives s pl.toNat x → (s.die h.dstDie).stripes = [] → exec (.fragNak pl x) s = .next s) ∧
    (y.stripes = [st] → st.id = i.toNat → ∃ t, exec (.stripeBusyResend e i) s = .next t ∧ dieIs d { y with stripes := [{ st with wait := true }] } t ∧
      (⟨s.time, 2, .ev (.stripeSend e)⟩ : Item) ∈ t.agenda) ∧
    (y.stripes = [] → exec (.ackTimeout e i) s = .next s) ∧
    (y.stripes = [st] → st.id = i.toNat → st.wait = false → y.messages = [m] → st.msg = m.id → fails (.ackTimeout e i))

/-- A data fragment of a flow with no receive entry is answered with a NAK; one of a stripe delivered already counts as late; the
first of a stripe opens a decode buffer with a deadline, a further one joins it, a second copy does nothing, and with k of them
the stripe is decoded and its delivery follows; with no buffer free it counts and is answered busy. A buffer keeps the RINGD and
COMPR of its message, which are free where another package sends it (log 13). A stripe that a curry slot holds back is looked at
again after 16 cycles (log 2). A decoded stripe of an unordered flow writes its bytes at its place and no other
byte, and with the last stripe the message is delivered, the window moves on and the remote counter is added to. A buffer at its
deadline is dropped, counted and answered with a NAK; where it held a second attempt from another package, the flow closes here
and its region ends. A read request reads its bytes and becomes an answer of the same length.
(21_package_fabric.md R425, 21_package_fabric.md R426, 21_package_fabric.md R427, 22_fabric_system_ops.md R443,
22_fabric_system_ops.md R446, 22_fabric_system_ops.md R447, 14_stack_engines_curry.md R332). -/
def Obligations.FabricReceives : Prop :=
  ∀ (s : State) (e : BitVec 1) (pl : BitVec 4) (x : BitVec 4608) (i : BitVec 32) (b : DecodeBuf) (r : RecvFlow), intact s →
    let h := hdrAt x.toNat
    let d := h.dstDie
    let y := s.die d
    let rot := (pl.toNat + 16 - h.frag) % 16
    let late := fun (y : Die) => { y with late := min (y.late + 1) (2 ^ 64 - 1) }
    let nak := fun (s : State) (q : Nat) (busy : Bool) => sent s q { h with
      type := 2, srcDie := h.dstDie, dstNode := h.srcNode, dstDie := h.srcDie, busy := busy, frag := 0 } h.type
    let marks := Config.remoteMarks h.srcNode h.srcDie h.flow h.seq
    let data := arrives s pl.toNat x ∧ h.type = 0 ∧ d < 2 ∧ h.srcNode ≠ s.pkg.nodeId
    let entry := y.recvs = [r] ∧ r.node = h.srcNode ∧ r.die = h.srcDie ∧ r.flow = h.flow
    let new := h.seq = r.low ∧ r.done = [] ∧ r.delivered = []
    let frag : Nat × BitVec 4096 := (h.frag, BitVec.ofNat 4096 (payloadOf x))
    let answer := recvFlow s d h.srcNode h.srcDie h.flow
    let deliver : Item := ⟨s.time + 1, 2, .ev (.stripeDeliver (BitVec.ofNat 1 d))⟩
    (∀ q, data → answer = none → nextPlane s rot = some q → exec (.fragData pl x) s = .next (nak s q false)) ∧
    (data → entry → h.retry = false → (h.seq ∈ r.done ∨ (h.seq, h.stripe) ∈ r.delivered ∨ h.seq + 1 = r.low) →
      exec (.fragData pl x) s = .next (withDie s d late)) ∧
    (data → entry → new → y.bufs = [] → 1 < h.k → ∃ t, exec (.fragData pl x) s = .next t ∧ t.cores = s.cores ∧ SameMemory s t ∧
      t.dies = updAt s.dies d (fun y => { y with
        nextId := (y.nextId + 1) % 2 ^ 32, bufs := [⟨y.nextId, BitVec.ofNat 512 (x.toNat % 2 ^ 512), [frag], false, marks.1, marks.2⟩] }) ∧
      t.tx = s.tx ∧ (⟨s.time + s.pkg.strdl, 2, .ev (.stripeDeadline (BitVec.ofNat 1 d) (BitVec.ofNat 32 y.nextId))⟩ : Item) ∈ t.agenda) ∧
    (data → entry → new → y.bufs = [b] → b.hdr.sameStripe h = true → b.hdr.retry = h.retry → b.decoded = false →
      (h.frag ∈ b.frags.map (·.1) → exec (.fragData pl x) s = .next s) ∧
      (h.frag ∉ b.frags.map (·.1) → ∃ t, exec (.fragData pl x) s = .next t ∧ t.cores = s.cores ∧ SameMemory s t ∧
        t.dies = updAt s.dies d (fun y => { y with
          bufs := [{ b with frags := b.frags ++ [frag], decoded := decide (h.k ≤ b.frags.length + 1) }] }) ∧
        (h.k ≤ b.frags.length + 1 → deliver ∈ t.agenda ∧ t.tx.length = s.tx.length + (if (nextPlane s rot).isSome then 2 else 0)))) ∧
    (∀ q, data → entry → new → 2048 ≤ y.bufs.length → (∀ z ∈ y.bufs, z.hdr.sameStripe h = false) → nextPlane s rot = some q →
      exec (.fragData pl x) s = .next (nak (withDie s d fun y => { y with noBuf := min (y.noBuf + 1) (2 ^ 64 - 1) }) q true)) ∧
    (arrives s pl.toNat x → h.type = 7 → d < 2 → y.messages = [] → h.retry = false →
      exec (.fragReadResponse pl x) s = .next (withDie s d late)) ∧
    (∀ m, arrives s pl.toNat x → h.type = 7 → d < 2 → requestOf s d h = some m → m.got = [] → y.bufs = [] → 1 < h.k →
      ∃ t, exec (.fragReadResponse pl x) s = .next t ∧ t.cores = s.cores ∧ SameMemory s t ∧ t.dies = updAt s.dies d (fun y => { y with
        nextId := (y.nextId + 1) % 2 ^ 32, bufs := [⟨y.nextId, BitVec.ofNat 512 (x.toNat % 2 ^ 512), [frag], false, false, false⟩] })) ∧
    (mayDeliver s e.toNat b = true → (s.die e.toNat).bufs = [b] → stripeDrained s e.toNat b = true → exec (.stripeDeliver e) s = .next { s with
      agenda := insertItem ⟨s.time + 16, 2, .ev (.stripeDeliver e)⟩ (s.agenda.filter fun x => x.what ≠ .ev (.stripeDeliver e)) }) ∧
    ((s.die e.toNat).bufs = [] → exec (.stripeDeliver e) s = .next s) ∧
    (∀ homes : List (Loc × Nat × Nat), let g := b.hdr
      let z := s.die e.toNat
      let own := regionCtx r.region r.domain e.toNat
      let off := 512 * g.k * g.stripe
      let n := min (512 * g.k) (g.mlen - off)
      let put := fun (v : Nat) => homes.foldl (fun m p => memPutAt m p.1 p.2.2 (v / 2 ^ (8 * p.2.1) % 2 ^ (8 * p.2.2))) s
      let bytes := stripeData g.k (b.frags.map fun p => (p.1, p.2.toNat)) % 2 ^ (8 * n)
      s.pkg.draining = false → z.bufs = [b] → b.decoded = true → g.type = 0 → g.ord = false → g.ring = false → g.comp = false →
      z.recvs = [r] → r.node = g.srcNode → r.die = g.srcDie → r.flow = g.flow → r.delivered = [] → r.done = [] → r.admitted = none →
      r.low = g.seq → r.lastStripe = [] → rrMode s own = 0 → g.dstDie = e.toNat → g.daddr ≠ 2 ^ 48 - 1 → 0 < n →
      engineAccess s own ⟨true, g.daddr + off⟩ true false n = .ok homes → (∀ p ∈ homes, homeCut s e.toNat p.1 = false) →
      (g.last = false → ∃ t, exec (.stripeDeliver e) s = .next t ∧ SameMemory (put bytes) t ∧ SameArch s t ∧
        (t.die e.toNat).bufs = [] ∧ (t.die e.toNat).recvs = [{ r with delivered := [(g.seq, g.stripe)] }]) ∧
      (g.last = true → g.stripe = 0 → g.cen = false → ∃ t, exec (.stripeDeliver e) s = .next t ∧ SameMemory (put bytes) t ∧
        SameArch s t ∧ t.ctrs = s.ctrs ∧ (t.die e.toNat).bufs = [] ∧ (t.die e.toNat).recvs.map (·.low) = [(r.low + 1) % 2 ^ 32]) ∧
      (g.last = true → g.stripe = 0 → g.cen = true → ctrNamed s g.ctr = true → ctrAllowed s g.ctr r.domain = true →
        ctrCut s e.toNat g.ctr = false →
        ctrValue s.ctrs (g.ctr % 2 ^ 17) + g.cinc < 2 ^ 64 → ∃ t, exec (.stripeDeliver e) s = .next t ∧
        SameMemory (put bytes) t ∧ t.ctrs = ctrPlus s.ctrs (g.ctr % 2 ^ 17) g.cinc ∧ (t.die e.toNat).bufs = [])) ∧
    ((∀ z ∈ (s.die e.toNat).bufs, z.id ≠ i.toNat) → exec (.stripeDeadline e i) s = .next s) ∧
    (∀ q, (s.die e.toNat).bufs = [b] → b.id = i.toNat → b.decoded = false → b.hdr.retry = false → b.hdr.srcNode ≠ s.pkg.nodeId →
      nextPlane s 0 = some q →
      ∃ t, exec (.stripeDeadline e i) s = .next t ∧ t.cores = s.cores ∧ SameMemory s t ∧ t.dies = updAt s.dies e.toNat (fun y => { y with
        bufs := [], nak := min (y.nak + 1) (2 ^ 64 - 1) }) ∧ t.tx.length = s.tx.length + 1 ∧
        t.tx.getLast?.map (fun p => (p.1, (hdrAt p.2.toNat).type, (hdrAt p.2.toNat).flow)) = some (q, 2, b.hdr.flow)) ∧
    (∀ g : Region, let z := s.die e.toNat
      z.bufs = [b] → b.id = i.toNat → b.decoded = false → b.hdr.retry = true → b.hdr.type = 0 → b.hdr.srcNode ≠ s.pkg.nodeId →
      b.hdr.dstNode = s.pkg.nodeId → b.hdr.dstDie = e.toNat → z.recvs = [r] → r.node = b.hdr.srcNode → r.die = b.hdr.srcDie →
      r.flow = b.hdr.flow → regionOf s r.region = some g → g.fdom = true → z.errWp - z.errRp ≠ 4096 → recordable s e.toNat →
      ∃ t, exec (.stripeDeadline e i) s = .next t ∧ (t.die e.toNat).bufs = [] ∧ (t.die e.toNat).recvs = [] ∧
        (t.die e.toNat).errWp = z.errWp + 1 ∧ (regionOf t r.region).map (·.failed) = some true) ∧
    (∀ q, arrives s pl.toNat x → d < 2 → h.srcNode ≠ s.pkg.nodeId → answer = none → nextPlane s rot = some q →
      exec (.fragReadRequest pl x) s = .next (nak s q false)) ∧
    (∀ v, arrives s pl.toNat x → d < 2 → entry → new → s.pkg.draining = false →
      engineGet s (regionCtx r.region r.domain d) ⟨true, h.daddr⟩ false h.mlen = .ok v → ∃ t, exec (.fragReadRequest pl x) s = .next t ∧
      t.cores = s.cores ∧ SameMemory s t ∧ (⟨s.time + 1, 2, .ev (.stripeSend (BitVec.ofNat 1 d))⟩ : Item) ∈ t.agenda ∧
      (t.die d).recvs.map (·.low) = [(r.low + 1) % 2 ^ 32] ∧ (t.die d).messages.dropLast = y.messages ∧
      (t.die d).messages.getLast?.map (fun m => (m.id, m.kind, m.flow, m.seq, m.rnode, m.rdie)) =
        some (y.nextId, 7, h.flow, h.seq, h.srcNode, h.srcDie) ∧
      (t.die d).messages.getLast?.map (fun m => (m.data, m.len, m.rate)) = some (v, h.mlen, some (h.k, h.m)))

/-- A contribution is acknowledged; the first of a key opens a partial with its timeout, a further contributor joins, a second copy
does nothing more, and with the announced count the key is complete and its application follows; a copy for a key applied
already is late, and one for no window, or of another shape than its window's, leaves a record. While its plane retrains it waits.
An acknowledged copy is struck from its contribution, with the last the
contribution goes. A contribution not acknowledged in time is sent once more, and then, with neither copy acknowledged, its
region ends. A complete key's integer sum is added cell by cell at the home, its counter goes up by one, and the key is done; an
incomplete one at its timeout ends the window's region. That die 0 counts and records for a window, and that a wait looks again
after 16 cycles, are the model's own choices (logs 13 and 2). (21_package_fabric.md R428, 21_package_fabric.md R429,
21_package_fabric.md R430, 21_package_fabric.md R431, 22_fabric_system_ops.md R451, 14_stack_engines_curry.md R332). -/
def Obligations.ReductionWindows : Prop :=
  ∀ (s : State) (e : BitVec 1) (pl : BitVec 4) (x : BitVec 4608) (i : BitVec 32) (w : Window) (p : Partial) (z : SentContribution) (r : Region),
    intact s →
    let h := hdrAt x.toNat
    let window := h.flow % 64
    let from_ := field h.daddr 0 12
    let count := field h.daddr 12 12 + 1
    let ack := fun (s : State) => sent s pl.toNat { h with type := 4, srcDie := h.dstDie, dstNode := h.srcNode, dstDie := h.srcDie } 0
    let arrived := arrives s pl.toNat x ∧ h.srcNode ≠ s.pkg.nodeId ∧ s.pkg.erased ≠ some pl.toNat
    let shaped := 128 * h.stripe < w.cells ∧ field h.daddr 24 2 = (if w.isInt then 1 else 0) ∧ field h.daddr 26 2 = w.op ∧ from_ < count
    let misshaped := w.cells ≤ 128 * h.stripe ∨ field h.daddr 24 2 = 3 ∨ (field h.daddr 24 2 = 1 ↔ w.isInt = false) ∨
      field h.daddr 26 2 ≠ w.op ∨ count ≤ from_
    let fits := s.pkg.windows = [w] ∧ w.id = window ∧ (window, h.seq, h.stripe) ∉ s.pkg.doneKeys ∧ shaped
    let part : Nat × BitVec 4096 := (from_, BitVec.ofNat 4096 (payloadOf x))
    let ofKey := p.plane = pl.toNat ∧ p.window = window ∧ p.round = h.seq ∧ p.block = h.stripe ∧ p.cell = none ∧ p.complete = false
    let merge : Item := ⟨s.time + fragTransit, 2, .ev (.mergedPartialApply (BitVec.ofNat 32 p.id))⟩
    let d := e.toNat
    let y := s.die d
    let regionEnds := fun (i : Instr) (d : Nat) (ref : RegionRef) (P : State → Prop) => regionOf s ref = some r → r.fdom = true →
      (s.die d).errWp - (s.die d).errRp ≠ 4096 → recordable s d → ∃ t, exec i s = .next t ∧ (regionOf t ref).map (·.failed) = some true ∧
      (t.die d).errWp = (s.die d).errWp + 1 ∧ t.lmem = s.lmem ∧ P t
    (arrived → fits → s.pkg.partials = [] → ∃ t, exec (.fragContribution pl x) s = .next t ∧ t.tx = (ack s).tx ∧ t.dies = s.dies ∧
      t.cores = s.cores ∧ SameMemory s t ∧ t.pkg = { s.pkg with
        nextPartial := (s.pkg.nextPartial + 1) % 2 ^ 32
        partials := [⟨s.pkg.nextPartial, pl.toNat, window, h.seq, h.stripe, count, [part], [], none, decide (count ≤ 1), none, none⟩] } ∧
      (⟨s.time + 2 ^ 24, 2, .ev (.keyIncompleteTimeout (BitVec.ofNat 32 s.pkg.nextPartial))⟩ : Item) ∈ t.agenda) ∧
    (arrived → fits → s.pkg.partials = [p] → ofKey → p.count = count →
      (from_ ∈ p.parts.map (·.1) → exec (.fragContribution pl x) s = .next (ack s)) ∧
      (from_ ∉ p.parts.map (·.1) → ∃ t, exec (.fragContribution pl x) s = .next t ∧ t.tx = (ack s).tx ∧ t.dies = s.dies ∧ SameMemory s t ∧
        t.pkg = { s.pkg with partials := [{ p with parts := p.parts ++ [part], complete := decide (count ≤ p.parts.length + 1) }] } ∧
        (count ≤ p.parts.length + 1 → merge ∈ t.agenda))) ∧
    (arrives s pl.toNat x → s.pkg.erased = some pl.toNat →
      exec (.fragContribution pl x) s = .next (posted s 16 2 (.fragContribution pl x))) ∧
    (arrived → s.pkg.windows = [w] → w.id = window → misshaped → (s.die 0).errWp - (s.die 0).errRp ≠ 4096 → recordable s 0 →
      ∃ t, exec (.fragContribution pl x) s = .next t ∧ t.tx = (ack s).tx ∧ (t.die 0).errWp = (s.die 0).errWp + 1 ∧
        (t.die 0).late = (s.die 0).late ∧ t.lmem = s.lmem ∧ t.pkg.windows = s.pkg.windows ∧
        ((window, h.seq, h.stripe) ∈ s.pkg.doneKeys → t.pkg = s.pkg)) ∧
    (arrived → s.pkg.windows = [w] → w.id = window → shaped → (window, h.seq, h.stripe) ∈ s.pkg.doneKeys → exec (.fragContribution pl x) s =
      .next (withDie (ack s) 0 fun y => { y with late := min (y.late + 1) (2 ^ 64 - 1) })) ∧
    (arrived → s.pkg.windows = [] → (s.die 0).errWp - (s.die 0).errRp ≠ 4096 → recordable s 0 → ∃ t, exec (.fragContribution pl x) s = .next t ∧
      t.tx = (ack s).tx ∧ (t.die 0).errWp = (s.die 0).errWp + 1 ∧ t.pkg = s.pkg ∧ t.lmem = s.lmem) ∧
    (arrives s pl.toNat x → (s.die h.dstDie).contributions = [] → exec (.fragContribAck pl x) s = .next s) ∧
    (arrives s pl.toNat x → h.dstDie < 2 → (s.die h.dstDie).contributions = [z] → pl.toNat ∈ z.planes →
      (let g := hdrAt (z.frag.toNat % 2 ^ 512)
       g.flow = h.flow ∧ g.seq = h.seq ∧ g.stripe = h.stripe ∧ g.daddr = h.daddr ∧ g.dstNode = h.srcNode) →
      ∃ t, exec (.fragContribAck pl x) s = .next t ∧ t.cores = s.cores ∧ SameMemory s t ∧ t.dies = updAt s.dies h.dstDie (fun y => { y with
        contributions := if z.planes.all (· = pl.toNat) then [] else [{ z with planes := z.planes.filter (· ≠ pl.toNat), acked := true }] }) ∧
      (z.planes.all (· = pl.toNat) = true →
        (⟨s.time + 1, 3, .ev (.regionComplete (BitVec.ofNat 32 z.owner.launch) (BitVec.ofNat 8 z.owner.region))⟩ : Item) ∈ t.agenda)) ∧
    ((∀ c ∈ y.contributions, c.id ≠ i.toNat) → exec (.contribResendTimeout e i) s = .next s) ∧
    (y.contributions = [z] → z.id = i.toNat →
      (z.resent = false → contributionCut s d z = false → z.planes ≠ [] → (∀ q ∈ z.planes, planeErased s q = false) →
        regionTurn s d (readyRegions s d) z.owner.ref = true → (hdrAt (z.frag.toNat % 2 ^ 512)).dstNode ≠ s.pkg.nodeId → ∃ t, exec (.contribResendTimeout e i) s = .next t ∧
        (t.die d).contributions = [{ z with resent := true }] ∧ t.tx.map (·.1) = s.tx.map (·.1) ++ z.planes ∧ t.cores = s.cores ∧ SameMemory s t ∧
        (⟨s.time + 2 * s.pkg.strdl, 2, .ev (.contribResendTimeout e i)⟩ : Item) ∈ t.agenda) ∧
      (z.resent = true → z.acked = true → ∃ t, exec (.contribResendTimeout e i) s = .next t ∧ (t.die d).contributions = [] ∧ SameMemory s t ∧
        t.cores = s.cores) ∧
      (z.resent = true → z.acked = false →
        regionEnds (.contribResendTimeout e i) d z.owner.ref fun t => (t.die d).contributions = [])) ∧
    (s.pkg.draining = true → exec (.mergedPartialApply i) s = .next (posted s 16 2 (.mergedPartialApply i))) ∧
    (s.pkg.draining = false → s.pkg.partials = [] → exec (.mergedPartialApply i) s = .next s) ∧
    (∀ pa : Nat, let own := regionCtx w.region w.domain (w.ctr / 2 ^ 16 % 2)
      s.pkg.draining = false → s.pkg.windows = [w] → s.pkg.partials = [p] → p.id = i.toNat → p.complete = true → p.window = w.id → p.acc = none →
      p.cell = none → p.parts = [part] → w.isInt = true → w.op = 0 → rrMode s own = 0 → Memory.wf s.mem → ctrValue s.ctrs (w.ctr % 2 ^ 17) < 2 ^ 64 - 1 →
      linkDown s (p.plane / 8) (1 - p.plane / 8) = false → p.plane < 16 →
      engineAccess s own ⟨true, w.base + 512 * p.block⟩ true true 512 =
        .ok ((List.range 8).map fun j => (.pa (pa + 64 * j), 64 * j, 64)) → ∃ t, exec (.mergedPartialApply i) s = .next t ∧
      (∀ k, k < 128 → memRead t.mem (pa + 4 * k) 4 = (memRead s.mem (pa + 4 * k) 4 + payloadOf x / 2 ^ (32 * k) % 2 ^ 32) % 2 ^ 32) ∧
      (∀ a, (a < pa ∨ pa + 512 ≤ a) → memByte t.mem a = memByte s.mem a) ∧ t.lmem = s.lmem ∧ SameArch s t ∧
      t.ctrs = ctrPlus s.ctrs (w.ctr % 2 ^ 17) 1 ∧ t.pkg.partials = [] ∧ t.pkg.doneKeys = (p.window, p.round, p.block) :: s.pkg.doneKeys) ∧
    ((∀ q ∈ s.pkg.partials, q.id ≠ i.toNat ∨ q.complete = true) → exec (.keyIncompleteTimeout i) s = .next s) ∧
    (s.pkg.partials = [p] → p.id = i.toNat → p.complete = false → s.pkg.windows = [w] → p.window = w.id →
      regionEnds (.keyIncompleteTimeout i) 0 w.region fun t => t.pkg.partials = [])

/-- Package reset sets cores, local memories, counters, queues, slots and engines to their reset values, keeps global memory, the
fuse map, the rollback floor and the count of burned key blocks, writes the remap tables, and starts the calendar, the power
windows, the scrubber and time sync. Bring-up then stops with a status word that names its step, cause and item where a die has
fewer than 64 working cores, a link does not train, there is no boot image in flash or host memory, or an item fails its check, and
else writes every table image. A die reset restarts a stopped die and its cores. The floor only rises; a limit between 400 and 950
W is taken; a window whose power, which is open, passed the limit, halved while the die is hot, throttles the next, in which each
array works for no more than the limit's part of it; package time slews by a cycle in 4,096; a die whose tables are in error stops.
An attestation signs the nonce and the digests under the next index and burns a fresh block first; with none left it is refused. A
flit that cannot be delivered takes the link out of service. What a digest and a signature are is open and the form of what is
signed the model's (log 14); so are an item's kinds (log 9), what is ignored (log 15), the duty of a throttled window (log 2) and
when a die with bad tables stops (log 20). (24_bringup_power.md R458, 24_bringup_power.md R459, 24_bringup_power.md R460, 24_bringup_power.md R461, 24_bringup_power.md R463,
24_bringup_power.md R464, 24_bringup_power.md R465, 04_execution_model.md R122, 04_execution_model.md R109,
19_faults_preemption.md R407, 21_package_fabric.md R415). -/
def Obligations.BringUpPowerAndAttestation : Prop :=
  ∀ (s : State) (die : BitVec 1) (w : BitVec 32) (watts : BitVec 16) (nonce : BitVec 256),
    let d := die.toNat
    let y := s.die d
    let p := s.pkg
    let stops := fun (step cause item : Nat) (t : State) => t.pkg.boot = BitVec.ofNat 64 (step + 2 ^ 5 + cause * 2 ^ 8 + item % 2 ^ 16 * 2 ^ 16) ∧
      t.pkg.bootOk = false ∧ t.mem = s.mem
    let enough := 64 ≤ (workingCores p.fuse 0).length ∧ 64 ≤ (workingCores p.fuse 1).length
    let image := if p.image = [] then p.hostImage else p.image
    let cause := fun (x : BootItem) =>
      let signed := (Config.sha256 x.bytes x.data).toNat + x.kind % 2 ^ 16 * 2 ^ 256 + x.version % 2 ^ 32 * 2 ^ 272
      if Config.signatureOk p.rootKey signed x.signature = false then some 4
      else if 2 < x.kind then some 6
      else if x.version < p.floor then some 5
      else none
    let causes := image.map cause
    let quarters := fun (x : BitVec 256) => (List.range 4).map fun i => x.toNat / 2 ^ (64 * i) % 2 ^ 64
    let signed := quarters nonce ++ [p.nodeId] ++ (image.flatMap fun x => quarters (Config.sha256 x.bytes x.data) ++ [x.version]) ++
      quarters (Config.sha256 34 (ofDigits 272 1 fun i => (p.fuse.contains i).toNat))
    let report := fun (index : Nat) =>
      Config.hssSign p.idSeed index (8 * signed.length) (ofDigits signed.length 64 fun i => signed.getD i 0)
    (∃ t, exec .packageReset s = .next t ∧
      t = { State.reset with
        agenda := [⟨1, 3, .ev (.scrubWord 0 0)⟩, ⟨1024, 1, .ev (.powerWindowEnd 0)⟩, ⟨1024, 1, .ev (.powerWindowEnd 1)⟩,
          ⟨3 * 9728 - 256, 4, .ev .drainWindowOpen⟩, ⟨2 ^ 20, 3, .ev .timeSyncSend⟩]
        tx := s.tx
        outbox := s.outbox
        fresh := s.fresh
        mem := t.mem
        dies := t.dies
        pkg := { Pkg.reset with
          fuse := p.fuse
          image := p.image
          hostImage := p.hostImage
          rootKey := p.rootKey
          idKey := p.idKey
          idSeed := p.idSeed
          floor := p.floor
          keyDraw := p.keyDraw + 1
          attestBlocks := p.attestBlocks
          sensors := p.sensors
          trainFails := p.trainFails
          hostSize := p.hostSize
          boot := t.pkg.boot
          bootOk := t.pkg.bootOk } } ∧
      (∀ k, k < 2 → t.die k = { Die.reset with remap := remapOf (workingCores p.fuse k) }) ∧
      (¬ enough → stops 1 1 0 t) ∧
      (enough → p.trainFails = true → stops 2 2 0 t) ∧
      (enough → p.trainFails = false → image = [] → stops 4 3 0 t) ∧
      (enough → p.trainFails = false → ∀ n, n < image.length → causes[n]? ≠ some none → (∀ k, k < n → causes[k]? = some none) →
        stops 5 ((causes[n]?.join).getD 0) n t) ∧
      (enough → p.trainFails = false → image ≠ [] → (∀ c ∈ causes, c = none) → t.pkg.boot = BitVec.ofNat 64 (7 + 2 ^ 4) ∧ t.pkg.bootOk = true ∧
        t.mem = image.foldl (fun m x => if x.kind = 2 ∧ x.bytes ≠ 0 then memPut m x.pa x.bytes x.data else m) s.mem)) ∧
    (∀ (l : List Nat) (n : Nat), l.length = 136 ∨ l.length = 128 → n < 128 → (remapOf l)[n]? = some (l.getD n 0, false)) ∧
    (∀ (l : List Nat) (n : Nat), 64 ≤ l.length → l.length < 128 → n < 128 → (remapOf l)[n]? = some
      (if n < 2 * l.length - 128 then (l.getD n 0, false) else (l.getD (2 * l.length - 128 + (n - (2 * l.length - 128)) / 2) 0, true))) ∧
    (y.stopped = false → exec (.dieReset die) s = .next s) ∧
    (y.stopped = true → ∃ t, exec (.dieReset die) s = .next t ∧ SameMemory s t ∧ t.pkg = s.pkg ∧
      t.dies = updAt s.dies d (fun _ => { Die.reset with
        remap := y.remap
        limit := y.limit
        power := y.power
        hot := y.hot }) ∧ t.ctrs = s.ctrs.filter (fun x => decide (x.1 / 2 ^ 16 ≠ d)) ∧
      (∀ c, c < 256 → t.core c = if c / 128 = d then { (s.core c).clear with
        staged := none
        tlb := []
        handedOut := []
        fxQ := []
        chans := Vector.replicate 4 Channel.reset } else s.core c)) ∧
    exec (.rollbackFloorRaise w) s = .next { s with pkg := { p with floor := max p.floor w.toNat } } ∧
    exec (.powerLimitSet die watts) s =
      .next (if 400 ≤ watts.toNat ∧ watts.toNat ≤ 950 then withDie s d (fun y => { y with limit := watts.toNat }) else s) ∧
    (let meter := fun (s : State) =>
       let power := (Config.freeVec s.fresh).toNat % 2 ^ 16
       let limit := if y.hot then y.limit / 2 else y.limit
       let duty := (1024 * limit - 1) / power
       posted { withDie s d fun y => { y with
         power := power
         throttled := decide (limit < power)
         arrayFrom := Vector.ofFn fun l =>
           let busy := (s.core (128 * d + l)).arrayFree - s.time
           if busy < duty then s.time + 1024 - (duty - busy) else s.time + 1024 } with fresh := s.fresh + 1 } 1024 1 (.powerWindowEnd die)
     let turn := s.time / 4096 ≠ (s.time - 1024) / 4096
     (y.tableError = false → y.stopped = false → (d = 0 → p.skew = 0 ∨ ¬ turn) → exec (.powerWindowEnd die) s = .next (meter s)) ∧
     (y.tableError = false → y.stopped = false → d = 0 → turn → p.skew ≠ 0 → ∃ t, exec (.powerWindowEnd die) s = .next t ∧
       t.pkg.skew = (if p.skew < 0 then p.skew + 1 else p.skew - 1) ∧ t.time = s.time + (if p.skew < 0 then 1 else 0) ∧
       t.dies = (meter { s with time := t.time }).dies ∧ t.cores = s.cores ∧ SameMemory s t ∧ (⟨t.time + 1024, 1, .ev (.powerWindowEnd die)⟩ : Item) ∈ t.agenda) ∧
     (y.tableError = true → ∃ t, exec (.powerWindowEnd die) s = .next t ∧ (t.die d).stopped = true ∧ t.lmem = s.lmem)) ∧
    (p.bootOk = false ∨ (p.attestLeft = 0 ∧ 2 ^ 16 ≤ p.attestBlocks) →
      exec (.attestRequest nonce) s = .next { s with outbox := s.outbox ++ [(0x461, 0)] }) ∧
    (p.bootOk = true → p.attestLeft = 0 → p.attestBlocks < 2 ^ 16 → exec (.attestRequest nonce) s = .next { s with
      pkg := { p with
        attestBlocks := p.attestBlocks + 1
        attestLeft := 2 ^ 24 - 1 }
      outbox := s.outbox ++ [(0x460, report (p.attestBlocks * 2 ^ 24))] }) ∧
    (p.bootOk = true → p.attestLeft ≠ 0 → exec (.attestRequest nonce) s = .next { s with
      pkg := { p with attestLeft := p.attestLeft - 1 }
      outbox := s.outbox ++ [(0x460, report (p.attestBlocks * 2 ^ 24 - p.attestLeft))] }) ∧
    exec (.d2dFlitRetry true) s = .next s ∧
    (∃ t, exec (.d2dFlitRetry false) s = .next t ∧
      t = { s with
        dies := s.dies.map fun y => { y with linkUp := false }
        agenda := t.agenda })

/-- A write to a package whose bring-up has stopped does nothing. NODEID is writable until the first launch; TROOT while no context
is live; an invalidation with a reserved field or while BUSY sets ERR alone and else drops what it covers from every TLB and
stays BUSY until no translated access is left; a code rate, a deadline and a log size outside their ranges are ignored; ERRRP
moves neither backward nor past ERRWP; a queue takes BASE, LOG2N and DOMAIN while disabled. A TAIL ahead by no more than the
queue's size enters its entries with rising sequence values, and any other writes a record. The register block gives each of
these at its offset, and a write to an offset with nothing in the map does nothing. A host read gives its bytes and a write puts
them; in a drain window both wait. That what waits looks again after 16 cycles and how a read goes out to the host are the model's
choices (notes/assumptions/2.md, notes/assumptions/15.md). (21_package_fabric.md R418, 10_memory_hierarchy.md R256, 21_package_fabric.md R422,
19_faults_preemption.md R386, 21_package_fabric.md R433, 21_package_fabric.md R435, 21_package_fabric.md R417,
04_execution_model.md R103, 14_stack_engines_curry.md R332). -/
def Obligations.PackageRegistersAndHostAccesses : Prop :=
  ∀ (s : State) (die : BitVec 1) (cls : BitVec 3) (q : BitVec 12) (v : BitVec 64) (w : BitVec 32) (off : BitVec 20) (size : BitVec 2) (pa : BitVec 45),
    let d := die.toNat
    let p := s.pkg
    let n := v.toNat
    let x := s.queue q.toNat
    let pkg := fun (f : Pkg → Pkg) => ({ s with pkg := f p } : State)
    let reg := fun (o : Nat) => exec (.registerWrite (BitVec.ofNat 20 o) v) s
    let invs := [Instr.tlbinvAll v, .tlbinvPage v, .tlbinvLargePage v]
    let kept := fun (e : TlbEntry) => !(decide (n % 4 = 0 ∨ (n % 4 = 1 ∧ e.large = false ∧ e.vpage = field n 16 32) ∨
      (n % 4 = 2 ∧ e.large = true ∧ e.vpage = field n 29 19)))
    let k := field n 0 4
    let m := field n 4 3
    (p.bootOk = false → ∀ i ∈ [.registerWrite off v, .trootWrite v, .fcrateWrite cls v, .errrpWrite die w, .rrrpWrite die v,
      .queueConfigWrite q v, .queueTailWrite q w] ++ invs, exec i s = .next s) ∧
    (p.bootOk = true →
      exec (.trootWrite v) s = .next (if (liveIds s).isEmpty then pkg fun p => { p with troot := field n 9 36 * 512 } else s) ∧
      (∀ i ∈ invs, (n % 4 = 3 ∨ field n 2 14 ≠ 0 ∨ field n 48 14 ≠ 0 ∨ p.tlbinv.getLsbD 63 = true →
          exec i s = .next (pkg fun p => { p with tlbinv := p.tlbinv ||| BitVec.ofNat 64 (2 ^ 62) })) ∧
        (n % 4 ≠ 3 → field n 2 14 = 0 → field n 48 14 = 0 → p.tlbinv.getLsbD 63 = false → exec i s =
          .next (posted { s with
            cores := s.cores.map fun k => { k with tlb := k.tlb.filter kept }
            dies := s.dies.map fun y => { y with tlb2 := y.tlb2.filter fun e => kept e.2 }
            pkg := { p with tlbinv := BitVec.ofNat 64 (n % 2 ^ 48 + 2 ^ 63) } } 1 3 .tlbinvComplete))) ∧
      exec (.fcrateWrite cls v) s = .next (if 1 ≤ k ∧ k ≤ 14 ∧ m ≤ 4 ∧ k + m ≤ 16 ∧ n < 2 ^ 7 then
        pkg fun p => { p with fcrate := updAt p.fcrate cls.toNat fun _ => (k, m) } else s) ∧
      exec (.errrpWrite die w) s = .next (if w - (s.die d).errRp ≤ (s.die d).errWp - (s.die d).errRp then
        withDie s d fun y => { y with errRp := w } else s) ∧
      exec (.rrrpWrite die v) s = .next (withDie s d fun y => { y with log := { y.log with rp := n } }) ∧
      (∃ t, exec (.queueConfigWrite q v) s = .next t ∧ (∀ r, r ≠ q.toNat → t.queue r = s.queue r) ∧ t.cores = s.cores ∧ SameMemory s t ∧
        t.disp.launches = s.disp.launches ∧ (let log2n := if x.en ∨ field n 48 4 < 4 then x.log2n else field n 48 4
          let en := decide (n % 2 = 1 ∧ 4 ≤ log2n)
          t.queue q.toNat = (if x.en then { x with en := en } else { x with
            en := en
            base := field n 12 33 * 4096
            log2n := log2n
            domain := field n 52 12 }) ∧
          (en = true → (⟨s.time + 1, 3, .ev (.launchValidate q)⟩ : Item) ∈ t.agenda))) ∧
      (let head := BitVec.ofNat 32 x.head
       let tail := BitVec.ofNat 32 x.tail
       (w - head < tail - head ∨ 2 ^ x.log2n < (w - head).toNat → (s.die 0).errWp - (s.die 0).errRp ≠ 4096 → recordable s 0 → ∃ t,
          exec (.queueTailWrite q w) s = .next t ∧ t.disp = s.disp ∧ (t.die 0).errWp = (s.die 0).errWp + 1) ∧
       (tail - head ≤ w - head → (w - head).toNat ≤ 2 ^ x.log2n → ∃ t, exec (.queueTailWrite q w) s = .next t ∧
          (∀ r, r ≠ q.toNat → t.queue r = s.queue r) ∧ SameMemory s t ∧ t.cores = s.cores ∧
          t.queue q.toNat = { x with
            tail := w.toNat
            nextSeq := x.nextSeq + (w - tail).toNat } ∧
          t.disp.launches = s.disp.launches ++ (List.range (w - tail).toNat).map (fun j => ⟨s.disp.nextLaunch + j, q.toNat, x.nextSeq + j,
            field (memRead s.mem (x.base + 16 * ((x.tail + j) % 2 ^ x.log2n)) 8) 0 48, none, .queued, false, false, false, []⟩) ∧
          t.disp.nextLaunch = s.disp.nextLaunch + (w - tail).toNat)) ∧
      (∃ t, reg 0x00 = .next t ∧ t = { (if p.launched then s else pkg fun p => { p with nodeId := n % 2 ^ 15 }) with agenda := t.agenda }) ∧
      reg 0x08 = exec (.trootWrite v) s ∧ reg 0x10 = exec (.tlbinvAll v) s ∧
      reg 0x18 = .next (pkg fun p => { p with allocBase := field n 20 25 * 2 ^ 20 }) ∧
      reg (0x20 + 8 * d) = .next (pkg fun p => { p with errBase := updAt p.errBase d fun _ => field n 18 27 * 2 ^ 18 }) ∧
      reg (0x30 + 8 * d) = .next (pkg fun p => { p with savePool := updAt p.savePool d fun _ => n % 2 ^ 45 }) ∧
      reg 0x40 = .next (if 5000 ≤ n ∧ n ≤ 2 ^ 24 then pkg fun p => { p with strdl := n } else s) ∧
      (∃ t, reg 0x48 = .next t ∧ t.pkg = { p with planeUp := v.setWidth 16 } ∧ t.cores = s.cores ∧ t.dies = s.dies ∧ SameMemory s t) ∧
      (∃ t, reg 0x50 = .next t ∧ t = { (pkg fun p => { p with tsync := n % 2 ^ 15 }) with agenda := t.agenda }) ∧
      reg (0x70 + 8 * d) = exec (.errrpWrite die (v.setWidth 32)) s ∧
      reg (0x80 + 8 * cls.toNat) = exec (.fcrateWrite cls v) s ∧
      reg (0x100 + 0x40 * d) = .next (withDie s d fun y => { y with log := { y.log with base := field n 12 33 * 4096 } }) ∧
      reg (0x108 + 0x40 * d) = .next (if 12 ≤ n ∧ n ≤ 28 then withDie s d fun y => { y with log := { y.log with cnt := n } } else s) ∧
      reg (0x110 + 0x40 * d) = .next (withDie s d fun y => { y with log := { y.log with wp := n } }) ∧
      reg (0x118 + 0x40 * d) = exec (.rrrpWrite die v) s ∧
      reg (0x10000 + 16 * q.toNat) = exec (.queueConfigWrite q v) s ∧
      reg (0x10008 + 16 * q.toNat) = exec (.queueTailWrite q (v.setWidth 32)) s ∧
      (∀ c, c % 4 = 0 → c < 2 ^ 16 → ∃ t, reg (0x20000 + 0x20000 * d + 2 * c) = .next t ∧ (∀ j, j < 4 →
        assoc (t.die d).domains (c + j) = some (field n (16 * j) 12)) ∧ t.ctrs = s.ctrs ∧ t.pkg = s.pkg ∧ t.cores = s.cores) ∧
      (∀ o ∈ [0x58, 0x60, 0x68, 0xC0, 0xF8, 0x120, 0x180, 0xFFF8, 0x60000, 0x41, 0x44], reg o = .next s)) ∧
    (globalPending s = true → exec .tlbinvComplete s = .next (posted s 1 3 .tlbinvComplete)) ∧
    (globalPending s = false → exec .tlbinvComplete s = .next (pkg fun p => { p with tlbinv := BitVec.ofNat 64 (p.tlbinv.toNat % 2 ^ 63) })) ∧
    (∀ wr, 12 * 2 ^ 36 < pa.toNat + 2 ^ size.toNat → exec (.hostMemAccess wr size pa v) s = .next s) ∧
    (∀ wr, pa.toNat + 2 ^ size.toNat ≤ 12 * 2 ^ 36 →
      (p.draining = true → exec (.hostMemAccess wr size pa v) s = .next (posted s 16 2 (.hostMemAccess wr size pa v))) ∧
      (p.draining = false → intact s → exec (.hostMemAccess wr size pa v) s = .next (
        if wr then { s with mem := memPut s.mem pa.toNat (2 ^ size.toNat) (n % 2 ^ (8 * 2 ^ size.toNat)) }
        else { s with outbox := s.outbox ++ [(pa.toNat, memRead s.mem pa.toNat (2 ^ size.toNat))] })))

/-- A drain window opens 256 cycles before each slot, from then until the slot's end no global request is taken, and what was taken
before is due before the slot, updates that queue behind others apart. A slot starts at its time; an update outstanding then is
recorded as an overrun that its context takes as 0x1A, and the start waits up to 128 cycles for it. A long slot brings the die
link back, reports the sensors of each die and stack, throttles a die above 100 degrees, records above 110 and trips above 115; the plane it retrains is
erased for senders from the window's start until 256 cycles after its end. The time master sends a sync fragment on each plane
in service and not erased every 2^20 cycles; another package keeps its offset from it, takes the master's time where it has
launched nothing and is behind, joins where it is not ahead, and an offset above 5 cycles that lasts 2^24 cycles is recorded. The
firmware reads the error ring of its die; any other access of it to memory is refused with a record, a read giving zero. The record codes
of overheating and skew, the destination of a sync fragment, the word that a sweep sends and the order of events within a cycle are the
model's choices (notes/assumptions/2.md, notes/assumptions/5.md, notes/assumptions/13.md, notes/assumptions/15.md). (14_stack_engines_curry.md R331, 14_stack_engines_curry.md
R332, 14_stack_engines_curry.md R333, 14_stack_engines_curry.md R334, 24_bringup_power.md R465, 21_package_fabric.md R416,
04_execution_model.md R113, 19_faults_preemption.md R386). -/
def Obligations.CalendarAndPackageTime : Prop :=
  ∀ (s : State) (pl : BitVec 4) (x : BitVec 4608) (wr : Bool) (addr : BitVec 48) (f g : Nat), intact s →
    let starts := fun (f : Nat) => 3 ≤ f ∧ (f % 256 = 0 ∨ 3 ≤ f % 256)
    let next := fun (f time : Nat) => starts f ∧ time < 9728 * f ∧ (∀ h, h < f → starts h → 9728 * h ≤ time)
    let p := s.pkg
    let pkg := fun (f : Pkg → Pkg) => ({ s with pkg := f p } : State)
    let long := f % 256 = 0
    let heat := fun (i : Nat) => (nth p.sensors i ⟨0, 0, 0⟩).temperature
    let hottest := fun (d : Nat) => ((d :: (List.range 6).map fun i => 2 + 6 * d + i).map heat).foldl max 0
    let cool := ∀ i, heat i ≤ 110
    let hot := fun (d : Nat) => decide (100 < heat d ∨ ((s.die d).hot = true ∧ 95 < heat d))
    let full := fun (d : Nat) => (s.die d).errWp - (s.die d).errRp = 4096
    let h := hdrAt x.toNat
    let ev := fun (n q : Nat) (i : Instr) (t : State) => (⟨n, q, .ev i⟩ : Item) ∈ t.agenda
    let quiet := ∀ c, outstanding s c = []
    (next f s.time → quiet → exec .drainWindowOpen s = .next { s with
      pkg := { p with
        draining := true
        slotStart := 9728 * f }
      agenda := insertItem ⟨9728 * f, 1, .ev .currySlotStart⟩ s.agenda }) ∧
    (next f s.time → ∃ t, exec .drainWindowOpen s = .next t ∧ t.pkg.draining = true ∧ t.pkg.slotStart = 9728 * f ∧ SameMemory s t ∧
      SameArch s t ∧ ev (9728 * f) 1 .currySlotStart t ∧
      (∀ c, ∀ a ∈ (t.core c).accesses, a.globals ≠ [] → a.updates = false → a.due < 9728 * f)) ∧
    (starts f → p.slotStart = 9728 * f → quiet → p.slotStart ≤ s.time →
      (¬ long → exec .currySlotStart s = .next { s with agenda := insertItem ⟨max (9728 * f + 960) s.time, 1, .ev .currySlotEnd⟩ s.agenda }) ∧
      (long → (∀ d, d < 2 → recordable s d ∧ (110 < hottest d → ¬ full d)) → ∃ t, exec .currySlotStart s = .next t ∧
        ev (max (9728 * f + 25000) s.time) 1 .currySlotEnd t ∧
        t.outbox = s.outbox ++ (if p.bootOk then (List.range 14).map (fun i => (0x465, (nth p.sensors i ⟨0, 0, 0⟩).word i)) else []) ∧
        t.pkg.tripped = decide (p.tripped = true ∨ 115 < hottest 0 ∨ 115 < hottest 1) ∧ t.cores = s.cores ∧
        (∀ d, d < 2 → (t.die d).linkUp = true ∧ (t.die d).hot = hot d ∧
          (t.die d).errWp = (s.die d).errWp + (if 110 < hottest d then 1 else 0)))) ∧
    (∀ c a, c < 256 → starts f → p.slotStart = 9728 * f → s.time = p.slotStart → (s.core c).ctx.isSome = true →
      (∀ k, outstanding s k = if k = c then [a] else []) → ¬ full (c / 128) → recordable s (c / 128) →
      (s.die (c / 128)).overruns = [] → a.1.updates = true → a.1.inTrap = false →
      (s.core c).pend.length < 16 →
      ∃ t, exec .currySlotStart s = .next t ∧ ev (s.time + 1) 1 .currySlotStart t ∧ (t.die (c / 128)).errWp = (s.die (c / 128)).errWp + 1 ∧
        (t.die (c / 128)).overruns = [s.time] ∧ t.lmem = s.lmem ∧ t.pkg = s.pkg ∧
        (t.core c).pend.map (·.code) = (s.core c).pend.map (·.code) ++ [0x1A]) ∧
    (∀ c a, c < 256 → starts f → p.slotStart = 9728 * f → outstanding s c = [a] → s.time < p.slotStart + 128 → p.slotStart < s.time →
      exec .currySlotStart s = .next (posted s 1 1 .currySlotStart)) ∧
    (starts f → p.slotStart = 9728 * f → p.slotStart + 128 ≤ s.time → ¬ long →
      ∃ t, exec .currySlotStart s = .next t ∧ ev (max (9728 * f + 960) s.time) 1 .currySlotEnd t) ∧
    (starts f → p.slotStart = 9728 * f → next g s.time → ∃ t, exec .currySlotEnd s = .next t ∧
      t = { s with
        pkg := { p with draining := false }
        agenda := t.agenda } ∧
      (long → ev (s.time + 256) 1 .planeEraseEnd t) ∧ ev (max (9728 * g - 256) s.time) 4 .drainWindowOpen t ∧
      (g % 256 = 0 → ev (max (9728 * g - 256) s.time) 1 .planeEraseStart t)) ∧
    (next f s.time → exec .planeEraseStart s = .next (pkg fun p => { p with erased := some (f / 256 % 16) })) ∧
    (∃ t, exec .planeEraseEnd s = .next t ∧ t = { s with
        pkg := { p with erased := none }
        agenda := t.agenda } ∧ (∀ e, ev s.time 2 (.stripeSend e) t)) ∧
    (p.bootOk = false ∨ p.nodeId ≠ p.tsync → exec .timeSyncSend s = .next (posted s (2 ^ 20) 3 .timeSyncSend)) ∧
    (p.bootOk = true → p.nodeId = p.tsync → p.nodeId < 2 ^ 15 → p.nodeId ≠ 0x7FFF → ∃ t, exec .timeSyncSend s = .next t ∧
      t = { s with
        tx := t.tx
        agenda := insertItem ⟨s.time + 2 ^ 20, 3, .ev .timeSyncSend⟩ s.agenda } ∧
      t.tx.length = s.tx.length + ((List.range 16).filter fun k => p.planeUp.getLsbD k && p.erased ≠ some k).length ∧
      (∀ k, k < 16 → p.planeUp.getLsbD k = true → p.erased ≠ some k → ∃ z ∈ t.tx, z.1 = k ∧ fragSound z.2 = true ∧ (hdrAt z.2.toNat).type = 5 ∧
        (hdrAt z.2.toNat).srcNode = p.nodeId ∧ (hdrAt z.2.toNat).time = s.time % 2 ^ 40)) ∧
    (fragSound x = true → p.planeUp.getLsbD pl.toNat = true → (p.nodeId = p.tsync ∨ h.srcNode ≠ p.tsync) →
      exec (.fragTimeSync pl x) s = .next s) ∧
    (∀ o : Int, fragSound x = true → p.planeUp.getLsbD pl.toNat = true → p.nodeId ≠ p.tsync → h.srcNode = p.tsync →
      -(2 ^ 39) ≤ o → o < 2 ^ 39 → ((s.time : Int) - h.time - fragTransit - o) % 2 ^ 40 = 0 →
      (cool ∨ 0 ≤ o ∨ p.launched = true → ∃ t, exec (.fragTimeSync pl x) s = .next t ∧ t.pkg.joined = decide (p.joined = true ∨ o ≤ 0) ∧
        t.cores = s.cores ∧ SameMemory s t) ∧
      (p.joined = true → p.launched = true ∨ 0 ≤ o →
        (-5 ≤ o → o ≤ 5 → exec (.fragTimeSync pl x) s = .next (pkg fun p => { p with
          skew := o
          skewSince := none })) ∧
        (o < -5 ∨ 5 < o → exec (.fragTimeSync pl x) s = .next (let t := pkg fun p => { p with
            skew := o
            skewSince := some (p.skewSince.getD s.time) }
          if p.skewSince = none then posted { t with agenda := t.agenda.filter fun z => z.what ≠ .ev .timeSkewAlarm } (2 ^ 24) 3 .timeSkewAlarm
          else t))) ∧
      (p.launched = false → o < 0 → cool → ∃ t, exec (.fragTimeSync pl x) s = .next t ∧ t.time = s.time + o.natAbs ∧ t.cores = s.cores ∧
        SameMemory s t ∧ t.pkg.skew = 0 ∧
        (slotNow t.time = none → t.pkg.draining = false ∧ ∃ n, ev n 4 .drainWindowOpen t) ∧
        (∀ g start len kind, slotNow t.time = some (g, start, len, kind) → t.pkg.slotStart = start ∧
          t.pkg.draining = decide (t.time < start + len)))) ∧
    (p.skewSince = none → exec .timeSkewAlarm s = .next s) ∧
    (∀ n, p.skewSince = some n →
      (s.time < n + 2 ^ 24 → exec .timeSkewAlarm s = .next { s with agenda := insertItem ⟨n + 2 ^ 24, 3, .ev .timeSkewAlarm⟩ s.agenda }) ∧
      (n + 2 ^ 24 ≤ s.time → ¬ full 0 → recordable s 0 → ∃ t, exec .timeSkewAlarm s = .next t ∧ (t.die 0).errWp = (s.die 0).errWp + 1 ∧ t.cores = s.cores)) ∧
    (∀ die : BitVec 1, let d := die.toNat
      let inRing := nth p.errBase d 0 ≤ addr.toNat ∧ addr.toNat < nth p.errBase d 0 + 2 ^ 18
      (wr = false → inRing → exec (.cinchMemoryAccess ⟨die, wr⟩ addr) s =
        .next { s with outbox := s.outbox ++ [(0x113, memRead s.mem addr.toNat 8)] }) ∧
      (wr = true ∨ ¬ inRing → ¬ full d → recordable s d → ∃ t, exec (.cinchMemoryAccess ⟨die, wr⟩ addr) s = .next t ∧
        (t.die d).errWp = (s.die d).errWp + 1 ∧ t.cores = s.cores ∧ t.lmem = s.lmem ∧ t.outbox = if wr then s.outbox else s.outbox ++ [(0x113, 0)]))

/-- A bind record to a die that has stopped or not come up does nothing. One that breaks a rule changes nothing but the slot's
STATUS, which names the first rule broken in the order of R111, and writes a record; any other sets its slot, and of the cores
the slot held the staged tasks that may not stay (another queue's, or at another ordinal's core) go back to their queue, the
running ones are pre-empted, and those that a time-slice has saved no longer wait for their core. A slot that alone is idle, has a queue not runnable or a lease that has ended is bound to the first
waiting queue at or after the rotation pointer whose head fits, until 5,000,000 cycles have passed, and the pointer moves past
it; LEASE keeps its value. A pre-emption sets PREQ and saves a parked task at once, one in a trap handler only where it is
forced; a forced one or a time-slice becomes due 50,000 cycles after it is asked. A task whose physical core another waits for
yields once it has run 500,000 cycles, or at once when parked. The readings of a bind record and the order of events within a cycle are
the model's (notes/assumptions/2.md, notes/assumptions/19.md, notes/assumptions/23.md). (04_execution_model.md R109, 04_execution_model.md R110,
04_execution_model.md R111, 04_execution_model.md R112, 04_execution_model.md R114, 04_execution_model.md R123,
19_faults_preemption.md R402, 19_faults_preemption.md R407, 04_execution_model.md R466). -/
def Obligations.SlotsRotationAndPreemption : Prop :=
  ∀ (s : State) (die : BitVec 1) (slot : BitVec 6) (r : BitVec 512) (core : BitVec 8) (force : Bool),
    let d := die.toNat
    let i := slot.toNat
    let y := s.die d
    let old := slotAt s d i
    let f := field r.toNat
    let q := f 0 12
    let valid := f 12 1 = 1
    let lease := f 64 23
    let x : Slot := ⟨decide valid, true, q, decide (f 13 1 = 1), f 16 4, f 20 3, f 24 5, f 32 4, lease, s.time + lease, 0⟩
    let empty := f 12 1 = 0 ∧ x.width = 0 ∧ x.height = 0
    let meets := fun (z : Slot) => decide (z.present = true ∧ z.width ≠ 0 ∧ z.height ≠ 0 ∧ z.col < x.col + x.width ∧ x.col < z.col + z.width ∧
      z.row < x.row + x.height ∧ x.row < z.row + z.height)
    let others := (y.slots.toList.zipIdx.filter fun p => p.2 ≠ i).map (·.1)
    let tidy := ∀ z ∈ y.slots, z.present = true → z.col + z.width ≤ 16 ∧ z.row + z.height ≤ 8
    let status : Nat :=
      if f 14 2 ≠ 0 ∨ f 23 1 ≠ 0 ∨ f 29 3 ≠ 0 ∨ f 36 28 ≠ 0 ∨ f 87 41 ≠ 0 ∨ f 200 312 ≠ 0 ∨ lease = 0 ∨ 5000000 < lease ∨
        (¬ empty ∧ (x.width = 0 ∨ 16 < x.col + x.width ∨ x.height = 0 ∨ 8 < x.row + x.height)) then 3
      else if (s.queue q).log2n < 4 then 4
      else if ¬ empty ∧ others.any meets = true then 1
      else if valid ∧ (headCores s q).any (fun n => decide (n < x.width * x.height)) = true then 2
      else if valid ∧ (headShape s q).any (fun p => decide (p ≠ (x.width, x.height))) = true then 5
      else if empty ∧ others.any (·.present) = false then 6 else 0
    let records := [Instr.slotBind die slot r, .slotIdle die slot r, .slotEmpty die slot r]
    let cells := if empty then [] else slotCores d x
    let setSlot := fun (z : Slot) (y : Die) => { y with slots := updAt y.slots i fun _ => z }
    let moved := withDie s d (setSlot x)
    let stays := fun (c : Nat) (z : Ctx) => c ∈ cells ∧ valid ∧ (launchOf s z.ref).map (·.queue) = some q ∧ inPlace moved z = true
    let lonely := ∀ e j, e < 2 → j < 64 → e ≠ d ∨ j ≠ i → slotExpired s e j = false
    let ev := fun (n p : Nat) (j : Instr) (t : State) => (⟨n, p, .ev j⟩ : Item) ∈ t.agenda
    let still := fun (t : State) => t.cores = s.cores ∧ SameMemory s t ∧ t.disp = s.disp ∧ t.pkg = s.pkg
    (y.stopped = true ∨ s.pkg.bootOk = false → ∀ j ∈ records, exec j s = .next s) ∧
    (y.stopped = false → s.pkg.bootOk = true → tidy → ∀ j ∈ records,
      (status ≠ 0 → y.errWp - y.errRp ≠ 4096 → recordable s d → ∃ t, exec j s = .next t ∧ t.cores = s.cores ∧ t.lmem = s.lmem ∧ t.disp = s.disp ∧
        t.dies = updAt s.dies d (fun y => { setSlot { old with status := status } y with
          errWp := y.errWp + 1
          errDropped := 0 })) ∧
      (status = 0 → ∃ t, exec j s = .next t ∧ SameMemory s t ∧ t.pkg = s.pkg ∧ t.disp.launches = s.disp.launches ∧
        t.dies = updAt s.dies d (setSlot { x with present := decide (¬ empty) }) ∧ (∀ c ∈ cells, ev (s.time + 1) 3 (.taskStage (coreBV c)) t) ∧
        (valid → ev (s.time + lease) 3 (.leaseExpiry die slot) t) ∧ (old.bound = false → still t) ∧
        (∀ c, c < 256 → c ∉ slotCores d old → t.core c = s.core c) ∧
        (∀ c z, old.bound = true → c ∈ slotCores d old → (s.core c).staged = some z →
          (stays c z → (t.core c).staged = some z) ∧ (¬ stays c z → (t.core c).staged = none ∧ z ∈ t.disp.returned)) ∧
        (old.bound = true → t.disp.saved = s.disp.saved.map fun z => { z with
          pinned := decide (z.pinned = true ∧ (z.ctx.core ∈ slotCores d old → stays z.ctx.core z.ctx)) }) ∧
        (∀ c z, old.bound = true → c ∈ slotCores d old → (s.core c).ctx = some z → (t.core c).ctx = some z ∧
          (¬ stays c z → (t.core c).preq.isSome = true ∧ (t.core c).arch = (s.core c).arch.setPreq true) ∧
          (stays c z → (t.core c).preq = (s.core c).preq ∧ (t.core c).arch = (s.core c).arch)))) ∧
    (let lapsed := old.present = true ∧ old.bound = true ∧ old.expiry ≤ s.time
     let free := old.present = true ∧ (old.bound = false ∨ runnable s old.queue = false)
     let fits := fun (w : Nat) => headShape s w = none ∨ headShape s w = some (old.width, old.height)
     let far := fun (w : Nat) => (w + 4096 - y.rp) % 4096
     let takes := fun (j : Instr) =>
       ((∀ w ∈ waitingQueues s, ¬ fits w) → lonely → exec j s = .next s) ∧
       (∀ w ∈ waitingQueues s, lonely → y.rp < 4096 → fits w → (∀ v ∈ waitingQueues s, fits v → far w ≤ far v) → ∃ t, exec j s = .next t ∧
         t.dies = updAt s.dies d (fun y => { setSlot { old with
             bound := true
             queue := w
             expiry := s.time + 5000000 } y with rp := (w + 1) % 4096 }) ∧ SameMemory s t ∧ t.pkg = s.pkg ∧
         ev (s.time + 5000000) 3 (.leaseExpiry die slot) t ∧ (∀ c ∈ slotCores d old, ev (s.time + 1) 3 (.taskStage (coreBV c)) t) ∧
         (old.bound = false → still t) ∧
         (∀ c z, old.bound = true → c ∈ slotCores d old → (s.core c).ctx = some z → (t.core c).ctx = some z ∧
           (t.core c).preq.map (·.forced) = some true))
     (¬ lapsed ∨ y.stopped = true → exec (.leaseExpiry die slot) s = .next s) ∧
     (¬ free ∨ y.stopped = true → exec (.slotTakeWaiting die slot) s = .next s) ∧
     (lapsed → y.stopped = false → takes (.leaseExpiry die slot)) ∧ (free → y.stopped = false → takes (.slotTakeWaiting die slot))) ∧
    (let c := core.toNat
     let k := s.core c
     let asked := fun (p : Preempt) => withCore s c fun k => { k with
       preq := some p
       arch := k.arch.setPreq true }
     let saves := fun (t : State) => posted (withCore t c fun k => { k with flow := .saving }) 0 2 (.contextSave core)
     let timeout := Instr.forcedPreemptTimeout core
     (k.ctx = none → exec (.preemptRequest core force) s = .next s ∧ exec (.timeSliceYield core) s = .next s) ∧
     (k.ctx ≠ none → k.preq = none → exec (.preemptRequest core force) s = .next (
       let t := asked ⟨force, s.time, false, false, force⟩
       let t := if force then posted t 50000 2 timeout else t
       if k.flow = .parked ∧ (k.arch.inTrap = false ∨ force = true) then saves t else t)) ∧
     (∀ p, k.ctx ≠ none → k.preq = some p → k.flow ≠ .parked → exec (.preemptRequest core true) s =
       .next (posted (asked ⟨true, if p.timed then p.since else s.time, p.due, false, true⟩) 50000 2 timeout)) ∧
     (∀ p, k.ctx ≠ none → k.preq = some p → k.flow ≠ .parked → exec (.preemptRequest core false) s =
       .next (asked { p with slice := false })) ∧
     (k.preq = none → exec timeout s = .next s) ∧
     (∀ p, k.preq = some p →
       (p.timed = false ∨ p.due = true → exec timeout s = .next s) ∧
       (p.timed = true → p.due = false →
         (s.time < p.since + 50000 → exec timeout s = .next { s with agenda := insertItem ⟨p.since + 50000, 2, .ev timeout⟩ s.agenda }) ∧
         (p.since + 50000 ≤ s.time → exec timeout s = .next (
           let t := withCore s c fun k => { k with preq := some { p with due := true } }
           if k.flow = .parked ∧ (k.arch.inTrap = false ∨ p.forced = true) then saves t else t)))) ∧
     (partnerOf s c = none → exec (.timeSliceYield core) s = .next s) ∧
     (∀ p x, k.ctx = some x → partnerOf s c = some p →
       (hasWork s p = false → exec (.timeSliceYield core) s = .next s) ∧
       (hasWork s p = true → k.flow ≠ .parked → s.time < x.started + 500000 → exec (.timeSliceYield core) s =
         .next { s with agenda := insertItem ⟨x.started + 500000, 3, .ev (.timeSliceYield core)⟩ s.agenda }) ∧
       (hasWork s p = true → k.flow ≠ .parked → x.started + 500000 ≤ s.time →
         (k.preq = none → exec (.timeSliceYield core) s = .next (posted (asked ⟨false, s.time, false, true, true⟩) 50000 2 timeout)) ∧
         (∀ p, k.preq = some p → exec (.timeSliceYield core) s = .next (if p.timed then s else
           let t := asked { p with
             since := s.time
             timed := true }
           if p.due then t else posted t 50000 2 timeout))) ∧
       (hasWork s p = true → k.flow = .parked → k.preq = none → exec (.timeSliceYield core) s =
         .next (let t := asked ⟨false, s.time, true, true, true⟩
           if k.arch.inTrap then t else saves t))))

/-- The oldest queued launch of an enabled queue becomes runnable once no launch of the queue stands before it, or the one before
has started and its root has OVERLAP, and the package has the rack's time; its tree is read, and a tree that breaks a rule fails
the launch with a record. A core looks for a saved context first, and else the queue's next task is staged on the lowest free
core with the next task index and a CTXID that no live context has. A staged task starts on an idle core with fresh task-visible
state, the limits, seeds and parameters of its region, and its image's entry as pc; one whose core is no longer its ordinal's
goes back. A save waits for what is in flight and then writes the save area, frees the core and keeps the context; a return
takes the task-visible state and both memories from the area, with LCOORD of the new core, and ends the domain where the area's
CRC fails. A region that has failed has its tasks issued still, unless its domain has ended. A root region whose tasks have ended and
whose work is done stores its sequence value, with bit 63 where it failed, its windows go with the keys applied to them, and its
launch retires. The latencies of a start and of a return, the layout of the area and the dispatcher's order are the model's
(notes/assumptions/2.md, notes/assumptions/11.md, notes/assumptions/19.md). (04_execution_model.md R95, 04_execution_model.md R97, 04_execution_model.md R103, 04_execution_model.md
R104, 04_execution_model.md R105, 04_execution_model.md R106, 04_execution_model.md R108, 04_execution_model.md R117,
04_execution_model.md R118, 19_faults_preemption.md R402, 19_faults_preemption.md R404, 19_faults_preemption.md R405). -/
def Obligations.LaunchesTasksAndContexts : Prop :=
  ∀ (s : State) (core : BitVec 8) (q : BitVec 12) (l : Launch) (r : Region), intact s →
    let c := core.toNat
    let d := c / 128
    let k := s.core c
    let p := s.pkg
    let ev := fun (n p : Nat) (j : Instr) (t : State) => (⟨n, p, .ev j⟩ : Item) ∈ t.agenda
    let quiet := fun (t : State) => SameMemory s t ∧ t.cores = s.cores ∧ t.dies = s.dies ∧ t.ctrs = s.ctrs
    let validate := exec (.launchValidate q) s
    let alone := s.disp.launches = [l] ∧ l.queue = q.toNat ∧ l.state = .queued ∧ l.from_ = none
    let room := (s.die 0).errWp - (s.die 0).errRp ≠ 4096 ∧ recordable s 0
    let inPool := fun (a : Nat) => a + saveBytes ≤ 12 * 2 ^ 36 ∧ ∀ b ∈ [a, a + saveBytes - 1], populated s b = true ∧ homeCut s d (.pa b) = false
    let heir := fun (n : Nat) (k : Core) => { k with handedOut := k.handedOut.map fun h => if h.holder = .core c then { h with holder := .ctx n } else h }
    let staging := exec (.taskStage core) s
    let starting := exec (.taskStart core) s
    ((∀ m ∈ s.disp.launches, m.queue = q.toNat → m.state ≠ .queued) → validate = .next s) ∧
    (alone → (s.queue q.toNat).en = false ∨ p.bootOk = false ∨ hasTime s = false → validate = .next s) ∧
    (∀ m, s.disp.launches = [m, l] → m.queue = q.toNat → m.state = .runnable ∨ (m.state = .started ∧
      (rawRoot s (rootParent s l) l.root).map (·.overlap) ≠ some true) → l.queue = q.toNat → l.state = .queued → m.id < l.id →
      validate = .next s) ∧
    (alone → (s.queue q.toNat).en = true → p.bootOk = true → hasTime s = true →
      (∀ tr, treeOf s none l.root = .ok tr → (tr.head?.map (·.2.rrmode)) = some 0 → ∃ t, validate = .next t ∧ quiet t ∧
        t.pkg = { p with launched := true } ∧ t.queue q.toNat = { s.queue q.toNat with head := ((s.queue q.toNat).head + 1) % 2 ^ 32 } ∧
        t.disp.snapshots.head? = some (l.root, tr.map (·.1)) ∧
        t.disp.launches = [{ l with
          state := .runnable
          validated := true
          regions := tr.map (·.2)
          ownsLog := false }] ∧ (∀ c ∈ queueCores s q.toNat, ev (s.time + 1) 3 (.taskStage (coreBV c)) t)) ∧
      (∀ e, treeOf s none l.root = .error e → room → (rawRoot s none l.root).map (fun r => complOk s r.compl) = some true →
        ∃ t, validate = .next t ∧ (t.die 0).errWp = (s.die 0).errWp + 1 ∧ t.cores = s.cores ∧ t.lmem = s.lmem ∧
        ev (s.time + 1) 3 (.regionComplete (BitVec.ofNat 32 l.id) 0) t ∧
        t.disp.launches.map (fun m => (m.state, m.validated, m.failed)) = [(.runnable, true, true)])) ∧
    (l.root % 512 ≠ 0 → (∀ z ∈ s.disp.snapshots, z.1 ≠ l.root) → treeOf s none l.root = .error ⟨l.root, 0, 0x22, 0⟩) ∧
    (coreQueue s c = none → ∃ t, staging = .next t ∧ t = { s with agenda := t.agenda } ∧ (waitingQueues s = [] → t = s)) ∧
    (coreQueue s c = some q.toNat →
      (mayRestore s q.toNat c = true → staging = .next (posted s 1 2 (.contextRestore core))) ∧
      (∀ e, mayRestore s q.toNat c = false → e ∈ queueCores s q.toNat → (∀ f ∈ queueCores s q.toNat, mayRestore s q.toNat f = decide (f = e)) →
        staging = .next (posted s 1 2 (.contextRestore (coreBV e)))) ∧
      (∀ e, s.disp.saved = [] → s.disp.returned = [] → s.disp.launches = [l] → l.queue = q.toNat → l.state = .started → l.validated = true →
        l.failed = false → l.regions = [r] → r.leaf = true → r.det = false → r.stored = false → r.parent = none →
        (r.g * r.x * r.y ≤ r.issued ∨ r.cores ≤ tasksIn s l 0 → ∃ t, staging = .next t ∧ quiet t ∧ t.disp = s.disp) ∧
        (r.issued < r.g * r.x * r.y → tasksIn s l 0 < r.cores → e ∈ queueCores s q.toNat → stageFree s e = true → e < 256 →
          (∀ f ∈ queueCores s q.toNat, stageFree s f = true → e ≤ f) → ∃ t, staging = .next t ∧ SameMemory s t ∧ t.dies = s.dies ∧
          (∀ f, f < 256 → f ≠ e → t.core f = s.core f) ∧ t.core e = { s.core e with staged := (t.core e).staged } ∧
          t.disp.launches = [{ l with regions := [{ r with issued := r.issued + 1 }] }] ∧
          (t.core e).staged.map (fun x => (x.launch, x.region, x.task, x.core)) = some (l.id, 0, r.issued, e) ∧
          (t.core e).staged.map (fun x => (x.x, x.y, x.grp)) = some (r.issued % r.x, r.issued / r.x % r.y, r.issued / r.x / r.y) ∧
          (t.core e).staged.any (fun x => (liveIds s).any fun n => n % 65536 = x.id % 65536) = false))) ∧
    (k.staged = none → starting = .next s) ∧
    (k.staged ≠ none → k.ctx ≠ none ∨ pairFree s c = false → starting = .next s) ∧
    (∀ x, k.staged = some x → k.ctx = none → pairFree s c = true →
      (regionOf s x.ref = none → starting = .next (withCore s c fun k => { k with staged := none })) ∧
      (regionOf s x.ref = some r → inPlace s x = false → ∃ t, starting = .next t ∧ SameMemory s t ∧
        (∀ f, f < 256 → f ≠ c → t.core f = s.core f) ∧ (t.core c).ctx = none ∧ (t.core c).staged = none ∧
        t.disp.returned = s.disp.returned ++ [x] ∧ ev (s.time + 1) 3 (.taskStage core) t) ∧
      (regionOf s x.ref = some r → inPlace s x = true → k.resident s x.image = true → imgDataLen (vaRead s x.image 256) = 0 → ∃ t,
        starting = .next t ∧ SameMemory s t ∧ t.disp = s.disp ∧ (∀ f, f < 256 → f ≠ c → t.core f = heir x.id (s.core f)) ∧ ev (s.time + 1) 4 (.fetch core) t ∧
        ev (s.time + 1) 3 (.taskStage core) t ∧ (t.core c).ctx = some { x with started := s.time } ∧ (t.core c).staged = none ∧
        (t.core c).flow = .running ∧ (t.core c).pc = imgEntry (vaRead s x.image 256) ∧ (t.core c).flights = [] ∧ (t.core c).seg = none ∧
        (let a := (t.core c).arch
         a = { Arch.reset with
           g := updAt (updAt Arch.reset.g 30 fun _ => BitVec.ofNat 64 r.sstop) 28 fun _ => BitVec.ofNat 64 r.vstop
           pb := r.pb
           st := a.st } ∧
         [a.sr 0, a.sr 5, a.sr 6, a.sr 10, a.sr 11, a.sr 16, a.sr 18] = [BitVec.ofNat 64 ((if x.det then 2 else 0) + r.profile % 32 * 4),
           BitVec.ofNat 64 r.sslim, BitVec.ofNat 64 r.vslim, r.srseed, r.tieseed, BitVec.ofNat 64 x.id, BitVec.ofNat 64 (lcoord c)] ∧
         [a.sr 19, a.sr 20, a.sr 23] = [BitVec.ofNat 64 (x.x % 65536 + x.y % 65536 * 65536), BitVec.ofNat 64 (x.grp % 2 ^ 32),
           BitVec.ofNat 64 x.wdlim]))) ∧
    (let save := exec (.contextSave core) s
     (k.ctx = none ∨ k.flow ≠ .saving → save = .next s) ∧
     (∀ x, k.ctx = some x → k.flow = .saving →
       (saveWaits s c x = true → save = .next (posted s 1 2 (.contextSave core))) ∧
       (freeArea s d = none → save = .next (posted s 1 2 (.contextSave core))) ∧
       (∀ area, saveWaits s c x = false → freeArea s d = some area → inPool area → Memory.wf s.mem → k.preq.map (·.forced) = some false →
         ∃ t, save = .next t ∧ memRead t.mem area saveBytes = saveImage s c % 2 ^ (8 * saveBytes) ∧ t.lmem = s.lmem ∧ t.dies = s.dies ∧
         (∀ a, (a < area ∨ area + saveBytes ≤ a) → memByte t.mem a = memByte s.mem a) ∧ t.core c = k.clear ∧
         (∀ f, f < 256 → f ≠ c → t.core f = s.core f) ∧ t.disp.launches = s.disp.launches ∧ t.disp.saved.dropLast = s.disp.saved ∧
         t.disp.saved.getLast?.map (fun z => (z.ctx, z.area, z.die, z.core.arch, z.core.pc)) =
           some (x, area, d, k.arch.setPreq false, k.pc) ∧
         (∀ z ∈ t.agenda, z ∈ s.agenda → z.ofCore c = false)))) ∧
    (let back := exec (.contextRestore core) s
     (coreQueue s c = none ∨ k.ctx ≠ none ∨ pairFree s c = false ∨ (s.die d).stopped = true → back = .next s) ∧
     (∀ y, coreQueue s c = some q.toNat → s.disp.saved = [y] → restorable s c q.toNat y = true → k.ctx = none → pairFree s c = true →
       (s.die d).stopped = false → inPool y.area →
       (saveSound s y.area = true → k.resident s y.ctx.image = true → y.core.park = none → Memory.wf (nth s.lmem c []) → ∃ t, back = .next t ∧
         t.mem = s.mem ∧ t.dies = s.dies ∧ t.disp = { s.disp with saved := [] } ∧
         (∀ f, f < 256 → f ≠ c → t.core f = heir y.ctx.id (s.core f)) ∧
         (t.core c).ctx = some { y.ctx with
           core := c
           started := s.time
           key := if y.ctx.det then y.ctx.key else lcoord c } ∧
         (let z := y.core.fromArea (memRead s.mem y.area saveBytes)
          (t.core c).arch = z.arch.setSr 18 (BitVec.ofNat 64 (lcoord c)) ∧ (t.core c).pc = z.pc ∧ (t.core c).flow = .running ∧
          (t.core c).pend = z.pend ∧ (t.core c).defq.length = y.core.defq.length ∧
          (∀ n : Fin 32, z.arch.g[n] = BitVec.ofNat 64 (memRead s.mem (y.area + 0xE0 + 8 * n) 8))) ∧
         memRead (nth t.lmem c []) 0x400000 262144 = memRead s.mem (y.area + 0x100000) 262144 ∧
         (y.ctx.spadk ≤ 4096 → memRead (nth t.lmem c []) 0 (y.ctx.spadk * 1024) = memRead s.mem (y.area + 0x140000) (y.ctx.spadk * 1024)) ∧
         ev (s.time + 1000 + y.ctx.spadk) 4 (.fetch core) t) ∧
       (saveSound s y.area = false → (s.die d).errWp - (s.die d).errRp ≠ 4096 → recordable s d → ∃ t, back = .next t ∧ (t.core c).ctx = none ∧
         (t.die d).errWp = (s.die d).errWp + 1 ∧ (regionOf s y.ctx.ref = some r → r.fdom = true →
           (regionOf t y.ctx.ref).map (·.failed) = some true)))) ∧
    (let done := exec (.regionComplete (BitVec.ofNat 32 l.id) 0) s
     (s.disp.launches = [] → done = .next s) ∧
     (s.disp.launches = [l] → l.id < 2 ^ 32 → l.validated = true → l.regions = [r] → r.leaf = true → r.parent = none →
       (r.stored = true ∨ l.state = .retired ∨ r.ended < r.g * r.x * r.y ∨ workDone s ⟨l.id, 0⟩ = false → done = .next s) ∧
       (∀ pa, r.stored = false → l.state ≠ .retired → r.g * r.x * r.y ≤ r.ended → workDone s ⟨l.id, 0⟩ = true → l.ownsLog = false →
         vaHomes s r.compl 8 true = some [(.pa pa, 0, 8)] → ∃ t, done = .next t ∧
         SameMemory (memPutAt s (.pa pa) 8 (l.seq % 2 ^ 63 + (if r.failed then 2 ^ 63 else 0))) t ∧ t.cores = s.cores ∧ t.ctrs = s.ctrs ∧
         t.disp.launches = [] ∧ ev (s.time + 1) 3 (.launchValidate (BitVec.ofNat 12 l.queue)) t ∧
         (∀ e, e < 2 → (t.die e).sends = (s.die e).sends.filter (fun z => z.region ≠ ⟨l.id, 0⟩)) ∧
         t.pkg.windows = p.windows.filter (fun z => z.region ≠ ⟨l.id, 0⟩) ∧
         (∀ w ∈ p.windows, w.region = ⟨l.id, 0⟩ → ∀ y ∈ t.pkg.doneKeys, y.1 ≠ w.id))))
end

