-- ==== Sys2Proof/Laws/Memory.lean ====
section
/-! SUPPORT. Memory: its canonical form is kept by every write, and what a byte reads after one. -/

namespace Sys2Proof.Machine

/-- The cells of a write lie in its range and hold the nonzero bytes of its value. -/
theorem mem_memCells {a n v : Nat} {x : Host.Cell} :
    x ∈ memCells a n v ↔ ∃ i, i < n ∧ x = (a + i, BitVec.ofNat 8 (digit v 8 i)) ∧ x.2 ≠ 0 := by
  simp only [memCells, List.mem_filterMap, List.mem_range]
  constructor
  · rintro ⟨i, hi, h⟩
    split at h
    · cases h
    · cases h; exact ⟨i, hi, rfl, ‹_›⟩
  · rintro ⟨i, hi, rfl, h⟩
    exact ⟨i, hi, by simp_all⟩

/-- The cells of a write rise strictly. -/
theorem memCells_sorted (a n v : Nat) : (memCells a n v).Pairwise (fun x y => x.1 < y.1) := by
  refine List.Pairwise.filterMap _ ?_ List.pairwise_lt_range
  intro i j hij x hx y hy
  dsimp only at hx hy
  split at hx
  · cases hx
  split at hy
  · cases hy
  cases hx; cases hy
  exact Nat.add_lt_add_left hij a

/-- A write keeps the canonical form. -/
theorem memPut_wf {m : Memory} (h : Memory.wf m) (a n v : Nat) : Memory.wf (memPut m a n v) := by
  obtain ⟨hs, hz⟩ := h
  refine ⟨?_, ?_⟩
  · simp only [memPut, List.append_assoc]
    refine List.pairwise_append.2 ⟨hs.filter _, List.pairwise_append.2 ⟨memCells_sorted .., hs.filter _, ?_⟩, ?_⟩
    · intro x hx y hy
      obtain ⟨i, hi, rfl, -⟩ := mem_memCells.1 hx
      simp at hy ⊢; omega
    · intro x hx y hy
      simp only [List.mem_filter, decide_eq_true_eq, List.mem_append] at hx hy
      rcases hy with hy | hy
      · obtain ⟨i, hi, rfl, -⟩ := mem_memCells.1 hy
        simp; omega
      · omega
  · intro x hx
    simp only [memPut, List.mem_append, List.mem_filter] at hx
    rcases hx with (hx | hx) | hx
    · exact hz x hx.1
    · obtain ⟨i, hi, -, h⟩ := mem_memCells.1 hx; exact h
    · exact hz x hx.1

/-- In canonical form a byte is the one that a cell lists, or zero. -/
theorem memByte_eq_iff {m : Memory} (h : Memory.wf m) (a : Nat) (b : BitVec 8) (hb : b ≠ 0) :
    memByte m a = b ↔ (a, b) ∈ m := by
  unfold memByte
  cases hf : m.find? (fun x => decide (x.1 = a)) with
  | none =>
    have := List.find?_eq_none.1 hf
    constructor
    · intro h0; exact absurd h0.symm hb
    · intro hm; exact absurd (decide_eq_true rfl) (this _ hm)
  | some x =>
    have h1 := List.mem_of_find?_eq_some hf
    have h2 := List.find?_some hf
    simp only [decide_eq_true_eq] at h2
    constructor
    · rintro rfl; subst h2; exact h1
    · intro hm
      have hp := h.1
      by_contra hne
      have hxy : x ≠ (a, b) := by rintro rfl; exact hne rfl
      have := List.Pairwise.forall_of_forall_of_flip (R := fun x y : Host.Cell => x.1 = y.1 → x = y)
        (fun _ _ _ => rfl) (hp.imp fun {x y} hlt he => by omega) (hp.imp fun {x y} hlt he => by omega) h1 hm h2
      exact hxy this

/-- A byte outside a write reads as before. -/
theorem memByte_memPut_ne {m : Memory} (h : Memory.wf m) {a n v b : Nat} (hb : b < a ∨ a + n ≤ b) :
    memByte (memPut m a n v) b = memByte m b := by
  have key : ∀ c : BitVec 8, (b, c) ∈ memPut m a n v ↔ (b, c) ∈ m := by
    intro c
    simp only [memPut, List.mem_append, List.mem_filter, decide_eq_true_eq]
    constructor
    · rintro ((h | h) | h)
      · exact h.1
      · obtain ⟨i, hi, he, -⟩ := mem_memCells.1 h
        simp only [Prod.mk.injEq] at he; omega
      · exact h.1
    · intro h
      rcases hb with hb | hb
      · exact .inl (.inl ⟨h, hb⟩)
      · exact .inr ⟨h, hb⟩
  by_cases h0 : memByte (memPut m a n v) b = 0
  · by_cases h1 : memByte m b = 0
    · rw [h0, h1]
    · exact absurd ((memByte_eq_iff (memPut_wf h ..) b _ h1).2 ((key _).2 ((memByte_eq_iff h b _ h1).1 rfl)))
        (by rw [h0]; exact fun e => h1 e.symm)
  · exact ((memByte_eq_iff h b _ h0).2 ((key _).1 ((memByte_eq_iff (memPut_wf h ..) b _ h0).1 rfl))).symm

/-- A byte that a write covers reads as the byte of its value. -/
theorem memByte_memPut_in {m : Memory} (h : Memory.wf m) {a n v i : Nat} (hi : i < n) :
    memByte (memPut m a n v) (a + i) = BitVec.ofNat 8 (digit v 8 i) := by
  have key : ∀ c : BitVec 8, c ≠ 0 → ((a + i, c) ∈ memPut m a n v ↔ c = BitVec.ofNat 8 (digit v 8 i)) := by
    intro c hc
    simp only [memPut, List.mem_append, List.mem_filter, decide_eq_true_eq]
    constructor
    · rintro ((h | h) | h)
      · omega
      · obtain ⟨j, hj, he, -⟩ := mem_memCells.1 h
        simp only [Prod.mk.injEq] at he
        obtain ⟨h1, h2⟩ := he
        obtain rfl : i = j := by omega
        exact h2
      · omega
    · rintro rfl
      exact .inl (.inr (mem_memCells.2 ⟨i, hi, rfl, hc⟩))
  by_cases h0 : BitVec.ofNat 8 (digit v 8 i) = 0
  · rw [h0]
    by_contra hne
    exact hne (((key _ hne).1 ((memByte_eq_iff (memPut_wf h ..) _ _ hne).1 rfl)).trans h0)
  · exact (memByte_eq_iff (memPut_wf h ..) _ _ h0).2 ((key _ h0).2 rfl)

end Sys2Proof.Machine
end

