-- ==== Sys2Proof/Laws/Prog.lean ====
section
/-! SUPPORT. Running meanings, and where the agenda puts an item. -/

namespace Sys2Proof.Machine

@[simp] theorem Prog.run_done (s : State) : Prog.done.run s = s := rfl
@[simp] theorem Prog.run_seq (e : Eff) (k : Prog) (s : State) : (Prog.seq e k).run s = k.run (e.apply s) := rfl
@[simp] theorem Prog.run_get (f : State → Prog) (s : State) : (Prog.get f).run s = (f s).run s := rfl
@[simp] theorem Prog.run_eff (e : Eff) (s : State) : (Prog.eff e).run s = e.apply s := rfl

/-- A meaning after another runs on the state the first one left. -/
@[simp] theorem Prog.run_andThen (p q : Prog) (s : State) : (p.andThen q).run s = q.run (p.run s) := by
  induction p generalizing s with
  | done => rfl
  | seq e k ih => exact ih _
  | get f ih => exact ih _ _

@[simp] theorem Prog.run_all_nil (s : State) : (Prog.all []).run s = s := rfl
@[simp] theorem Prog.run_all_cons (p : Prog) (l : List Prog) (s : State) :
    (Prog.all (p :: l)).run s = (Prog.all l).run (p.run s) := Prog.run_andThen p _ s
@[simp] theorem Prog.run_each_nil {α : Type} (f : α → Prog) (s : State) : (Prog.each [] f).run s = s := rfl
@[simp] theorem Prog.run_each_cons {α : Type} (x : α) (l : List α) (f : α → Prog) (s : State) :
    (Prog.each (x :: l) f).run s = (Prog.each l f).run ((f x).run s) := Prog.run_andThen (f x) _ s
@[simp] theorem Prog.run_when_true (p : Prog) (s : State) : (Prog.when_ true p).run s = p.run s := rfl
@[simp] theorem Prog.run_when_false (p : Prog) (s : State) : (Prog.when_ false p).run s = s := rfl

/-- A condition decides whether a meaning runs. -/
theorem Prog.run_when (c : Bool) (p : Prog) (s : State) : (Prog.when_ c p).run s = if c then p.run s else s := by
  cases c <;> rfl

@[simp] theorem setCore_run (c : Nat) (f : Core → Core) (s : State) : (setCore c f).run s = (Eff.core c f).apply s := rfl
@[simp] theorem setArch_run (c : Nat) (f : Arch → Arch) (s : State) :
    (setArch c f).run s = (Eff.core c fun k => { k with arch := f k.arch }).apply s := rfl
@[simp] theorem setArchAt_run (c q : Nat) (f : Arch → Arch) (s : State) :
    (setArchAt c q f).run s = (Eff.core c fun k => k.updArch q f).apply s := rfl
@[simp] theorem postEv_run (n p : Nat) (i : Instr) (s : State) :
    (postEv n p i).run s = (Eff.post (s.time + n) p (.ev i)).apply s := rfl
@[simp] theorem postAt_run (t p : Nat) (i : Instr) (s : State) : (postAt t p i).run s = (Eff.post t p (.ev i)).apply s := rfl
@[simp] theorem postOp_run (n : Nat) (t : Trig) (s : State) :
    (postOp n t).run s = (Eff.post (s.time + n) 2 (.op t)).apply s := rfl

/-- An invariant that every effect keeps is kept by every meaning. -/
theorem Prog.run_keeps {P : State → Prop} (h : ∀ (e : Eff) s, P s → P (e.apply s)) (p : Prog) :
    ∀ s, P s → P (p.run s) := by
  induction p with
  | done => exact fun _ hs => hs
  | seq e k ih => exact fun s hs => ih _ (h e s hs)
  | get f ih => exact fun s hs => ih s s hs

/-- What an inserted item makes of a list: that item and the ones before. -/
@[simp] theorem mem_insertItem {x y : Item} {l : List Item} : y ∈ insertItem x l ↔ y = x ∨ y ∈ l := by
  induction l with
  | nil => simp [insertItem]
  | cons z r ih =>
    unfold insertItem
    split
    · simp
    · simp [ih, or_left_comm]

/-- An item goes to its place in the order. -/
theorem insertItem_sorted {x : Item} {l : List Item} (h : l.Pairwise (fun x y => x.key ≤ y.key)) :
    (insertItem x l).Pairwise (fun x y => x.key ≤ y.key) := by
  induction l with
  | nil => simp [insertItem]
  | cons z r ih =>
    obtain ⟨h1, h2⟩ := List.pairwise_cons.1 h
    unfold insertItem
    split
    · refine List.pairwise_cons.2 ⟨fun y hy => ?_, h⟩
      rcases List.mem_cons.1 hy with rfl | hy
      · omega
      · have := h1 y hy; omega
    · refine List.pairwise_cons.2 ⟨fun y hy => ?_, ih h2⟩
      rcases mem_insertItem.1 hy with rfl | hy
      · omega
      · exact h1 y hy

end Sys2Proof.Machine
end

