-- ==== Sys2Proof/Laws/State.lean ====
section
/-! SUPPORT. Reads of the state after one effect, one lemma for each field: no later proof unfolds a record update. -/

namespace Sys2Proof.Machine

section
variable (s : State) (c : Nat) (f : Core → Core)

@[simp] theorem Eff.apply_core_time : (Eff.apply (.core c f) s).time = s.time := rfl
@[simp] theorem Eff.apply_core_agenda : (Eff.apply (.core c f) s).agenda = s.agenda := rfl
@[simp] theorem Eff.apply_core_cur : (Eff.apply (.core c f) s).cur = s.cur := rfl
@[simp] theorem Eff.apply_core_fresh : (Eff.apply (.core c f) s).fresh = s.fresh := rfl
@[simp] theorem Eff.apply_core_cores : (Eff.apply (.core c f) s).cores = updAt s.cores c f := rfl
@[simp] theorem Eff.apply_core_lmem : (Eff.apply (.core c f) s).lmem = s.lmem := rfl
@[simp] theorem Eff.apply_core_mem : (Eff.apply (.core c f) s).mem = s.mem := rfl
@[simp] theorem Eff.apply_core_ctrs : (Eff.apply (.core c f) s).ctrs = s.ctrs := rfl
@[simp] theorem Eff.apply_core_dies : (Eff.apply (.core c f) s).dies = s.dies := rfl
@[simp] theorem Eff.apply_core_hbm : (Eff.apply (.core c f) s).hbm = s.hbm := rfl
@[simp] theorem Eff.apply_core_lanes : (Eff.apply (.core c f) s).lanes = s.lanes := rfl
@[simp] theorem Eff.apply_core_engines : (Eff.apply (.core c f) s).engines = s.engines := rfl
@[simp] theorem Eff.apply_core_pkg : (Eff.apply (.core c f) s).pkg = s.pkg := rfl
@[simp] theorem Eff.apply_core_disp : (Eff.apply (.core c f) s).disp = s.disp := rfl
@[simp] theorem Eff.apply_core_waiters : (Eff.apply (.core c f) s).waiters = s.waiters := rfl
@[simp] theorem Eff.apply_core_tx : (Eff.apply (.core c f) s).tx = s.tx := rfl
@[simp] theorem Eff.apply_core_outbox : (Eff.apply (.core c f) s).outbox = s.outbox := rfl
end

section
variable (s : State) (c a n v : Nat)

@[simp] theorem Eff.apply_lput_time : (Eff.apply (.lput c a n v) s).time = s.time := rfl
@[simp] theorem Eff.apply_lput_agenda : (Eff.apply (.lput c a n v) s).agenda = s.agenda := rfl
@[simp] theorem Eff.apply_lput_cur : (Eff.apply (.lput c a n v) s).cur = s.cur := rfl
@[simp] theorem Eff.apply_lput_fresh : (Eff.apply (.lput c a n v) s).fresh = s.fresh := rfl
@[simp] theorem Eff.apply_lput_cores : (Eff.apply (.lput c a n v) s).cores = s.cores := rfl
@[simp] theorem Eff.apply_lput_lmem : (Eff.apply (.lput c a n v) s).lmem = updAt s.lmem c (fun m => memPut m a n v) := rfl
@[simp] theorem Eff.apply_lput_mem : (Eff.apply (.lput c a n v) s).mem = s.mem := rfl
@[simp] theorem Eff.apply_lput_ctrs : (Eff.apply (.lput c a n v) s).ctrs = s.ctrs := rfl
@[simp] theorem Eff.apply_lput_dies : (Eff.apply (.lput c a n v) s).dies = s.dies := rfl
@[simp] theorem Eff.apply_lput_hbm : (Eff.apply (.lput c a n v) s).hbm = s.hbm := rfl
@[simp] theorem Eff.apply_lput_lanes : (Eff.apply (.lput c a n v) s).lanes = s.lanes := rfl
@[simp] theorem Eff.apply_lput_engines : (Eff.apply (.lput c a n v) s).engines = s.engines := rfl
@[simp] theorem Eff.apply_lput_pkg : (Eff.apply (.lput c a n v) s).pkg = s.pkg := rfl
@[simp] theorem Eff.apply_lput_disp : (Eff.apply (.lput c a n v) s).disp = s.disp := rfl
@[simp] theorem Eff.apply_lput_waiters : (Eff.apply (.lput c a n v) s).waiters = s.waiters := rfl
@[simp] theorem Eff.apply_lput_tx : (Eff.apply (.lput c a n v) s).tx = s.tx := rfl
@[simp] theorem Eff.apply_lput_outbox : (Eff.apply (.lput c a n v) s).outbox = s.outbox := rfl
end

section
variable (s : State) (a n v : Nat)

@[simp] theorem Eff.apply_gput_time : (Eff.apply (.gput a n v) s).time = s.time := rfl
@[simp] theorem Eff.apply_gput_agenda : (Eff.apply (.gput a n v) s).agenda = s.agenda := rfl
@[simp] theorem Eff.apply_gput_cur : (Eff.apply (.gput a n v) s).cur = s.cur := rfl
@[simp] theorem Eff.apply_gput_fresh : (Eff.apply (.gput a n v) s).fresh = s.fresh := rfl
@[simp] theorem Eff.apply_gput_cores : (Eff.apply (.gput a n v) s).cores = s.cores := rfl
@[simp] theorem Eff.apply_gput_lmem : (Eff.apply (.gput a n v) s).lmem = s.lmem := rfl
@[simp] theorem Eff.apply_gput_mem : (Eff.apply (.gput a n v) s).mem = memPut s.mem a n v := rfl
@[simp] theorem Eff.apply_gput_ctrs : (Eff.apply (.gput a n v) s).ctrs = s.ctrs := rfl
@[simp] theorem Eff.apply_gput_dies : (Eff.apply (.gput a n v) s).dies = s.dies := rfl
@[simp] theorem Eff.apply_gput_hbm : (Eff.apply (.gput a n v) s).hbm = s.hbm := rfl
@[simp] theorem Eff.apply_gput_lanes : (Eff.apply (.gput a n v) s).lanes = s.lanes := rfl
@[simp] theorem Eff.apply_gput_engines : (Eff.apply (.gput a n v) s).engines = s.engines := rfl
@[simp] theorem Eff.apply_gput_pkg : (Eff.apply (.gput a n v) s).pkg = s.pkg := rfl
@[simp] theorem Eff.apply_gput_disp : (Eff.apply (.gput a n v) s).disp = s.disp := rfl
@[simp] theorem Eff.apply_gput_waiters : (Eff.apply (.gput a n v) s).waiters = s.waiters := rfl
@[simp] theorem Eff.apply_gput_tx : (Eff.apply (.gput a n v) s).tx = s.tx := rfl
@[simp] theorem Eff.apply_gput_outbox : (Eff.apply (.gput a n v) s).outbox = s.outbox := rfl
end

section
variable (s : State) (h n : Nat)

@[simp] theorem Eff.apply_ctrAdd_time : (Eff.apply (.ctrAdd h n) s).time = s.time := rfl
@[simp] theorem Eff.apply_ctrAdd_agenda : (Eff.apply (.ctrAdd h n) s).agenda = s.agenda := rfl
@[simp] theorem Eff.apply_ctrAdd_cur : (Eff.apply (.ctrAdd h n) s).cur = s.cur := rfl
@[simp] theorem Eff.apply_ctrAdd_fresh : (Eff.apply (.ctrAdd h n) s).fresh = s.fresh := rfl
@[simp] theorem Eff.apply_ctrAdd_cores : (Eff.apply (.ctrAdd h n) s).cores = s.cores := rfl
@[simp] theorem Eff.apply_ctrAdd_lmem : (Eff.apply (.ctrAdd h n) s).lmem = s.lmem := rfl
@[simp] theorem Eff.apply_ctrAdd_mem : (Eff.apply (.ctrAdd h n) s).mem = s.mem := rfl
@[simp] theorem Eff.apply_ctrAdd_ctrs : (Eff.apply (.ctrAdd h n) s).ctrs = ctrPlus s.ctrs h n := rfl
@[simp] theorem Eff.apply_ctrAdd_dies : (Eff.apply (.ctrAdd h n) s).dies = s.dies := rfl
@[simp] theorem Eff.apply_ctrAdd_hbm : (Eff.apply (.ctrAdd h n) s).hbm = s.hbm := rfl
@[simp] theorem Eff.apply_ctrAdd_lanes : (Eff.apply (.ctrAdd h n) s).lanes = s.lanes := rfl
@[simp] theorem Eff.apply_ctrAdd_engines : (Eff.apply (.ctrAdd h n) s).engines = s.engines := rfl
@[simp] theorem Eff.apply_ctrAdd_pkg : (Eff.apply (.ctrAdd h n) s).pkg = s.pkg := rfl
@[simp] theorem Eff.apply_ctrAdd_disp : (Eff.apply (.ctrAdd h n) s).disp = s.disp := rfl
@[simp] theorem Eff.apply_ctrAdd_waiters : (Eff.apply (.ctrAdd h n) s).waiters = s.waiters := rfl
@[simp] theorem Eff.apply_ctrAdd_tx : (Eff.apply (.ctrAdd h n) s).tx = s.tx := rfl
@[simp] theorem Eff.apply_ctrAdd_outbox : (Eff.apply (.ctrAdd h n) s).outbox = s.outbox := rfl
end

section
variable (s : State) (d : Nat)

@[simp] theorem Eff.apply_ctrClear_time : (Eff.apply (.ctrClear d) s).time = s.time := rfl
@[simp] theorem Eff.apply_ctrClear_agenda : (Eff.apply (.ctrClear d) s).agenda = s.agenda := rfl
@[simp] theorem Eff.apply_ctrClear_cur : (Eff.apply (.ctrClear d) s).cur = s.cur := rfl
@[simp] theorem Eff.apply_ctrClear_fresh : (Eff.apply (.ctrClear d) s).fresh = s.fresh := rfl
@[simp] theorem Eff.apply_ctrClear_cores : (Eff.apply (.ctrClear d) s).cores = s.cores := rfl
@[simp] theorem Eff.apply_ctrClear_lmem : (Eff.apply (.ctrClear d) s).lmem = s.lmem := rfl
@[simp] theorem Eff.apply_ctrClear_mem : (Eff.apply (.ctrClear d) s).mem = s.mem := rfl
@[simp] theorem Eff.apply_ctrClear_ctrs : (Eff.apply (.ctrClear d) s).ctrs = s.ctrs.filter (fun x => decide (x.1 / 2 ^ 16 ≠ d)) := rfl
@[simp] theorem Eff.apply_ctrClear_dies : (Eff.apply (.ctrClear d) s).dies = s.dies := rfl
@[simp] theorem Eff.apply_ctrClear_hbm : (Eff.apply (.ctrClear d) s).hbm = s.hbm := rfl
@[simp] theorem Eff.apply_ctrClear_lanes : (Eff.apply (.ctrClear d) s).lanes = s.lanes := rfl
@[simp] theorem Eff.apply_ctrClear_engines : (Eff.apply (.ctrClear d) s).engines = s.engines := rfl
@[simp] theorem Eff.apply_ctrClear_pkg : (Eff.apply (.ctrClear d) s).pkg = s.pkg := rfl
@[simp] theorem Eff.apply_ctrClear_disp : (Eff.apply (.ctrClear d) s).disp = s.disp := rfl
@[simp] theorem Eff.apply_ctrClear_waiters : (Eff.apply (.ctrClear d) s).waiters = s.waiters := rfl
@[simp] theorem Eff.apply_ctrClear_tx : (Eff.apply (.ctrClear d) s).tx = s.tx := rfl
@[simp] theorem Eff.apply_ctrClear_outbox : (Eff.apply (.ctrClear d) s).outbox = s.outbox := rfl
end

section
variable (s : State) (f : Pkg → Pkg)

@[simp] theorem Eff.apply_pkg_time : (Eff.apply (.pkg f) s).time = s.time := rfl
@[simp] theorem Eff.apply_pkg_agenda : (Eff.apply (.pkg f) s).agenda = s.agenda := rfl
@[simp] theorem Eff.apply_pkg_cur : (Eff.apply (.pkg f) s).cur = s.cur := rfl
@[simp] theorem Eff.apply_pkg_fresh : (Eff.apply (.pkg f) s).fresh = s.fresh := rfl
@[simp] theorem Eff.apply_pkg_cores : (Eff.apply (.pkg f) s).cores = s.cores := rfl
@[simp] theorem Eff.apply_pkg_lmem : (Eff.apply (.pkg f) s).lmem = s.lmem := rfl
@[simp] theorem Eff.apply_pkg_mem : (Eff.apply (.pkg f) s).mem = s.mem := rfl
@[simp] theorem Eff.apply_pkg_ctrs : (Eff.apply (.pkg f) s).ctrs = s.ctrs := rfl
@[simp] theorem Eff.apply_pkg_dies : (Eff.apply (.pkg f) s).dies = s.dies := rfl
@[simp] theorem Eff.apply_pkg_hbm : (Eff.apply (.pkg f) s).hbm = s.hbm := rfl
@[simp] theorem Eff.apply_pkg_lanes : (Eff.apply (.pkg f) s).lanes = s.lanes := rfl
@[simp] theorem Eff.apply_pkg_engines : (Eff.apply (.pkg f) s).engines = s.engines := rfl
@[simp] theorem Eff.apply_pkg_pkg : (Eff.apply (.pkg f) s).pkg = f s.pkg := rfl
@[simp] theorem Eff.apply_pkg_disp : (Eff.apply (.pkg f) s).disp = s.disp := rfl
@[simp] theorem Eff.apply_pkg_waiters : (Eff.apply (.pkg f) s).waiters = s.waiters := rfl
@[simp] theorem Eff.apply_pkg_tx : (Eff.apply (.pkg f) s).tx = s.tx := rfl
@[simp] theorem Eff.apply_pkg_outbox : (Eff.apply (.pkg f) s).outbox = s.outbox := rfl
end

section
variable (s : State) (d : Nat) (f : Die → Die)

@[simp] theorem Eff.apply_die_time : (Eff.apply (.die d f) s).time = s.time := rfl
@[simp] theorem Eff.apply_die_agenda : (Eff.apply (.die d f) s).agenda = s.agenda := rfl
@[simp] theorem Eff.apply_die_cur : (Eff.apply (.die d f) s).cur = s.cur := rfl
@[simp] theorem Eff.apply_die_fresh : (Eff.apply (.die d f) s).fresh = s.fresh := rfl
@[simp] theorem Eff.apply_die_cores : (Eff.apply (.die d f) s).cores = s.cores := rfl
@[simp] theorem Eff.apply_die_lmem : (Eff.apply (.die d f) s).lmem = s.lmem := rfl
@[simp] theorem Eff.apply_die_mem : (Eff.apply (.die d f) s).mem = s.mem := rfl
@[simp] theorem Eff.apply_die_ctrs : (Eff.apply (.die d f) s).ctrs = s.ctrs := rfl
@[simp] theorem Eff.apply_die_dies : (Eff.apply (.die d f) s).dies = updAt s.dies d f := rfl
@[simp] theorem Eff.apply_die_hbm : (Eff.apply (.die d f) s).hbm = s.hbm := rfl
@[simp] theorem Eff.apply_die_lanes : (Eff.apply (.die d f) s).lanes = s.lanes := rfl
@[simp] theorem Eff.apply_die_engines : (Eff.apply (.die d f) s).engines = s.engines := rfl
@[simp] theorem Eff.apply_die_pkg : (Eff.apply (.die d f) s).pkg = s.pkg := rfl
@[simp] theorem Eff.apply_die_disp : (Eff.apply (.die d f) s).disp = s.disp := rfl
@[simp] theorem Eff.apply_die_waiters : (Eff.apply (.die d f) s).waiters = s.waiters := rfl
@[simp] theorem Eff.apply_die_tx : (Eff.apply (.die d f) s).tx = s.tx := rfl
@[simp] theorem Eff.apply_die_outbox : (Eff.apply (.die d f) s).outbox = s.outbox := rfl
end

section
variable (s : State) (i : Nat) (f : Stack → Stack)

@[simp] theorem Eff.apply_stack_time : (Eff.apply (.stack i f) s).time = s.time := rfl
@[simp] theorem Eff.apply_stack_agenda : (Eff.apply (.stack i f) s).agenda = s.agenda := rfl
@[simp] theorem Eff.apply_stack_cur : (Eff.apply (.stack i f) s).cur = s.cur := rfl
@[simp] theorem Eff.apply_stack_fresh : (Eff.apply (.stack i f) s).fresh = s.fresh := rfl
@[simp] theorem Eff.apply_stack_cores : (Eff.apply (.stack i f) s).cores = s.cores := rfl
@[simp] theorem Eff.apply_stack_lmem : (Eff.apply (.stack i f) s).lmem = s.lmem := rfl
@[simp] theorem Eff.apply_stack_mem : (Eff.apply (.stack i f) s).mem = s.mem := rfl
@[simp] theorem Eff.apply_stack_ctrs : (Eff.apply (.stack i f) s).ctrs = s.ctrs := rfl
@[simp] theorem Eff.apply_stack_dies : (Eff.apply (.stack i f) s).dies = s.dies := rfl
@[simp] theorem Eff.apply_stack_hbm : (Eff.apply (.stack i f) s).hbm = updAt s.hbm i f := rfl
@[simp] theorem Eff.apply_stack_lanes : (Eff.apply (.stack i f) s).lanes = s.lanes := rfl
@[simp] theorem Eff.apply_stack_engines : (Eff.apply (.stack i f) s).engines = s.engines := rfl
@[simp] theorem Eff.apply_stack_pkg : (Eff.apply (.stack i f) s).pkg = s.pkg := rfl
@[simp] theorem Eff.apply_stack_disp : (Eff.apply (.stack i f) s).disp = s.disp := rfl
@[simp] theorem Eff.apply_stack_waiters : (Eff.apply (.stack i f) s).waiters = s.waiters := rfl
@[simp] theorem Eff.apply_stack_tx : (Eff.apply (.stack i f) s).tx = s.tx := rfl
@[simp] theorem Eff.apply_stack_outbox : (Eff.apply (.stack i f) s).outbox = s.outbox := rfl
end

section
variable (s : State) (i : Nat) (f : Lane → Lane)

@[simp] theorem Eff.apply_lane_time : (Eff.apply (.lane i f) s).time = s.time := rfl
@[simp] theorem Eff.apply_lane_agenda : (Eff.apply (.lane i f) s).agenda = s.agenda := rfl
@[simp] theorem Eff.apply_lane_cur : (Eff.apply (.lane i f) s).cur = s.cur := rfl
@[simp] theorem Eff.apply_lane_fresh : (Eff.apply (.lane i f) s).fresh = s.fresh := rfl
@[simp] theorem Eff.apply_lane_cores : (Eff.apply (.lane i f) s).cores = s.cores := rfl
@[simp] theorem Eff.apply_lane_lmem : (Eff.apply (.lane i f) s).lmem = s.lmem := rfl
@[simp] theorem Eff.apply_lane_mem : (Eff.apply (.lane i f) s).mem = s.mem := rfl
@[simp] theorem Eff.apply_lane_ctrs : (Eff.apply (.lane i f) s).ctrs = s.ctrs := rfl
@[simp] theorem Eff.apply_lane_dies : (Eff.apply (.lane i f) s).dies = s.dies := rfl
@[simp] theorem Eff.apply_lane_hbm : (Eff.apply (.lane i f) s).hbm = s.hbm := rfl
@[simp] theorem Eff.apply_lane_lanes : (Eff.apply (.lane i f) s).lanes = updAt s.lanes i f := rfl
@[simp] theorem Eff.apply_lane_engines : (Eff.apply (.lane i f) s).engines = s.engines := rfl
@[simp] theorem Eff.apply_lane_pkg : (Eff.apply (.lane i f) s).pkg = s.pkg := rfl
@[simp] theorem Eff.apply_lane_disp : (Eff.apply (.lane i f) s).disp = s.disp := rfl
@[simp] theorem Eff.apply_lane_waiters : (Eff.apply (.lane i f) s).waiters = s.waiters := rfl
@[simp] theorem Eff.apply_lane_tx : (Eff.apply (.lane i f) s).tx = s.tx := rfl
@[simp] theorem Eff.apply_lane_outbox : (Eff.apply (.lane i f) s).outbox = s.outbox := rfl
end

section
variable (s : State) (i : Nat) (f : StackEngine → StackEngine)

@[simp] theorem Eff.apply_engine_time : (Eff.apply (.engine i f) s).time = s.time := rfl
@[simp] theorem Eff.apply_engine_agenda : (Eff.apply (.engine i f) s).agenda = s.agenda := rfl
@[simp] theorem Eff.apply_engine_cur : (Eff.apply (.engine i f) s).cur = s.cur := rfl
@[simp] theorem Eff.apply_engine_fresh : (Eff.apply (.engine i f) s).fresh = s.fresh := rfl
@[simp] theorem Eff.apply_engine_cores : (Eff.apply (.engine i f) s).cores = s.cores := rfl
@[simp] theorem Eff.apply_engine_lmem : (Eff.apply (.engine i f) s).lmem = s.lmem := rfl
@[simp] theorem Eff.apply_engine_mem : (Eff.apply (.engine i f) s).mem = s.mem := rfl
@[simp] theorem Eff.apply_engine_ctrs : (Eff.apply (.engine i f) s).ctrs = s.ctrs := rfl
@[simp] theorem Eff.apply_engine_dies : (Eff.apply (.engine i f) s).dies = s.dies := rfl
@[simp] theorem Eff.apply_engine_hbm : (Eff.apply (.engine i f) s).hbm = s.hbm := rfl
@[simp] theorem Eff.apply_engine_lanes : (Eff.apply (.engine i f) s).lanes = s.lanes := rfl
@[simp] theorem Eff.apply_engine_engines : (Eff.apply (.engine i f) s).engines = updAt s.engines i f := rfl
@[simp] theorem Eff.apply_engine_pkg : (Eff.apply (.engine i f) s).pkg = s.pkg := rfl
@[simp] theorem Eff.apply_engine_disp : (Eff.apply (.engine i f) s).disp = s.disp := rfl
@[simp] theorem Eff.apply_engine_waiters : (Eff.apply (.engine i f) s).waiters = s.waiters := rfl
@[simp] theorem Eff.apply_engine_tx : (Eff.apply (.engine i f) s).tx = s.tx := rfl
@[simp] theorem Eff.apply_engine_outbox : (Eff.apply (.engine i f) s).outbox = s.outbox := rfl
end

section
variable (s : State) (f : Disp → Disp)

@[simp] theorem Eff.apply_disp_time : (Eff.apply (.disp f) s).time = s.time := rfl
@[simp] theorem Eff.apply_disp_agenda : (Eff.apply (.disp f) s).agenda = s.agenda := rfl
@[simp] theorem Eff.apply_disp_cur : (Eff.apply (.disp f) s).cur = s.cur := rfl
@[simp] theorem Eff.apply_disp_fresh : (Eff.apply (.disp f) s).fresh = s.fresh := rfl
@[simp] theorem Eff.apply_disp_cores : (Eff.apply (.disp f) s).cores = s.cores := rfl
@[simp] theorem Eff.apply_disp_lmem : (Eff.apply (.disp f) s).lmem = s.lmem := rfl
@[simp] theorem Eff.apply_disp_mem : (Eff.apply (.disp f) s).mem = s.mem := rfl
@[simp] theorem Eff.apply_disp_ctrs : (Eff.apply (.disp f) s).ctrs = s.ctrs := rfl
@[simp] theorem Eff.apply_disp_dies : (Eff.apply (.disp f) s).dies = s.dies := rfl
@[simp] theorem Eff.apply_disp_hbm : (Eff.apply (.disp f) s).hbm = s.hbm := rfl
@[simp] theorem Eff.apply_disp_lanes : (Eff.apply (.disp f) s).lanes = s.lanes := rfl
@[simp] theorem Eff.apply_disp_engines : (Eff.apply (.disp f) s).engines = s.engines := rfl
@[simp] theorem Eff.apply_disp_pkg : (Eff.apply (.disp f) s).pkg = s.pkg := rfl
@[simp] theorem Eff.apply_disp_disp : (Eff.apply (.disp f) s).disp = f s.disp := rfl
@[simp] theorem Eff.apply_disp_waiters : (Eff.apply (.disp f) s).waiters = s.waiters := rfl
@[simp] theorem Eff.apply_disp_tx : (Eff.apply (.disp f) s).tx = s.tx := rfl
@[simp] theorem Eff.apply_disp_outbox : (Eff.apply (.disp f) s).outbox = s.outbox := rfl
end

section
variable (s : State) (t p : Nat) (w : What)

@[simp] theorem Eff.apply_post_time : (Eff.apply (.post t p w) s).time = s.time := rfl
@[simp] theorem Eff.apply_post_agenda : (Eff.apply (.post t p w) s).agenda = insertItem ⟨max t s.time, p % 8, w⟩ s.agenda := rfl
@[simp] theorem Eff.apply_post_cur : (Eff.apply (.post t p w) s).cur = s.cur := rfl
@[simp] theorem Eff.apply_post_fresh : (Eff.apply (.post t p w) s).fresh = s.fresh := rfl
@[simp] theorem Eff.apply_post_cores : (Eff.apply (.post t p w) s).cores = s.cores := rfl
@[simp] theorem Eff.apply_post_lmem : (Eff.apply (.post t p w) s).lmem = s.lmem := rfl
@[simp] theorem Eff.apply_post_mem : (Eff.apply (.post t p w) s).mem = s.mem := rfl
@[simp] theorem Eff.apply_post_ctrs : (Eff.apply (.post t p w) s).ctrs = s.ctrs := rfl
@[simp] theorem Eff.apply_post_dies : (Eff.apply (.post t p w) s).dies = s.dies := rfl
@[simp] theorem Eff.apply_post_hbm : (Eff.apply (.post t p w) s).hbm = s.hbm := rfl
@[simp] theorem Eff.apply_post_lanes : (Eff.apply (.post t p w) s).lanes = s.lanes := rfl
@[simp] theorem Eff.apply_post_engines : (Eff.apply (.post t p w) s).engines = s.engines := rfl
@[simp] theorem Eff.apply_post_pkg : (Eff.apply (.post t p w) s).pkg = s.pkg := rfl
@[simp] theorem Eff.apply_post_disp : (Eff.apply (.post t p w) s).disp = s.disp := rfl
@[simp] theorem Eff.apply_post_waiters : (Eff.apply (.post t p w) s).waiters = s.waiters := rfl
@[simp] theorem Eff.apply_post_tx : (Eff.apply (.post t p w) s).tx = s.tx := rfl
@[simp] theorem Eff.apply_post_outbox : (Eff.apply (.post t p w) s).outbox = s.outbox := rfl
end

section
variable (s : State) (p : Item → Bool)

@[simp] theorem Eff.apply_purge_time : (Eff.apply (.purge p) s).time = s.time := rfl
@[simp] theorem Eff.apply_purge_agenda : (Eff.apply (.purge p) s).agenda = s.agenda.filter (fun x => !p x) := rfl
@[simp] theorem Eff.apply_purge_cur : (Eff.apply (.purge p) s).cur = s.cur := rfl
@[simp] theorem Eff.apply_purge_fresh : (Eff.apply (.purge p) s).fresh = s.fresh := rfl
@[simp] theorem Eff.apply_purge_cores : (Eff.apply (.purge p) s).cores = s.cores := rfl
@[simp] theorem Eff.apply_purge_lmem : (Eff.apply (.purge p) s).lmem = s.lmem := rfl
@[simp] theorem Eff.apply_purge_mem : (Eff.apply (.purge p) s).mem = s.mem := rfl
@[simp] theorem Eff.apply_purge_ctrs : (Eff.apply (.purge p) s).ctrs = s.ctrs := rfl
@[simp] theorem Eff.apply_purge_dies : (Eff.apply (.purge p) s).dies = s.dies := rfl
@[simp] theorem Eff.apply_purge_hbm : (Eff.apply (.purge p) s).hbm = s.hbm := rfl
@[simp] theorem Eff.apply_purge_lanes : (Eff.apply (.purge p) s).lanes = s.lanes := rfl
@[simp] theorem Eff.apply_purge_engines : (Eff.apply (.purge p) s).engines = s.engines := rfl
@[simp] theorem Eff.apply_purge_pkg : (Eff.apply (.purge p) s).pkg = s.pkg := rfl
@[simp] theorem Eff.apply_purge_disp : (Eff.apply (.purge p) s).disp = s.disp := rfl
@[simp] theorem Eff.apply_purge_waiters : (Eff.apply (.purge p) s).waiters = s.waiters := rfl
@[simp] theorem Eff.apply_purge_tx : (Eff.apply (.purge p) s).tx = s.tx := rfl
@[simp] theorem Eff.apply_purge_outbox : (Eff.apply (.purge p) s).outbox = s.outbox := rfl
end

section
variable (s : State) (n : Nat)

@[simp] theorem Eff.apply_fresh_time : (Eff.apply (.fresh n) s).time = s.time := rfl
@[simp] theorem Eff.apply_fresh_agenda : (Eff.apply (.fresh n) s).agenda = s.agenda := rfl
@[simp] theorem Eff.apply_fresh_cur : (Eff.apply (.fresh n) s).cur = s.cur := rfl
@[simp] theorem Eff.apply_fresh_fresh : (Eff.apply (.fresh n) s).fresh = s.fresh + n := rfl
@[simp] theorem Eff.apply_fresh_cores : (Eff.apply (.fresh n) s).cores = s.cores := rfl
@[simp] theorem Eff.apply_fresh_lmem : (Eff.apply (.fresh n) s).lmem = s.lmem := rfl
@[simp] theorem Eff.apply_fresh_mem : (Eff.apply (.fresh n) s).mem = s.mem := rfl
@[simp] theorem Eff.apply_fresh_ctrs : (Eff.apply (.fresh n) s).ctrs = s.ctrs := rfl
@[simp] theorem Eff.apply_fresh_dies : (Eff.apply (.fresh n) s).dies = s.dies := rfl
@[simp] theorem Eff.apply_fresh_hbm : (Eff.apply (.fresh n) s).hbm = s.hbm := rfl
@[simp] theorem Eff.apply_fresh_lanes : (Eff.apply (.fresh n) s).lanes = s.lanes := rfl
@[simp] theorem Eff.apply_fresh_engines : (Eff.apply (.fresh n) s).engines = s.engines := rfl
@[simp] theorem Eff.apply_fresh_pkg : (Eff.apply (.fresh n) s).pkg = s.pkg := rfl
@[simp] theorem Eff.apply_fresh_disp : (Eff.apply (.fresh n) s).disp = s.disp := rfl
@[simp] theorem Eff.apply_fresh_waiters : (Eff.apply (.fresh n) s).waiters = s.waiters := rfl
@[simp] theorem Eff.apply_fresh_tx : (Eff.apply (.fresh n) s).tx = s.tx := rfl
@[simp] theorem Eff.apply_fresh_outbox : (Eff.apply (.fresh n) s).outbox = s.outbox := rfl
end

section
variable (s : State) (f : List CtrWaiter → List CtrWaiter)

@[simp] theorem Eff.apply_waiters_time : (Eff.apply (.waiters f) s).time = s.time := rfl
@[simp] theorem Eff.apply_waiters_agenda : (Eff.apply (.waiters f) s).agenda = s.agenda := rfl
@[simp] theorem Eff.apply_waiters_cur : (Eff.apply (.waiters f) s).cur = s.cur := rfl
@[simp] theorem Eff.apply_waiters_fresh : (Eff.apply (.waiters f) s).fresh = s.fresh := rfl
@[simp] theorem Eff.apply_waiters_cores : (Eff.apply (.waiters f) s).cores = s.cores := rfl
@[simp] theorem Eff.apply_waiters_lmem : (Eff.apply (.waiters f) s).lmem = s.lmem := rfl
@[simp] theorem Eff.apply_waiters_mem : (Eff.apply (.waiters f) s).mem = s.mem := rfl
@[simp] theorem Eff.apply_waiters_ctrs : (Eff.apply (.waiters f) s).ctrs = s.ctrs := rfl
@[simp] theorem Eff.apply_waiters_dies : (Eff.apply (.waiters f) s).dies = s.dies := rfl
@[simp] theorem Eff.apply_waiters_hbm : (Eff.apply (.waiters f) s).hbm = s.hbm := rfl
@[simp] theorem Eff.apply_waiters_lanes : (Eff.apply (.waiters f) s).lanes = s.lanes := rfl
@[simp] theorem Eff.apply_waiters_engines : (Eff.apply (.waiters f) s).engines = s.engines := rfl
@[simp] theorem Eff.apply_waiters_pkg : (Eff.apply (.waiters f) s).pkg = s.pkg := rfl
@[simp] theorem Eff.apply_waiters_disp : (Eff.apply (.waiters f) s).disp = s.disp := rfl
@[simp] theorem Eff.apply_waiters_waiters : (Eff.apply (.waiters f) s).waiters = f s.waiters := rfl
@[simp] theorem Eff.apply_waiters_tx : (Eff.apply (.waiters f) s).tx = s.tx := rfl
@[simp] theorem Eff.apply_waiters_outbox : (Eff.apply (.waiters f) s).outbox = s.outbox := rfl
end

section
variable (s : State) (p : Nat) (x : BitVec 4608)

@[simp] theorem Eff.apply_send_time : (Eff.apply (.send p x) s).time = s.time := rfl
@[simp] theorem Eff.apply_send_agenda : (Eff.apply (.send p x) s).agenda = s.agenda := rfl
@[simp] theorem Eff.apply_send_cur : (Eff.apply (.send p x) s).cur = s.cur := rfl
@[simp] theorem Eff.apply_send_fresh : (Eff.apply (.send p x) s).fresh = s.fresh := rfl
@[simp] theorem Eff.apply_send_cores : (Eff.apply (.send p x) s).cores = s.cores := rfl
@[simp] theorem Eff.apply_send_lmem : (Eff.apply (.send p x) s).lmem = s.lmem := rfl
@[simp] theorem Eff.apply_send_mem : (Eff.apply (.send p x) s).mem = s.mem := rfl
@[simp] theorem Eff.apply_send_ctrs : (Eff.apply (.send p x) s).ctrs = s.ctrs := rfl
@[simp] theorem Eff.apply_send_dies : (Eff.apply (.send p x) s).dies = s.dies := rfl
@[simp] theorem Eff.apply_send_hbm : (Eff.apply (.send p x) s).hbm = s.hbm := rfl
@[simp] theorem Eff.apply_send_lanes : (Eff.apply (.send p x) s).lanes = s.lanes := rfl
@[simp] theorem Eff.apply_send_engines : (Eff.apply (.send p x) s).engines = s.engines := rfl
@[simp] theorem Eff.apply_send_pkg : (Eff.apply (.send p x) s).pkg = s.pkg := rfl
@[simp] theorem Eff.apply_send_disp : (Eff.apply (.send p x) s).disp = s.disp := rfl
@[simp] theorem Eff.apply_send_waiters : (Eff.apply (.send p x) s).waiters = s.waiters := rfl
@[simp] theorem Eff.apply_send_tx : (Eff.apply (.send p x) s).tx = s.tx ++ [(p, x)] := rfl
@[simp] theorem Eff.apply_send_outbox : (Eff.apply (.send p x) s).outbox = s.outbox := rfl
end

section
variable (s : State) (t v : Nat)

@[simp] theorem Eff.apply_out_time : (Eff.apply (.out t v) s).time = s.time := rfl
@[simp] theorem Eff.apply_out_agenda : (Eff.apply (.out t v) s).agenda = s.agenda := rfl
@[simp] theorem Eff.apply_out_cur : (Eff.apply (.out t v) s).cur = s.cur := rfl
@[simp] theorem Eff.apply_out_fresh : (Eff.apply (.out t v) s).fresh = s.fresh := rfl
@[simp] theorem Eff.apply_out_cores : (Eff.apply (.out t v) s).cores = s.cores := rfl
@[simp] theorem Eff.apply_out_lmem : (Eff.apply (.out t v) s).lmem = s.lmem := rfl
@[simp] theorem Eff.apply_out_mem : (Eff.apply (.out t v) s).mem = s.mem := rfl
@[simp] theorem Eff.apply_out_ctrs : (Eff.apply (.out t v) s).ctrs = s.ctrs := rfl
@[simp] theorem Eff.apply_out_dies : (Eff.apply (.out t v) s).dies = s.dies := rfl
@[simp] theorem Eff.apply_out_hbm : (Eff.apply (.out t v) s).hbm = s.hbm := rfl
@[simp] theorem Eff.apply_out_lanes : (Eff.apply (.out t v) s).lanes = s.lanes := rfl
@[simp] theorem Eff.apply_out_engines : (Eff.apply (.out t v) s).engines = s.engines := rfl
@[simp] theorem Eff.apply_out_pkg : (Eff.apply (.out t v) s).pkg = s.pkg := rfl
@[simp] theorem Eff.apply_out_disp : (Eff.apply (.out t v) s).disp = s.disp := rfl
@[simp] theorem Eff.apply_out_waiters : (Eff.apply (.out t v) s).waiters = s.waiters := rfl
@[simp] theorem Eff.apply_out_tx : (Eff.apply (.out t v) s).tx = s.tx := rfl
@[simp] theorem Eff.apply_out_outbox : (Eff.apply (.out t v) s).outbox = s.outbox ++ [(t, v)] := rfl
end

section
variable (a : Arch) (i : Nat) (v : Word)

@[simp] theorem Arch.setSr_g : (a.setSr i v).g = a.g := rfl
@[simp] theorem Arch.setSr_o : (a.setSr i v).o = a.o := rfl
@[simp] theorem Arch.setSr_v : (a.setSr i v).v = a.v := rfl
@[simp] theorem Arch.setSr_vo : (a.setSr i v).vo = a.vo := rfl
@[simp] theorem Arch.setSr_p : (a.setSr i v).p = a.p := rfl
@[simp] theorem Arch.setSr_f : (a.setSr i v).f = a.f := rfl
@[simp] theorem Arch.setSr_units : (a.setSr i v).units = a.units := rfl
@[simp] theorem Arch.setSr_active : (a.setSr i v).active = a.active := rfl
@[simp] theorem Arch.setSr_pb : (a.setSr i v).pb = a.pb := rfl
@[simp] theorem Arch.setSr_srSeq : (a.setSr i v).srSeq = a.srSeq := rfl
@[simp] theorem Arch.setSr_maSeq : (a.setSr i v).maSeq = a.maSeq := rfl
@[simp] theorem Arch.setSr_ring : (a.setSr i v).ring = a.ring := rfl
@[simp] theorem Arch.setSr_tiles : (a.setSr i v).tiles = a.tiles := rfl
@[simp] theorem Arch.setSr_keepers : (a.setSr i v).keepers = a.keepers := rfl
@[simp] theorem Arch.setSr_accs : (a.setSr i v).accs = a.accs := rfl
@[simp] theorem Arch.setSr_maHalt : (a.setSr i v).maHalt = a.maHalt := rfl
@[simp] theorem Arch.setSr_slots : (a.setSr i v).slots = a.slots := rfl
@[simp] theorem Arch.setSr_rvPass : (a.setSr i v).rvPass = a.rvPass := rfl
@[simp] theorem Arch.setSr_st : (a.setSr i v).st = updAt a.st i (fun _ => v) := rfl
end

section
variable {α : Type} {n : Nat} (v : Vector α n) (f : α → α) (d : α)

/-- Reading an element that was changed. -/
theorem nth_updAt_self {i : Nat} (h : i < n) : nth (updAt v i f) i d = f (nth v i d) := by
  simp [nth, updAt, h]

/-- Reading an element other than the one that was changed. -/
theorem nth_updAt_ne {i j : Nat} (h : i ≠ j) : nth (updAt v i f) j d = nth v j d := by
  unfold nth updAt
  by_cases hj : j < n
  · by_cases hi : i < n
    · simp [hi, hj, h]
    · simp [hi]
  · simp [hj]

/-- A change past the end changes nothing. -/
theorem updAt_past {i : Nat} (h : n ≤ i) : updAt v i f = v := by
  simp [updAt, Nat.not_lt.mpr h]
end

section
variable (s : State) (c : Nat) (f : Core → Core)

/-- The core that an effect changes. -/
theorem core_apply_core_self (h : c < 256) : (Eff.apply (.core c f) s).core c = f (s.core c) :=
  nth_updAt_self s.cores f Core.reset h

/-- Every other core stays. -/
theorem core_apply_core_ne {k : Nat} (h : c ≠ k) : (Eff.apply (.core c f) s).core k = s.core k :=
  nth_updAt_ne s.cores f Core.reset h
end

end Sys2Proof.Machine
end

