-- ==== Sys2Proof/Laws/Exec.lean ====
section
/-! SUPPORT. What every step has in common: each instruction runs a meaning, and each effect keeps the machine's invariant. -/

namespace Sys2Proof.Machine
open Sys2Proof.Safety

/-- Every instruction runs some meaning. -/
theorem exec_runs (i : Instr) (s : State) : ∃ p, exec i s = ran p s := by
  cases i <;> exact ⟨_, rfl⟩

/-- Memories after a change of one of them. -/
theorem lmem_updAt_wf {s : State} (h : ∀ m ∈ s.lmem, Memory.wf m) (c a n v : Nat) :
    ∀ m ∈ updAt s.lmem c (fun m => memPut m a n v), Memory.wf m := by
  intro m hm
  unfold updAt at hm
  split at hm
  · obtain ⟨i, hi, rfl⟩ := Vector.mem_iff_getElem.1 hm
    rw [Vector.getElem_set]
    split
    · exact memPut_wf (h _ (Vector.getElem_mem _)) ..
    · exact h _ (Vector.getElem_mem _)
  · exact h m hm

/-- Counters after an addition fit. -/
theorem ctrPlus_fit {l : List (Nat × Nat)} (h : ∀ x ∈ l, x.2 < 2 ^ 64) (k n : Nat) :
    ∀ x ∈ ctrPlus l k n, x.2 < 2 ^ 64 := by
  intro x hx
  simp only [ctrPlus, assocSet, List.mem_cons, List.mem_filter] at hx
  rcases hx with rfl | hx
  · simp only; omega
  · exact h x hx.1

/-- Items put in one after another stand in order. -/
theorem foldl_insertItem_sorted (l : List Item) :
    ∀ acc : List Item, acc.Pairwise (fun x y => x.key ≤ y.key) →
      (l.foldl (fun acc x => insertItem x acc) acc).Pairwise (fun x y => x.key ≤ y.key) := by
  induction l with
  | nil => exact fun _ h => h
  | cons x r ih => exact fun acc h => ih _ (insertItem_sorted h)

/-- Which items stand in the list then. -/
theorem mem_foldl_insertItem (l : List Item) :
    ∀ (acc : List Item) (y : Item), y ∈ l.foldl (fun acc x => insertItem x acc) acc ↔ y ∈ l ∨ y ∈ acc := by
  induction l with
  | nil => simp
  | cons x r ih => intro acc y; simp [ih, or_assoc, or_left_comm]

/-- Every effect keeps the invariant. -/
theorem Eff.apply_keeps_inv (e : Eff) (s : State) (h : Inv s) : Inv (e.apply s) := by
  obtain ⟨h1, h2, h3, h4⟩ := h
  cases e with
  | lput c a n v => exact ⟨h1, h2, ⟨h3.1, lmem_updAt_wf h3.2 c a n v⟩, h4⟩
  | gput a n v => exact ⟨h1, h2, ⟨memPut_wf h3.1 a n v, h3.2⟩, h4⟩
  | ctrAdd k n => exact ⟨h1, h2, h3, ctrPlus_fit h4 k n⟩
  | ctrClear d => exact ⟨h1, h2, h3, fun x hx => h4 x (List.mem_filter.1 hx).1⟩
  | post t p w =>
    refine ⟨insertItem_sorted h1, fun x hx => ?_, h3, h4⟩
    rcases mem_insertItem.1 hx with rfl | hx
    · exact ⟨Nat.mod_lt _ (by omega), Nat.le_max_right ..⟩
    · exact h2 x hx
  | purge p => exact ⟨h1.filter _, fun x hx => h2 x (List.mem_filter.1 hx).1, h3, h4⟩
  | restart =>
    refine ⟨List.Pairwise.nil, fun x hx => absurd hx List.not_mem_nil, ⟨h3.1, ?_⟩, fun x hx => absurd hx List.not_mem_nil⟩
    intro m hm
    obtain rfl : m = [] := Vector.mem_replicate.1 hm |>.2
    exact ⟨List.Pairwise.nil, fun x hx => absurd hx List.not_mem_nil⟩
  | advance t =>
    refine ⟨foldl_insertItem_sorted _ _ List.Pairwise.nil, fun x hx => ?_, h3, h4⟩
    rcases (mem_foldl_insertItem _ _ _).1 hx with hx | hx
    · obtain ⟨y, hy, rfl⟩ := List.mem_map.1 hx
      have := h2 y hy
      exact ⟨this.1, by simp only [Eff.apply]; omega⟩
    · cases hx
  | core | pkg | die | stack | lane | engine | disp | fresh | waiters | send | out => exact ⟨h1, h2, h3, h4⟩

end Sys2Proof.Machine
end

