-- ==== Sys2Proof/Laws/Ops.lean ====
section
/-! SUPPORT. What each shared operation does, said once: flights, results, queued accesses, faults, traps, counters, writes. -/

namespace Sys2Proof.Machine
open Sys2Proof.Safety

/-- The trigger of the running operation in its unit. -/
abbrev unitTrig (s : State) (u : Nat) : Trig := { s.cur with unit := u }

/-- A flight put under way on the running trigger's core. -/
theorem addFlight_run (s : State) (f : Flight) : (addFlight s.cur.core f).run s = withFlight s f := by
  cases h : f.ready <;> simp [addFlight, withFlight, h, Eff.apply]

/-- A result on its way. -/
theorem land_run (s : State) (u b : Nat) (y : Vec) (p : List Post) :
    (land (unitTrig s u) b y p).run s = withFlight s { flying s u b with y0 := y, posts := p } :=
  addFlight_run s _

/-- Two results on their way. -/
theorem land2_run (s : State) (u b : Nat) (y0 y1 : Vec) (p : List Post) :
    (land2 (unitTrig s u) b y0 y1 p).run s = withFlight s { flying s u b with y0 := y0, y1 := some y1, posts := p } :=
  addFlight_run s _

/-- An operation that lands nothing, on its way. -/
theorem finish_run (s : State) (u b : Nat) (p : List Post) :
    (finish (unitTrig s u) b p).run s = withFlight s { flying s u b with lands := false, posts := p } :=
  addFlight_run s _

/-- An operation whose outcome is awaited. -/
theorem await_run (s : State) (u b : Nat) (l : Bool) (c : Nat) :
    (await_ (unitTrig s u) b l c).run s = withFlight s { flying s u b with lands := l, ready := false, cause := c } :=
  addFlight_run s _

/-- An access that joins its queue. -/
theorem queueAccess_run (s : State) (u path : Nat) (k : AccessKind) (l : List Piece) (w : Nat) :
    (queueAccess (unitTrig s u) path k l w).run s = withAccess s path u k l w := by
  simp [queueAccess, withAccess, bindings, Eff.apply]

/-- A precise fault of the running operation. -/
theorem raiseBefore_run (s : State) (u code : Nat) (i : Word) :
    (raiseBefore (unitTrig s u) code i).run s = faults s code i (tileFault (unitTrig s u) code) := by
  simp [raiseBefore, raise, faults, Eff.apply]

/-- Only 0x0C may name a tile. -/
theorem tileFault_ne {t : Trig} {code : Nat} (h : code ≠ 0x0C) : tileFault t code = false := by simp [tileFault, h]

/-- An operation whose check has been made, or passes, has its effect. -/
theorem runOp_go (o : Op) (s : State)
    (h : s.cur.checked = true ∨ o.chk (view s) (unitTrig s o.unit) = .go) :
    runOp o s = .next ((o.body (view s) (unitTrig s o.unit)).run s) := by
  simp only [runOp, ran, Op.prog, Prog.run_get]
  split
  · rfl
  · rename_i hc
    rcases h with h | h
    · exact absurd h hc
    · change Host.Outcome.next ((under (o.chk (view s) (unitTrig s o.unit)) _ _).run s) = _
      rw [h]; rfl

/-- An operation whose check faults gives the fault. -/
theorem runOp_bad (o : Op) (s : State) (code : Nat) (i : Word) (hc : s.cur.checked = false)
    (h : o.chk (view s) (unitTrig s o.unit) = .bad code i) (hm : code ≠ 0x20) :
    runOp o s = .next (faults s code i (tileFault (unitTrig s o.unit) code)) := by
  simp only [runOp, ran, Op.prog, Prog.run_get]
  rw [if_neg (by simp [hc])]
  change Host.Outcome.next ((under (o.chk (view s) (unitTrig s o.unit)) _ _).run s) = _
  rw [h]
  simp only [under, hm, decide_false, Prog.run_andThen, Prog.run_when_false]
  exact congrArg _ (raiseBefore_run s o.unit code i)

/-- An admitted instruction's operation has passed its checks. -/
theorem admitted_go {i : Instr} {s : State} {o : Op} (h : admitted i s) (ho : opOf i = some o) :
    s.cur.checked = true ∨ o.chk (view s) (unitTrig s o.unit) = .go := by
  rcases h with h | ⟨p, hp, hg⟩
  · exact .inl h
  · rw [ho] at hp; cases hp; exact .inr hg

/-- Scalars as port contents. -/
theorem wide_eq (n : Nat) : wide n = (BitVec.ofNat 64 n).setWidth 8192 := by
  apply BitVec.eq_of_toNat_eq
  simp only [wide, BitVec.toNat_setWidth, BitVec.toNat_ofNat]

/-- The scalar in a port. -/
theorem low_eq (v : Vec) : low v = (v.setWidth 64 : Word).toNat := (BitVec.toNat_setWidth 64 v).symm

/-- A 64-bit word as a signed number. -/
theorem sint_word (x : Word) : sint x.toNat 64 = x.toInt := by
  have := x.isLt
  simp only [sint, BitVec.toInt]
  split <;> split <;> omega

/-- Taking a precise fault where the handler is enabled and no trap is being handled (R35). -/
theorem takeTrap_run (s : State) (c : Nat) (r : TrapReq) (h1 : ((s.core c).arch.sr 1).getLsbD 63 = true)
    (h2 : (s.core c).arch.inTrap = false) (h3 : r.inTrap = false) :
    (takeTrap c r).run s = (nextFetch c 1).run ((Eff.core c fun k => { k with
      trapReq := none
      flow := .running
      pc := field ((s.core c).arch.sr 1).toNat 0 15
      arch := (((k.arch.setSr 2 (BitVec.ofNat 64 (r.code + r.slot * 2 ^ 8 + r.blevel.toNat * 2 ^ 11))).setSr 3
        (BitVec.ofNat 64 (r.pc.getD k.pc))).setSr 4 r.info).setInTrap true }).apply s) := by
  unfold takeTrap
  rw [Prog.run_get]
  have hc : ¬ ((!((s.core c).arch.sr 1).getLsbD 63 || (s.core c).arch.inTrap || r.inTrap) = true) := by
    rw [h1, h2, h3]; decide
  exact (congrArg (fun p => Prog.run p s) (if_neg hc)).trans (Prog.run_all_cons _ _ s)

/-- The next bundle boundary of a core. -/
theorem nextFetch_run (s : State) (c n : Nat) : (nextFetch c n).run s =
    { s with agenda := insertItem ⟨s.time + n, 4, .ev (.fetch (coreBV c))⟩ (s.agenda.filter fun x =>
      !(decide (x.what = .ev (.fetch (coreBV c))) || decide (x.what = .ev (.bundleIssue (coreBV c))))) } := by
  simp [nextFetch, Eff.apply]

/-- A counter add with nobody waiting on the counter. -/
theorem counterAdd_run (s : State) (h inc : Nat) (sat : Prog)
    (hw : ∀ w ∈ s.waiters, ctrHome w.handle ≠ ctrHome h) (hf : ctrValue s.ctrs (ctrHome h) + inc < 2 ^ 64) :
    (counterAdd h inc sat).run s = { s with ctrs := ctrPlus s.ctrs (ctrHome h) inc } := by
  have h1 : ∀ n, s.waiters.filter (fun w => decide (ctrHome w.handle = ctrHome h) && decide (w.thr ≤ n)) = [] := by
    intro n; simp only [List.filter_eq_nil_iff]; intro w hm; simp [hw w hm]
  have h2 : ∀ n, s.waiters.filter (fun w => !(decide (ctrHome w.handle = ctrHome h) && decide (w.thr ≤ n))) = s.waiters := by
    intro n; simp only [List.filter_eq_self]; intro w hm; simp [hw w hm]
  have h3 : decide (ctrValue s.ctrs (ctrHome h) + inc ≥ 2 ^ 64) = false := decide_eq_false (by omega)
  unfold counterAdd
  rw [Prog.run_get]
  simp only [h1, h3]
  simp only [Prog.run_all_cons, Prog.run_all_nil, Prog.run_each_nil, Prog.run_when_false, Prog.run_eff, Eff.apply, h2]

/-- A write to a core's arrays where no word is in error. -/
theorem writeLoc_arr_run (s : State) (c a n v id : Nat) (w : Option Who)
    (h1 : (s.core c).poison = []) (h2 : (s.core c).upsets = []) :
    ((writeLoc (.arr c a) n v id w).run s).lmem = updAt s.lmem c (fun m => memPut m a n v) ∧
    ((writeLoc (.arr c a) n v id w).run s).mem = s.mem := by
  simp [writeLoc, h1, h2]

/-- A write to a physical address where no line is in error. -/
theorem writeLoc_pa_run (s : State) (a n v id : Nat) (w : Option Who)
    (h1 : s.pkg.hbmPoison = []) (h2 : s.pkg.hbmUpsets = []) :
    (writeLoc (.pa a) n v id w).run s = { s with mem := memPut s.mem a n v } := by
  simp [writeLoc, h1, h2, Eff.apply]

end Sys2Proof.Machine
end

