-- ==== Sys2Proof/Laws/PerInstr.lean ====
section
/-! SUPPORT. Facts about each instruction as syntax. RoundTrip: the decoder reads an encoded well-formed instruction back. -/

namespace Sys2Proof.Laws.RoundTrip

/-- The decoder reads the instruction back from its word. -/
def Statement (i : Instr) : Prop := i.wellFormed = true → decodeWord? (encode i) = some i

/-- Reading an event's word back. -/
theorem of_event {i : Instr} (n a : Nat) (hn : n < 256) (he : encode i = eventWord n a) (hc : candEvent n a = some i) :
    Statement i := by
  intro hw
  have h1 : bitOf (eventWord n a) 23 = true := by simp only [bitOf, eventWord, beq_iff_eq]; omega
  have h2 : field (eventWord n a) 24 8 = n := by simp only [field, eventWord]; omega
  have h3 : eventWord n a / 2 ^ 32 = a := by simp only [eventWord]; omega
  generalize eventWord n a = w at *
  simp only [decodeWord?, decode, he, h1, h2, h3, hc, hw, if_true, Bool.true_and, beq_self_eq_true]

/-- Reading a trigger's word back. -/
theorem of_trigger {i : Instr} (u op m sel : Nat) (hu : u < 32) (ho : op < 256) (hm : m < 64) (hs : sel < 4)
    (he : encode i = trigWord u op m + sel * 2 ^ 21) (hc : candTrigger u op m sel = .ok (some i)) : Statement i := by
  intro hw
  have h1 : bitOf (trigWord u op m + sel * 2 ^ 21) 23 = false := by
    simp only [bitOf, trigWord, beq_eq_false_iff_ne]; omega
  have h2 : field (trigWord u op m + sel * 2 ^ 21) 14 2 = 3 := by simp only [field, trigWord]; omega
  have h3 : field (trigWord u op m + sel * 2 ^ 21) 16 5 = u := by simp only [field, trigWord]; omega
  have h4 : field (trigWord u op m + sel * 2 ^ 21) 6 8 = op := by simp only [field, trigWord]; omega
  have h5 : field (trigWord u op m + sel * 2 ^ 21) 0 6 = m := by simp only [field, trigWord]; omega
  have h6 : field (trigWord u op m + sel * 2 ^ 21) 21 2 = sel := by simp only [field, trigWord]; omega
  generalize trigWord u op m + sel * 2 ^ 21 = w at *
  simp [decodeWord?, decode, he, h1, h2, h3, h4, h5, h6, hc, hw]

/-- A bit-vector argument read from its place. -/
theorem arg {w : Nat} (x : BitVec w) (n : Nat) (h : n = x.toNat) : BitVec.ofNat w n = x := by
  subst h; simp

/-- A Boolean argument read from its place. -/
theorem argb (b : Bool) (a i : Nat) (h : a / 2 ^ i % 2 = b.toNat) : bitOf a i = b := by
  cases b <;> simp_all [bitOf]

theorem packageReset : Statement (.packageReset) := of_event 0 0 (by decide) rfl rfl
theorem dieReset (die : BitVec 1) : Statement (.dieReset die) := by
  refine of_event 1 (die.toNat) (by decide) rfl ?_
  have := die.isLt
  exact congrArg some (by
    show Instr.dieReset _ = _
    rw [arg die _ (by simp only [field]; omega)])
theorem rollbackFloorRaise (floor : BitVec 32) : Statement (.rollbackFloorRaise floor) := by
  refine of_event 2 (floor.toNat) (by decide) rfl ?_
  have := floor.isLt
  exact congrArg some (by
    show Instr.rollbackFloorRaise _ = _
    rw [arg floor _ (by simp only [field]; omega)])
theorem powerLimitSet (die : BitVec 1) (watts : BitVec 16) : Statement (.powerLimitSet die watts) := by
  refine of_event 3 (die.toNat + watts.toNat * 2 ^ 1) (by decide) rfl ?_
  have := die.isLt
  have := watts.isLt
  exact congrArg some (by
    show Instr.powerLimitSet _ _ = _
    rw [arg die _ (by simp only [field]; omega)]
    rw [arg watts _ (by simp only [field]; omega)])
theorem attestRequest (nonce : BitVec 256) : Statement (.attestRequest nonce) := by
  refine of_event 4 (nonce.toNat) (by decide) rfl ?_
  have := nonce.isLt
  exact congrArg some (by
    show Instr.attestRequest _ = _
    rw [arg nonce _ (by simp only [field]; omega)])
theorem powerWindowEnd (die : BitVec 1) : Statement (.powerWindowEnd die) := by
  refine of_event 5 (die.toNat) (by decide) rfl ?_
  have := die.isLt
  exact congrArg some (by
    show Instr.powerWindowEnd _ = _
    rw [arg die _ (by simp only [field]; omega)])
theorem registerWrite (off : BitVec 20) (val : BitVec 64) : Statement (.registerWrite off val) := by
  refine of_event 6 (off.toNat + val.toNat * 2 ^ 20) (by decide) rfl ?_
  have := off.isLt
  have := val.isLt
  exact congrArg some (by
    show Instr.registerWrite _ _ = _
    rw [arg off _ (by simp only [field]; omega)]
    rw [arg val _ (by simp only [field]; omega)])
theorem trootWrite (val : BitVec 64) : Statement (.trootWrite val) := by
  refine of_event 7 (val.toNat) (by decide) rfl ?_
  have := val.isLt
  exact congrArg some (by
    show Instr.trootWrite _ = _
    rw [arg val _ (by simp only [field]; omega)])
theorem tlbinvAll (val : BitVec 64) : Statement (.tlbinvAll val) := by
  refine of_event 8 (val.toNat) (by decide) rfl ?_
  have := val.isLt
  exact congrArg some (by
    show Instr.tlbinvAll _ = _
    rw [arg val _ (by simp only [field]; omega)])
theorem tlbinvPage (val : BitVec 64) : Statement (.tlbinvPage val) := by
  refine of_event 9 (val.toNat) (by decide) rfl ?_
  have := val.isLt
  exact congrArg some (by
    show Instr.tlbinvPage _ = _
    rw [arg val _ (by simp only [field]; omega)])
theorem tlbinvLargePage (val : BitVec 64) : Statement (.tlbinvLargePage val) := by
  refine of_event 10 (val.toNat) (by decide) rfl ?_
  have := val.isLt
  exact congrArg some (by
    show Instr.tlbinvLargePage _ = _
    rw [arg val _ (by simp only [field]; omega)])
theorem tlbinvComplete : Statement (.tlbinvComplete) := of_event 11 0 (by decide) rfl rfl
theorem fcrateWrite (cls : BitVec 3) (val : BitVec 64) : Statement (.fcrateWrite cls val) := by
  refine of_event 12 (cls.toNat + val.toNat * 2 ^ 3) (by decide) rfl ?_
  have := cls.isLt
  have := val.isLt
  exact congrArg some (by
    show Instr.fcrateWrite _ _ = _
    rw [arg cls _ (by simp only [field]; omega)]
    rw [arg val _ (by simp only [field]; omega)])
theorem errrpWrite (die : BitVec 1) (val : BitVec 32) : Statement (.errrpWrite die val) := by
  refine of_event 13 (die.toNat + val.toNat * 2 ^ 1) (by decide) rfl ?_
  have := die.isLt
  have := val.isLt
  exact congrArg some (by
    show Instr.errrpWrite _ _ = _
    rw [arg die _ (by simp only [field]; omega)]
    rw [arg val _ (by simp only [field]; omega)])
theorem rrrpWrite (die : BitVec 1) (val : BitVec 64) : Statement (.rrrpWrite die val) := by
  refine of_event 14 (die.toNat + val.toNat * 2 ^ 1) (by decide) rfl ?_
  have := die.isLt
  have := val.isLt
  exact congrArg some (by
    show Instr.rrrpWrite _ _ = _
    rw [arg die _ (by simp only [field]; omega)]
    rw [arg val _ (by simp only [field]; omega)])
theorem queueConfigWrite (q : BitVec 12) (val : BitVec 64) : Statement (.queueConfigWrite q val) := by
  refine of_event 15 (q.toNat + val.toNat * 2 ^ 12) (by decide) rfl ?_
  have := q.isLt
  have := val.isLt
  exact congrArg some (by
    show Instr.queueConfigWrite _ _ = _
    rw [arg q _ (by simp only [field]; omega)]
    rw [arg val _ (by simp only [field]; omega)])
theorem queueTailWrite (q : BitVec 12) (val : BitVec 32) : Statement (.queueTailWrite q val) := by
  refine of_event 16 (q.toNat + val.toNat * 2 ^ 12) (by decide) rfl ?_
  have := q.isLt
  have := val.isLt
  exact congrArg some (by
    show Instr.queueTailWrite _ _ = _
    rw [arg q _ (by simp only [field]; omega)]
    rw [arg val _ (by simp only [field]; omega)])
theorem hostMemAccess (wr : Bool) (size : BitVec 2) (pa : BitVec 45) (val : BitVec 64) : Statement (.hostMemAccess wr size pa val) := by
  refine of_event 17 (wr.toNat + size.toNat * 2 ^ 1 + pa.toNat * 2 ^ 3 + val.toNat * 2 ^ 48) (by decide) rfl ?_
  have := Bool.toNat_lt wr
  have := size.isLt
  have := pa.isLt
  have := val.isLt
  exact congrArg some (by
    show Instr.hostMemAccess _ _ _ _ = _
    rw [argb wr _ _ (by omega)]
    rw [arg size _ (by simp only [field]; omega)]
    rw [arg pa _ (by simp only [field]; omega)]
    rw [arg val _ (by simp only [field]; omega)])
theorem d2dFlitRetry (delivered : Bool) : Statement (.d2dFlitRetry delivered) := by
  refine of_event 18 (delivered.toNat) (by decide) rfl ?_
  have := Bool.toNat_lt delivered
  exact congrArg some (by
    show Instr.d2dFlitRetry _ = _
    rw [argb delivered _ _ (by omega)])
theorem slotBind (die : BitVec 1) (slot : BitVec 6) (rec : BitVec 512) : Statement (.slotBind die slot rec) := by
  refine of_event 19 (die.toNat + slot.toNat * 2 ^ 1 + rec.toNat * 2 ^ 7) (by decide) rfl ?_
  have := die.isLt
  have := slot.isLt
  have := rec.isLt
  exact congrArg some (by
    show Instr.slotBind _ _ _ = _
    rw [arg die _ (by simp only [field]; omega)]
    rw [arg slot _ (by simp only [field]; omega)]
    rw [arg rec _ (by simp only [field]; omega)])
theorem slotIdle (die : BitVec 1) (slot : BitVec 6) (rec : BitVec 512) : Statement (.slotIdle die slot rec) := by
  refine of_event 20 (die.toNat + slot.toNat * 2 ^ 1 + rec.toNat * 2 ^ 7) (by decide) rfl ?_
  have := die.isLt
  have := slot.isLt
  have := rec.isLt
  exact congrArg some (by
    show Instr.slotIdle _ _ _ = _
    rw [arg die _ (by simp only [field]; omega)]
    rw [arg slot _ (by simp only [field]; omega)]
    rw [arg rec _ (by simp only [field]; omega)])
theorem slotEmpty (die : BitVec 1) (slot : BitVec 6) (rec : BitVec 512) : Statement (.slotEmpty die slot rec) := by
  refine of_event 21 (die.toNat + slot.toNat * 2 ^ 1 + rec.toNat * 2 ^ 7) (by decide) rfl ?_
  have := die.isLt
  have := slot.isLt
  have := rec.isLt
  exact congrArg some (by
    show Instr.slotEmpty _ _ _ = _
    rw [arg die _ (by simp only [field]; omega)]
    rw [arg slot _ (by simp only [field]; omega)]
    rw [arg rec _ (by simp only [field]; omega)])
theorem preemptRequest (core : BitVec 8) (forced : Bool) : Statement (.preemptRequest core forced) := by
  refine of_event 22 (core.toNat + forced.toNat * 2 ^ 8) (by decide) rfl ?_
  have := core.isLt
  have := Bool.toNat_lt forced
  exact congrArg some (by
    show Instr.preemptRequest _ _ = _
    rw [arg core _ (by simp only [field]; omega)]
    rw [argb forced _ _ (by omega)])
theorem leaseExpiry (die : BitVec 1) (slot : BitVec 6) : Statement (.leaseExpiry die slot) := by
  refine of_event 23 (die.toNat + slot.toNat * 2 ^ 1) (by decide) rfl ?_
  have := die.isLt
  have := slot.isLt
  exact congrArg some (by
    show Instr.leaseExpiry _ _ = _
    rw [arg die _ (by simp only [field]; omega)]
    rw [arg slot _ (by simp only [field]; omega)])
theorem slotTakeWaiting (die : BitVec 1) (slot : BitVec 6) : Statement (.slotTakeWaiting die slot) := by
  refine of_event 24 (die.toNat + slot.toNat * 2 ^ 1) (by decide) rfl ?_
  have := die.isLt
  have := slot.isLt
  exact congrArg some (by
    show Instr.slotTakeWaiting _ _ = _
    rw [arg die _ (by simp only [field]; omega)]
    rw [arg slot _ (by simp only [field]; omega)])
theorem forcedPreemptTimeout (core : BitVec 8) : Statement (.forcedPreemptTimeout core) := by
  refine of_event 25 (core.toNat) (by decide) rfl ?_
  have := core.isLt
  exact congrArg some (by
    show Instr.forcedPreemptTimeout _ = _
    rw [arg core _ (by simp only [field]; omega)])
theorem launchValidate (q : BitVec 12) : Statement (.launchValidate q) := by
  refine of_event 26 (q.toNat) (by decide) rfl ?_
  have := q.isLt
  exact congrArg some (by
    show Instr.launchValidate _ = _
    rw [arg q _ (by simp only [field]; omega)])
theorem taskStage (core : BitVec 8) : Statement (.taskStage core) := by
  refine of_event 27 (core.toNat) (by decide) rfl ?_
  have := core.isLt
  exact congrArg some (by
    show Instr.taskStage _ = _
    rw [arg core _ (by simp only [field]; omega)])
theorem taskStart (core : BitVec 8) : Statement (.taskStart core) := by
  refine of_event 28 (core.toNat) (by decide) rfl ?_
  have := core.isLt
  exact congrArg some (by
    show Instr.taskStart _ = _
    rw [arg core _ (by simp only [field]; omega)])
theorem timeSliceYield (core : BitVec 8) : Statement (.timeSliceYield core) := by
  refine of_event 29 (core.toNat) (by decide) rfl ?_
  have := core.isLt
  exact congrArg some (by
    show Instr.timeSliceYield _ = _
    rw [arg core _ (by simp only [field]; omega)])
theorem contextSave (core : BitVec 8) : Statement (.contextSave core) := by
  refine of_event 30 (core.toNat) (by decide) rfl ?_
  have := core.isLt
  exact congrArg some (by
    show Instr.contextSave _ = _
    rw [arg core _ (by simp only [field]; omega)])
theorem contextRestore (core : BitVec 8) : Statement (.contextRestore core) := by
  refine of_event 31 (core.toNat) (by decide) rfl ?_
  have := core.isLt
  exact congrArg some (by
    show Instr.contextRestore _ = _
    rw [arg core _ (by simp only [field]; omega)])
theorem regionComplete (launch : BitVec 32) (region : BitVec 8) : Statement (.regionComplete launch region) := by
  refine of_event 32 (launch.toNat + region.toNat * 2 ^ 32) (by decide) rfl ?_
  have := launch.isLt
  have := region.isLt
  exact congrArg some (by
    show Instr.regionComplete _ _ = _
    rw [arg launch _ (by simp only [field]; omega)]
    rw [arg region _ (by simp only [field]; omega)])
theorem fetch (core : BitVec 8) : Statement (.fetch core) := by
  refine of_event 33 (core.toNat) (by decide) rfl ?_
  have := core.isLt
  exact congrArg some (by
    show Instr.fetch _ = _
    rw [arg core _ (by simp only [field]; omega)])
theorem bundleIssue (core : BitVec 8) : Statement (.bundleIssue core) := by
  refine of_event 34 (core.toNat) (by decide) rfl ?_
  have := core.isLt
  exact congrArg some (by
    show Instr.bundleIssue _ = _
    rw [arg core _ (by simp only [field]; omega)])
theorem engineOpStart (core : BitVec 8) (e : Engine) : Statement (.engineOpStart core e) := by
  refine of_event 35 (core.toNat + e.code * 2 ^ 8) (by decide) rfl ?_
  have := core.isLt
  have h : field (core.toNat + e.code * 2 ^ 8) 8 2 = e.code := by cases e <;> simp only [field, Engine.code] <;> omega
  have h2 : Engine.ofCode e.code = e := by cases e <;> rfl
  have h3 : field (core.toNat + e.code * 2 ^ 8) 0 8 = core.toNat := by cases e <;> simp only [field, Engine.code] <;> omega
  exact congrArg some (by
    show Instr.engineOpStart _ _ = _
    rw [h, h2, arg core _ h3])
theorem resultLanding (core : BitVec 8) (unit : BitVec 5) : Statement (.resultLanding core unit) := by
  refine of_event 36 (core.toNat + unit.toNat * 2 ^ 8) (by decide) rfl ?_
  have := core.isLt
  have := unit.isLt
  exact congrArg some (by
    show Instr.resultLanding _ _ = _
    rw [arg core _ (by simp only [field]; omega)]
    rw [arg unit _ (by simp only [field]; omega)])
theorem trapEntry (core : BitVec 8) : Statement (.trapEntry core) := by
  refine of_event 37 (core.toNat) (by decide) rfl ?_
  have := core.isLt
  exact congrArg some (by
    show Instr.trapEntry _ = _
    rw [arg core _ (by simp only [field]; omega)])
theorem freezeTimeout (core : BitVec 8) : Statement (.freezeTimeout core) := by
  refine of_event 38 (core.toNat) (by decide) rfl ?_
  have := core.isLt
  exact congrArg some (by
    show Instr.freezeTimeout _ = _
    rw [arg core _ (by simp only [field]; omega)])
theorem pageWalk (core : BitVec 8) (va : BitVec 48) : Statement (.pageWalk core va) := by
  refine of_event 39 (core.toNat + va.toNat * 2 ^ 8) (by decide) rfl ?_
  have := core.isLt
  have := va.isLt
  exact congrArg some (by
    show Instr.pageWalk _ _ = _
    rw [arg core _ (by simp only [field]; omega)]
    rw [arg va _ (by simp only [field]; omega)])
theorem eccReread (core : BitVec 8) (hbm : Bool) (addr : BitVec 45) : Statement (.eccReread core hbm addr) := by
  refine of_event 40 (core.toNat + hbm.toNat * 2 ^ 8 + addr.toNat * 2 ^ 9) (by decide) rfl ?_
  have := core.isLt
  have := Bool.toNat_lt hbm
  have := addr.isLt
  exact congrArg some (by
    show Instr.eccReread _ _ _ = _
    rw [arg core _ (by simp only [field]; omega)]
    rw [argb hbm _ _ (by omega)]
    rw [arg addr _ (by simp only [field]; omega)])
theorem rewind (core : BitVec 8) : Statement (.rewind core) := by
  refine of_event 41 (core.toNat) (by decide) rfl ?_
  have := core.isLt
  exact congrArg some (by
    show Instr.rewind _ = _
    rw [arg core _ (by simp only [field]; omega)])
theorem scrubWord (core : BitVec 8) (addr : BitVec 32) : Statement (.scrubWord core addr) := by
  refine of_event 42 (core.toNat + addr.toNat * 2 ^ 8) (by decide) rfl ?_
  have := core.isLt
  have := addr.isLt
  exact congrArg some (by
    show Instr.scrubWord _ _ = _
    rw [arg core _ (by simp only [field]; omega)]
    rw [arg addr _ (by simp only [field]; omega)])
theorem drainWindowOpen : Statement (.drainWindowOpen) := of_event 43 0 (by decide) rfl rfl
theorem currySlotStart : Statement (.currySlotStart) := of_event 44 0 (by decide) rfl rfl
theorem currySlotEnd : Statement (.currySlotEnd) := of_event 45 0 (by decide) rfl rfl
theorem planeEraseStart : Statement (.planeEraseStart) := of_event 46 0 (by decide) rfl rfl
theorem planeEraseEnd : Statement (.planeEraseEnd) := of_event 47 0 (by decide) rfl rfl
theorem timeSyncSend : Statement (.timeSyncSend) := of_event 48 0 (by decide) rfl rfl
theorem fragTimeSync (plane : BitVec 4) (frag : BitVec 4608) : Statement (.fragTimeSync plane frag) := by
  refine of_event 49 (plane.toNat + frag.toNat * 2 ^ 4) (by decide) rfl ?_
  have := plane.isLt
  have := frag.isLt
  exact congrArg some (by
    show Instr.fragTimeSync _ _ = _
    rw [arg plane _ (by simp only [field]; omega)]
    rw [arg frag _ (by simp only [field]; omega)])
theorem timeSkewAlarm : Statement (.timeSkewAlarm) := of_event 50 0 (by decide) rfl rfl
theorem cwaitWake (core : BitVec 8) : Statement (.cwaitWake core) := by
  refine of_event 51 (core.toNat) (by decide) rfl ?_
  have := core.isLt
  exact congrArg some (by
    show Instr.cwaitWake _ = _
    rw [arg core _ (by simp only [field]; omega)])
theorem cwaitTimeout (core : BitVec 8) : Statement (.cwaitTimeout core) := by
  refine of_event 52 (core.toNat) (by decide) rfl ?_
  have := core.isLt
  exact congrArg some (by
    show Instr.cwaitTimeout _ = _
    rw [arg core _ (by simp only [field]; omega)])
theorem mmaArrayStart (core : BitVec 8) : Statement (.mmaArrayStart core) := by
  refine of_event 53 (core.toNat) (by decide) rfl ?_
  have := core.isLt
  exact congrArg some (by
    show Instr.mmaArrayStart _ = _
    rw [arg core _ (by simp only [field]; omega)])
theorem mmaComplete (core : BitVec 8) : Statement (.mmaComplete core) := by
  refine of_event 54 (core.toNat) (by decide) rfl ?_
  have := core.isLt
  exact congrArg some (by
    show Instr.mmaComplete _ = _
    rw [arg core _ (by simp only [field]; omega)])
theorem mmaReplay (core : BitVec 8) : Statement (.mmaReplay core) := by
  refine of_event 55 (core.toNat) (by decide) rfl ?_
  have := core.isLt
  exact congrArg some (by
    show Instr.mmaReplay _ = _
    rw [arg core _ (by simp only [field]; omega)])
theorem tileDrainDone (core : BitVec 8) (tile : BitVec 6) : Statement (.tileDrainDone core tile) := by
  refine of_event 56 (core.toNat + tile.toNat * 2 ^ 8) (by decide) rfl ?_
  have := core.isLt
  have := tile.isLt
  exact congrArg some (by
    show Instr.tileDrainDone _ _ = _
    rw [arg core _ (by simp only [field]; omega)]
    rw [arg tile _ (by simp only [field]; omega)])
theorem ceRecordRead (core : BitVec 8) (ch : BitVec 2) : Statement (.ceRecordRead core ch) := by
  refine of_event 57 (core.toNat + ch.toNat * 2 ^ 8) (by decide) rfl ?_
  have := core.isLt
  have := ch.isLt
  exact congrArg some (by
    show Instr.ceRecordRead _ _ = _
    rw [arg core _ (by simp only [field]; omega)]
    rw [arg ch _ (by simp only [field]; omega)])
theorem cePrewaitMet (core : BitVec 8) (ch : BitVec 2) : Statement (.cePrewaitMet core ch) := by
  refine of_event 58 (core.toNat + ch.toNat * 2 ^ 8) (by decide) rfl ?_
  have := core.isLt
  have := ch.isLt
  exact congrArg some (by
    show Instr.cePrewaitMet _ _ = _
    rw [arg core _ (by simp only [field]; omega)]
    rw [arg ch _ (by simp only [field]; omega)])
theorem ceRingClaim (core : BitVec 8) (ch : BitVec 2) : Statement (.ceRingClaim core ch) := by
  refine of_event 59 (core.toNat + ch.toNat * 2 ^ 8) (by decide) rfl ?_
  have := core.isLt
  have := ch.isLt
  exact congrArg some (by
    show Instr.ceRingClaim _ _ = _
    rw [arg core _ (by simp only [field]; omega)]
    rw [arg ch _ (by simp only [field]; omega)])
theorem ceWaitTimeout (core : BitVec 8) (ch : BitVec 2) : Statement (.ceWaitTimeout core ch) := by
  refine of_event 60 (core.toNat + ch.toNat * 2 ^ 8) (by decide) rfl ?_
  have := core.isLt
  have := ch.isLt
  exact congrArg some (by
    show Instr.ceWaitTimeout _ _ = _
    rw [arg core _ (by simp only [field]; omega)]
    rw [arg ch _ (by simp only [field]; omega)])
theorem ceRecordComplete (core : BitVec 8) (ch : BitVec 2) : Statement (.ceRecordComplete core ch) := by
  refine of_event 61 (core.toNat + ch.toNat * 2 ^ 8) (by decide) rfl ?_
  have := core.isLt
  have := ch.isLt
  exact congrArg some (by
    show Instr.ceRecordComplete _ _ = _
    rw [arg core _ (by simp only [field]; omega)]
    rw [arg ch _ (by simp only [field]; omega)])
theorem tableLoadApply (stack : BitVec 4) : Statement (.tableLoadApply stack) := by
  refine of_event 62 (stack.toNat) (by decide) rfl ?_
  have := stack.isLt
  exact congrArg some (by
    show Instr.tableLoadApply _ = _
    rw [arg stack _ (by simp only [field]; omega)])
theorem xlaneJobStart (lane : BitVec 9) : Statement (.xlaneJobStart lane) := by
  refine of_event 63 (lane.toNat) (by decide) rfl ?_
  have := lane.isLt
  exact congrArg some (by
    show Instr.xlaneJobStart _ = _
    rw [arg lane _ (by simp only [field]; omega)])
theorem xlanePrewaitMet (lane : BitVec 9) : Statement (.xlanePrewaitMet lane) := by
  refine of_event 64 (lane.toNat) (by decide) rfl ?_
  have := lane.isLt
  exact congrArg some (by
    show Instr.xlanePrewaitMet _ = _
    rw [arg lane _ (by simp only [field]; omega)])
theorem xlaneTransition (lane : BitVec 9) : Statement (.xlaneTransition lane) := by
  refine of_event 65 (lane.toNat) (by decide) rfl ?_
  have := lane.isLt
  exact congrArg some (by
    show Instr.xlaneTransition _ = _
    rw [arg lane _ (by simp only [field]; omega)])
theorem xlaneWaitTimeout (lane : BitVec 9) : Statement (.xlaneWaitTimeout lane) := by
  refine of_event 66 (lane.toNat) (by decide) rfl ?_
  have := lane.isLt
  exact congrArg some (by
    show Instr.xlaneWaitTimeout _ = _
    rw [arg lane _ (by simp only [field]; omega)])
theorem xlaneJobEnd (lane : BitVec 9) : Statement (.xlaneJobEnd lane) := by
  refine of_event 67 (lane.toNat) (by decide) rfl ?_
  have := lane.isLt
  exact congrArg some (by
    show Instr.xlaneJobEnd _ = _
    rw [arg lane _ (by simp only [field]; omega)])
theorem seJobStart (eng : BitVec 5) : Statement (.seJobStart eng) := by
  refine of_event 68 (eng.toNat) (by decide) rfl ?_
  have := eng.isLt
  exact congrArg some (by
    show Instr.seJobStart _ = _
    rw [arg eng _ (by simp only [field]; omega)])
theorem sePrewaitMet (eng : BitVec 5) : Statement (.sePrewaitMet eng) := by
  refine of_event 69 (eng.toNat) (by decide) rfl ?_
  have := eng.isLt
  exact congrArg some (by
    show Instr.sePrewaitMet _ = _
    rw [arg eng _ (by simp only [field]; omega)])
theorem seColumnBlock (eng : BitVec 5) : Statement (.seColumnBlock eng) := by
  refine of_event 70 (eng.toNat) (by decide) rfl ?_
  have := eng.isLt
  exact congrArg some (by
    show Instr.seColumnBlock _ = _
    rw [arg eng _ (by simp only [field]; omega)])
theorem seWaitTimeout (eng : BitVec 5) : Statement (.seWaitTimeout eng) := by
  refine of_event 71 (eng.toNat) (by decide) rfl ?_
  have := eng.isLt
  exact congrArg some (by
    show Instr.seWaitTimeout _ = _
    rw [arg eng _ (by simp only [field]; omega)])
theorem seJobEnd (eng : BitVec 5) : Statement (.seJobEnd eng) := by
  refine of_event 72 (eng.toNat) (by decide) rfl ?_
  have := eng.isLt
  exact congrArg some (by
    show Instr.seJobEnd _ = _
    rw [arg eng _ (by simp only [field]; omega)])
theorem fxQueueDepart (core : BitVec 8) : Statement (.fxQueueDepart core) := by
  refine of_event 73 (core.toNat) (by decide) rfl ?_
  have := core.isLt
  exact congrArg some (by
    show Instr.fxQueueDepart _ = _
    rw [arg core _ (by simp only [field]; omega)])
theorem stripeSend (die : BitVec 1) : Statement (.stripeSend die) := by
  refine of_event 74 (die.toNat) (by decide) rfl ?_
  have := die.isLt
  exact congrArg some (by
    show Instr.stripeSend _ = _
    rw [arg die _ (by simp only [field]; omega)])
theorem fragData (plane : BitVec 4) (frag : BitVec 4608) : Statement (.fragData plane frag) := by
  refine of_event 75 (plane.toNat + frag.toNat * 2 ^ 4) (by decide) rfl ?_
  have := plane.isLt
  have := frag.isLt
  exact congrArg some (by
    show Instr.fragData _ _ = _
    rw [arg plane _ (by simp only [field]; omega)]
    rw [arg frag _ (by simp only [field]; omega)])
theorem fragReservedType (plane : BitVec 4) (frag : BitVec 4608) : Statement (.fragReservedType plane frag) := by
  refine of_event 76 (plane.toNat + frag.toNat * 2 ^ 4) (by decide) rfl ?_
  have := plane.isLt
  have := frag.isLt
  exact congrArg some (by
    show Instr.fragReservedType _ _ = _
    rw [arg plane _ (by simp only [field]; omega)]
    rw [arg frag _ (by simp only [field]; omega)])
theorem stripeDeliver (die : BitVec 1) : Statement (.stripeDeliver die) := by
  refine of_event 77 (die.toNat) (by decide) rfl ?_
  have := die.isLt
  exact congrArg some (by
    show Instr.stripeDeliver _ = _
    rw [arg die _ (by simp only [field]; omega)])
theorem fragAck (plane : BitVec 4) (frag : BitVec 4608) : Statement (.fragAck plane frag) := by
  refine of_event 78 (plane.toNat + frag.toNat * 2 ^ 4) (by decide) rfl ?_
  have := plane.isLt
  have := frag.isLt
  exact congrArg some (by
    show Instr.fragAck _ _ = _
    rw [arg plane _ (by simp only [field]; omega)]
    rw [arg frag _ (by simp only [field]; omega)])
theorem fragNak (plane : BitVec 4) (frag : BitVec 4608) : Statement (.fragNak plane frag) := by
  refine of_event 79 (plane.toNat + frag.toNat * 2 ^ 4) (by decide) rfl ?_
  have := plane.isLt
  have := frag.isLt
  exact congrArg some (by
    show Instr.fragNak _ _ = _
    rw [arg plane _ (by simp only [field]; omega)]
    rw [arg frag _ (by simp only [field]; omega)])
theorem stripeBusyResend (die : BitVec 1) (id : BitVec 32) : Statement (.stripeBusyResend die id) := by
  refine of_event 80 (die.toNat + id.toNat * 2 ^ 1) (by decide) rfl ?_
  have := die.isLt
  have := id.isLt
  exact congrArg some (by
    show Instr.stripeBusyResend _ _ = _
    rw [arg die _ (by simp only [field]; omega)]
    rw [arg id _ (by simp only [field]; omega)])
theorem stripeDeadline (die : BitVec 1) (id : BitVec 32) : Statement (.stripeDeadline die id) := by
  refine of_event 81 (die.toNat + id.toNat * 2 ^ 1) (by decide) rfl ?_
  have := die.isLt
  have := id.isLt
  exact congrArg some (by
    show Instr.stripeDeadline _ _ = _
    rw [arg die _ (by simp only [field]; omega)]
    rw [arg id _ (by simp only [field]; omega)])
theorem ackTimeout (die : BitVec 1) (id : BitVec 32) : Statement (.ackTimeout die id) := by
  refine of_event 82 (die.toNat + id.toNat * 2 ^ 1) (by decide) rfl ?_
  have := die.isLt
  have := id.isLt
  exact congrArg some (by
    show Instr.ackTimeout _ _ = _
    rw [arg die _ (by simp only [field]; omega)]
    rw [arg id _ (by simp only [field]; omega)])
theorem fragReadRequest (plane : BitVec 4) (frag : BitVec 4608) : Statement (.fragReadRequest plane frag) := by
  refine of_event 83 (plane.toNat + frag.toNat * 2 ^ 4) (by decide) rfl ?_
  have := plane.isLt
  have := frag.isLt
  exact congrArg some (by
    show Instr.fragReadRequest _ _ = _
    rw [arg plane _ (by simp only [field]; omega)]
    rw [arg frag _ (by simp only [field]; omega)])
theorem fragReadResponse (plane : BitVec 4) (frag : BitVec 4608) : Statement (.fragReadResponse plane frag) := by
  refine of_event 84 (plane.toNat + frag.toNat * 2 ^ 4) (by decide) rfl ?_
  have := plane.isLt
  have := frag.isLt
  exact congrArg some (by
    show Instr.fragReadResponse _ _ = _
    rw [arg plane _ (by simp only [field]; omega)]
    rw [arg frag _ (by simp only [field]; omega)])
theorem fragContribution (plane : BitVec 4) (frag : BitVec 4608) : Statement (.fragContribution plane frag) := by
  refine of_event 85 (plane.toNat + frag.toNat * 2 ^ 4) (by decide) rfl ?_
  have := plane.isLt
  have := frag.isLt
  exact congrArg some (by
    show Instr.fragContribution _ _ = _
    rw [arg plane _ (by simp only [field]; omega)]
    rw [arg frag _ (by simp only [field]; omega)])
theorem fragContribAck (plane : BitVec 4) (frag : BitVec 4608) : Statement (.fragContribAck plane frag) := by
  refine of_event 86 (plane.toNat + frag.toNat * 2 ^ 4) (by decide) rfl ?_
  have := plane.isLt
  have := frag.isLt
  exact congrArg some (by
    show Instr.fragContribAck _ _ = _
    rw [arg plane _ (by simp only [field]; omega)]
    rw [arg frag _ (by simp only [field]; omega)])
theorem contribResendTimeout (die : BitVec 1) (id : BitVec 32) : Statement (.contribResendTimeout die id) := by
  refine of_event 87 (die.toNat + id.toNat * 2 ^ 1) (by decide) rfl ?_
  have := die.isLt
  have := id.isLt
  exact congrArg some (by
    show Instr.contribResendTimeout _ _ = _
    rw [arg die _ (by simp only [field]; omega)]
    rw [arg id _ (by simp only [field]; omega)])
theorem mergedPartialApply (id : BitVec 32) : Statement (.mergedPartialApply id) := by
  refine of_event 88 (id.toNat) (by decide) rfl ?_
  have := id.isLt
  exact congrArg some (by
    show Instr.mergedPartialApply _ = _
    rw [arg id _ (by simp only [field]; omega)])
theorem keyIncompleteTimeout (id : BitVec 32) : Statement (.keyIncompleteTimeout id) := by
  refine of_event 89 (id.toNat) (by decide) rfl ?_
  have := id.isLt
  exact congrArg some (by
    show Instr.keyIncompleteTimeout _ = _
    rw [arg id _ (by simp only [field]; omega)])
theorem replayWaitTimeout (core : BitVec 8) : Statement (.replayWaitTimeout core) := by
  refine of_event 90 (core.toNat) (by decide) rfl ?_
  have := core.isLt
  exact congrArg some (by
    show Instr.replayWaitTimeout _ = _
    rw [arg core _ (by simp only [field]; omega)])
theorem add (u : Bool) : Statement (.add u) := by
  cases u <;> (unfold Statement; decide)
theorem sub (u : Bool) : Statement (.sub u) := by
  cases u <;> (unfold Statement; decide)
theorem and (u : Bool) : Statement (.and u) := by
  cases u <;> (unfold Statement; decide)
theorem or (u : Bool) : Statement (.or u) := by
  cases u <;> (unfold Statement; decide)
theorem xor (u : Bool) : Statement (.xor u) := by
  cases u <;> (unfold Statement; decide)
theorem andn (u : Bool) : Statement (.andn u) := by
  cases u <;> (unfold Statement; decide)
theorem shl (u : Bool) : Statement (.shl u) := by
  cases u <;> (unfold Statement; decide)
theorem shr (u : Bool) : Statement (.shr u) := by
  cases u <;> (unfold Statement; decide)
theorem sar (u : Bool) : Statement (.sar u) := by
  cases u <;> (unfold Statement; decide)
theorem rol (u : Bool) : Statement (.rol u) := by
  cases u <;> (unfold Statement; decide)
theorem ceq (u : Bool) : Statement (.ceq u) := by
  cases u <;> (unfold Statement; decide)
theorem cne (u : Bool) : Statement (.cne u) := by
  cases u <;> (unfold Statement; decide)
theorem clt (u : Bool) : Statement (.clt u) := by
  cases u <;> (unfold Statement; decide)
theorem cltu (u : Bool) : Statement (.cltu u) := by
  cases u <;> (unfold Statement; decide)
theorem cle (u : Bool) : Statement (.cle u) := by
  cases u <;> (unfold Statement; decide)
theorem cleu (u : Bool) : Statement (.cleu u) := by
  cases u <;> (unfold Statement; decide)
theorem min (u : Bool) : Statement (.min u) := by
  cases u <;> (unfold Statement; decide)
theorem max (u : Bool) : Statement (.max u) := by
  cases u <;> (unfold Statement; decide)
theorem minu (u : Bool) : Statement (.minu u) := by
  cases u <;> (unfold Statement; decide)
theorem maxu (u : Bool) : Statement (.maxu u) := by
  cases u <;> (unfold Statement; decide)
theorem sel (u : Bool) : Statement (.sel u) := by
  cases u <;> (unfold Statement; decide)
theorem clz (u : Bool) : Statement (.clz u) := by
  cases u <;> (unfold Statement; decide)
theorem ctz (u : Bool) : Statement (.ctz u) := by
  cases u <;> (unfold Statement; decide)
theorem popc (u : Bool) : Statement (.popc u) := by
  cases u <;> (unfold Statement; decide)
theorem sext (u : Bool) : Statement (.sext u) := by
  cases u <;> (unfold Statement; decide)
theorem zext (u : Bool) : Statement (.zext u) := by
  cases u <;> (unfold Statement; decide)
theorem addsh (u : Bool) : Statement (.addsh u) := by
  cases u <;> (unfold Statement; decide)
theorem bfx (u : Bool) : Statement (.bfx u) := by
  cases u <;> (unfold Statement; decide)
theorem bfi (u : Bool) : Statement (.bfi u) := by
  cases u <;> (unfold Statement; decide)
theorem mul : Statement (.mul) := of_trigger 7 1 0 0 (by decide) (by decide) (by decide) (by decide) rfl rfl
theorem mulh : Statement (.mulh) := of_trigger 7 2 0 0 (by decide) (by decide) (by decide) (by decide) rfl rfl
theorem mulhu : Statement (.mulhu) := of_trigger 7 3 0 0 (by decide) (by decide) (by decide) (by decide) rfl rfl
theorem div : Statement (.div) := of_trigger 7 4 0 0 (by decide) (by decide) (by decide) (by decide) rfl rfl
theorem divu : Statement (.divu) := of_trigger 7 5 0 0 (by decide) (by decide) (by decide) (by decide) rfl rfl
theorem rem : Statement (.rem) := of_trigger 7 6 0 0 (by decide) (by decide) (by decide) (by decide) rfl rfl
theorem remu : Statement (.remu) := of_trigger 7 7 0 0 (by decide) (by decide) (by decide) (by decide) rfl rfl
theorem fadd : Statement (.fadd) := of_trigger 8 1 0 0 (by decide) (by decide) (by decide) (by decide) rfl rfl
theorem fsub : Statement (.fsub) := of_trigger 8 2 0 0 (by decide) (by decide) (by decide) (by decide) rfl rfl
theorem fmul : Statement (.fmul) := of_trigger 8 3 0 0 (by decide) (by decide) (by decide) (by decide) rfl rfl
theorem fma : Statement (.fma) := of_trigger 8 4 0 0 (by decide) (by decide) (by decide) (by decide) rfl rfl
theorem fdiv : Statement (.fdiv) := of_trigger 8 5 0 0 (by decide) (by decide) (by decide) (by decide) rfl rfl
theorem fsqrt : Statement (.fsqrt) := of_trigger 8 6 0 0 (by decide) (by decide) (by decide) (by decide) rfl rfl
theorem fmin : Statement (.fmin) := of_trigger 8 7 0 0 (by decide) (by decide) (by decide) (by decide) rfl rfl
theorem fmax : Statement (.fmax) := of_trigger 8 8 0 0 (by decide) (by decide) (by decide) (by decide) rfl rfl
theorem fceq : Statement (.fceq) := of_trigger 8 9 0 0 (by decide) (by decide) (by decide) (by decide) rfl rfl
theorem fclt : Statement (.fclt) := of_trigger 8 10 0 0 (by decide) (by decide) (by decide) (by decide) rfl rfl
theorem fcle : Statement (.fcle) := of_trigger 8 11 0 0 (by decide) (by decide) (by decide) (by decide) rfl rfl
theorem fcvtif (ty : ElemType) (rm : BitVec 3) : Statement (.fcvtif ty rm) := by
  revert rm
  cases ty <;> (unfold Statement; decide)
theorem fcvtfi (ty : ElemType) (rm : BitVec 3) : Statement (.fcvtfi ty rm) := by
  revert rm
  cases ty <;> (unfold Statement; decide)
theorem fclass : Statement (.fclass) := of_trigger 8 14 0 0 (by decide) (by decide) (by decide) (by decide) rfl rfl
theorem ldb (sp : Space) : Statement (.ldb sp) := by
  cases sp <;> (unfold Statement; decide)
theorem ldbu (sp : Space) : Statement (.ldbu sp) := by
  cases sp <;> (unfold Statement; decide)
theorem ldh (sp : Space) : Statement (.ldh sp) := by
  cases sp <;> (unfold Statement; decide)
theorem ldhu (sp : Space) : Statement (.ldhu sp) := by
  cases sp <;> (unfold Statement; decide)
theorem ldw (sp : Space) : Statement (.ldw sp) := by
  cases sp <;> (unfold Statement; decide)
theorem ldwu (sp : Space) : Statement (.ldwu sp) := by
  cases sp <;> (unfold Statement; decide)
theorem ldd (sp : Space) : Statement (.ldd sp) := by
  cases sp <;> (unfold Statement; decide)
theorem stb (sp : Space) : Statement (.stb sp) := by
  cases sp <;> (unfold Statement; decide)
theorem sth (sp : Space) : Statement (.sth sp) := by
  cases sp <;> (unfold Statement; decide)
theorem stw (sp : Space) : Statement (.stw sp) := by
  cases sp <;> (unfold Statement; decide)
theorem std (sp : Space) : Statement (.std sp) := by
  cases sp <;> (unfold Statement; decide)
theorem qmark : Statement (.qmark) := of_trigger 9 12 0 0 (by decide) (by decide) (by decide) (by decide) rfl rfl
theorem fence : Statement (.fence) := of_trigger 9 13 0 0 (by decide) (by decide) (by decide) (by decide) rfl rfl
theorem pref (sp : Space) : Statement (.pref sp) := by
  cases sp <;> (unfold Statement; decide)
theorem br : Statement (.br) := of_trigger 10 1 0 0 (by decide) (by decide) (by decide) (by decide) rfl rfl
theorem jmp : Statement (.jmp) := of_trigger 10 2 0 0 (by decide) (by decide) (by decide) (by decide) rfl rfl
theorem call : Statement (.call) := of_trigger 10 3 0 0 (by decide) (by decide) (by decide) (by decide) rfl rfl
theorem calli : Statement (.calli) := of_trigger 10 4 0 0 (by decide) (by decide) (by decide) (by decide) rfl rfl
theorem ret : Statement (.ret) := of_trigger 10 5 0 0 (by decide) (by decide) (by decide) (by decide) rfl rfl
theorem loop : Statement (.loop) := of_trigger 10 6 0 0 (by decide) (by decide) (by decide) (by decide) rfl rfl
theorem lset : Statement (.lset) := of_trigger 10 7 0 0 (by decide) (by decide) (by decide) (by decide) rfl rfl
theorem enter : Statement (.enter) := of_trigger 10 8 0 0 (by decide) (by decide) (by decide) (by decide) rfl rfl
theorem leave : Statement (.leave) := of_trigger 10 9 0 0 (by decide) (by decide) (by decide) (by decide) rfl rfl
theorem trap : Statement (.trap) := of_trigger 10 10 0 0 (by decide) (by decide) (by decide) (by decide) rfl rfl
theorem halt : Statement (.halt) := of_trigger 10 11 0 0 (by decide) (by decide) (by decide) (by decide) rfl rfl
theorem cadd : Statement (.cadd) := of_trigger 11 1 0 0 (by decide) (by decide) (by decide) (by decide) rfl rfl
theorem cwait : Statement (.cwait) := of_trigger 11 2 0 0 (by decide) (by decide) (by decide) (by decide) rfl rfl
theorem cread : Statement (.cread) := of_trigger 11 3 0 0 (by decide) (by decide) (by decide) (by decide) rfl rfl
theorem aadd (sp : Space) (dbl : Bool) (uns : Bool) : Statement (.aadd sp dbl uns) := by
  cases sp <;> cases dbl <;> cases uns <;> (unfold Statement; decide)
theorem amax (sp : Space) (dbl : Bool) (uns : Bool) : Statement (.amax sp dbl uns) := by
  cases sp <;> cases dbl <;> cases uns <;> (unfold Statement; decide)
theorem amin (sp : Space) (dbl : Bool) (uns : Bool) : Statement (.amin sp dbl uns) := by
  cases sp <;> cases dbl <;> cases uns <;> (unfold Statement; decide)
theorem axchg (sp : Space) (dbl : Bool) (uns : Bool) : Statement (.axchg sp dbl uns) := by
  cases sp <;> cases dbl <;> cases uns <;> (unfold Statement; decide)
theorem acas (sp : Space) (dbl : Bool) (uns : Bool) : Statement (.acas sp dbl uns) := by
  cases sp <;> cases dbl <;> cases uns <;> (unfold Statement; decide)
theorem afadd (sp : Space) (dbl : Bool) (uns : Bool) : Statement (.afadd sp dbl uns) := by
  cases sp <;> cases dbl <;> cases uns <;> (unfold Statement; decide)
theorem aand (sp : Space) (dbl : Bool) (uns : Bool) : Statement (.aand sp dbl uns) := by
  cases sp <;> cases dbl <;> cases uns <;> (unfold Statement; decide)
theorem aor (sp : Space) (dbl : Bool) (uns : Bool) : Statement (.aor sp dbl uns) := by
  cases sp <;> cases dbl <;> cases uns <;> (unfold Statement; decide)
theorem mvst : Statement (.mvst) := of_trigger 12 1 0 0 (by decide) (by decide) (by decide) (by decide) rfl rfl
theorem mvts : Statement (.mvts) := of_trigger 12 2 0 0 (by decide) (by decide) (by decide) (by decide) rfl rfl
theorem pbw : Statement (.pbw) := of_trigger 12 3 0 0 (by decide) (by decide) (by decide) (by decide) rfl rfl
theorem crpop (hdr : Bool) : Statement (.crpop hdr) := by
  cases hdr <;> (unfold Statement; decide)
theorem curqStart : Statement (.curqStart) := of_trigger 12 5 0 0 (by decide) (by decide) (by decide) (by decide) rfl rfl
theorem curqDesc : Statement (.curqDesc) := of_trigger 12 5 0 1 (by decide) (by decide) (by decide) (by decide) rfl rfl
theorem grpinc : Statement (.grpinc) := of_trigger 12 6 0 0 (by decide) (by decide) (by decide) (by decide) rfl rfl
theorem launch : Statement (.launch) := of_trigger 12 7 0 0 (by decide) (by decide) (by decide) (by decide) rfl rfl
theorem eret : Statement (.eret) := of_trigger 12 8 0 0 (by decide) (by decide) (by decide) (by decide) rfl rfl
theorem rlog : Statement (.rlog) := of_trigger 12 9 0 0 (by decide) (by decide) (by decide) (by decide) rfl rfl
theorem vadd (u : Bool) (ty : ElemType) (md : BitVec 3) : Statement (.vadd u ty md) := by
  revert md
  cases u <;> cases ty <;> (unfold Statement; decide)
theorem vsub (u : Bool) (ty : ElemType) (md : BitVec 3) : Statement (.vsub u ty md) := by
  revert md
  cases u <;> cases ty <;> (unfold Statement; decide)
theorem vmul (u : Bool) (ty : ElemType) (md : BitVec 3) : Statement (.vmul u ty md) := by
  revert md
  cases u <;> cases ty <;> (unfold Statement; decide)
theorem vmin (u : Bool) (ty : ElemType) : Statement (.vmin u ty) := by
  cases u <;> cases ty <;> (unfold Statement; decide)
theorem vmax (u : Bool) (ty : ElemType) : Statement (.vmax u ty) := by
  cases u <;> cases ty <;> (unfold Statement; decide)
theorem vand (u : Bool) : Statement (.vand u) := by
  cases u <;> (unfold Statement; decide)
theorem vor (u : Bool) : Statement (.vor u) := by
  cases u <;> (unfold Statement; decide)
theorem vxor (u : Bool) : Statement (.vxor u) := by
  cases u <;> (unfold Statement; decide)
theorem vandn (u : Bool) : Statement (.vandn u) := by
  cases u <;> (unfold Statement; decide)
theorem vshl (u : Bool) (ty : ElemType) : Statement (.vshl u ty) := by
  cases u <;> cases ty <;> (unfold Statement; decide)
theorem vshr (u : Bool) (ty : ElemType) : Statement (.vshr u ty) := by
  cases u <;> cases ty <;> (unfold Statement; decide)
theorem vsar (u : Bool) (ty : ElemType) : Statement (.vsar u ty) := by
  cases u <;> cases ty <;> (unfold Statement; decide)
theorem vceq (u : Bool) (ty : ElemType) : Statement (.vceq u ty) := by
  cases u <;> cases ty <;> (unfold Statement; decide)
theorem vcne (u : Bool) (ty : ElemType) : Statement (.vcne u ty) := by
  cases u <;> cases ty <;> (unfold Statement; decide)
theorem vclt (u : Bool) (ty : ElemType) : Statement (.vclt u ty) := by
  cases u <;> cases ty <;> (unfold Statement; decide)
theorem vcle (u : Bool) (ty : ElemType) : Statement (.vcle u ty) := by
  cases u <;> cases ty <;> (unfold Statement; decide)
theorem vsel (u : Bool) : Statement (.vsel u) := by
  cases u <;> (unfold Statement; decide)
theorem vabs (u : Bool) (ty : ElemType) (sat : Bool) : Statement (.vabs u ty sat) := by
  cases u <;> cases ty <;> cases sat <;> (unfold Statement; decide)
theorem vneg (u : Bool) (ty : ElemType) (sat : Bool) : Statement (.vneg u ty sat) := by
  cases u <;> cases ty <;> cases sat <;> (unfold Statement; decide)
theorem vclamp (u : Bool) (ty : ElemType) : Statement (.vclamp u ty) := by
  cases u <;> cases ty <;> (unfold Statement; decide)
theorem vcvt (u : Bool) (src : ElemType) (dst : ElemType) : Statement (.vcvt u src dst) := by
  cases u <;> cases src <;> cases dst <;> (unfold Statement; decide)
theorem viota (u : Bool) (ty : ElemType) : Statement (.viota u ty) := by
  cases u <;> cases ty <;> (unfold Statement; decide)
theorem pand (u : Bool) : Statement (.pand u) := by
  cases u <;> (unfold Statement; decide)
theorem por (u : Bool) : Statement (.por u) := by
  cases u <;> (unfold Statement; decide)
theorem pxor (u : Bool) : Statement (.pxor u) := by
  cases u <;> (unfold Statement; decide)
theorem pandn (u : Bool) : Statement (.pandn u) := by
  cases u <;> (unfold Statement; decide)
theorem pnot (u : Bool) : Statement (.pnot u) := by
  cases u <;> (unfold Statement; decide)
theorem pcnt (u : Bool) (cr : Bool) : Statement (.pcnt u cr) := by
  cases u <;> cases cr <;> (unfold Statement; decide)
theorem pfirst (u : Bool) (cr : Bool) : Statement (.pfirst u cr) := by
  cases u <;> cases cr <;> (unfold Statement; decide)
theorem psetn (u : Bool) : Statement (.psetn u) := by
  cases u <;> (unfold Statement; decide)
theorem ppack (u : Bool) (hi : Bool) : Statement (.ppack u hi) := by
  cases u <;> cases hi <;> (unfold Statement; decide)
theorem punpack (u : Bool) (hi : Bool) : Statement (.punpack u hi) := by
  cases u <;> cases hi <;> (unfold Statement; decide)
theorem vfma (ty : ElemType) (rm : BitVec 3) : Statement (.vfma ty rm) := by
  revert rm
  cases ty <;> (unfold Statement; decide)
theorem vfms (ty : ElemType) (rm : BitVec 3) : Statement (.vfms ty rm) := by
  revert rm
  cases ty <;> (unfold Statement; decide)
theorem vfnma (ty : ElemType) (rm : BitVec 3) : Statement (.vfnma ty rm) := by
  revert rm
  cases ty <;> (unfold Statement; decide)
theorem vdiv (ty : ElemType) (rm : BitVec 3) : Statement (.vdiv ty rm) := by
  revert rm
  cases ty <;> (unfold Statement; decide)
theorem vsqrt (ty : ElemType) (rm : BitVec 3) : Statement (.vsqrt ty rm) := by
  revert rm
  cases ty <;> (unfold Statement; decide)
theorem vrcp (ty : ElemType) (rm : BitVec 3) : Statement (.vrcp ty rm) := by
  revert rm
  cases ty <;> (unfold Statement; decide)
theorem vrsq (ty : ElemType) (rm : BitVec 3) : Statement (.vrsq ty rm) := by
  revert rm
  cases ty <;> (unfold Statement; decide)
theorem vexp2 (ty : ElemType) (rm : BitVec 3) : Statement (.vexp2 ty rm) := by
  revert rm
  cases ty <;> (unfold Statement; decide)
theorem vlog2 (ty : ElemType) (rm : BitVec 3) : Statement (.vlog2 ty rm) := by
  revert rm
  cases ty <;> (unfold Statement; decide)
theorem vtanh (ty : ElemType) (rm : BitVec 3) : Statement (.vtanh ty rm) := by
  revert rm
  cases ty <;> (unfold Statement; decide)
theorem vdot4 (ty : ElemType) (md : BitVec 3) : Statement (.vdot4 ty md) := by
  revert md
  cases ty <;> (unfold Statement; decide)
theorem vmac (ty : ElemType) (sat : Bool) : Statement (.vmac ty sat) := by
  cases ty <;> cases sat <;> (unfold Statement; decide)
theorem vshuf (ty : ElemType) : Statement (.vshuf ty) := by
  cases ty <;> (unfold Statement; decide)
theorem vrot (ty : ElemType) : Statement (.vrot ty) := by
  cases ty <;> (unfold Statement; decide)
theorem vbcast (ty : ElemType) : Statement (.vbcast ty) := by
  cases ty <;> (unfold Statement; decide)
theorem vzip (ty : ElemType) (hi : Bool) : Statement (.vzip ty hi) := by
  cases ty <;> cases hi <;> (unfold Statement; decide)
theorem vunzip (ty : ElemType) (hi : Bool) : Statement (.vunzip ty hi) := by
  cases ty <;> cases hi <;> (unfold Statement; decide)
theorem vslide (ty : ElemType) : Statement (.vslide ty) := by
  cases ty <;> (unfold Statement; decide)
theorem vpack (fmt : BitVec 4) : Statement (.vpack fmt) := by
  revert fmt
  unfold Statement; decide
theorem vunpack (fmt : BitVec 4) : Statement (.vunpack fmt) := by
  revert fmt
  unfold Statement; decide
theorem vexpand : Statement (.vexpand) := of_trigger 16 9 0 0 (by decide) (by decide) (by decide) (by decide) rfl rfl
theorem vcompress (cr : Bool) : Statement (.vcompress cr) := by
  cases cr <;> (unfold Statement; decide)
theorem vaccrd (ty : ElemType) (rm : BitVec 3) : Statement (.vaccrd ty rm) := by
  revert rm
  cases ty <;> (unfold Statement; decide)
theorem vaccwr (ty : ElemType) : Statement (.vaccwr ty) := by
  cases ty <;> (unfold Statement; decide)
theorem vplane (fmt : BitVec 4) : Statement (.vplane fmt) := by
  revert fmt
  unfold Statement; decide
theorem vld (g : Bool) : Statement (.vld g) := by
  cases g <;> (unfold Statement; decide)
theorem vst (g : Bool) : Statement (.vst g) := by
  cases g <;> (unfold Statement; decide)
theorem vlds (g : Bool) (ty : ElemType) : Statement (.vlds g ty) := by
  cases g <;> cases ty <;> (unfold Statement; decide)
theorem vsts (g : Bool) (ty : ElemType) : Statement (.vsts g ty) := by
  cases g <;> cases ty <;> (unfold Statement; decide)
theorem vgath (g : Bool) (cr : Bool) : Statement (.vgath g cr) := by
  cases g <;> cases cr <;> (unfold Statement; decide)
theorem vscat (g : Bool) (cr : Bool) : Statement (.vscat g cr) := by
  cases g <;> cases cr <;> (unfold Statement; decide)
theorem vscatadd (g : Bool) (cr : Bool) : Statement (.vscatadd g cr) := by
  cases g <;> cases cr <;> (unfold Statement; decide)
theorem vldz (g : Bool) : Statement (.vldz g) := by
  cases g <;> (unfold Statement; decide)
theorem vstz (g : Bool) (ty : ElemType) (cr : Bool) : Statement (.vstz g ty cr) := by
  cases g <;> cases ty <;> cases cr <;> (unfold Statement; decide)
theorem vldt : Statement (.vldt) := of_trigger 17 10 0 0 (by decide) (by decide) (by decide) (by decide) rfl rfl
theorem vstt : Statement (.vstt) := of_trigger 17 11 0 0 (by decide) (by decide) (by decide) (by decide) rfl rfl
theorem vrsum (ty : ElemType) (cr : Bool) : Statement (.vrsum ty cr) := by
  cases ty <;> cases cr <;> (unfold Statement; decide)
theorem vrmax (ty : ElemType) (cr : Bool) : Statement (.vrmax ty cr) := by
  cases ty <;> cases cr <;> (unfold Statement; decide)
theorem vrmin (ty : ElemType) (cr : Bool) : Statement (.vrmin ty cr) := by
  cases ty <;> cases cr <;> (unfold Statement; decide)
theorem vargmax (ty : ElemType) (cr : Bool) : Statement (.vargmax ty cr) := by
  cases ty <;> cases cr <;> (unfold Statement; decide)
theorem vargmin (ty : ElemType) (cr : Bool) : Statement (.vargmin ty cr) := by
  cases ty <;> cases cr <;> (unfold Statement; decide)
theorem vscan (ty : ElemType) (cr : Bool) (ex : Bool) : Statement (.vscan ty cr ex) := by
  cases ty <;> cases cr <;> cases ex <;> (unfold Statement; decide)
theorem vmerge (comb : BitVec 2) (dz : Bool) (cr : Bool) (pt : BitVec 2) : Statement (.vmerge comb dz cr pt) := by
  revert comb pt
  cases dz <;> cases cr <;> (unfold Statement; decide)
theorem vsort (ty : ElemType) (desc : Bool) : Statement (.vsort ty desc) := by
  cases ty <;> cases desc <;> (unfold Statement; decide)
theorem vtopk (ty : ElemType) (cr : Bool) (desc : Bool) : Statement (.vtopk ty cr desc) := by
  cases ty <;> cases cr <;> cases desc <;> (unfold Statement; decide)
theorem vuniq (ty : ElemType) (cr : Bool) : Statement (.vuniq ty cr) := by
  cases ty <;> cases cr <;> (unfold Statement; decide)
theorem mma : Statement (.mma) := of_trigger 19 1 0 0 (by decide) (by decide) (by decide) (by decide) rfl rfl
theorem mdrain : Statement (.mdrain) := of_trigger 19 2 0 0 (by decide) (by decide) (by decide) (by decide) rfl rfl
theorem msave : Statement (.msave) := of_trigger 19 3 0 0 (by decide) (by decide) (by decide) (by decide) rfl rfl
theorem mload : Statement (.mload) := of_trigger 19 4 0 0 (by decide) (by decide) (by decide) (by decide) rfl rfl
theorem mrawadd : Statement (.mrawadd) := of_trigger 19 5 0 0 (by decide) (by decide) (by decide) (by decide) rfl rfl
theorem mzero : Statement (.mzero) := of_trigger 19 6 0 0 (by decide) (by decide) (by decide) (by decide) rfl rfl
theorem mchk : Statement (.mchk) := of_trigger 19 7 0 0 (by decide) (by decide) (by decide) (by decide) rfl rfl
theorem mclr : Statement (.mclr) := of_trigger 19 8 0 0 (by decide) (by decide) (by decide) (by decide) rfl rfl
theorem mseed : Statement (.mseed) := of_trigger 19 9 0 0 (by decide) (by decide) (by decide) (by decide) rfl rfl
theorem kmov (rebind : Bool) : Statement (.kmov rebind) := by
  cases rebind <;> (unfold Statement; decide)
theorem kadde (rebind : Bool) (enc : BitVec 2) : Statement (.kadde rebind enc) := by
  revert enc
  cases rebind <;> (unfold Statement; decide)
theorem kmax (rebind : Bool) (enc : BitVec 2) : Statement (.kmax rebind enc) := by
  revert enc
  cases rebind <;> (unfold Statement; decide)
theorem kmin (rebind : Bool) (enc : BitVec 2) : Statement (.kmin rebind enc) := by
  revert enc
  cases rebind <;> (unfold Statement; decide)
theorem kcvt (rebind : Bool) (enc : BitVec 2) (denc : BitVec 2) : Statement (.kcvt rebind enc denc) := by
  revert enc denc
  cases rebind <;> (unfold Statement; decide)
theorem kfold (rebind : Bool) (enc : BitVec 2) : Statement (.kfold rebind enc) := by
  revert enc
  cases rebind <;> (unfold Statement; decide)
theorem kamax (rebind : Bool) (enc : BitVec 2) : Statement (.kamax rebind enc) := by
  revert enc
  cases rebind <;> (unfold Statement; decide)
theorem kbind : Statement (.kbind) := of_trigger 20 8 0 0 (by decide) (by decide) (by decide) (by decide) rfl rfl
theorem kunbind : Statement (.kunbind) := of_trigger 20 9 0 0 (by decide) (by decide) (by decide) (by decide) rfl rfl
theorem krebind : Statement (.krebind) := of_trigger 20 10 0 0 (by decide) (by decide) (by decide) (by decide) rfl rfl
theorem kgen (cr : Bool) : Statement (.kgen cr) := by
  cases cr <;> (unfold Statement; decide)
theorem kld (rebind : Bool) : Statement (.kld rebind) := by
  cases rebind <;> (unfold Statement; decide)
theorem kst : Statement (.kst) := of_trigger 20 13 0 0 (by decide) (by decide) (by decide) (by decide) rfl rfl
theorem tcfg : Statement (.tcfg) := of_trigger 21 1 0 0 (by decide) (by decide) (by decide) (by decide) rfl rfl
theorem tstate : Statement (.tstate) := of_trigger 21 2 0 0 (by decide) (by decide) (by decide) (by decide) rfl rfl
theorem trel : Statement (.trel) := of_trigger 21 3 0 0 (by decide) (by decide) (by decide) (by decide) rfl rfl
theorem tmarkOpen : Statement (.tmarkOpen) := of_trigger 21 4 0 0 (by decide) (by decide) (by decide) (by decide) rfl rfl
theorem tmarkClose : Statement (.tmarkClose) := of_trigger 21 4 0 1 (by decide) (by decide) (by decide) (by decide) rfl rfl
theorem tmarkReopen : Statement (.tmarkReopen) := of_trigger 21 4 0 2 (by decide) (by decide) (by decide) (by decide) rfl rfl
theorem thand : Statement (.thand) := of_trigger 21 5 0 0 (by decide) (by decide) (by decide) (by decide) rfl rfl
theorem ttake : Statement (.ttake) := of_trigger 21 6 0 0 (by decide) (by decide) (by decide) (by decide) rfl rfl
theorem cque (g : Bool) : Statement (.cque g) := by
  cases g <;> (unfold Statement; decide)
theorem cstat : Statement (.cstat) := of_trigger 22 2 0 0 (by decide) (by decide) (by decide) (by decide) rfl rfl
theorem cclrRetry : Statement (.cclrRetry) := of_trigger 22 3 0 0 (by decide) (by decide) (by decide) (by decide) rfl rfl
theorem cclrAbandonChain : Statement (.cclrAbandonChain) := of_trigger 22 3 0 1 (by decide) (by decide) (by decide) (by decide) rfl rfl
theorem cclrAbandonAll : Statement (.cclrAbandonAll) := of_trigger 22 3 0 2 (by decide) (by decide) (by decide) (by decide) rfl rfl
theorem rinit (g : Bool) : Statement (.rinit g) := by
  cases g <;> (unfold Statement; decide)
theorem rawait (g : Bool) : Statement (.rawait g) := by
  cases g <;> (unfold Statement; decide)
theorem rrel (g : Bool) : Statement (.rrel g) := by
  cases g <;> (unfold Statement; decide)
theorem tdmk (g : Bool) : Statement (.tdmk g) := by
  cases g <;> (unfold Statement; decide)
theorem xjob (g : Bool) : Statement (.xjob g) := by
  cases g <;> (unfold Statement; decide)
theorem xtab (g : Bool) : Statement (.xtab g) := by
  cases g <;> (unfold Statement; decide)
theorem sejob (g : Bool) : Statement (.sejob g) := by
  cases g <;> (unfold Statement; decide)
theorem fflowOpen : Statement (.fflowOpen) := of_trigger 23 1 0 0 (by decide) (by decide) (by decide) (by decide) rfl rfl
theorem fflowAccept : Statement (.fflowAccept) := of_trigger 23 1 0 1 (by decide) (by decide) (by decide) (by decide) rfl rfl
theorem fflowCloseSend : Statement (.fflowCloseSend) := of_trigger 23 1 0 2 (by decide) (by decide) (by decide) (by decide) rfl rfl
theorem fflowCloseRecv : Statement (.fflowCloseRecv) := of_trigger 23 1 0 3 (by decide) (by decide) (by decide) (by decide) rfl rfl
theorem fwrite (g : Bool) : Statement (.fwrite g) := by
  cases g <;> (unfold Statement; decide)
theorem fread (g : Bool) : Statement (.fread g) := by
  cases g <;> (unfold Statement; decide)
theorem fcadd : Statement (.fcadd) := of_trigger 23 4 0 0 (by decide) (by decide) (by decide) (by decide) rfl rfl
theorem fred (g : Bool) : Statement (.fred g) := by
  cases g <;> (unfold Statement; decide)
theorem frate : Statement (.frate) := of_trigger 23 6 0 0 (by decide) (by decide) (by decide) (by decide) rfl rfl
theorem frwinRegister (g : Bool) : Statement (.frwinRegister g) := by
  cases g <;> (unfold Statement; decide)
theorem frwinRemove (g : Bool) : Statement (.frwinRemove g) := by
  cases g <;> (unfold Statement; decide)
theorem accessPerformed (core : BitVec 8) : Statement (.accessPerformed core) := by
  refine of_event 91 (core.toNat) (by decide) rfl ?_
  have := core.isLt
  exact congrArg some (by
    show Instr.accessPerformed _ = _
    rw [arg core _ (by simp only [field]; omega)])
theorem cinchMemoryAccess (by_ : CinchAccess) (addr : BitVec 48) : Statement (.cinchMemoryAccess by_ addr) := by
  obtain ⟨die, wr⟩ := by_
  refine of_event 92 (die.toNat + wr.toNat * 2 ^ 1 + addr.toNat * 2 ^ 2) (by decide) rfl ?_
  have := die.isLt
  have := Bool.toNat_lt wr
  have := addr.isLt
  exact congrArg some (by
    show Instr.cinchMemoryAccess ⟨_, _⟩ _ = _
    rw [arg die _ (by simp only [field]; omega)]
    rw [argb wr _ _ (by omega)]
    rw [arg addr _ (by simp only [field]; omega)])

end Sys2Proof.Laws.RoundTrip
end

