-- ==== Sys2Proof/Laws/View.lean ====
section
/-! SUPPORT. The view of a running operation (R75, R235, R256): what it shares with the state, one lemma for each field. -/

namespace Sys2Proof.Machine
open Sys2Proof.Safety

/-- A part of a core that holds neither its ranges handed on, its slots nor its translations is in the view as in the state. -/
theorem view_part {α : Type} (p : Core → α)
    (hp : ∀ (k : Core) (h : List HandedOut) (sl : Vector (Option Word) 8) (t : List TlbEntry),
      p { k with handedOut := h, arch := { k.arch with slots := sl }, tlb := t } = p k) (s : State) (d : Nat) :
    p ((view s).core d) = p (s.core d) := by
  simp only [view, Trig.sees, asOf, State.core]
  by_cases hd : d = s.cur.core
  · subst hd
    by_cases hc : s.cur.core < 256
    · rw [nth_updAt_self _ _ _ hc, nth_updAt_self _ _ _ hc]
      split
      · exact hp _ _ (nth s.cores s.cur.core Core.reset).arch.slots _
      · exact hp _ _ _ _
    · simp [updAt, hc]
  · rw [nth_updAt_ne _ _ _ (Ne.symm hd), nth_updAt_ne _ _ _ (Ne.symm hd)]

@[simp] theorem view_time (s : State) : (view s).time = s.time := rfl
@[simp] theorem view_agenda (s : State) : (view s).agenda = s.agenda := rfl
@[simp] theorem view_cur (s : State) : (view s).cur = s.cur := rfl
@[simp] theorem view_fresh (s : State) : (view s).fresh = s.fresh := rfl
@[simp] theorem view_lmem (s : State) : (view s).lmem = s.lmem := rfl
@[simp] theorem view_mem (s : State) : (view s).mem = s.mem := rfl
@[simp] theorem view_ctrs (s : State) : (view s).ctrs = s.ctrs := rfl
@[simp] theorem view_dies (s : State) : (view s).dies = s.dies := rfl
@[simp] theorem view_hbm (s : State) : (view s).hbm = s.hbm := rfl
@[simp] theorem view_lanes (s : State) : (view s).lanes = s.lanes := rfl
@[simp] theorem view_engines (s : State) : (view s).engines = s.engines := rfl
@[simp] theorem view_pkg (s : State) : (view s).pkg = s.pkg := rfl
@[simp] theorem view_disp (s : State) : (view s).disp = s.disp := rfl
@[simp] theorem view_waiters (s : State) : (view s).waiters = s.waiters := rfl
@[simp] theorem view_tx (s : State) : (view s).tx = s.tx := rfl
@[simp] theorem view_outbox (s : State) : (view s).outbox = s.outbox := rfl
@[simp] theorem view_core_pc (s : State) (d : Nat) : ((view s).core d).pc = (s.core d).pc := view_part (·.pc) (fun _ _ _ _ => rfl) s d
@[simp] theorem view_core_flow (s : State) (d : Nat) : ((view s).core d).flow = (s.core d).flow := view_part (·.flow) (fun _ _ _ _ => rfl) s d
@[simp] theorem view_core_fetched (s : State) (d : Nat) : ((view s).core d).fetched = (s.core d).fetched := view_part (·.fetched) (fun _ _ _ _ => rfl) s d
@[simp] theorem view_core_ctx (s : State) (d : Nat) : ((view s).core d).ctx = (s.core d).ctx := view_part (·.ctx) (fun _ _ _ _ => rfl) s d
@[simp] theorem view_core_staged (s : State) (d : Nat) : ((view s).core d).staged = (s.core d).staged := view_part (·.staged) (fun _ _ _ _ => rfl) s d
@[simp] theorem view_core_heldTotal (s : State) (d : Nat) : ((view s).core d).heldTotal = (s.core d).heldTotal := view_part (·.heldTotal) (fun _ _ _ _ => rfl) s d
@[simp] theorem view_core_held (s : State) (d : Nat) : ((view s).core d).held = (s.core d).held := view_part (·.held) (fun _ _ _ _ => rfl) s d
@[simp] theorem view_core_holdInfo (s : State) (d : Nat) : ((view s).core d).holdInfo = (s.core d).holdInfo := view_part (·.holdInfo) (fun _ _ _ _ => rfl) s d
@[simp] theorem view_core_trigSeq (s : State) (d : Nat) : ((view s).core d).trigSeq = (s.core d).trigSeq := view_part (·.trigSeq) (fun _ _ _ _ => rfl) s d
@[simp] theorem view_core_flights (s : State) (d : Nat) : ((view s).core d).flights = (s.core d).flights := view_part (·.flights) (fun _ _ _ _ => rfl) s d
@[simp] theorem view_core_undef (s : State) (d : Nat) : ((view s).core d).undef = (s.core d).undef := view_part (·.undef) (fun _ _ _ _ => rfl) s d
@[simp] theorem view_core_lastLand (s : State) (d : Nat) : ((view s).core d).lastLand = (s.core d).lastLand := view_part (·.lastLand) (fun _ _ _ _ => rfl) s d
@[simp] theorem view_core_portAt (s : State) (d : Nat) : ((view s).core d).portAt = (s.core d).portAt := view_part (·.portAt) (fun _ _ _ _ => rfl) s d
@[simp] theorem view_core_captured (s : State) (d : Nat) : ((view s).core d).captured = (s.core d).captured := view_part (·.captured) (fun _ _ _ _ => rfl) s d
@[simp] theorem view_core_engLast (s : State) (d : Nat) : ((view s).core d).engLast = (s.core d).engLast := view_part (·.engLast) (fun _ _ _ _ => rfl) s d
@[simp] theorem view_core_accesses (s : State) (d : Nat) : ((view s).core d).accesses = (s.core d).accesses := view_part (·.accesses) (fun _ _ _ _ => rfl) s d
@[simp] theorem view_core_fences (s : State) (d : Nat) : ((view s).core d).fences = (s.core d).fences := view_part (·.fences) (fun _ _ _ _ => rfl) s d
@[simp] theorem view_core_released (s : State) (d : Nat) : ((view s).core d).released = (s.core d).released := view_part (·.released) (fun _ _ _ _ => rfl) s d
@[simp] theorem view_core_defq (s : State) (d : Nat) : ((view s).core d).defq = (s.core d).defq := view_part (·.defq) (fun _ _ _ _ => rfl) s d
@[simp] theorem view_core_seg (s : State) (d : Nat) : ((view s).core d).seg = (s.core d).seg := view_part (·.seg) (fun _ _ _ _ => rfl) s d
@[simp] theorem view_core_pend (s : State) (d : Nat) : ((view s).core d).pend = (s.core d).pend := view_part (·.pend) (fun _ _ _ _ => rfl) s d
@[simp] theorem view_core_trapReq (s : State) (d : Nat) : ((view s).core d).trapReq = (s.core d).trapReq := view_part (·.trapReq) (fun _ _ _ _ => rfl) s d
@[simp] theorem view_core_park (s : State) (d : Nat) : ((view s).core d).park = (s.core d).park := view_part (·.park) (fun _ _ _ _ => rfl) s d
@[simp] theorem view_core_preq (s : State) (d : Nat) : ((view s).core d).preq = (s.core d).preq := view_part (·.preq) (fun _ _ _ _ => rfl) s d
@[simp] theorem view_core_rewind (s : State) (d : Nat) : ((view s).core d).rewind = (s.core d).rewind := view_part (·.rewind) (fun _ _ _ _ => rfl) s d
@[simp] theorem view_core_outRewind (s : State) (d : Nat) : ((view s).core d).outRewind = (s.core d).outRewind := view_part (·.outRewind) (fun _ _ _ _ => rfl) s d
@[simp] theorem view_core_replayWait (s : State) (d : Nat) : ((view s).core d).replayWait = (s.core d).replayWait := view_part (·.replayWait) (fun _ _ _ _ => rfl) s d
@[simp] theorem view_core_dict (s : State) (d : Nat) : ((view s).core d).dict = (s.core d).dict := view_part (·.dict) (fun _ _ _ _ => rfl) s d
@[simp] theorem view_core_idx (s : State) (d : Nat) : ((view s).core d).idx = (s.core d).idx := view_part (·.idx) (fun _ _ _ _ => rfl) s d
@[simp] theorem view_core_imageAddr (s : State) (d : Nat) : ((view s).core d).imageAddr = (s.core d).imageAddr := view_part (·.imageAddr) (fun _ _ _ _ => rfl) s d
@[simp] theorem view_core_imageCrc (s : State) (d : Nat) : ((view s).core d).imageCrc = (s.core d).imageCrc := view_part (·.imageCrc) (fun _ _ _ _ => rfl) s d
@[simp] theorem view_core_maQ (s : State) (d : Nat) : ((view s).core d).maQ = (s.core d).maQ := view_part (·.maQ) (fun _ _ _ _ => rfl) s d
@[simp] theorem view_core_arrayFree (s : State) (d : Nat) : ((view s).core d).arrayFree = (s.core d).arrayFree := view_part (·.arrayFree) (fun _ _ _ _ => rfl) s d
@[simp] theorem view_core_cellFaults (s : State) (d : Nat) : ((view s).core d).cellFaults = (s.core d).cellFaults := view_part (·.cellFaults) (fun _ _ _ _ => rfl) s d
@[simp] theorem view_core_chans (s : State) (d : Nat) : ((view s).core d).chans = (s.core d).chans := view_part (·.chans) (fun _ _ _ _ => rfl) s d
@[simp] theorem view_core_fxQ (s : State) (d : Nat) : ((view s).core d).fxQ = (s.core d).fxQ := view_part (·.fxQ) (fun _ _ _ _ => rfl) s d
@[simp] theorem view_core_walk (s : State) (d : Nat) : ((view s).core d).walk = (s.core d).walk := view_part (·.walk) (fun _ _ _ _ => rfl) s d
@[simp] theorem view_core_walked (s : State) (d : Nat) : ((view s).core d).walked = (s.core d).walked := view_part (·.walked) (fun _ _ _ _ => rfl) s d
@[simp] theorem view_core_inbound (s : State) (d : Nat) : ((view s).core d).inbound = (s.core d).inbound := view_part (·.inbound) (fun _ _ _ _ => rfl) s d
@[simp] theorem view_core_parted (s : State) (d : Nat) : ((view s).core d).parted = (s.core d).parted := view_part (·.parted) (fun _ _ _ _ => rfl) s d
@[simp] theorem view_core_tags (s : State) (d : Nat) : ((view s).core d).tags = (s.core d).tags := view_part (·.tags) (fun _ _ _ _ => rfl) s d
@[simp] theorem view_core_poison (s : State) (d : Nat) : ((view s).core d).poison = (s.core d).poison := view_part (·.poison) (fun _ _ _ _ => rfl) s d
@[simp] theorem view_core_upsets (s : State) (d : Nat) : ((view s).core d).upsets = (s.core d).upsets := view_part (·.upsets) (fun _ _ _ _ => rfl) s d
@[simp] theorem view_core_regError (s : State) (d : Nat) : ((view s).core d).regError = (s.core d).regError := view_part (·.regError) (fun _ _ _ _ => rfl) s d
@[simp] theorem view_arch_g (s : State) (d : Nat) : ((view s).core d).arch.g = (s.core d).arch.g := view_part (·.arch.g) (fun _ _ _ _ => rfl) s d
@[simp] theorem view_arch_o (s : State) (d : Nat) : ((view s).core d).arch.o = (s.core d).arch.o := view_part (·.arch.o) (fun _ _ _ _ => rfl) s d
@[simp] theorem view_arch_v (s : State) (d : Nat) : ((view s).core d).arch.v = (s.core d).arch.v := view_part (·.arch.v) (fun _ _ _ _ => rfl) s d
@[simp] theorem view_arch_vo (s : State) (d : Nat) : ((view s).core d).arch.vo = (s.core d).arch.vo := view_part (·.arch.vo) (fun _ _ _ _ => rfl) s d
@[simp] theorem view_arch_p (s : State) (d : Nat) : ((view s).core d).arch.p = (s.core d).arch.p := view_part (·.arch.p) (fun _ _ _ _ => rfl) s d
@[simp] theorem view_arch_f (s : State) (d : Nat) : ((view s).core d).arch.f = (s.core d).arch.f := view_part (·.arch.f) (fun _ _ _ _ => rfl) s d
@[simp] theorem view_arch_units (s : State) (d : Nat) : ((view s).core d).arch.units = (s.core d).arch.units := view_part (·.arch.units) (fun _ _ _ _ => rfl) s d
@[simp] theorem view_arch_active (s : State) (d : Nat) : ((view s).core d).arch.active = (s.core d).arch.active := view_part (·.arch.active) (fun _ _ _ _ => rfl) s d
@[simp] theorem view_arch_pb (s : State) (d : Nat) : ((view s).core d).arch.pb = (s.core d).arch.pb := view_part (·.arch.pb) (fun _ _ _ _ => rfl) s d
@[simp] theorem view_arch_st (s : State) (d : Nat) : ((view s).core d).arch.st = (s.core d).arch.st := view_part (·.arch.st) (fun _ _ _ _ => rfl) s d
@[simp] theorem view_arch_srSeq (s : State) (d : Nat) : ((view s).core d).arch.srSeq = (s.core d).arch.srSeq := view_part (·.arch.srSeq) (fun _ _ _ _ => rfl) s d
@[simp] theorem view_arch_maSeq (s : State) (d : Nat) : ((view s).core d).arch.maSeq = (s.core d).arch.maSeq := view_part (·.arch.maSeq) (fun _ _ _ _ => rfl) s d
@[simp] theorem view_arch_ring (s : State) (d : Nat) : ((view s).core d).arch.ring = (s.core d).arch.ring := view_part (·.arch.ring) (fun _ _ _ _ => rfl) s d
@[simp] theorem view_arch_tiles (s : State) (d : Nat) : ((view s).core d).arch.tiles = (s.core d).arch.tiles := view_part (·.arch.tiles) (fun _ _ _ _ => rfl) s d
@[simp] theorem view_arch_keepers (s : State) (d : Nat) : ((view s).core d).arch.keepers = (s.core d).arch.keepers := view_part (·.arch.keepers) (fun _ _ _ _ => rfl) s d
@[simp] theorem view_arch_accs (s : State) (d : Nat) : ((view s).core d).arch.accs = (s.core d).arch.accs := view_part (·.arch.accs) (fun _ _ _ _ => rfl) s d
@[simp] theorem view_arch_maHalt (s : State) (d : Nat) : ((view s).core d).arch.maHalt = (s.core d).arch.maHalt := view_part (·.arch.maHalt) (fun _ _ _ _ => rfl) s d
@[simp] theorem view_arch_rvPass (s : State) (d : Nat) : ((view s).core d).arch.rvPass = (s.core d).arch.rvPass := view_part (·.arch.rvPass) (fun _ _ _ _ => rfl) s d

end Sys2Proof.Machine
end

