-- ==== Sys2Proof/Tests/Slice0.lean ====
section
/-! SUPPORT. Tests of the model's own: terms the checks refuse, words decoded by hand, and states that meet the premises of the statements. -/

open Sys2Proof Sys2Proof.Machine Sys2Proof.Safety

namespace Sys2Proof.Tests

set_option Elab.async false

/-! States to test on. -/

/-- A region with nothing bound to it but sixteen queues. -/
def region0 : Region :=
  { addr := 0, parent := none, leaf := true, fdom := true, det := false, order := false, overlap := false, prio := 0, profile := 1,
    cscope := 0, rrmode := 0, logpol := 0, version := 1, compl := 0, srseed := 0, tieseed := 0, cores := 4, spadk := 4096, cntq := 0,
    fshare := 0, wdlim := 22, qbase := 0, qcnt := 16, image := 0, g := 5, x := 1, y := 1, pb := Vector.replicate 32 0, pblen := 0,
    sstop := 0, sslim := 0, vstop := 0, vslim := 0, ddies := 1, dwidth := 4, dheight := 2, lockg := 0, issued := 1, ended := 0,
    failed := false, stored := false }

/-- A started launch of that region from queue 2. -/
def launch0 : Launch :=
  { id := 0, queue := 2, seq := 1, root := 512, from_ := none, state := .started, validated := true, failed := false,
    ownsLog := false, regions := [region0] }

/-- Task 3 of that launch, on core 0. -/
def ctx0 : Ctx :=
  { id := 5, launch := 0, region := 0, task := 3, grp := 0, x := 0, y := 0, ordinal := 0, core := 0, domain := 0, spadk := 4096,
    lockg := 0, wdlim := 22, key := 7, det := false, image := 0, started := 0 }

/-- A queue of sixteen entries with one sequence value given out. -/
def queue0 : Queue := ⟨true, 4096, 4, 0, 0, 0, 1⟩

/-- An operation of a unit in flight, triggered first. -/
def flight (unit : Nat) : Flight :=
  { unit := unit, seq := 0, slot := 0, dropped := false, bound := 100, due := 130, ready := false, lands := true, y0 := 0, y1 := none,
    mask := none, regs := [], preds := [], posts := [], cause := 1, deferred := true, inTrap := false }

/-- The machine at package time 120 with g current, task 3 running on g's core, and f done to that core. -/
def atCore (g : Trig) (f : Core → Core) : State :=
  { State.reset with
    time := 120
    cur := g
    ctrs := [(7, 40)]
    disp := { State.reset.disp with launches := [launch0], queues := [(2, queue0)], nextLaunch := 1 }
    cores := updAt State.reset.cores g.core fun k => f { k with ctx := some ctx0, flow := .running } }

/-- Operands a, b and c. -/
def ops (a b c : Vec) : Trig := { Trig.none with a := a, b := b, c := c }

/-- The checks of i's operation pass. -/
def goes (i : Instr) (s : State) : Bool :=
  match opOf i with
  | some o => o.chk (view s) { s.cur with unit := o.unit } == .go
  | none => false

theorem admitted_of_goes {i : Instr} {s : State} (h : goes i s = true) : admitted i s := by
  unfold goes at h
  split at h
  · exact .inr ⟨_, by assumption, by simpa using h⟩
  · cases h

/-! Ill-formed terms, which the check refuses. -/

/-- resultLanding names a functional unit, 5 to 23; a table load one of 12 stacks. -/
theorem test_illFormed_units :
    ([.resultLanding 0 4, .resultLanding 0 24, .tableLoadApply 12] : List Instr).all (fun i => !i.wellFormed) = true := by decide +kernel

/-- There are 384 lanes (R304). -/
theorem test_illFormed_lanes :
    ([.xlaneJobStart 384, .xlanePrewaitMet 384, .xlaneTransition 384, .xlaneWaitTimeout 384,
    .xlaneJobEnd 384] : List Instr).all (fun i => !i.wellFormed) = true := by decide +kernel

/-- There are 24 stack engines (R323). -/
theorem test_illFormed_stackEngines :
    ([.seJobStart 24, .sePrewaitMet 24, .seColumnBlock 24, .seWaitTimeout 24,
    .seJobEnd 24] : List Instr).all (fun i => !i.wellFormed) = true := by decide +kernel

/-- A fragment event takes a fragment of its own TYPE (R419). -/
theorem test_illFormed_fragments :
    ([.fragTimeSync 0 0, .fragData 0 1, .fragReservedType 0 7, .fragAck 0 0,
    .fragNak 0 1, .fragReadRequest 0 0, .fragReadResponse 0 6, .fragContribution 0 0,
    .fragContribAck 0 3] : List Instr).all (fun i => !i.wellFormed) = true := by decide +kernel

/-- FCVTIF and FCVTFI take types 0 to 5 and rounding codes 0 to 3 (R64). -/
theorem test_illFormed_conversions :
    ([.fcvtif .f32 0, .fcvtif .i32 4, .fcvtfi .bf16 0, .fcvtfi .ui8 7] : List Instr).all (fun i => !i.wellFormed) = true := by decide +kernel

/-- .u is refused but on AMAX and AMIN, .d on AFADD (R365). -/
theorem test_illFormed_atomics :
    ([.aadd .loc false true, .axchg .glob true true, .acas .loc false true, .aand .smem false true,
    .aor .loc true true, .afadd .glob true false, .afadd .glob false true] : List Instr).all (fun i => !i.wellFormed) = true := by decide +kernel

/-- Rounding codes 0 to 3 on floats, .sat alone on integers; shifts, VIOTA and VMAC take integers (R164, R169). -/
theorem test_illFormed_vectorArithmetic :
    ([.vadd false .f32 4, .vadd true .i8 2, .vsub false .bf16 5, .vsub true .ui32 4,
    .vmul false .f32 7, .vmul true .i16 2, .vshl false .f32, .vshr true .bf16,
    .vsar false .f32, .viota true .f32, .vmac .f32 false, .vabs false .f32 true,
    .vneg true .bf16 true] : List Instr).all (fun i => !i.wellFormed) = true := by decide +kernel

/-- VM functions take f32 or bf16 with rounding codes 0 to 3; VDOT4 takes types 0, 1 and 7 (R169 to R171). -/
theorem test_illFormed_vectorFunctions :
    ([.vfma .i32 0, .vfma .f32 4, .vfms .i8 0, .vfnma .f32 5,
    .vdiv .i32 0, .vsqrt .f32 4, .vrcp .ui8 0, .vrsq .bf16 6,
    .vexp2 .i16 0, .vlog2 .f32 4, .vtanh .ui32 0, .vdot4 .i8 2,
    .vdot4 .bf16 4, .vdot4 .i32 0] : List Instr).all (fun i => !i.wellFormed) = true := by decide +kernel

/-- VPACK and VUNPACK take formats 1 to 8, VPLANE 1 to 7 (R174, R177); VACCRD and VACCWR the forms of R178 and R179. -/
theorem test_illFormed_formats :
    ([.vpack 0, .vpack 9, .vunpack 0, .vunpack 12,
    .vplane 0, .vplane 8, .vaccrd .f32 5, .vaccrd .ui32 1,
    .vaccrd .i32 0, .vaccwr .bf16, .vaccwr .i32] : List Instr).all (fun i => !i.wellFormed) = true := by decide +kernel

/-- VS takes types 4, 5 and 6; COMB and PTYPE 3 are refused (R180, R184). -/
theorem test_illFormed_reductions :
    ([.vrsum .i8 false, .vrmax .bf16 true, .vrmin .ui16 false, .vargmax .i16 false,
    .vargmin .bf16 false, .vscan .ui8 false true, .vsort .i8 false, .vtopk .bf16 false false,
    .vuniq .i16 true, .vmerge 3 false false 0, .vmerge 0 false false 3] : List Instr).all (fun i => !i.wellFormed) = true := by decide +kernel

/-- ENC 3 is refused; KCVT converts between two encodings; KFOLD and KAMAX take no band (R202). -/
theorem test_illFormed_keepers :
    ([.kadde false 3, .kmax true 3, .kmin false 3, .kcvt false 1 1,
    .kcvt false 3 0, .kcvt false 0 3, .kfold false 2, .kamax true 3] : List Instr).all (fun i => !i.wellFormed) = true := by decide +kernel

/-! Words written out from the tables of the spec: unit, 3 in bits 14 and 15, the opcode by R51 from bit 6, and the modifier. -/

/-- Opcodes of unit IA0 in the order of R51, each with a modifier that its table accepts. -/
def wordsIA0 : List Nat :=
    [0x5C040, 0x5C080, 0x5C0C0, 0x5C100, 0x5C140, 0x5C180, 0x5C1C0, 0x5C200, 0x5C240, 0x5C280, 0x5C2C0, 0x5C300, 0x5C340, 0x5C380,
    0x5C3C0, 0x5C400, 0x5C440, 0x5C480, 0x5C4C0, 0x5C500, 0x5C540, 0x5C580, 0x5C5C0, 0x5C600, 0x5C640, 0x5C680, 0x5C6C0, 0x5C700,
    0x5C740]

theorem test_decode_IA0 :
    wordsIA0.map (decodeTableWord 24)
    = [(.add false), (.sub false), (.and false), (.or false),
    (.xor false), (.andn false), (.shl false), (.shr false),
    (.sar false), (.rol false), (.ceq false), (.cne false),
    (.clt false), (.cltu false), (.cle false), (.cleu false),
    (.min false), (.max false), (.minu false), (.maxu false),
    (.sel false), (.clz false), (.ctz false), (.popc false),
    (.sext false), (.zext false), (.addsh false), (.bfx false),
    (.bfi false)].map some := by decide +kernel

/-- Opcodes of unit IM in the order of R51, each with a modifier that its table accepts. -/
def wordsIM : List Nat :=
    [0x7C040, 0x7C080, 0x7C0C0, 0x7C100, 0x7C140, 0x7C180, 0x7C1C0]

theorem test_decode_IM :
    wordsIM.map (decodeTableWord 24)
    = [(.mul), (.mulh), (.mulhu), (.div),
    (.divu), (.rem), (.remu)].map some := by decide +kernel

/-- Opcodes of unit FS in the order of R51, each with a modifier that its table accepts. -/
def wordsFS : List Nat :=
    [0x8C040, 0x8C080, 0x8C0C0, 0x8C100, 0x8C140, 0x8C180, 0x8C1C0, 0x8C200, 0x8C240, 0x8C280, 0x8C2C0, 0x8C31D, 0x8C34C, 0x8C380]

theorem test_decode_FS :
    wordsFS.map (decodeTableWord 24)
    = [(.fadd), (.fsub), (.fmul), (.fma),
    (.fdiv), (.fsqrt), (.fmin), (.fmax),
    (.fceq), (.fclt), (.fcle), (.fcvtif .ui32 3),
    (.fcvtfi .i32 1), (.fclass)].map some := by decide +kernel

/-- Opcodes of unit LS in the order of R51, each with a modifier that its table accepts. -/
def wordsLS : List Nat :=
    [0x9C041, 0x9C082, 0x9C0C2, 0x9C102, 0x9C142, 0x9C182, 0x9C1C2, 0x9C202, 0x9C242, 0x9C282, 0x9C2C0, 0x9C300, 0x9C340, 0x9C382]

theorem test_decode_LS :
    wordsLS.map (decodeTableWord 24)
    = [(.ldb .glob), (.ldbu .smem), (.ldh .smem), (.ldhu .smem),
    (.ldw .smem), (.ldwu .smem), (.ldd .smem), (.stb .smem),
    (.sth .smem), (.stw .smem), (.std .loc), (.qmark),
    (.fence), (.pref .smem)].map some := by decide +kernel

/-- Opcodes of unit BC in the order of R51, each with a modifier that its table accepts. -/
def wordsBC : List Nat :=
    [0xAC040, 0xAC080, 0xAC0C0, 0xAC100, 0xAC140, 0xAC180, 0xAC1C0, 0xAC200, 0xAC240, 0xAC280, 0xAC2C0]

theorem test_decode_BC :
    wordsBC.map (decodeTableWord 24)
    = [(.br), (.jmp), (.call), (.calli),
    (.ret), (.loop), (.lset), (.enter),
    (.leave), (.trap), (.halt)].map some := by decide +kernel

/-- Opcodes of unit CT in the order of R51, each with a modifier that its table accepts. -/
def wordsCT : List Nat :=
    [0xBC040, 0xBC080, 0xBC0C0, 0xBC105, 0xBC14D, 0xBC188, 0xBC1C5, 0xBC205, 0xBC242, 0xBC285, 0xBC2C5]

theorem test_decode_CT :
    wordsCT.map (decodeTableWord 24)
    = [(.cadd), (.cwait), (.cread), (.aadd .glob true false),
    (.amax .glob true true), (.amin .loc false true), (.axchg .glob true false), (.acas .glob true false),
    (.afadd .smem false false), (.aand .glob true false), (.aor .glob true false)].map some := by decide +kernel

/-- Opcodes of unit SY in the order of R51, each with a modifier that its table accepts. -/
def wordsSY : List Nat :=
    [0xCC040, 0xCC080, 0xCC0C0, 0xCC101, 0xCC180, 0xCC1C0, 0xCC200, 0xCC240]

theorem test_decode_SY :
    wordsSY.map (decodeTableWord 24)
    = [(.mvst), (.mvts), (.pbw), (.crpop true),
    (.grpinc), (.launch), (.eret), (.rlog)].map some := by decide +kernel

/-- Opcodes of unit VA0 in the order of R51, each with a modifier that its table accepts. -/
def wordsVA0 : List Nat :=
    [0xDC056, 0xDC08A, 0xDC0C1, 0xDC107, 0xDC144, 0xDC180, 0xDC1C0, 0xDC200, 0xDC240, 0xDC280, 0xDC2C3, 0xDC305, 0xDC346, 0xDC381,
    0xDC3C2, 0xDC407, 0xDC440, 0xDC488, 0xDC4C6, 0xDC506, 0xDC573, 0xDC584, 0xDC5C0, 0xDC600, 0xDC640, 0xDC680, 0xDC6C0, 0xDC708,
    0xDC748, 0xDC780, 0xDC7C1, 0xDC801]

theorem test_decode_VA0 :
    wordsVA0.map (decodeTableWord 24)
    = [(.vadd false .f32 2), (.vsub false .i16 1), (.vmul false .ui8 0), (.vmin false .bf16),
    (.vmax false .i32), (.vand false), (.vor false), (.vxor false),
    (.vandn false), (.vshl false .i8), (.vshr false .ui16), (.vsar false .ui32),
    (.vceq false .f32), (.vcne false .ui8), (.vclt false .i16), (.vcle false .bf16),
    (.vsel false), (.vabs false .i8 true), (.vneg false .f32 false), (.vclamp false .f32),
    (.vcvt false .ui16 .f32), (.viota false .i32), (.pand false), (.por false),
    (.pxor false), (.pandn false), (.pnot false), (.pcnt false true),
    (.pfirst false true), (.psetn false), (.ppack false true), (.punpack false true)].map some := by decide +kernel

/-- Opcodes of unit VM in the order of R51, each with a modifier that its table accepts. -/
def wordsVM : List Nat :=
    [0xFC046, 0xFC08F, 0xFC0D6, 0xFC11F, 0xFC146, 0xFC18F, 0xFC1D6, 0xFC21F, 0xFC246, 0xFC28F, 0xFC2DF, 0xFC30A]

theorem test_decode_VM :
    wordsVM.map (decodeTableWord 24)
    = [(.vfma .f32 0), (.vfms .bf16 1), (.vfnma .f32 2), (.vdiv .bf16 3),
    (.vsqrt .f32 0), (.vrcp .bf16 1), (.vrsq .f32 2), (.vexp2 .bf16 3),
    (.vlog2 .f32 0), (.vtanh .bf16 1), (.vdot4 .bf16 3), (.vmac .i16 true)].map some := by decide +kernel

/-- Opcodes of unit VP in the order of R51, each with a modifier that its table accepts. -/
def wordsVP : List Nat :=
    [0x10C042, 0x10C084, 0x10C0C0, 0x10C10A, 0x10C146, 0x10C185, 0x10C1C8, 0x10C201, 0x10C240, 0x10C288, 0x10C2E6, 0x10C305, 0x10C347]

theorem test_decode_VP :
    wordsVP.map (decodeTableWord 24)
    = [(.vshuf .i16), (.vrot .i32), (.vbcast .i8), (.vzip .i16 true),
    (.vunzip .f32 false), (.vslide .ui32), (.vpack 8), (.vunpack 1),
    (.vexpand), (.vcompress true), (.vaccrd .f32 4), (.vaccwr .ui32),
    (.vplane 7)].map some := by decide +kernel

/-- Opcodes of unit VL in the order of R51, each with a modifier that its table accepts. -/
def wordsVL : List Nat :=
    [0x11C041, 0x11C080, 0x11C0CC, 0x11C105, 0x11C150, 0x11C181, 0x11C1D1, 0x11C201, 0x11C25F, 0x11C280, 0x11C2C0]

theorem test_decode_VL :
    wordsVL.map (decodeTableWord 24)
    = [(.vld true), (.vst false), (.vlds false .f32), (.vsts true .i16),
    (.vgath false true), (.vscat true false), (.vscatadd true true), (.vldz true),
    (.vstz true .bf16 true), (.vldt), (.vstt)].map some := by decide +kernel

/-- Opcodes of unit VS in the order of R51, each with a modifier that its table accepts. -/
def wordsVS : List Nat :=
    [0x12C04E, 0x12C084, 0x12C0C5, 0x12C10E, 0x12C144, 0x12C195, 0x12C1CC, 0x12C216, 0x12C24C, 0x12C28D]

theorem test_decode_VS :
    wordsVS.map (decodeTableWord 24)
    = [(.vrsum .f32 true), (.vrmax .i32 false), (.vrmin .ui32 false), (.vargmax .f32 true),
    (.vargmin .i32 false), (.vscan .ui32 false true), (.vmerge 0 true true 0), (.vsort .f32 true),
    (.vtopk .i32 true false), (.vuniq .ui32 true)].map some := by decide +kernel

/-- Opcodes of unit MA in the order of R51, each with a modifier that its table accepts. -/
def wordsMA : List Nat :=
    [0x13C040, 0x13C080, 0x13C0C0, 0x13C100, 0x13C140, 0x13C180, 0x13C1C0, 0x13C200, 0x13C240]

theorem test_decode_MA :
    wordsMA.map (decodeTableWord 24)
    = [(.mma), (.mdrain), (.msave), (.mload),
    (.mrawadd), (.mzero), (.mchk), (.mclr),
    (.mseed)].map some := by decide +kernel

/-- Opcodes of unit KP in the order of R51, each with a modifier that its table accepts. -/
def wordsKP : List Nat :=
    [0x14C041, 0x14C082, 0x14C0C5, 0x14C100, 0x14C162, 0x14C183, 0x14C1C0, 0x14C200, 0x14C240, 0x14C280, 0x14C2C8, 0x14C301, 0x14C340]

theorem test_decode_KP :
    wordsKP.map (decodeTableWord 24)
    = [(.kmov true), (.kadde false 1), (.kmax true 2), (.kmin false 0),
    (.kcvt false 1 2), (.kfold true 1), (.kamax false 0), (.kbind),
    (.kunbind), (.krebind), (.kgen true), (.kld true),
    (.kst)].map some := by decide +kernel

/-- Opcodes of unit TT in the order of R51, each with a modifier that its table accepts. -/
def wordsTT : List Nat :=
    [0x15C040, 0x15C080, 0x15C0C0, 0x15C140, 0x15C180]

theorem test_decode_TT :
    wordsTT.map (decodeTableWord 24)
    = [(.tcfg), (.tstate), (.trel), (.thand),
    (.ttake)].map some := by decide +kernel

/-- Opcodes of unit CE in the order of R51, each with a modifier that its table accepts. -/
def wordsCE : List Nat :=
    [0x16C041, 0x16C080, 0x16C101, 0x16C141, 0x16C181, 0x16C1C1, 0x16C201, 0x16C241, 0x16C281]

theorem test_decode_CE :
    wordsCE.map (decodeTableWord 24)
    = [(.cque true), (.cstat), (.rinit true), (.rawait true),
    (.rrel true), (.tdmk true), (.xjob true), (.xtab true),
    (.sejob true)].map some := by decide +kernel

/-- Opcodes of unit FX in the order of R51, each with a modifier that its table accepts. -/
def wordsFX : List Nat :=
    [0x17C081, 0x17C0C1, 0x17C100, 0x17C141, 0x17C180]

theorem test_decode_FX :
    wordsFX.map (decodeTableWord 24)
    = [(.fwrite true), (.fread true), (.fcadd), (.fred true),
    (.frate)].map some := by decide +kernel

/-- The second unit of each pair shares the first one's map (R51). -/
theorem test_decode_secondUnits :
    [0x6C040, 0x6C740, 0xEC056, 0xEC801].map (decodeTableWord 24)
    = [.add true, .bfi true, .vadd true .f32 2, .punpack true true].map some := by decide +kernel

/-- A mode operand selects the row: b of CURQ and FFLOW, a of TMARK and CCLR, b<8> of FRWIN (R89, R219, R299, R442, R450). -/
theorem test_decode_modes :
    ([(0xCC140, 0, 0, .curqStart), (0xCC140, 0, 1, .curqDesc), (0x15C100, 0, 0, .tmarkOpen),
    (0x15C100, 1, 0, .tmarkClose), (0x15C100, 2, 0, .tmarkReopen), (0x16C0C0, 0, 0, .cclrRetry),
    (0x16C0C0, 1, 0, .cclrAbandonChain), (0x16C0C0, 2, 0, .cclrAbandonAll), (0x17C040, 0, 0, .fflowOpen),
    (0x17C040, 0, 1, .fflowAccept), (0x17C040, 0, 2, .fflowCloseSend), (0x17C040, 0, 3, .fflowCloseRecv),
    (0x17C1C1, 0, 0, .frwinRegister true), (0x17C1C1, 0, 256, .frwinRemove true)] : List (Nat × Nat × Nat × Instr)).all
      (fun x => match decodeTrigger x.1 x.2.1 x.2.2.1 with
        | .ok i => i == x.2.2.2
        | .error _ => false) = true := by decide +kernel

/-- Words that R53 refuses: opcode 0, an opcode beyond the map, a port other than the trigger, a register file, a modifier on ADD, a
reserved rounding code, a reserved unit, both space bits, an unused VL bit. -/
theorem test_decode_refused :
    [0x5C000, 0x5C780, 0x58040, 0xC040, 0x5C041, 0xDC06E, 0x18C040, 0x9C043, 0x11C042].map (decodeTableWord 24) = List.replicate 9 none := by
  decide +kernel

/-- The bundle of the worked example under R53: its transports and header, field by field. -/
theorem test_exampleBundle :
    let b : Bundle := BitVec.ofNat 384 (0x19400000 * 2 ^ 322 + 0x6029701000 * 2 ^ 276 + 0x324600007000 * 2 ^ 230)
    hdrBits b = 0 ∧ longLit b = false ∧
      ([0, 1, 2].map fun k => (tSrc (slotBits b k), tDest (slotBits b k), tDelay (slotBits b k))) =
        [(0x003, 0x50000, 0), (0xC05, 0x5C040, 0), (0x8C0, 0x001C0, 0)] ∧
      (tGidx (slotBits b 2), tGinv (slotBits b 2), tGen (slotBits b 2)) = (2, true, true) ∧
      ([3, 4, 5, 6, 7].all fun k => slotBits b k == 0) := by decide +kernel

/-- The check value of CRC-32C (R55): of the nine characters 123456789. -/
theorem test_crc32c : crc32c 9 0x393837363534333231 = 0xE3069283 := by decide +kernel

/-- The published check of Philox4x32-10 (R151): key 0 and counter 0. -/
theorem test_philox : philox 0 0 0 0 0 = (0x6627E8D5, 0xE169C58D, 0xBC57AC4C, 0x9B00DBD8) := by decide +kernel

/-- As the first instruction after reset, each of these words runs to a next state. -/
theorem test_step_words :
    (wordsIA0 ++ wordsIM ++ wordsFS ++ wordsLS ++ wordsBC ++
      wordsCT ++ wordsSY ++ wordsVA0 ++ wordsVM ++ wordsVP ++ wordsVL ++
      wordsVS ++ wordsMA ++ wordsKP ++ wordsTT ++ wordsCE ++ wordsFX).all (fun w =>
      match step (State.reset.withFetchWord 24 w) with
      | .next _ => true
      | _ => false) = true := by decide +kernel

/-! Premises of the statements about the scalar units. -/

theorem witness_ScalarIntegerResults :
    let s := atCore (ops 7 0 0) id
    opB (atCore (ops 7 3 0) id) ≠ 0 ∧ opB s = 0 ∧ s.cur.checked = false := by decide +kernel

theorem witness_ScalarFloatOperations :
    let nans := fun a b => let s := atCore (ops a b 0) id; ((f32 (opA s).toNat).isNan, (f32 (opB s).toNat).isNan)
    nans 0x3F800000 0 = (false, false) ∧ nans 0x7FC00000 0 = (true, false) ∧ nans 0 0x7F800001 = (false, true) ∧
    nans 0x7FC00000 0xFFC00000 = (true, true) := by decide +kernel

/-- Page 0x8000 is translated to readable and writable memory, with atomics. -/
def mapped (k : Core) : Core := { k with tlb := [⟨false, 0x8000, 0x1D⟩] }

/-- Operands of a scalar access to one space. -/
def accessIn (sp : Space) : State :=
  atCore (ops (match sp with | .loc => 0x40 | .glob => 0x80001000 | .smem => 0x100) 8 0) mapped

theorem witness_ScalarAccesses (sp : Space) :
    (goes (.ldb sp) (accessIn sp) && goes (.ldd sp) (accessIn sp) && goes (.std sp) (accessIn sp) &&
      goes (.aadd sp true false) (accessIn sp) && goes (.acas sp false false) (accessIn sp)) = true ∧
    (accessIn sp).pkg.windows = [] := by cases sp <;> decide +kernel

theorem witness_ScalarAccesses_misaligned :
    let s := atCore (ops 0x80001001 0 0) mapped
    s.cur.checked = false ∧ (s.core s.cur.core).fences = [] ∧ (opA s + opB s).toNat % 2 ≠ 0 ∧
    (coreAccess (view s) 0 pathS true true true (opA s + opB s).toNat 4).toOption.isSome = true := by decide +kernel

/-- The global page of 0x90000000 is known to have no translation, that of 0x80000000 denies stores, and that of 0xA0000000 lies in no
populated memory. -/
def faultyPages (k : Core) : Core :=
  { k with tlb := [⟨false, 0x8000, 5⟩, ⟨false, 0xA000, BitVec.ofNat 64 (2 ^ 44 - 2 ^ 16 + 0x1D)⟩], walked := [(0x9000, none)] }

theorem witness_ScalarAccesses_addresses :
    let s := fun a => atCore (ops a 0 0) faultyPages
    let page := fun a => tlbHit (view (s (wide a))) 0 a
    let pa := fun a => (page a).map fun e => paThrough (s (wide a)) e.pte.toNat e.large a
    (s 0).cur.checked = false ∧ ((s 0).core 0).fences = [] ∧ (s 0).pkg.draining = false ∧ (s 0).pkg.windows = [] ∧
    spadLimit (s 0) 0 < 0x3FFFFF + 2 ∧ nth ((view (s 0)).core 0).arch.slots 0 none = none ∧
    (page 0x90000000).isNone = true ∧ walkFailed ((view (s 0)).core 0) 0x90000000 = true ∧ pa 0xA0000000 = some none ∧
    pa 0x80000000 = some (some 0) ∧ (page 0x80000000).any (fun e => !pagePermits e.pte.toNat 0 false true false) = true := by decide +kernel

/-- An access of a path, due, to n bytes at one home, by a unit. -/
def accessTo (path : Nat) (kind : AccessKind) (unit n : Nat) (at_ : Loc) : Access :=
  ⟨path, 0, unit, 0, kind, [⟨at_, n, 0⟩], 100, false, []⟩

/-- That access alone in core 0's queues, its unit in flight. -/
def oneAccess (x : Access) : State := atCore (ops 0 0 0) fun k => { k with accesses := [x], flights := [flight x.unit] }

theorem witness_PerformedScalarAccesses :
    ∀ kind ∈ [AccessKind.load 8 true [], .amo .add 1 0, .store 5], ∀ at_ ∈ [Loc.arr 0 0x40, .pa 0x51000],
      let x := accessTo pathS kind 9 8 at_
      let s := oneAccess x
      (s.core 0).accesses = [x] ∧ x.due ≤ s.time ∧ (s.core 0).flights = [flight x.unit] ∧ (flight 9).seq = x.seq ∧
      (s.core 0).poison = [] ∧ (s.core 0).upsets = [] ∧ Memory.wf (nth s.lmem 0 []) ∧ homeCut s 0 at_ = false ∧
      s.pkg.hbmPoison = [] ∧ s.pkg.hbmUpsets = [] ∧ rrMode s ctx0 = 0 := by decide +kernel

theorem witness_MarkersAndFences :
    let q := oneAccess (accessTo pathS (.load 8 true []) 9 8 (.arr 0 0x40))
    let s := atCore { ops 0 7 0 with stage := 1 } fun k => { k with flights := [flight 9] }
    let w := oneAccess { accessTo pathS (.load 8 true []) 9 8 (.arr 0 0x40) with seq := 4 }
    (q.core 0).accesses.any (fun a => a.path = pathS) = true ∧ (s.core 0).accesses.any (fun a => a.path = pathS) = false ∧
    q.cur.stage = 0 ∧ s.cur.stage ≠ 0 ∧ pathsDone s 0 (BitVec.ofNat 8 (opB s).toNat) s.cur.seq = true ∧ (s.core 0).flights = [flight 9] ∧
    (flight 9).seq = s.cur.seq ∧ pathsDone w 0 7 9 = false := by decide +kernel

theorem witness_JumpsTrapsAndHalts :
    let s := atCore (ops 0 40 0) id
    let h := atCore { Trig.none with stage := 1 } fun k => { k with flow := .halting }
    (opB s).toNat ≤ 32767 ∧ 32767 < (opB (atCore (ops 0 40000 0) id)).toNat ∧ s.cur.checked = false ∧ s.cur.inTrap = false ∧
    (s.core 0).pend.length < 16 ∧ (s.core 0).flow ≠ .returning ∧ h.cur.stage ≠ 0 ∧ (h.core 0).flow = .halting ∧
    (h.core 0).quiet = true ∧ (h.core 0).accesses = [] ∧ (h.core 0).seg = none ∧ (h.core 0).pend = [] ∧
    (h.core 0).rewind = none := by decide +kernel

theorem witness_LoopsCountAndRotate :
    let s := atCore (ops 0 (wide (2 ^ 64 - 6)) 0) id
    let t := atCore { ops 0 (wide (2 ^ 64 - 6)) 0 with pc := 50 } fun k => { k with arch := k.arch.setSr 9 5 }
    let far := atCore { ops 0 40000 0 with pc := 50 } fun k => { k with arch := k.arch.setSr 9 5 }
    ((s.core 0).arch.sr 9).toNat ≤ 1 ∧ 1 < ((t.core 0).arch.sr 9).toNat ∧
    (BitVec.ofInt 64 (t.cur.pc + (opB t).toInt)).toNat = 44 ∧ 1 < ((far.core 0).arch.sr 9).toNat ∧ far.cur.checked = false ∧
    32767 < (BitVec.ofInt 64 (far.cur.pc + (opB far).toInt)).toNat := by decide +kernel

/-- A frame is being opened or closed at 0x8000, with one KiB of vector stack. -/
def frame : State :=
  atCore { ops 32 1 0 with aux := 0x4000 + 0x8100 * 2 ^ 64 + 0x8000 * 2 ^ 128 } id

theorem witness_FramesOpenAndClose :
    admitted .enter frame ∧ admitted .leave frame ∧ (frame.core 0).accesses = [] :=
  ⟨admitted_of_goes (by decide +kernel), admitted_of_goes (by decide +kernel), rfl⟩

theorem witness_FramesOpenAndClose_faults :
    let s := atCore { ops 32 1 0 with aux := 0x4000 + 0x8000 * 2 ^ 128 } fun k => { k with arch := k.arch.setSr 5 0x7FF0 }
    (s.core 0).fences = [] ∧ s.cur.checked = false ∧ (opA s).toNat % 16 = 0 ∧ 32 ≤ (opA s).toNat ∧
    0x8000 - (opA s).toNat < ((s.core 0).arch.sr 5).toNat ∧ (opA (atCore (ops 40 1 0) id)).toNat % 16 ≠ 0 := by decide +kernel

theorem witness_CountersAddWaitAndRead :
    let s := atCore (ops 7 5 0) id
    let t := atCore { ops 7 5 0 with stage := 1 } fun k => { k with flights := [flight 11] }
    (goes .cadd s && goes .cwait s && goes .cread s && goes .cadd t) = true ∧ (s.core 0).seg = none ∧
    linkDown s 0 0 = false ∧ pathsDone t 0 (BitVec.ofNat 8 (opC t).toNat) (t.cur.covers t) = true ∧ rrMode t ctx0 = 0 ∧
    t.waiters = [] ∧ (t.core 0).flights = [flight 11] ∧ (opB s).toNat ≤ ctrValue s.ctrs 7 ∧
    ctrValue s.ctrs 7 < (opB (atCore (ops 7 50 0) id)).toNat ∧ goes .cwait (atCore (ops 7 50 0) id) = true ∧
    (opA (atCore (ops (2 ^ 17) 0 0) id)).toNat / 2 ^ 17 ≠ s.pkg.nodeId := by decide +kernel

theorem witness_StateRegistersAndParameterWords :
    let n := fun (b : Vec) => (opB (atCore (ops 0 b 0) id)).toNat
    n 21 = 21 ∧ n 22 = 22 ∧ ((atCore (ops 0 21 0) id).core 0).arch.ring.reserved = [] ∧
    n 1 = 1 ∧ n 23 < 24 ∧ 24 ≤ n 24 ∧ n 31 < 32 ∧ 32 ≤ n 32 ∧ n 23 ∈ [0, 2, 4, 16, 17, 18, 19, 20, 23] ∧
    (atCore (ops 0 24 0) id).cur.checked = false := by decide +kernel

theorem witness_CompletionRingPops :
    let s := atCore { Trig.none with stage := 1 } fun k => { k with
      flights := [flight 12]
      arch := { k.arch with ring := { k.arch.ring with written := 2 } } }
    let at_ := 0x400000 + (s.core 0).arch.crBase + 16 * ((s.core 0).arch.ring.popped % 2 ^ (s.core 0).arch.crSize)
    s.cur.stage ≠ 0 ∧ (s.core 0).arch.ring.popped < (s.core 0).arch.ring.written ∧ at_ + 16 ≤ 0x440000 ∧
    (s.core 0).poison = [] ∧ (s.core 0).upsets = [] ∧ (s.core 0).flights = [flight 12] ∧ (flight 12).seq = s.cur.seq := by
  decide +kernel

theorem witness_NextCurrySlot :
    opB (atCore (ops 0 1 0) id) = 1 ∧ opB (atCore (ops 0 2 0) id) ≠ 1 ∧ (atCore (ops 0 2 0) id).cur.checked = false := by
  decide +kernel

theorem witness_GroupsLaunchesReturnsAndLogs :
    let s := atCore (ops 512 2 0) id
    let e := atCore { Trig.none with stage := 1 } fun k => { k with flow := .returning, arch := k.arch.setSr 0 1 }
    let full := { s with disp := { s.disp with queues := [(2, { queue0 with log2n := 0 })], launches := [{ launch0 with state := .queued }] } }
    (s.core 0).ctx = some ctx0 ∧ regionOf s ctx0.ref = some region0 ∧ (s.core 0).seg = none ∧
    2 ^ 32 ≤ region0.g + (opB (atCore (ops 0 (2 ^ 32 - 1) 0) id)).toNat % 2 ^ 32 ∧ region0.g + (opB s).toNat % 2 ^ 32 < 2 ^ 32 ∧
    (goes .launch s && goes .launch full && goes .eret e) = true ∧ pathsDone s 0 7 (s.cur.covers s) = true ∧
    2 ^ (full.queue 2).log2n ≤ queuedCount full 2 ∧ queuedCount s 2 < 2 ^ (s.queue 2).log2n ∧
    (e.core 0).flow = .returning ∧ (e.core 0).quiet = true ∧ s.cur.checked = false ∧ (s.core 0).arch.inTrap = false ∧ rrMode s ctx0 = 0 := by
  decide +kernel

/-! Premises of the statements about the vector units. -/

theorem witness_VectorArithmetic : tyFloat .i32 = false ∧ tyFloat .ui8 = false ∧ tyFloat .f32 = true ∧ tyFloat .bf16 = true ∧
    tyWidth .f32 = 32 ∧ tyWidth .ui32 = 32 := by decide

/-- The word of a 32 by 32 tile in one KiB block of the scratchpad, in a format, in plain rows or in planes. -/
def tileWord (base fmt planes : Nat) : Word :=
  BitVec.ofNat 64 (base + 31 * 2 ^ 16 + 31 * 2 ^ 26 + fmt * 2 ^ 36 + planes * 2 ^ 40)

/-- A core whose tile 3 is ready and whose tiles 4 and 5 are being filled by the program, 4 in plain rows and 5 in planes. -/
def stocked (k : Core) : Core := { k with
  arch := { k.arch with
    tiles := ((k.arch.tiles.set 3 { Tile.reset with word := tileWord 0 9 0, cfg := true, state := .ready }).set 4
      { Tile.reset with word := tileWord 4 9 0, cfg := true, state := .filling }).set 5
      { Tile.reset with word := tileWord 8 6 1, cfg := true, state := .filling } } }

theorem witness_VectorChecks :
    let s := atCore (ops 0 1 0) stocked
    (goes (.pcnt false true) s && goes (.pfirst true false) s && goes (.vcvt false .f32 .i8) s && goes (.vcompress true) s &&
      goes (.vpack 8) s && goes (.vunpack 6) s && goes (.vaccrd .f32 0) s && goes (.vaccrd .ui32 0) s && goes (.vaccwr .f32) s &&
      goes (.vaccwr .ui32) s && goes (.vrsum .f32 true) s && goes (.vrmax .i32 false) s && goes (.vrmin .f32 false) s &&
      goes (.vargmax .ui32 true) s && goes (.vargmin .ui32 true) s && goes (.vscan .i32 false true) s &&
      goes (.vtopk .f32 true false) s && goes (.vuniq .i32 true) s && goes (.vmerge 0 false true 0) s) = true ∧
    (opB s).toNat % 2 ^ 32 ≤ 256 := by decide +kernel

theorem witness_ReductionsAndScan :
    let ins := fun (m : Option Mask) => let s := atCore { ops 0 (lanesOf [5, 9]) 0 with mask := m } id
      (((List.range 256).filter (shown s)).map fun l => (l, lane s.cur.b l)).length
    ins none = 256 ∧ ins (some 0) = 0 := by decide +kernel

theorem witness_VectorLoadsAndStores :
    let s := atCore (ops 0x400 7 8) stocked
    (goes (.vld false) s && goes (.vst false) s && goes (.vlds false .f32) s && goes (.vsts false .i8) s &&
      goes (.vld true) (atCore (ops 0x80001000 0 0) mapped) && goes .vldt (atCore (ops 3 0 0) stocked) &&
      goes .vstt (atCore (ops 4 0 0) stocked) && goes .vstt (atCore (ops 5 0 0) stocked)) = true ∧
    tPlanes (tileAt s 0 4).word.toNat = false ∧ tPlanes (tileAt s 0 5).word.toNat = true := by decide +kernel

/-- Scratchpad 0x2000 holds the header of a point-3 buffer, and 0x3000 one of another point. -/
def withHeaders (g : Trig) : State :=
  let header := 0x5A434C42 + 1024 * 2 ^ 64 + 132 * 2 ^ 96 + 192 * 2 ^ 128
  let s := atCore g id
  { s with lmem := updAt s.lmem g.core fun _ => memPut (memPut [] 0x2000 64 (header + 3 * 2 ^ 36)) 0x3000 64 header }

/-- A descriptor's seal comes from an opaque key, so its check is taken as made when the bundle issued. -/
theorem witness_GathersAndScatters (g cr : Bool) :
    let s := atCore { ops 0x800 0 0 with checked := true } id
    admitted (.vgath g cr) s ∧ admitted (.vscat g cr) s ∧ admitted (.vscatadd g cr) s := ⟨.inl rfl, .inl rfl, .inl rfl⟩

theorem witness_CompressedVectors :
    let s := withHeaders (ops 0x2000 0 (128 + 3 * 2 ^ 24))
    let t := withHeaders (ops 0x3000 0 0)
    (goes (.vldz false) s && goes (.vldz false) t && goes (.vstz false .bf16 true) s) = true ∧
    zipHeader (view s) false (asUnit s 17) / 2 ^ 36 % 4 = 3 ∧ zipHeader (view t) false (asUnit t 17) / 2 ^ 36 % 4 ≠ 3 := by
  decide +kernel

theorem witness_PerformedVectorAccesses :
    ∀ kind ∈ [AccessKind.load 1024 false [], .scatAdd .f32 3, .planes 6 0 5 none, .unzip 0 0x2000 2],
      let x := accessTo pathV kind 17 704 (.arr 0 0x40)
      let y := accessTo pathV kind 17 704 (.pa 0x51000)
      let s := oneAccess x
      (s.core 0).accesses = [x] ∧ nth (s.core 0).captured 1 [] = [] ∧ x.due ≤ s.time ∧ 0x40 + 704 ≤ 0x400000 ∧ (s.core 0).poison = [] ∧
      (s.core 0).upsets = [] ∧ (s.core 0).flights = [flight x.unit] ∧ (flight 17).seq = x.seq ∧
      ((oneAccess y).core 0).accesses = [y] ∧ homeCut (oneAccess y) 0 (.pa 0x51000) = false := by decide +kernel

theorem witness_PerformedVectorAccesses_unzip :
    (expandBuffer none (0x5A434C42 + 3 * 2 ^ 36 + 1024 * 2 ^ 64 + 132 * 2 ^ 96 + 192 * 2 ^ 128) (1023 * 2 ^ 16)).toOption.isSome = true ∧
    (expandBuffer none 0 5).toOption.isNone = true := by decide +kernel

/-! Premises of the statements about the matrix unit, keepers, tiles and buffers. -/

theorem witness_WindowAccumulatorArithmetic :
    let x : BlockEl := ⟨false, 3, 0, false, false⟩
    let a : AccEl := ⟨.fin, 5, 10⟩
    let c : Contribution := ⟨.fin, 7, -3⟩
    x.inf = false ∧ x.nan = false ∧ x.q + x.q = 0 ∧ (0 : Int) + 1 + 1 + 5 - 75 ≤ 0 ∧ a.cls = .fin ∧ c.cls = .fin ∧ c.p ≠ 0 ∧
    a.s * 2 ^ 13 + c.p ≠ 0 ∧ -(2 ^ 94) ≤ a.s ∧ a.s < 2 ^ 94 ∧ -2048 ≤ a.e ∧ a.e ≤ 2047 ∧ (pcwOf 1).profile ≠ 2 := by decide +kernel

/-- An MMA of profile 1 on tiles 2 and 3, both of BSF8 codes, into accumulator 1. -/
def mmaState (f : Core → Core) : State :=
  atCore { ops (1 + 2 * 2 ^ 8 + 3 * 2 ^ 16) (1 + 6 * 32 + 6 * 512 + 2 ^ 21) 0 with
    checked := true, dest := 64 + 19 * 2 ^ 14, aux := 1 + 2 * 2 ^ 64 } fun k => f { k with
      arch := { k.arch with
        tiles := (k.arch.tiles.set 2 { Tile.reset with word := tileWord 0 6 0, cfg := true, state := .ready, busy := 1 }).set 3
          { Tile.reset with word := tileWord 4 6 1, cfg := true, state := .ready, busy := 1 } } }

/-- That MMA in the array's queue. -/
def mmaOp (began : Option Nat) (marked : Bool) (replays : Nat) : MmaOp :=
  { seq := 0, slot := 1, pc := 40, maSeq := 9, inTrap := false, start := 0, bufs := [], acc := 1, tileA := 2, tileB := 3,
    pcw := 1 + 6 * 32 + 6 * 512 + 2 ^ 21, began := began, complete := 119, lastAcc := 110, tilesHeld := true, keeps := [1, 2],
    before := none, limit := 2, replays := replays, marked := marked, digits := [2, 3], mr := 0, mc := 0, badBlock := 0 }

theorem recordable_atCore (g : Trig) (f : Core → Core) (d : Nat) (hd : d < 2) : recordable (atCore g f) d := by
  have h : nth (atCore g f).pkg.errBase d 0 = 0 := by
    show nth State.reset.pkg.errBase d 0 = 0
    interval_cases d <;> decide +kernel
  have hl : ∀ e, e < 2 → linkDown (atCore g f) d e = false := by
    intro e he
    show linkDown State.reset d e = false
    interval_cases d <;> interval_cases e <;> decide +kernel
  refine ⟨fun i hi => ⟨?_, ?_⟩, rfl⟩
  · simp only [populated, h, Bool.or_eq_true, decide_eq_true_eq]
    omega
  · rw [h, homeCut, hl (dieOfPa (0 + 64 * i)) (by unfold dieOfPa; split <;> omega), Bool.and_false]

theorem witness_MmaRunsOnTheArray :
    let input : MmaIn := ⟨0, pcwOf (1 + 6 * 32 + 6 * 512 + 2 ^ 21), 2, 3, 0, 1⟩
    let s := mmaState id
    let bad := atCore { ops 1 3 0 with checked := true, dest := 64 } id
    let q := fun m => (mmaState fun k => { k with maQ := [m] }).core 0
    (s.core 0).arch.maHalt = false ∧ input.failing (view s) (accAt s 0 1) = 0 ∧ input.bad (asOf s 0 0) = [] ∧
    (⟨0, pcwOf 3, 0, 0, 0, 0⟩ : MmaIn).failing (view bad) (accAt bad 0 1) ≠ 0 ∧ bad.cur.dest / 64 % 256 = 1 ∧
    throttledUntil s 0 (max 0 (s.core 0).arrayFree) ≤ s.time ∧
    (q (mmaOp none false 0)).maQ = [mmaOp none false 0] ∧ (q (mmaOp none false 0)).cellFaults = [] ∧
    (q (mmaOp none false 0)).poison = [] ∧ (q (mmaOp none false 0)).upsets = [] ∧
    nth (s.core 0).captured 0 [] = [] ∧ dieOf 0 < 2 ∧ 90 + 24 ≤ s.time ∧ (mmaOp (some 90) false 0).lastAcc + 1 ≤ s.time ∧ (mmaOp (some 90) false 0).complete + 1 ≤ s.time ∧
    (mmaOp (some 90) true 0).replays < (mmaOp (some 90) true 0).limit ∧
    (mmaOp (some 90) true 2).limit ≤ (mmaOp (some 90) true 2).replays := by decide +kernel

/-- A core about to drain accumulator 1 to tile 3, in BF16 by rounding to nearest, or to save it to scratchpad 0x10000. -/
def drainState (b : Vec) : State := atCore { ops (1 + 3 * 2 ^ 8) b 0 with checked := true, dest := 5 * 64 + 19 * 2 ^ 14 } fun k =>
  { k with arch := { k.arch with tiles := k.arch.tiles.set 3 { Tile.reset with word := tileWord 0 8 0, cfg := true } } }

theorem witness_DrainsAndAccumulatorImages :
    let s := drainState 7
    let t := drainState 0x10000
    let w := (tileAt s 0 3).word.toNat
    s.cur.checked = true ∧ nth (s.core 0).captured 0 [] = [] ∧ (s.core 0).arch.maHalt = false ∧ drainFailing { s.cur with unit := 19 } w = 0 ∧ tHold w = 0 ∧
    tBase w + 1024 * 2 ≤ min (spadLimit s 0) 0x400000 ∧ (s.core 0).handedOut = [] ∧ (s.core 0).parted = [] ∧
    (s.core 0).poison = [] ∧ (s.core 0).upsets = [] ∧
    (localHome (view t) 0 2 true (spadLimit t 0) 0x10000 16384).toOption = some (.arr 0 0x10000) ∧
    (localHome (view t) 0 2 false (spadLimit t 0) 0x10000 16384).toOption = some (.arr 0 0x10000) ∧
    accOfImage (memRead (nth t.lmem 0 []) 0x10000 16384 % 2 ^ 128) = none ∧ t.cur.dest / 64 % 256 = 5 := by decide +kernel

theorem witness_DrainsAndAccumulatorImages_wellFormed :
    let image := ofDigits 1024 128 fun _ => AccEl.zero.image
    (List.range 1024).all (fun i => accOfImage (memRead (memPut [] 0x10000 16384 image) 0x10000 16384 / 2 ^ (128 * i) % 2 ^ 128) ==
      some AccEl.zero) = true := by decide +kernel

theorem witness_AccumulatorControls :
    let s := atCore { ops 1 5 0 with checked := true, dest := 8 * 64 } id
    let h := atCore { ops 1 5 0 with checked := true, dest := 4 * 64 } fun k => { k with arch := { k.arch with maHalt := true } }
    s.cur.checked = true ∧ (s.core 0).arch.maHalt = false ∧ s.cur.dest / 64 % 256 = 8 ∧ (h.core 0).arch.maHalt = true ∧
    h.cur.dest / 64 % 256 = 4 := by decide +kernel

theorem witness_KeeperArithmetic :
    let s := atCore (ops 0 1 (1 + 2 ^ 8 * 8)) id
    shown s 0 = true ∧ shown { s with cur := { s.cur with mask := some 0 } } 0 = false ∧ s.cur.stage = 0 ∧ s.cur.checked = false ∧
    (s.core 0).poison = [] ∧ (s.core 0).upsets = [] ∧ (s.core 0).flights = [] ∧
    (goes (.kmov true) s && goes (.kadde false 0) s && goes (.kmax false 2) s && goes (.kmin true 1) s && goes (.kcvt false 0 1) s &&
      goes (.kfold false 0) s) = true := by decide +kernel

theorem witness_KeeperBindingsAndImages :
    let s := atCore (ops 0 1 0x400) id
    let b := atCore (ops 0 1 3) stocked
    let bound := atCore (ops 0 1 3) fun k => { k with
      arch := { k.arch with tiles := k.arch.tiles.set 3 { Tile.reset with cfg := true, buckle := some (1, 0) } } }
    (goes (.kgen true) s && goes (.kld false) s && goes .kst s && goes .kbind b && goes .krebind bound && goes .kunbind b) = true ∧
    (s.core 0).poison = [] ∧ (s.core 0).upsets = [] ∧ (tileAt s 0 0).busy = 0 ∧ (nth (s.core 0).arch.keepers 1 Keeper.reset).writes = 0 ∧
    64 ≤ (atCore (ops 0 1 64) id).cur.c.toNat % 2 ^ 32 ∧ (1 : Nat) % 2 ^ 22 % 32 ≠ 0 ∧ fenceHold s 0 pathV = false ∧
    (nth (s.core 0).arch.keepers 1 Keeper.reset).readers = 0 ∧ shown s 0 = true ∧ s.cur.stage = 0 ∧ (s.core 0).flights = [] := by
  decide +kernel

/-- Tile 6 is configured and empty. -/
def cleared (k : Core) : Core := { k with arch := { k.arch with tiles := k.arch.tiles.set 6 { Tile.reset with cfg := true } } }

theorem witness_TileTable :
    let at_ := fun (a b : Vec) => atCore (ops a b 0) fun k => cleared (stocked k)
    let close := atCore { ops 1 4 0 with stage := 1 } fun k => { stocked k with flights := [flight 31] }
    let n := fun (b : Vec) => (opB (at_ 0 b)).toNat
    (n 3 < 64 ∧ 64 ≤ n 67 ∧ (opA (at_ 3 0)).toNat % 4 = 3 ∧ (at_ 3 67).cur.checked = false) ∧
    (goes .tcfg (at_ 0x600FFFF0000 6) && goes .tstate (at_ 1 3) && goes .trel (at_ 0 3) && goes .trel (at_ 0 67) && goes .tmarkOpen (at_ 0 6) &&
      goes .tmarkReopen (at_ 2 3) && goes .tmarkClose (at_ 1 4)) = true ∧
    (close.core 0).flights = [flight 31] ∧ (flight 31).seq = close.cur.seq ∧ storesDone close 0 close.cur.seq = true ∧
    (tileAt close 0 3).state = .ready ∧ (tileAt close 0 4).state = .filling ∧ (tileAt close 0 4).filler = .program ∧
    (tileAt close 0 3).busy = 0 ∧ (tileAt (at_ 0 6) 0 6).state = .empty ∧ (tileAt close 0 9).cfg = false ∧
    tileWordLegal (tileWord 0 15 0).toNat = false ∧ tileWordLegal (tileWord 4095 6 0).toNat = true ∧
    spadLimit close 0 < 4095 * 1024 + 32 * 32 * 2 := by decide +kernel

theorem witness_BufferHandles :
    let s := atCore (ops (5 + 2 * 2 ^ 12) 1 0) id
    let t := atCore { ops (5 + 2 * 2 ^ 12) 1 0 with checked := true, stage := 2 } id
    let slot := atCore (ops (2 ^ 23 + 4) 1 0) fun k => { k with arch := { k.arch with slots := k.arch.slots.set 4 (some 0x1234) } }
    let take := fun h => atCore { ops 0 1 0 with checked := true, stage := 1 } fun k => { k with inbound := [h], flights := [flight 21] }
    (goes .thand s && goes .thand slot) = true ∧ s.cur.stage = 0 ∧ (s.core 0).seg = none ∧ pathsDone t 0 0x0F t.cur.seq = true ∧
    rangeIdle t t.cur = true ∧ (t.core (coreAtPos 0 1)).inbound.length < 8 ∧
    ((take 0x1005).core 0).inbound = [0x1005] ∧ ((take 0x1005).core 0).flights = [flight 21] ∧ (flight 21).ready = false ∧
    coreAtPos 0 ((0x1005 : Handle).toNat / 2 ^ 23 % 8) = 0 ∧ coreAtPos 0 ((0x801005 : Handle).toNat / 2 ^ 23 % 8) ≠ 0 ∧
    nth ((view (take 0x801005)).core 0).arch.slots 1 none = none := by decide +kernel

/-! Premises of the statements about the copy engine, rings, jobs and the fabric operations. -/

/-- A channel with n heads of the running task. -/
def channelOf (stage : ChanStage) (n : Nat) : Channel :=
  { Channel.reset with heads := (List.range n).map fun i => ⟨⟨false, 128 * i⟩, ctx0, i⟩, stage := stage, code := 0x12 }

theorem witness_CopyEngineChannels :
    let s := fun (stage : ChanStage) (n : Nat) (a b : Vec) => atCore (ops a b 0) fun k => { k with chans := k.chans.set 1 (channelOf stage n) }
    let other := fun (s : State) => (chanAt s 0 1).heads.any fun h => h.owner.id != (ctxOf s 0).id
    (goes (.cque false) (s .idle 3 0x1000 1) && goes (.cque false) (s .idle 16 0x1000 1)) = true ∧
    ((s .idle 3 0x1000 1).core 0).seg = none ∧ (chanAt (s .idle 3 0 1) 0 1).heads.length < 16 ∧
    16 ≤ (chanAt (s .idle 16 0 1) 0 1).heads.length ∧ other (s .halted 3 0 1) = false ∧
    (chanAt (s .halted 3 0 1) 0 1).stage = .halted ∧ (chanAt (s .idle 3 0 1) 0 1).stage ≠ .halted ∧
    (opA (s .halted 3 0 1)).toNat < 3 ∧ 3 ≤ (opA (s .halted 3 3 1)).toNat ∧ 4 ≤ (opB (s .halted 3 0 4)).toNat ∧
    (s .halted 3 0 4).cur.checked = false := by decide +kernel

theorem intact_of_cores {s : State} (h : ∀ k ∈ s.cores.toList, k.poison = [] ∧ k.upsets = []) (hp : s.pkg.hbmPoison = [])
    (hu : s.pkg.hbmUpsets = []) : intact s := by
  refine ⟨fun c => ?_, hp, hu⟩
  unfold State.core nth
  split
  · exact h _ (by simp)
  · exact ⟨rfl, rfl⟩

/-- A ring object of slots of 128 bytes whose next slot to read is 1: published, or not yet. -/
def ringState (wrp : Nat) (b : Vec) : State :=
  let s := atCore { ops 0x1000 b 0 with checked := true } id
  let ring := 0x2000 + 2 ^ 56 * 2 + 128 * 2 ^ 64 + wrp * 2 ^ 128 + wrp * 2 ^ 160 + 2 ^ 192
  { s with lmem := updAt s.lmem 0 fun _ => memPut [] 0x1000 64 ring }

theorem witness_RingsAndSeals_intact : intact (ringState 2 1) := intact_of_cores (by decide +kernel) rfl rfl

theorem witness_RingsAndSeals :
    let s := ringState 2 1
    let t := ringState 1 1
    let get := fun (s : State) => (engineGet (view s) (ctxOf s 0) ⟨false, 0x1000⟩ false 64).toOption
    let r := memRead (nth s.lmem 0 []) 0x1000 64
    let q := memRead (nth t.lmem 0 []) 0x1000 64
    (engineAccess (view s) (ctxOf s 0) ⟨false, 0x1000⟩ true false 64).toOption = some [(.arr 0 0x1000, 0, 64)] ∧
    (engineAccess (view s) (ctxOf s 0) ⟨false, 0x1000 + 24⟩ true false 4).toOption = some [(.arr 0 (0x1000 + 24), 0, 4)] ∧
    homeCut s 0 (.arr 0 (0x1000 + 24)) = false ∧ s.cur.stage = 0 ∧ s.cur.drained s = false ∧ get s = some r ∧ get t = some q ∧
    ringBad r = false ∧ ringBad q = false ∧ ringBad 5 = true ∧ r / 2 ^ 128 % 2 ^ 32 = 2 ∧ q / 2 ^ 128 % 2 ^ 32 = 1 ∧
    r / 2 ^ 192 % 2 ^ 32 = 1 ∧ (s.core 0).seg = none ∧ pathsDone s 0 7 (s.cur.covers s) = true ∧
    accessHomes (view s) 0 pathS false true false (0x1000 + 124) 4 = [(.arr 0 0x107C, 0, 4)] ∧
    accessHomes (view s) 0 pathS false false false 0x1000 128 ≠ [] := by decide +kernel

theorem witness_JobsAndTableLoads :
    let s := atCore (ops 0x1000 1 0) id
    let full : State := { s with
      lanes := s.lanes.map fun l => { l with jobs := List.replicate 8 ⟨⟨false, 0⟩, 0, ctx0, 0⟩ }
      engines := s.engines.map fun l => { l with jobs := List.replicate 8 ⟨⟨false, 0⟩, 0, ctx0, 0⟩ } }
    (s.core 0).seg = none ∧ (goes (.xjob false) s && goes (.sejob false) s && goes (.xtab false) (atCore (ops 0x1000 0x300 0) id) &&
      goes (.xjob false) full && goes (.sejob false) full) = true ∧
    8 ≤ (laneAt full 1).jobs.length ∧ (laneAt s 1).jobs.length < 8 ∧ 8 ≤ (engineAt full 1).jobs.length ∧ (engineAt s 1).jobs.length < 8 ∧
    (engineGet (view s) (ctxOf s 0) ⟨false, 0x1000⟩ false 128).toOption = some 0 ∧ (stackAt s 1).loads.length < 16 ∧
    linkDown s 0 0 = false ∧ linkDown s 0 1 = false ∧
    s.cur.checked = false ∧ fenceHold s 0 4 = false ∧ fenceHold s 0 5 = false ∧ accessCheck s 0 3 false false false 0x1000 128 = .go := by
  decide +kernel

/-- Flow 1 is open to node 2, flow 2 is accepted from it, and window 5 is registered, all for the running task's region. -/
def flowState (a b : Vec) (stage : Nat) : State :=
  let s := atCore { ops a b 0 with checked := stage != 0, stage := stage } fun k => { k with flights := [flight 23] }
  let r : RegionRef := ctx0.ref
  { s with
    dies := updAt s.dies 0 fun d => { d with
      sends := [⟨1, 2, 0, 1, true, r, 3, 5, none⟩]
      recvs := [⟨2, 0, 2, r, 0, 0, [], [], [], [], [], none⟩] }
    pkg := { s.pkg with windows := [⟨5, 512, 128, true, 0, true, 77, 2, r, 0⟩] } }

theorem witness_FlowsRatesAndWindows_intact : intact (flowState (1 + 2 * 2 ^ 10) 5 1) := intact_of_cores (by decide +kernel) rfl rfl

theorem witness_FlowsRatesAndWindows :
    let s := flowState (1 + 2 * 2 ^ 10) 5 1
    let send := fun (f : Nat) => (s.die 0).sends.find? fun y => y.flow = f
    let recv := fun (f : Nat) => (s.die 0).recvs.find? fun y => y.node = 2 && y.die = 0 && y.flow = f
    let win := fun (n : Nat) => s.pkg.windows.find? fun y => y.id = n
    s.cur.checked = true ∧ (s.core 0).seg = none ∧ s.cur.stage ≠ 0 ∧ (s.core 0).flights = [flight 23] ∧ (flight 23).seq = s.cur.seq ∧
    (send 1).map (·.region) = some (ctxOf s 0).ref ∧ send 3 = none ∧ (recv 2).map (·.region) = some (ctxOf s 0).ref ∧ recv 3 = none ∧
    (s.die 0).recvs.length < 4096 ∧ (s.die 0).messages = [] ∧ (s.die 0).stripes = [] ∧ (s.die 0).bufs = [] ∧
    (win 5).map (·.region) = some (ctxOf s 0).ref ∧ win 6 = none ∧ (∀ c, c < 256 → (s.core c).fxQ = []) := by decide +kernel

theorem witness_FabricOperationsQueue :
    let s := flowState 0x1000 1 0
    let bad := flowState 0x1000 1024 0
    s.cur.checked = false ∧ (s.core 0).seg = none ∧ (s.core 0).fences = [] ∧ (s.core 0).fxQ.length < 16 ∧
    bad.cur.checked = false ∧ 4 ≤ (opB bad).toNat ∧
    (∀ y ∈ (s.die 0).sends, y.flow ≠ (opC s).toNat % 1024) ∧ goes (.fred false) s = true := by decide +kernel

/-! Premises of the statements about a core's bundles, landings, traps and waits. -/

/-- A bundle of transports in slots 0 upward, under a header. -/
def bundleOf (header : Nat) (l : List Nat) : Bundle :=
  BitVec.ofNat 384 (header * 2 ^ 368 + (l.zipIdx.map fun (p : Nat × Nat) => p.1 * 2 ^ (322 - 46 * p.2)).sum)

/-- A transport from a source to a destination, unguarded. -/
def transport (src dest : Nat) : Nat := dest * 64 + src * 2 ^ 27

/-- Two general registers exchanged, g1 to g2 and g2 to g1. -/
def exchange : Bundle := bundleOf 0 [transport 1 128, transport 2 64]

/-- Core 0 at a pc: index 0 names that exchange, 1 escapes to its literal, 26 names no entry, 27 is reserved. -/
def programmed (pc : Nat) (k : Core) : Core := { k with
  pc := pc
  dict := [exchange]
  idx := [0, 0xFFFF] ++ (List.range 24).map (fun j => BitVec.ofNat 16 (field exchange.toNat (16 * j) 16)) ++ [7, 0x1000] }

theorem witness_BundlesFetchAndIssue_fetch :
    let s := fun pc => atCore Trig.none (programmed pc)
    let at_ := fun pc => (((s pc).core 0).idx[pc]?.getD 0xFFFE).toNat
    let k := (s 1).core 0
    k.flow = .running ∧ k.rewind = none ∧ k.pend = [] ∧ k.preq = none ∧ k.poison = [] ∧ k.upsets = [] ∧ at_ 0 < 4096 ∧
    k.dict[at_ 0]? = some exchange ∧ at_ 1 = 0xFFFF ∧
    (∀ j, j < 24 → field exchange.toNat (16 * j) 16 = (k.idx[1 + (j + 1)]?.getD 0xFFFE).toNat) ∧ validate exchange = none ∧
    at_ 26 < 4096 ∧ k.dict[at_ 26]? = none ∧ 4096 ≤ at_ 27 ∧ at_ 27 < 0xFFFF ∧ 32767 < ((s 32768).core 0).pc := by decide +kernel

/-- An escape to the literal of a bundle. -/
def escaped (b : Bundle) (k : Core) : Core :=
  { k with pc := 0, idx := 0xFFFF :: (List.range 24).map fun j => BitVec.ofNat 16 (field b.toNat (16 * j) 16) }

/-- Each kind of illegal literal (R23): a reserved header bit, a kind and an id that no rule gives, a reserved unit, and one register
twice. -/
theorem witness_BundlesFetchAndIssue_literals :
    let literal := fun (b : Bundle) => let k := (atCore Trig.none (escaped b)).core 0
      decide (k.pc + 24 ≤ 32767 ∧ (k.idx[k.pc]?.getD 0xFFFE).toNat = 0xFFFF ∧ k.poison = [] ∧ k.upsets = []) &&
      (List.range 24).all fun j => field b.toNat (16 * j) 16 == (k.idx[k.pc + (j + 1)]?.getD 0xFFFE).toNat
    let far := bundleOf 0 [transport 1 (24 * 65536 + 3 * 2 ^ 14 + 64)]
    let null := bundleOf 0 [0, transport 1 (5 * 65536 + 3 * 2 ^ 14)]
    let twice := bundleOf 0 [transport 1 64, transport 2 64]
    let head := fun (h : Nat) => (bundleOf h []).toNat / 2 ^ 368
    (literal far && literal null && literal twice && literal (bundleOf 1 [])) = true ∧
    head 1 % 64 ≠ 0 ∧ 3 ≤ head (3 * 2 ^ 13) / 2 ^ 13 ∧ head 64 / 2 ^ 6 % 64 ≠ 0 ∧ headerLegal far = true ∧ 24 ≤ far.toNat / 2 ^ 344 % 2 ^ 5 ∧
    headerLegal null = true ∧ badSlot null = some 1 ∧ headerLegal twice = true ∧ badSlot twice = none ∧ limitsLegal twice = false := by
  decide +kernel

/-- Core 0 with a bundle fetched. -/
def holding (b : Bundle) : State := atCore Trig.none fun k => { programmed 0 k with fetched := some ⟨b, 1⟩ }

/-- MVST of register 24, which there is not. -/
def faulty : Bundle := bundleOf 0 [transport (3 * 1024 + 24) (12 * 65536 + 3 * 2 ^ 14 + 64)]

/-- A transport from VL's result, which is not yet known. -/
def waiting : Bundle := bundleOf 0 [transport (2 * 1024 + 17 * 32) 64]

/-- A segment-entry bundle, of segment 5. -/
def entering : Bundle := bundleOf (1 * 8192 + 5 * 64) [transport 1 128]

theorem witness_BundlesFetchAndIssue_issue :
    let f := fun (b : Bundle) => (⟨b, 1⟩ : Fetched)
    let s := holding exchange
    let late := atCore Trig.none fun k => { programmed 0 k with fetched := some (f waiting), flights := [flight 17] }
    (s.core 0).fetched = some (f exchange) ∧ (s.core 0).regError = false ∧ hdrKind exchange ≠ 1 ∧
    bundleWait s 0 (f exchange) = none ∧ bundleFault s 0 (f exchange) = none ∧
    bundleWait (holding faulty) 0 (f faulty) = none ∧ (bundleFault (holding faulty) 0 (f faulty)).map (·.code) = some 0x03 ∧
    (bundleWait late 0 (f waiting)).isSome = true ∧ (late.core 0).held + 1 < 2 ^ 22 ∧
    hdrKind entering = 1 ∧ hdrId entering ≠ 0 ∧ (s.core 0).seg = none ∧ (acting s 0 exchange).length = 2 := by decide +kernel

theorem witness_BundlesFetchAndIssue_start :
    let x : Trig := { Trig.none with unit := 17, dest := 17 * 65536 + 3 * 2 ^ 14 + 64, delay := 3 }
    let s := fun total => atCore Trig.none fun k => { k with captured := k.captured.set 1 [x, x], heldTotal := total }
    nth ((s 0).core 0).captured Engine.vl.code [] = x :: [x] ∧ unheld (s 118) 0 < x.u0 + x.delay ∧ x.u0 + x.delay ≤ unheld (s 0) 0 ∧
    nth ((s 0).core 0).engLast Engine.vl.code 0 < (s 0).time ∧ x.drained (s 0) = false := by decide +kernel

/-- One operation of a unit has come to its landing, with what it carries. -/
def landing (unit : Nat) (lands : Bool) (posts : List Post) : State :=
  atCore Trig.none fun k => { k with flights := [{ flight unit with due := 100, ready := true, lands := lands, posts := posts }] }

theorem witness_ResultsLandInTriggerOrder :
    let s := landing 18 true []
    let t := landing 9 false [.keeper 3 1 5 0 0 false]
    let k := s.core 0
    let ring := atCore Trig.none fun k => { k with arch := { k.arch with ring := { k.arch.ring with reserved := [⟨0, none⟩] } } }
    let drains := atCore Trig.none fun k => { k with arch := { k.arch with tiles := k.arch.tiles.set 3 { Tile.reset with state := .draining } } }
    (∀ f ∈ k.flights, f.unit = 18 ∧ f.ready = true ∧ f.due ≤ s.time ∧ f.lands = true ∧ f.posts = []) ∧ k.flights.length = 1 ∧
    assoc k.lastLand 18 ≠ some s.time ∧ k.portAt ≠ some s.time ∧ engineOf 9 = none ∧ (∀ f ∈ (t.core 0).flights, f.lands = false) ∧
    (k.arch.sr 14).toNat / 256 % 32 &&& 31 = 0 ∧ k.arch.sr 13 = 0 ∧ k.poison = [] ∧ k.upsets = [] ∧ k.seg = none ∧ k.pend.length < 16 ∧
    (let exact := atCore Trig.none fun k => { k with arch := k.arch.setSr 14 (2 ^ 12) }
     ((exact.core 0).arch.sr 14).toNat / 256 % 32 &&& 16 ≠ 0) ∧
    (let full := atCore Trig.none fun k => { k with arch := (k.arch.setSr 12 (9 * 2 ^ 16)).setSr 13 (5 * 2 ^ 16) }
     0 < field ((full.core 0).arch.sr 13).toNat 16 16 ∧
     field ((full.core 0).arch.sr 13).toNat 16 16 < min (field ((full.core 0).arch.sr 12).toNat 16 16 + 0) 65535) ∧
    (∀ i, i < 64 → (nth k.arch.tiles i Tile.reset).buckle = none) ∧ (ring.core 0).arch.ring.reserved = [⟨0, none⟩] ∧
    (nth (drains.core 0).arch.tiles 3 Tile.reset).state = .draining := by decide +kernel

/-- Core 0 stopped for a fault, with its handler's address enabled or not. -/
def trapped (enabled : Bool) (pend : List PendFault) : State :=
  atCore Trig.none fun k => { k with
    flow := .trapping, pend := pend
    trapReq := some ⟨0x03, 7, 1, false, some 9, false, 0, false⟩
    arch := if enabled then k.arch.setSr 1 (2 ^ 63 + 100) else k.arch }

theorem witness_TrapsRewindsAndTimeouts :
    let s := trapped true []
    let k := s.core 0
    let held := atCore Trig.none fun k => { k with held := 2 ^ 22, holdInfo := 0x109, flights := [{ flight 9 with ready := true, bound := 100 }] }
    k.flow = .trapping ∧ k.rewind = none ∧ k.seg = none ∧ k.flights = [] ∧ k.maQ = [] ∧ (∀ e, e < 4 → nth k.captured e [] = []) ∧
    (k.arch.sr 1).getLsbD 63 = true ∧ (k.arch.sr 0).getLsbD 0 = false ∧ k.pend = [] ∧
    (((trapped false []).core 0).arch.sr 1).getLsbD 63 = false ∧ regionOf s ctx0.ref = some region0 ∧ region0.fdom = true ∧
    (s.die 0).errWp - (s.die 0).errRp ≠ 4096 ∧ 2 ^ 22 ≤ (held.core 0).held ∧ (held.core 0).arch.ring.reserved = [] ∧
    field (held.core 0).holdInfo.toNat 8 8 = 1 ∧ field (held.core 0).holdInfo.toNat 0 5 = 9 ∧ 100 ≤ unheld held 0 := by decide +kernel

theorem witness_TrapsRewindsAndTimeouts_rewind :
    let g : Segment := ⟨5, 3, 1, 0, Arch.reset, [], false, false⟩
    let s := fun g => atCore Trig.none fun k => { k with flow := .rewinding, seg := some g, rewind := some (0x40, 0), replayWait := some (100, 0, 3) }
    ((s g).core 0).flow = .rewinding ∧ ((s g).core 0).seg = some g ∧ ((s g).core 0).rewind = some (0x40, 0) ∧ g.rewinds < 3 ∧
    3 ≤ { g with rewinds := 3 }.rewinds ∧ ((s g).core 0).replayWait = some (100, 0, 3) ∧ (s g).time < 100 + 2 ^ 22 := by
  refine ⟨rfl, rfl, rfl, ?_⟩
  decide +kernel

/-- A package table that maps device page 1 to physical page 5, and physical page 0x10000 as its top. -/
def tables : Memory := memPut (memPut (memPut [] 0x10000 8 (1 + 0x20000)) 0x20000 8 (1 + 0x30000)) 0x30000 8 (31 + 0x50000)

theorem witness_WaitsWalksAndRereads :
    let parked := atCore Trig.none fun k => { k with park := some ⟨7, 40, some 110, 0, 3⟩, flow := .parked, flights := [flight 11] }
    let s := atCore Trig.none fun k => { k with walk := some 0 }
    let mapped := { s with mem := tables, pkg := { s.pkg with troot := 0x10000 } }
    let upset := atCore Trig.none fun k => { k with upsets := [⟨8, true, false, false, []⟩] }
    (parked.core 0).park = some ⟨7, 40, some 110, 0, 3⟩ ∧ (parked.core 0).ctx = some ctx0 ∧ rrMode parked ctx0 = 0 ∧
    40 ≤ ctrValue parked.ctrs (7 % 2 ^ 17) ∧ 110 ≤ parked.time ∧ (parked.core 0).flights = [flight 11] ∧
    (s.core 0).walk = some (0x123 / 2 ^ 16) ∧ s.pkg.draining = false ∧ (s.die 0).tlb2 = [] ∧ walkTables s 0x123 = none ∧
    walkTables mapped 0x123 = some (31 + 0x50000, false) ∧ paThrough mapped (31 + 0x50000) false 0x123 = some 0x50123 ∧
    let soft := atCore Trig.none fun k => { k with upsets := [⟨8, false, false, true, []⟩] }
    (soft.core 0).upsets = [⟨0x40 / 8, false, false, true, []⟩] ∧ (soft.die (0 / 128)).errWp - (soft.die (0 / 128)).errRp ≠ 4096 ∧
    (upset.core 0).upsets = [⟨0x40 / 8, true, false, false, []⟩] ∧ coreOf upset ctx0.id = some 0 ∧ (upset.core 0).pend.length < 16 ∧
    (s.core 0).upsets = [] := by decide +kernel

/-! Premises of the statements about the engines, the fabric, the package and the dispatcher. -/

/-- A state whose device memory holds the table above. -/
def withTables (s : State) : State := { s with mem := tables, pkg := { s.pkg with troot := 0x10000 } }

/-- A channel of core 0 with the task's record of 128 bytes at 0x2000, a copy between local descriptors, in a stage of its work. -/
def copying (stage : ChanStage) (record since : Nat) : State :=
  let c : Channel := { Channel.reset with
    heads := [⟨⟨false, 0x2000⟩, ctx0, 1⟩]
    stage := stage
    recAddr := ⟨false, 0x2000⟩
    record := BitVec.ofNat 1024 record
    since := since }
  let s := atCore Trig.none fun k => { k with chans := k.chans.set 2 c }
  let ring := 0x2000 + 2 ^ 48 + 2 * 2 ^ 56 + 64 * 2 ^ 64 + 5 * 2 ^ 128 + 6 * 2 ^ 160 + 3 * 2 ^ 192
  { s with lmem := updAt s.lmem 0 fun _ => memPut (memPut [] 0x2000 128 record) 0x5000 64 ring }

/-- A record that waits for counter 7 to reach 50, and one that is to claim a slot of the ring at 0x5000. -/
def waitRecord : Nat := 2 ^ 48 + 2 ^ 56 + 2 ^ 61 + 7 * 2 ^ 192 + 50 * 2 ^ 256

/-- See waitRecord. -/
def claimRecord : Nat := 2 ^ 48 + 2 ^ 61 + 2 * 2 ^ 50 + 0x5000 * 2 ^ 448

theorem witness_CopyEngineRuns :
    let s := copying .idle waitRecord 0
    let w := copying .prewait waitRecord 0
    let c := copying .claim claimRecord 0
    let x := chanView s 0 2
    let r := (chanAt w 0 2).record.toNat
    s.pkg.draining = false ∧ (chanAt s 0 2).owner = some ctx0 ∧ (chanAt s 0 2).stage = .idle ∧ ctx0.core < 256 ∧
    (engineGet x ctx0 ⟨false, 0x2000⟩ false 128).toOption = some waitRecord ∧ ctxLive s ctx0 = true ∧
    (s.die 0).errWp - (s.die 0).errRp ≠ 4096 ∧ (chanAt w 0 2).stage = .prewait ∧ r.testBit 56 = true ∧
    ctrValue s.ctrs (field r 192 17) < field r 256 64 ∧ (chanAt c 0 2).stage = .claim ∧ field claimRecord 50 2 = 2 ∧
    (match engineGet (chanView c 0 2) ctx0 (cAddr claimRecord 448) false 64 with
      | .ok o => decide (ringBad o = false ∧ (field o 160 32 + 2 ^ 32 - field o 192 32) % 2 ^ 32 ≠ 2 ^ field o 56 5)
      | .error _ => false) = true ∧
    s.time < 0 + 2 ^ (ctx0.wdlim + 4) := by decide +kernel

/-- A channel whose next record stands at device page 1, which the core's TLB lacks and the tables give. -/
theorem witness_CopyEngineRuns_pages :
    let s := withTables (atCore Trig.none fun k => { k with chans := k.chans.set 2 { Channel.reset with heads := [⟨⟨true, 0x1000⟩, ctx0, 1⟩] } })
    let local_ := copying .idle waitRecord 0
    chanVas s 0 2 = [0x1000] ∧ (chanAt s 0 2).stage ≠ .transfer ∧ (s.core 0).tlb.any (·.covers (0x1000 / 2 ^ 16 * 2 ^ 16)) = false ∧
    (walked s 0 (0x1000 / 2 ^ 16 * 2 ^ 16)).isSome = true ∧ chanGlobal s 0 2 = true ∧ s.pkg.draining = false ∧
    (∀ a ∈ chanVas (chanView local_ 0 2) 0 2, (local_.core 0).tlb.any (·.covers a) = true) := by decide +kernel

theorem witness_CopyEngineRuns_intact : intact (copying .idle waitRecord 0) := intact_of_cores (by decide +kernel) rfl rfl

/-- A job block of a lane: 8 bytes of input at device page 1, output behind it, table 3, from state 1. -/
def laneJob (flags : Nat) : Nat := 0x1000 + 2 ^ 48 + 3 * 2 ^ 49 + 8 * 2 ^ 64 + 0x3000 * 2 ^ 128 + 100 * 2 ^ 192 + 2 ^ 272 + flags

/-- Lane 70, in a stage of its first job, with a table of two states loaded at its stack. -/
def laneState (stage : JobStage) (cursor : Nat) (j : Nat) : State :=
  let job : Job := ⟨⟨false, 0x2000⟩, BitVec.ofNat 1024 j, ctx0, 3⟩
  let entries := [9, 9] ++ (List.range 16).map fun i => if i = 15 then 1 + 7 * 2 ^ 10 else if i = 14 then 2 * 2 ^ 14 else 0
  let table : TableCopy := ⟨5, false, 1, [0, 2 * 2 ^ 16], entries⟩
  let s := withTables (atCore Trig.none id)
  { s with
    lanes := s.lanes.set 70 { Lane.reset with jobs := [job], stage := stage, state := 1, cursor := cursor, tgen := 5 }
    hbm := s.hbm.set 2 ⟨(Vector.replicate 16 ⟨none, none, 0⟩).set 3 ⟨some table, none, 5⟩, [⟨false, 3, ⟨false, 0x3000⟩, none, ctx0, 5⟩]⟩ }

theorem witness_LanesRunJobs :
    let s := laneState .idle 0 (laneJob 0)
    let w := laneState .prewait 0 (laneJob (2 ^ 62 + 7 * 2 ^ 320 + 50 * 2 ^ 384))
    let r := laneState .run 0 (laneJob 0)
    let e := laneState .ending 4 (laneJob 0)
    (laneAt s 70).jobs.length = 1 ∧ s.pkg.draining = false ∧ (laneAt s 70).stage = .idle ∧ jobIll s ctx0 (laneJob 0) = false ∧
    jobIll s ctx0 0 = true ∧ (laneAt w 70).stage = .prewait ∧ ctrValue w.ctrs 7 < 50 ∧
    (bindTables s 2 (laneJob 0)).toOption.isSome = true ∧ (laneAt r 70).stage = .run ∧
    (((tableAt r 2 3).copyOf 5).map fun t => (t.code, t.states[1]?.isSome)) = some (false, true) ∧
    (engineGet r ctx0 ⟨true, 0x1000⟩ true 1 2 none).toOption.isSome = true ∧ (laneAt e 70).stage = .ending ∧ rrMode e ctx0 = 0 ∧
    (∀ q ∈ [(28, 4), (88, 4), (64, 4), (68, 4), (72, 4), (37, 1), (6, 1)],
      (engineAccess e ctx0 ((⟨false, 0x2000⟩ : EAddr).plus q.1) true false q.2).toOption = some [(.arr 0 (0x2000 + q.1), 0, q.2)]) ∧
    (stackAt s 2).loads.length = 1 ∧ (tableAt s 2 3).standby = none ∧ (s.die 0).errWp - (s.die 0).errRp ≠ 4096 := by decide +kernel

/-- A job and a table load with global blocks in a drain. -/
theorem witness_LanesRunJobs_drain :
    let s := laneState .ending 4 (laneJob 0)
    let ld : TableLoad := ⟨false, 3, ⟨true, 0x3000⟩, none, ctx0, 5⟩
    let far : State := { s with
      pkg := { s.pkg with draining := true }
      lanes := s.lanes.map fun l => { l with jobs := [⟨⟨true, 0x2000⟩, BitVec.ofNat 1024 (laneJob 0), ctx0, 3⟩] }
      hbm := s.hbm.map fun h => { h with loads := [ld] } }
    far.pkg.draining = true ∧ (laneAt far 70).stage = .ending ∧ (laneAt far 70).jobs.head?.map (·.addr.glob) = some true ∧
    loadReady far 2 [] (stackAt far 2).loads = some ld ∧ ld.applied = false := by decide +kernel

/-- A job block of a stack engine: BF16 by BF16 in two column blocks. -/
def engineJob (flags : Nat) : Nat :=
  0x1000 + 2 ^ 48 + 2 ^ 56 + 0x2000 * 2 ^ 64 + 2 ^ 112 + 8 * 2 ^ 117 + 8 * 2 ^ 121 + 0x4000 * 2 ^ 256 + 2 ^ 320 + 2 * 2 ^ 336 + flags

/-- Stack engine 0, in a stage of that job. -/
def engineState (stage : JobStage) (mismatches : Nat) (j : Nat) : State :=
  let job : Job := ⟨⟨false, 0x2000⟩, BitVec.ofNat 1024 j, ctx0, 3⟩
  let s := withTables (atCore Trig.none id)
  { s with engines := s.engines.set 0 ⟨[job], stage, 0, 0, 0, mismatches⟩ }

theorem witness_StackEnginesRunJobs :
    let s := engineState .idle 0 (engineJob 0)
    let w := engineState .prewait 0 (engineJob (2 ^ 53 + 7 * 2 ^ 384 + 50 * 2 ^ 448))
    let r := engineState .run 2 (engineJob 0)
    let e := engineState .ending 0 (engineJob 0)
    (engineAt s 0).jobs.length = 1 ∧ s.pkg.draining = false ∧ blockIll s ctx0 (engineJob 0) = false ∧ blockIll s ctx0 0 = true ∧
    (engineJob (2 ^ 53)).testBit 53 = true ∧ ctrValue w.ctrs 7 < 50 ∧ (engineAt r 0).stage = .run ∧ 2 ≤ (engineAt r 0).mismatches ∧
    (columnImage s ctx0 0 (engineJob 0) 0).toOption.isSome = true ∧ spadOk ctx0 ⟨true, 0x4000⟩ 16384 = true ∧
    (engineAccess s ctx0 ⟨true, 0x4000⟩ true true 16384).toOption.isSome = true ∧ homeCut s 0 (.pa 0x54000) = false ∧
    (engineAt e 0).stage = .ending ∧ (∀ q ∈ [(44, 1), (68, 4), (6, 1)],
      (engineAccess e ctx0 ((⟨false, 0x2000⟩ : EAddr).plus q.1) true false q.2).toOption = some [(.arr 0 (0x2000 + q.1), 0, q.2)]) := by
  decide +kernel

/-- A fragment of flow 7 from die 1 of node 9 to die 0 of node 5. -/
def header : Hdr :=
  { type := 0, srcNode := 9, srcDie := 1, dstNode := 5, dstDie := 0, flow := 7, seq := 3, stripe := 0, k := 3, m := 1, frag := 1,
    mlen := 1400, daddr := 0x1000, last := true }

/-- Node 5, with what f does to its die 0. -/
def nodeState (f : Die → Die) (g : Pkg → Pkg) : State :=
  let s := withTables (atCore Trig.none id)
  { s with pkg := g { s.pkg with nodeId := 5, bootOk := true }, dies := updAt s.dies 0 f }

/-- A write of 2,000 bytes of flow 7 whose first stripe has left. -/
def message : Message :=
  { id := 4, flow := 7, seq := 3, kind := 0, owner := ctx0, oseq := 1, data := 5, len := 2000, laddr := ⟨true, 0⟩, daddr := 0x123456,
    ctr := 5, cinc := 3, cscope := 0, cen := true, ring := false, comp := false, rnode := 9, rdie := 1, cls := 2, ord := false,
    rate := some (3, 1), rot := 5, cut := 1, whole := false, lctr := none, got := [], last := none }

/-- That stripe. -/
def stripe : SentStripe := ⟨11, 4, 0, 3, 1, false, false⟩

/-- Flow 7's send entry and its receive entry. -/
def sendEntry : SendFlow := ⟨7, 9, 1, 2, false, ⟨0, 0⟩, 3, 12, some (3, 1)⟩

/-- See sendEntry. -/
def recvEntry : RecvFlow := ⟨9, 1, 7, ⟨0, 0⟩, 0, 3, [], [], [], [], [], none⟩

theorem arrives_header (h : Hdr) (hs : fragSound (fragOf h 0) = true) (hd : (hdrAt (fragOf h 0).toNat).dstNode = 5)
    (hl : linkDown (nodeState id id) (0 / 8) (hdrAt (fragOf h 0).toNat).dstDie = false) :
    arrives (nodeState id id) 0 (fragOf h 0) := ⟨hs, by decide +kernel, hd, .inr hl⟩

theorem witness_FabricSends_arrives :
    arrives (nodeState id id) 0 (fragOf { header with type := 1 } 0) ∧ arrives (nodeState id id) 0 (fragOf { header with type := 2 } 0) ∧
    fragSound (fragOf header 0 ^^^ 1) = false ∧ (hdrAt (fragOf { header with dstNode := 6 } 0).toNat).dstNode ≠ 5 :=
  ⟨arrives_header _ (by decide +kernel) (by decide +kernel) (by decide +kernel), arrives_header _ (by decide +kernel) (by decide +kernel) (by decide +kernel),
    by decide +kernel, by decide +kernel⟩

theorem witness_FabricSends :
    let s := nodeState (fun y => { y with messages := [message], stripes := [stripe], sends := [sendEntry] }) id
    let n := nodeState (fun y => { y with messages := [message], sends := [sendEntry] }) id
    let q : FxOp := ⟨5, ctx0, 7, 0x3000, 0, 0, false, 0, 0⟩
    let x := { s with cores := updAt s.cores 0 fun k => { k with fxQ := [q] } }
    (s.die 0).stripes = [stripe] ∧ (s.die 0).messages = [message] ∧ stripe.msg = message.id ∧ message.rnode = header.srcNode ∧
    message.flow = header.flow ∧ message.seq = header.seq ∧ stripe.stripe = header.stripe ∧ stripe.wait = false ∧
    stripe.retry = header.retry ∧ (s.die 0).sends = [sendEntry] ∧ sendEntry.flow = message.flow ∧ message.rnode ≠ s.pkg.nodeId ∧
    (n.die 0).stripes = [] ∧ message.whole = false ∧ message.kind ≠ 6 ∧ stripeHeld n 0 message 3 1 = false ∧ linkDown n 0 1 = false ∧
    regionTurn n 0 (readyRegions n 0) message.owner.ref = true ∧ message.cut < 2 ^ 20 ∧ message.kind < 16 ∧
    (x.core 0).fxQ = [q] ∧ fxMayGo x 0 [] q = true ∧ (engineGet x ctx0 ⟨false, 0x3000⟩ false 512).toOption = some 0 := by decide +kernel

/-- The decode buffer of header's stripe with one fragment, and with the three that decode it. -/
def buffer (n : Nat) : DecodeBuf :=
  ⟨11, BitVec.ofNat 512 ((fragOf { header with frag := 0 } 0).toNat % 2 ^ 512), (List.range n).map (fun i => (2 * i, 5)), n = 3, false, false⟩

theorem witness_FabricReceives :
    let s := fun r b => nodeState (fun y => { y with recvs := r, bufs := b }) id
    let h := hdrAt (fragOf header 0).toNat
    let t := s [recvEntry] [buffer 3]
    let g := (buffer 3).hdr
    h.type = 0 ∧ h.dstDie < 2 ∧ h.srcNode ≠ (s [] []).pkg.nodeId ∧ recvFlow (s [] []) 0 9 1 7 = none ∧ nextPlane (s [] []) 15 = some 15 ∧
    recvEntry.node = h.srcNode ∧ recvEntry.die = h.srcDie ∧ recvEntry.flow = h.flow ∧ h.seq = recvEntry.low ∧ 1 < h.k ∧ h.retry = false ∧
    (buffer 1).hdr.sameStripe h = true ∧ (buffer 1).hdr.retry = h.retry ∧ (buffer 1).decoded = false ∧
    h.frag ∉ (buffer 1).frags.map (·.1) ∧ mayDeliver t 0 (buffer 3) = true ∧ t.pkg.draining = false ∧ (buffer 3).decoded = true ∧
    g.type = 0 ∧ g.ord = false ∧ g.ring = false ∧ g.comp = false ∧ g.last = true ∧ g.stripe = 0 ∧ g.cen = false ∧ 0 < g.mlen ∧
    (engineAccess t (regionCtx ⟨0, 0⟩ 0 0) ⟨true, 0x1000⟩ true false 1400).toOption.isSome = true ∧ homeCut t 0 (.pa 0x51000) = false ∧
    (engineGet t (regionCtx ⟨0, 0⟩ 0 0) ⟨true, 0x1000⟩ false 1400).toOption.isSome = true := by decide +kernel

/-- A second attempt from node 9 that its deadline finds unfinished, and a stripe that a drain holds back. -/
theorem witness_FabricReceives_deadline :
    let again : DecodeBuf := { buffer 1 with header := BitVec.ofNat 512 ((fragOf { header with retry := true } 0).toNat % 2 ^ 512) }
    let s := nodeState (fun y => { y with recvs := [recvEntry], bufs := [again] }) id
    let far := nodeState (fun y => { y with recvs := [recvEntry], bufs := [buffer 3] }) fun p => { p with draining := true }
    again.hdr.retry = true ∧ again.hdr.type = 0 ∧ again.hdr.srcNode ≠ s.pkg.nodeId ∧ again.hdr.dstNode = s.pkg.nodeId ∧ again.hdr.dstDie = 0 ∧
    again.decoded = false ∧ recvEntry.node = again.hdr.srcNode ∧ recvEntry.die = again.hdr.srcDie ∧ recvEntry.flow = again.hdr.flow ∧
    regionOf s recvEntry.region = some region0 ∧ region0.fdom = true ∧ (s.die 0).errWp - (s.die 0).errRp ≠ 4096 ∧
    mayDeliver far 0 (buffer 3) = true ∧ stripeDrained far 0 (buffer 3) = true := by decide +kernel

theorem witness_FabricReceives_arrives :
    arrives (nodeState id id) 0 (fragOf header 0) ∧ arrives (nodeState id id) 0 (fragOf { header with type := 6 } 0) ∧
    arrives (nodeState id id) 0 (fragOf { header with type := 7 } 0) :=
  ⟨arrives_header _ (by decide +kernel) (by decide +kernel) (by decide +kernel), arrives_header _ (by decide +kernel) (by decide +kernel) (by decide +kernel),
    arrives_header _ (by decide +kernel) (by decide +kernel) (by decide +kernel)⟩

/-- Window 7 of 512 integer cells at device page 1, and its key of round 3 and block 2 with contributor 4's part. -/
def window : Window :=
  { id := 7, base := 0x1000, cells := 512, isInt := true, op := 0, det := false, ctr := 77, cscope := 0, region := ⟨0, 0⟩, domain := 0 }

/-- See window. -/
def key (complete : Bool) : Partial := ⟨11, 0, 7, 3, 2, 3, [(4, 9)], [], none, complete, none, none⟩

/-- Contributor 1's fragment of that key, of three contributors. -/
def part : Hdr := { header with type := 3, stripe := 2, daddr := 1 + 2 * 2 ^ 12 + 2 ^ 24, frag := 0, k := 1 }

theorem witness_ReductionWindows :
    let s := fun l => nodeState id fun p => { p with windows := [window], partials := l }
    let h := hdrAt (fragOf part 0).toNat
    let z : SentContribution := ⟨11, fragOf { part with srcNode := 5, dstNode := 9 } 0, [0, 8], false, false, ctx0, 1⟩
    let own := regionCtx window.region window.domain 0
    h.srcNode ≠ (s []).pkg.nodeId ∧ window.id = h.flow % 64 ∧
    (h.flow % 64, h.seq, h.stripe) ∉ (s []).pkg.doneKeys ∧ 128 * h.stripe < window.cells ∧ field h.daddr 24 2 = 1 ∧
    field h.daddr 26 2 = window.op ∧ field h.daddr 0 12 < field h.daddr 12 12 + 1 ∧ (key false).plane = 0 ∧ (key false).round = h.seq ∧
    (key false).block = h.stripe ∧ (key false).count = field h.daddr 12 12 + 1 ∧ 1 ∉ (key false).parts.map (·.1) ∧
    (planeErased (s []) 0 = false ∧ planeErased (s []) 8 = false) ∧ regionTurn (s []) 0 (readyRegions (s []) 0) z.owner.ref = true ∧
    (s []).pkg.erased ≠ some 0 ∧ (nodeState id fun p => { p with erased := some 0 }).pkg.erased = some 0 ∧
    field { part with daddr := 1 + 2 * 2 ^ 12 + 3 * 2 ^ 24 }.daddr 24 2 = 3 ∧ regionOf (s []) z.owner.ref = some region0 ∧
    contributionCut (s []) 0 z = false ∧ (hdrAt (z.frag.toNat % 2 ^ 512)).dstNode ≠ (s []).pkg.nodeId ∧ (s []).pkg.draining = false ∧
    rrMode (s []) own = 0 ∧ linkDown (s []) 0 1 = false ∧ ctrValue (s []).ctrs 77 < 2 ^ 64 - 1 ∧ Memory.wf (s []).mem ∧
    (engineAccess (s []) own ⟨true, 0x1000 + 512 * 2⟩ true true 512).toOption =
      some ((List.range 8).map fun j => (.pa (0x51400 + 64 * j), 64 * j, 64)) := by decide +kernel

theorem witness_ReductionWindows_arrives : arrives (nodeState id id) 0 (fragOf part 0) :=
  arrives_header _ (by decide +kernel) (by decide +kernel) (by decide +kernel)

/-! Premises of the statements about the package, the calendar, the slots and the dispatcher. -/

/-- The machine with f done to its package and g to die 1. -/
def packaged (f : Pkg → Pkg) (g : Die → Die) : State :=
  let s := atCore Trig.none id
  { s with pkg := f { s.pkg with bootOk := true }, dies := updAt s.dies 1 g }

/-- An item of no kind is refused whether or not its signature holds (R459). -/
theorem refused_item (key floor : Nat) : itemCause key floor ⟨7, 3, 0, 0, 0, 0⟩ ≠ none := by
  unfold itemCause
  split <;> simp

/-- The premise of the clause in which bring-up completes holds where the signatures do: Config.signatureOk is free. -/
theorem witness_BringUpPowerAndAttestation :
    let s := packaged id fun y => { y with stopped := true, tableError := true }
    let few := packaged (fun p => { p with fuse := List.range 100 }) id
    let old := packaged (fun p => { p with attestBlocks := 65536, skew := -3 }) id
    let on := packaged (fun p => { p with attestLeft := 4 }) id
    (64 ≤ (workingCores s.pkg.fuse 0).length ∧ 64 ≤ (workingCores s.pkg.fuse 1).length) ∧ (workingCores few.pkg.fuse 0).length < 64 ∧
    (List.range 136).length = 136 ∧ 64 ≤ (List.range 100).length ∧ (List.range 100).length < 128 ∧
    (s.die 0).stopped = false ∧ (s.die 1).stopped = true ∧ (s.die 0).tableError = false ∧ (s.die 1).tableError = true ∧
    s.pkg.skew = 0 ∧ old.pkg.skew ≠ 0 ∧ (4096 : Nat) / 4096 ≠ (4096 - 1024) / 4096 ∧ s.pkg.bootOk = true ∧ s.pkg.attestLeft = 0 ∧
    s.pkg.attestBlocks < 2 ^ 16 ∧ 2 ^ 16 ≤ old.pkg.attestBlocks ∧ on.pkg.attestLeft ≠ 0 ∧
    s.pkg.trainFails = false ∧ (packaged (fun p => { p with trainFails := true }) id).pkg.trainFails = true ∧
    (packaged (fun p => { p with image := [] }) id).pkg.image = [] ∧ s.pkg.image ≠ [] ∧
    (let bare := packaged (fun p => { p with image := [], hostImage := [⟨0, 3, 0, 0, 0, 0⟩] }) id
     bare.pkg.image = [] ∧ bare.pkg.hostImage ≠ []) ∧ s.time / 4096 = (s.time - 1024) / 4096 := by decide +kernel

theorem witness_PackageRegistersAndHostAccesses :
    let s := packaged id id
    let busy := packaged (fun p => { p with tlbinv := 2 ^ 63, draining := true }) fun y => { y with errWp := 9, errRp := 3 }
    s.pkg.bootOk = true ∧ State.reset.pkg.bootOk = false ∧ (liveIds s).isEmpty = false ∧ (liveIds State.reset).isEmpty = true ∧
    field 0x12341 2 14 ≠ 0 ∧ (field 0x30001 2 14 = 0 ∧ field 0x30001 48 14 = 0 ∧ 0x30001 % 4 ≠ 3) ∧ s.pkg.tlbinv.getLsbD 63 = false ∧
    busy.pkg.tlbinv.getLsbD 63 = true ∧ (5 - (busy.die 1).errRp ≤ (busy.die 1).errWp - (busy.die 1).errRp) ∧
    (s.queue 2).log2n = 4 ∧ (s.queue 2).head = 0 ∧ (s.queue 2).tail = 0 ∧ (s.die 0).errWp - (s.die 0).errRp ≠ 4096 := by decide +kernel

theorem witness_PackageRegistersAndHostAccesses_host :
    let s := packaged id id
    globalPending s = false ∧ globalPending (atCore Trig.none fun k => { k with walk := some 0 }) = true ∧ s.pkg.draining = false ∧
    (packaged (fun p => { p with draining := true }) id).pkg.draining = true ∧
    200 + 2 ^ 2 ≤ 12 * 2 ^ 36 ∧ 12 * 2 ^ 36 < 2 ^ 44 + 2 ^ 3 := by decide +kernel

theorem witness_PackageRegistersAndHostAccesses_intact : intact (packaged id id) := intact_of_cores (by decide +kernel) rfl rfl

/-- An atomic of the running task on device memory that no unit has yet performed. -/
def lateUpdate : Access := accessTo pathS (.amo .add 5 0) 11 8 (.pa 0x51000)

/-- Package time n, before or in the slot that starts at `start`, with late accesses on core 0. -/
def atSlot (n start : Nat) (l : List Access) (f : Pkg → Pkg) : State :=
  let s := atCore Trig.none fun k => { k with accesses := l }
  { s with time := n, pkg := f { s.pkg with slotStart := start, bootOk := true, nodeId := 5, tsync := 5 } }

theorem witness_CalendarAndPackageTime_slots :
    let starts := fun (f : Nat) => 3 ≤ f ∧ (f % 256 = 0 ∨ 3 ≤ f % 256)
    let a := lateUpdate
    let s := atSlot (9728 * 5) (9728 * 5) [a] id
    let long := atSlot (9728 * 256) (9728 * 256) [] fun p => { p with sensors := updAt p.sensors 3 fun x => { x with temperature := 112 } }
    (starts 5 ∧ starts 256 ∧ starts 259 ∧ ¬ starts 257) ∧ 9728 * 5 - 256 < 9728 * 5 ∧
    (∀ h, h < 5 → starts h → 9728 * h ≤ 9728 * 5 - 256) ∧ (∀ h, h < 259 → starts h → 9728 * h ≤ 9728 * 256 + 25000) ∧
    (∀ c, c < 256 → outstanding long c = []) ∧ long.pkg.slotStart ≤ long.time ∧
    ((List.range 14).map fun i => (nth long.pkg.sensors i ⟨0, 0, 0⟩).temperature)[3]? = some 112 ∧ 3 ∈ 0 :: (List.range 6).map (fun i => 2 + 6 * 0 + i) ∧
    (nth s.pkg.errBase 1 0 ≤ 0x3FFF8 ∧ 0x3FFF8 < nth s.pkg.errBase 1 0 + 2 ^ 18) ∧ ¬ 0x40000 < nth s.pkg.errBase 1 0 + 2 ^ 18 ∧
    (∀ i, i < 14 → (nth s.pkg.sensors i ⟨0, 0, 0⟩).temperature ≤ 110) ∧ (long.die 0).errWp - (long.die 0).errRp ≠ 4096 ∧
    s.time = s.pkg.slotStart ∧ (s.core 0).ctx.isSome = true ∧ (∀ k, k < 256 → outstanding s k = if k = 0 then [(a, 0x51000)] else []) ∧
    (s.die 0).overruns = [] ∧ a.updates = true ∧ a.inTrap = false ∧ (s.core 0).pend.length < 16 ∧
    (atSlot (9728 * 5 + 100) (9728 * 5) [a] id).time < 9728 * 5 + 128 := by decide +kernel

theorem witness_CalendarAndPackageTime_intact : intact (atSlot (9728 * 5) (9728 * 5) [lateUpdate] id) :=
  intact_of_cores (by decide +kernel) rfl rfl

/-- A time sync of node 9 that says the receiver is o cycles ahead at package time 200,000. -/
def syncOf (o : Int) : BitVec 4608 :=
  fragOf { header with type := 5, time := ((200000 - fragTransit - o) % 2 ^ 40).toNat } 0

theorem witness_CalendarAndPackageTime_sync :
    let s := atSlot 200000 0 [] fun p => { p with tsync := 9, joined := true, launched := true, skewSince := some 77 }
    let n := atSlot 200000 0 [] fun p => { p with tsync := 9 }
    let m := atSlot 200000 0 [] id
    let h := fun o => hdrAt (syncOf o).toNat
    (fragSound (syncOf 6) && fragSound (syncOf (-6))) = true ∧ s.pkg.planeUp.getLsbD 9 = true ∧ s.pkg.nodeId ≠ s.pkg.tsync ∧
    (h 6).srcNode = s.pkg.tsync ∧ ((s.time : Int) - (h 6).time - fragTransit - 6) % 2 ^ 40 = 0 ∧
    ((s.time : Int) - (h (-6)).time - fragTransit - (-6)) % 2 ^ 40 = 0 ∧ n.pkg.launched = false ∧ n.pkg.skewSince = none ∧
    s.pkg.joined = true ∧ s.pkg.skewSince = some 77 ∧ s.time < 77 + 2 ^ 24 ∧ m.pkg.nodeId = m.pkg.tsync ∧ m.pkg.nodeId < 2 ^ 15 ∧
    m.pkg.bootOk = true ∧ State.reset.pkg.bootOk = false := by decide +kernel

/-- Slot 1 of die 0 as given, bound slots 5 there; every other slot is empty. -/
def slotted (x : Slot) (f : Core → Core) (ls : List Launch) (remap : List (Nat × Bool)) : State :=
  let s := atCore Trig.none id
  { s with
    time := 10000000
    cores := updAt s.cores 3 f
    pkg := { s.pkg with bootOk := true }
    disp := { s.disp with launches := ls, queues := [(2, queue0), (3, queue0)] }
    dies := s.dies.map fun y => { y with
      slots := (Vector.replicate 64 Slot.empty).set 1 x
      remap := Vector.ofFn fun i => remap.getD i.val (i.val, false) } }

/-- Queue 2 on columns 0 to 3 of rows 0 and 1, with an expiry. -/
def boundSlot (expiry : Nat) : Slot := ⟨true, true, 2, false, 0, 0, 4, 2, 5000, expiry, 0⟩

/-- A bind record of a queue: VALID, width, height and lease. -/
def bindRecord (q valid w h lease : Nat) : Nat := q + valid * 2 ^ 12 + w * 2 ^ 24 + h * 2 ^ 32 + lease * 2 ^ 64

theorem witness_SlotsRotationAndPreemption_records :
    let s := slotted (boundSlot 20000000) (fun k => { k with staged := some ctx0 }) [launch0] []
    let r := fun q v w h l => bindRecord q v w h l
    let ok := fun (x : Nat) => decide (field x 14 2 = 0 ∧ field x 23 1 = 0 ∧ field x 29 3 = 0 ∧ field x 36 28 = 0 ∧ field x 87 41 = 0 ∧
      field x 200 312 = 0 ∧ 0 < field x 64 23 ∧ field x 64 23 ≤ 5000000)
    (s.die 0).stopped = false ∧ s.pkg.bootOk = true ∧
    (s.die 0).slots.toList.all (fun z => decide (z.col + z.width ≤ 16 ∧ z.row + z.height ≤ 8)) = true ∧
    (ok (r 2 1 4 2 1000) && ok (r 2 0 4 2 1000) && ok (r 2 0 0 0 1000) && !ok (r 2 1 4 2 0)) = true ∧
    field (r 2 1 4 2 1000) 12 1 = 1 ∧ field (r 2 0 0 0 77) 12 1 = 0 ∧ (s.queue 2).log2n = 4 ∧ (s.queue 9).log2n < 4 ∧
    (headCores s 2).any (fun n => decide (n < 4 * 2)) = true ∧ (headCores s 2).any (fun n => decide (n < 2 * 2)) = false ∧
    headShape s 2 = none ∧ (s.die 0).errWp - (s.die 0).errRp ≠ 4096 ∧ (slotAt s 0 1).bound = true ∧ 3 ∈ slotCores 0 (slotAt s 0 1) ∧
    (s.core 3).staged = some ctx0 ∧ (s.core 0).ctx = some ctx0 ∧ (launchOf s ctx0.ref).map (·.queue) = some 2 ∧ inPlace s ctx0 = true := by
  decide +kernel

/-- A task that a time-slice has saved waits for core 3, which its slot gives to another queue. -/
theorem witness_SlotsRotationAndPreemption_saved :
    let y : Saved := ⟨{ ctx0 with core := 3 }, Core.reset, 0x1000000, 0, true⟩
    let s := slotted (boundSlot 20000000) id [launch0] []
    let t := { s with disp := { s.disp with saved := [y] } }
    t.disp.saved = [y] ∧ y.pinned = true ∧ y.ctx.core ∈ slotCores 0 (slotAt t 0 1) ∧ (launchOf t y.ctx.ref).map (·.queue) ≠ some 3 :=
  ⟨rfl, rfl, by decide +kernel, by decide +kernel⟩

theorem witness_SlotsRotationAndPreemption_rotation :
    let live : Launch := { launch0 with id := 1, queue := 3 }
    let s := slotted (boundSlot 100) id [launch0, live] []
    let idle := slotted { boundSlot 100 with bound := false, queue := 9 } id [launch0, live] []
    let one := fun (s : State) => (∀ j, j < 64 → j ≠ 1 → slotExpired s 0 j = false)
    ((slotAt s 0 1).present = true ∧ (slotAt s 0 1).bound = true ∧ (slotAt s 0 1).expiry ≤ s.time) ∧ (slotAt idle 0 1).bound = false ∧
    3 ∈ waitingQueues s ∧ headShape s 3 = none ∧ (s.die 0).rp < 4096 ∧ one s ∧ one idle ∧ (s.core 0).ctx = some ctx0 ∧
    0 ∈ slotCores 0 (slotAt s 0 1) := by decide +kernel

theorem witness_SlotsRotationAndPreemption_requests :
    let k := fun (flow : Machine.Flow) (p : Option Preempt) (k : Core) => { k with ctx := some ctx0, flow := flow, preq := p }
    let s := fun (flow : Machine.Flow) (p : Option Preempt) => slotted (boundSlot 20000000) (k flow p) [launch0] []
    let pair := fun (flow : Machine.Flow) (p : Option Preempt) => slotted (boundSlot 20000000) (k flow p) [launch0]
      [(0, false), (1, false), (2, true), (2, true)]
    let w := fun (flow : Machine.Flow) (p : Option Preempt) => { pair flow p with cores := updAt (pair flow p).cores 2 fun k => { k with staged := some ctx0 } }
    let p : Preempt := ⟨true, 9999999, false, false, true⟩
    ((s .running none).core 3).preq = none ∧ ((s .parked none).core 3).flow = .parked ∧ ((s .parked none).core 3).arch.inTrap = false ∧
    ((s .running (some p)).core 3).preq = some p ∧ (s .running (some p)).time < p.since + 50000 ∧ partnerOf (s .running none) 3 = none ∧
    partnerOf (pair .running none) 3 = some 2 ∧ hasWork (pair .running none) 2 = false ∧ hasWork (w .running none) 2 = true ∧
    (w .running none).time ≥ ctx0.started + 500000 ∧ ((w .parked none).core 3).flow = .parked ∧ ((slotted (boundSlot 1) id [] []).core 3).ctx = none := by
  decide +kernel

/-- The dispatcher at work: queue 2 has slot 3 of die 0, with g done to its launches and f to core 3; device page 1 is mapped. -/
def dispatched (f : Core → Core) (g : Disp → Disp) : State :=
  let s := withTables (atCore { Trig.none with core := 7 } fun k => k)
  { s with
    pkg := { s.pkg with bootOk := true, savePool := Vector.replicate 2 (2 + 0x100 * 2 ^ 16) }
    cores := updAt (updAt s.cores 7 fun k => { k with ctx := some { ctx0 with core := 7, id := 40 } }) 3 f
    disp := g { s.disp with launches := [] }
    dies := updAt s.dies 0 fun y => { y with slots := (Vector.replicate 64 Slot.empty).set 3 (boundSlot 2000000) } }

/-- A launch of queue 2 from a root at device page 1. -/
def rootedAt (st : LaunchState) (root : Nat) : Launch :=
  { launch0 with id := 1, seq := 9, root := root, state := st, validated := false, regions := [] }

/-- A root that is no leaf, with completion word and no children, as a snapshot holds it. -/
def rootRcb : Rcb :=
  ⟨0x1000, BitVec.ofNat 4096 (2 ^ 12 + 4 * 2 ^ 256 + 64 * 2 ^ 272 + 16 * 2 ^ 344 + 5 * 2 ^ 576 + 2 ^ 608 + 2 ^ 624 + 0x1000 * 2 ^ 512), 0⟩

theorem witness_LaunchesTasksAndContexts_validate :
    let s := dispatched id fun d => { d with launches := [rootedAt .queued 0x1000], snapshots := [(0x1000, [rootRcb])] }
    let bad := dispatched id fun d => { d with launches := [rootedAt .queued 0x1001] }
    let two := dispatched id fun d => { d with launches := [{ rootedAt .runnable 0x1000 with id := 0 }, rootedAt .queued 0x1000] }
    s.disp.launches = [rootedAt .queued 0x1000] ∧ (s.queue 2).en = true ∧ s.pkg.bootOk = true ∧ hasTime s = true ∧
    (match treeOf s none 0x1000 with | .ok tr => (tr.head?.map (·.2.rrmode)) == some 0 | .error _ => false) = true ∧
    (match treeOf bad none 0x1001 with | .ok _ => false | .error _ => true) = true ∧ (0x1001 : Nat) % 512 ≠ 0 ∧
    (bad.die 0).errWp - (bad.die 0).errRp ≠ 4096 ∧ (two.disp.launches.map (·.state)) = [.runnable, .queued] ∧
    (∀ m ∈ (dispatched id id).disp.launches, m.queue = 2 → m.state ≠ .queued) := by decide +kernel

/-- The leaf of a started launch of queue 2, with n of its twelve tasks issued and m ended. -/
def leafOf (n m : Nat) (stored : Bool) : Region :=
  { region0 with issued := n, ended := m, stored := stored, cores := 2, x := 2, y := 3, g := 2, compl := 0x1000 }

/-- See leafOf. -/
def startedAt (n m : Nat) (stored : Bool) : Launch := { launch0 with regions := [leafOf n m stored] }

theorem witness_LaunchesTasksAndContexts_tasks :
    let s := fun n => dispatched id fun d => { d with launches := [startedAt n 0 false] }
    let x : Ctx := { ctx0 with core := 3, task := 3 }
    let r := fun x l => dispatched (fun k => { k with staged := some x, idx := [1, 2] }) fun d => { d with launches := l }
    waitingQueues (s 3) = [] ∧ coreQueue (s 3) 200 = none ∧ coreQueue (s 3) 3 = some 2 ∧ mayRestore (s 3) 2 3 = false ∧ (s 3).disp.saved = [] ∧
    (leafOf 3 0 false).issued < 2 * 2 * 3 ∧ (leafOf 12 0 false).issued = 2 * 2 * 3 ∧ tasksIn (s 3) (startedAt 3 0 false) 0 < 2 ∧
    stageFree (s 3) 0 = true ∧ 0 ∈ queueCores (s 3) 2 ∧ ((s 3).core 3).staged = none ∧
    ((r x [startedAt 3 0 false]).core 3).staged = some x ∧ ((r x [startedAt 3 0 false]).core 3).ctx = none ∧
    pairFree (r x [startedAt 3 0 false]) 3 = true ∧ inPlace (r x [startedAt 3 0 false]) x = true ∧
    regionOf (r x [startedAt 3 0 false]) x.ref = some (leafOf 3 0 false) ∧ regionOf (r x []) x.ref = none ∧
    inPlace (r { x with det := true } [startedAt 3 0 false]) { x with det := true } = false ∧
    ((r x []).core 3).resident (r x []) x.image = true ∧ imgDataLen (vaRead (r x []) x.image 256) = 0 := by decide +kernel

/-- A context of core 3 in the save area at 0x1000000. -/
def savedTask : Saved := ⟨{ ctx0 with core := 3, spadk := 5 }, Core.reset, 0x1000000, 0, false⟩

theorem witness_LaunchesTasksAndContexts_saved :
    (dispatched id fun d => { d with launches := [startedAt 3 0 false], saved := [savedTask] }).disp.saved = [savedTask] := rfl

/-- The premise saveSound, a CRC over five mebibytes, is what contextSave leaves (R404); it is not evaluated here. -/
theorem witness_LaunchesTasksAndContexts_contexts :
    let x : Ctx := { ctx0 with core := 3, spadk := 5 }
    let pre : Preempt := ⟨false, 5, false, false, false⟩
    let k := fun (flow : Machine.Flow) (k : Core) => { k with ctx := some x, flow := flow, preq := some pre }
    let s := fun f => dispatched f fun d => { d with launches := [startedAt 3 0 false] }
    let back := fun f => dispatched f fun d => { d with launches := [startedAt 3 0 false], saved := [savedTask] }
    ((s (k .saving)).core 3).ctx = some x ∧ ((s (k .saving)).core 3).flow = .saving ∧ saveWaits (s (k .saving)) 3 x = false ∧
    saveWaits (s fun c => { k .saving c with flights := [{ flight 9 with deferred := false }] }) 3 x = true ∧ freeArea (s (k .saving)) 0 = some 0x1000000 ∧
    0x1000000 + saveBytes ≤ 12 * 2 ^ 36 ∧
    ([0x1000000, 0x1000000 + saveBytes - 1].all fun b => populated (s id) b && !homeCut (s id) 0 (.pa b)) = true ∧
    ((s (k .saving)).core 3).preq.map (·.forced) = some false ∧ ((s (k .running)).core 3).flow ≠ .saving ∧
    freeArea (atCore Trig.none id) 0 = none ∧ coreQueue (back id) 3 = some 2 ∧
    restorable (back id) 3 2 savedTask = true ∧ ((back id).core 3).ctx = none ∧ pairFree (back id) 3 = true ∧ ((back id).die 0).stopped = false ∧
    mayRestore (back id) 2 3 = true ∧ ((back fun k => { k with idx := [1, 2] }).core 3).resident (back id) x.image = true ∧ savedTask.core.park = none := by
  decide +kernel

theorem witness_LaunchesTasksAndContexts_completion :
    let s := fun n m st => dispatched id fun d => { d with launches := [startedAt n m st] }
    (s 12 12 false).disp.launches = [startedAt 12 12 false] ∧ workDone (s 12 12 false) ⟨0, 0⟩ = true ∧
    (leafOf 12 12 false).g * (leafOf 12 12 false).x * (leafOf 12 12 false).y ≤ (leafOf 12 12 false).ended ∧
    vaHomes (s 12 12 false) 0x1000 8 true = some [(.pa 0x51000, 0, 8)] ∧ (leafOf 12 11 false).ended < 2 * 2 * 3 ∧
    (startedAt 12 12 false).ownsLog = false ∧ (startedAt 12 12 false).validated = true ∧ (dispatched id id).disp.launches = [] := by decide +kernel

theorem witness_LaunchesTasksAndContexts_intact : intact (dispatched id id) := intact_of_cores (by decide +kernel) rfl rfl

/-! Premises of the statements about steps. -/

theorem witness_StepRunsDecodedInstruction :
    let s := atCore Trig.none id
    let op := fun d => { Trig.none with dest := d }
    s.pkg.tripped = false ∧ (atSlot 0 0 [] fun p => { p with tripped := true }).pkg.tripped = true ∧
    { s with agenda := [] }.agenda = [] ∧ s.agenda = ⟨0, 2, .ev .packageReset⟩ :: [] ∧
    (decodeTrigger (op 0x5C040).dest 0 0).toOption = some (.add false) ∧ (decodeTrigger (op 0x5C000).dest 0 0).toOption = none ∧
    (Instr.add false).wellFormed = true ∧ bitOf (encode (.add false)) 23 = false ∧ bitOf (encode (.fetch 3)) 23 = true := by decide +kernel

/-- A state with two pending steps, memory, and a counter meets the invariant. -/
theorem witness_StepKeepsInvariant :
    let s : State := { withTables (atCore Trig.none id) with agenda := [⟨130, 1, .ev .currySlotEnd⟩, ⟨130, 4, .ev (.fetch 3)⟩] }
    Inv s :=
  ⟨by decide +kernel, by decide +kernel, by decide +kernel, by decide +kernel⟩

/-! Worked examples of the spec. -/

/-- The transports of the guarded rotating-register add (under R187): sources, destinations and the guard. -/
theorem test_exampleGuardedAdd :
    (tSrc 0x8143800000, tDest 0x8143800000) = (0x1028, 0xE0000) ∧
    (tSrc 0x29801BB01580, tDest 0x29801BB01580) = (0x1003, 0xEC056) ∧
    (tGidx 0x29801BB01580, tGinv 0x29801BB01580, tGen 0x29801BB01580) = (9, false, true) := by decide +kernel

/-- The walk of VA 0x0412_3456_7890 from TROOT 0x0000_0100_0000 (under R254), and the leaf at the middle level beside it. -/
theorem test_exampleWalk :
    let m := fun leaf => memPut (memPut (memPut [] 0x1000008 8 0x1020001) 0x1020488 8 leaf) 0x104A2B0 8 0x1234000F
    let s := fun leaf => { State.reset with mem := m leaf, pkg := { Pkg.reset with troot := 0x1000000 } }
    vaHomes (s 0x1040001) 0x041234567890 4 false = some [(.pa 0x12347890, 0, 4)] ∧
    vaHomes (s 0x2000000F) 0x041234567890 4 false = some [(.pa 0x34567890, 0, 4)] := by decide +kernel

/-- Offset 0x0800 of a page with LAY 01 is offset 0x0100 of its frame (under R253). -/
theorem test_exampleLayout : layoutOffset 1 0x800 = 0x100 ∧ layoutOffset 0 0x800 = 0x800 := by decide +kernel

/-- The merge of two sparse rows (under R187): keys and payloads of the output pairs, the counts in y1 and the record's VALUE. -/
theorem test_exampleMerge :
    let pairs := fun (l : List Nat) => vecOf 256 32 fun i => l.getD i (if i % 2 = 0 then 0xFFFFFFFF else 0)
    let x := pairs [2, 0x3F800000, 5, 0x40000000, 9, 0xC0400000]
    let y := pairs [5, 0xC0000000, 7, 0x40800000, 9, 0x40400000]
    let run := fun (dz : Bool) => match exec (.vmerge 0 dz true 0) (atCore (ops x y 0) id) with
      | .next t => (t.core 0).flights.map fun f => ((List.range 10).map (lane f.y0), f.y1.map fun v => (List.range 4).map (lane v),
          f.posts.filterMap fun | .record v .. => some v | _ => none)
      | _ => []
    run false = [([2, 0x3F800000, 5, 0, 7, 0x40800000, 9, 0, 0xFFFFFFFF, 0], some [3, 3, 4, 0], [0x400030003])] ∧
    run true = [([2, 0x3F800000, 7, 0x40800000, 0xFFFFFFFF, 0, 0xFFFFFFFF, 0, 0xFFFFFFFF, 0], some [3, 3, 2, 0], [0x200030003])] := by
  decide +kernel

/-- The scale product below the FP32 range (under R148): the contribution, the element and its drain. -/
theorem test_exampleScaleProduct :
    let b := List.replicate 32 (codeParts .e2m1 7)
    let c := blockProduct b b 2 2 (some (52, 52))
    let a := accAdd AccEl.zero c
    c = ⟨.fin, 9 * 2 ^ 71, -214⟩ ∧ a = ⟨.fin, 9 * 2 ^ 90, -233⟩ ∧ a.image = 9 * 2 ^ 90 + 0xF17 * 2 ^ 96 ∧
    (drainEl .f32 0 0 a 0x3F80 0x3F80).code = 0x240 ∧ roundEl a = ⟨.fin, 576, -149⟩ := by decide +kernel

/-- The stochastic drain of 1 + 2^-24 + 2^-25 (under R150). -/
theorem test_exampleStochasticDrain :
    let a : AccEl := ⟨.fin, 2 ^ 25 + 3, -25⟩
    (drainEl .f32 4 0x4000 a 0x3F80 0x3F80).code = 0x3F800001 ∧ (drainEl .f32 4 0x3FFF a 0x3F80 0x3F80).code = 0x3F800000 := by
  decide +kernel

/-- One parity byte, and a lost data byte recovered from it (under R424). -/
theorem test_exampleParity :
    codeCoef 2 0 0 = 0x8E ∧ codeCoef 2 0 1 = 0xF4 ∧
    gfMul 0x8E 5 ^^^ gfMul 0xF4 2 = 0x79 ∧ gfMul 2 (0x79 ^^^ 0xF5) = 5 := by decide +kernel

end Sys2Proof.Tests
end

/-! PROOFS. The invariant along a step (O5). -/

namespace Sys2Proof.Proofs
open Sys2Proof Sys2Proof.Machine Sys2Proof.Safety

/-- Every meaning keeps the invariant, since every effect does. -/
theorem run_keeps_inv (p : Prog) {s : State} (h : Inv s) : Inv (p.run s) :=
  Prog.run_keeps Eff.apply_keeps_inv p s h

/-- Package time moves to the earliest item's, which leaves the agenda: no other item lies before it. -/
theorem inv_pop {s : State} {x : Item} {rest : List Item} (ha : s.agenda = x :: rest) (h : Inv s) (g : Trig) :
    Inv { s with time := max s.time x.at_, agenda := rest, cur := g } := by
  obtain ⟨hsorted, hlive, hmem, hctrs⟩ := h
  rw [ha] at hsorted
  obtain ⟨hx, hrest⟩ := List.pairwise_cons.1 hsorted
  refine ⟨hrest, fun y hy => ?_, hmem, hctrs⟩
  have hkey := hx y hy
  have hlx := hlive x (by simp [ha])
  have hly := hlive y (by simp [ha, hy])
  simp only [Item.key] at hkey
  exact ⟨hly.1, by simp only; omega⟩

/-- What the agenda gives to run: the instruction of its earliest item, in the state without that item. The decoder is taken as
some function D, since evaluating it on a free destination word is beyond the kernel. -/
theorem dueItem_run {s u : State} {i : Instr} (h : dueItem s = .run i u) : ∃ x rest g, s.agenda = x :: rest ∧
    u = { s with time := max s.time x.at_, agenda := rest, cur := g } := by
  obtain ⟨D, hD⟩ : ∃ D : Trig → Except DecodeError Instr, ∀ t, decodeTrigger t.dest (low t.a) (low t.b) = D t :=
    ⟨_, fun _ => rfl⟩
  unfold dueItem at h
  simp only [hD] at h
  split at h
  · cases h
  · split at h
    · cases h
    · rename_i x rest ha
      split at h
      · cases h
        exact ⟨x, rest, _, ha, rfl⟩
      · split at h
        · cases h
          exact ⟨x, rest, _, ha, rfl⟩
        · cases h

/-- The first clause of O5 holds: every step that answers a next state keeps the invariant. -/
theorem step_keeps_inv {s t : State} (hs : Inv s) (h : step s = .next t) : Inv t := by
  unfold step at h
  split at h
  · cases h
  · cases h
  · rename_i i u hd
    obtain ⟨x, rest, g, ha, rfl⟩ := dueItem_run hd
    obtain ⟨p, hp⟩ := exec_runs i { s with time := max s.time x.at_, agenda := rest, cur := g }
    obtain rfl : p.run _ = t := Host.Outcome.next.inj (hp.symm.trans h)
    exact run_keeps_inv p (inv_pop ha hs g)

/-- A trigger whose destination word is that of PACKAGE_RESET, a machine event (bit 23 set, by the model's own numbering). -/
def resetTrig : Trig := { Trig.none with dest := 2 ^ 23 }

/-- At package time 1 that trigger is pending as an operation; links do not train, so that bring-up stops early. -/
def resetAsOp : State :=
  { State.reset with time := 1, agenda := [⟨1, 2, .op resetTrig⟩], pkg := { Pkg.reset with trainFails := true } }

theorem resetAsOp_inv : Inv resetAsOp :=
  ⟨by decide +kernel, by decide +kernel, by decide +kernel, by decide +kernel⟩

/-- The decoder names PACKAGE_RESET by the trigger's destination word, which no rule keeps to 21 bits. -/
theorem decodeTrigger_resetTrig :
    decodeTrigger resetTrig.dest (low resetTrig.a) (low resetTrig.b) = .ok .packageReset := by decide +kernel

/-- The step runs PACKAGE_RESET as that operation. -/
theorem step_resetAsOp : step resetAsOp = exec .packageReset { resetAsOp with agenda := [], cur := resetTrig } := by
  have h : dueItem resetAsOp = .run .packageReset { resetAsOp with agenda := [], cur := resetTrig } := by
    simp only [dueItem, resetAsOp, decodeTrigger_resetTrig]
    rfl
  simp only [step, h]

/-- It starts package time again. -/
theorem packageReset_resetAsOp_time :
    ((Prog.all [.eff .restart, startClocks, bringUp]).run { resetAsOp with agenda := [], cur := resetTrig }).time = 0 := by
  decide +kernel

/-- Refutes O5: an operation whose destination word is the event word of PACKAGE_RESET starts package time again, though the agenda
held no such event. Its first clause stands (`step_keeps_inv`); the clause on package time fails. -/
theorem not_stepKeepsInvariant : ¬ Obligations.StepKeepsInvariant := by
  intro h
  obtain ⟨-, htime | ⟨p, r, hagenda, -⟩⟩ := h resetAsOp _ resetAsOp_inv step_resetAsOp
  · exact absurd (htime.trans_eq packageReset_resetAsOp_time) (by decide)
  · simp [resetAsOp] at hagenda

end Sys2Proof.Proofs


/-! PROOFS. The completion ring (O16). -/

namespace Sys2Proof.Proofs
open Sys2Proof Sys2Proof.Machine Sys2Proof.Safety

/-- An abandoned CRPOP: `Flight.drop` of a flight of SY (R29, R399). -/
def abandonedPop : Flight :=
  Flight.drop (flightOf { Trig.none with unit := 12 } 0 4)

/-- On core 0 the ring holds one record, and the abandoned CRPOP's operation comes again; its b names flag 3. -/
def poppingAbandoned : State :=
  { State.reset with
    cur := { Trig.none with unit := 12, b := wide 0x13, stage := 1, checked := true }
    cores := updAt State.reset.cores 0 fun k => { k with
      flights := [abandonedPop], arch := { k.arch with ring := { k.arch.ring with written := 1 } } } }

/-- The operation settles its flight, which stays abandoned: no flag is to be written. -/
theorem crpop_poppingAbandoned :
    ∃ t, exec (.crpop true) poppingAbandoned = .next t ∧ (t.core 0).flights.map (·.posts) = [[]] :=
  ⟨_, rfl, by decide +kernel⟩

/-- Refutes O16: of a CRPOP that has been abandoned the record's flag is not written when it lands, since what is abandoned stays so
(`putFlight`). The statement takes any flight of the trigger, an abandoned one among them. -/
theorem not_completionRingPops : ¬ Obligations.CompletionRingPops := by
  intro h
  obtain ⟨u, hu, hposts⟩ := crpop_poppingAbandoned
  obtain ⟨t, ht, hflights, -⟩ := (h poppingAbandoned true abandonedPop (by decide)).2 (by decide) (by decide +kernel)
    (by decide +kernel) (by decide +kernel) (by decide +kernel) (by decide +kernel) (by decide) (by decide)
  obtain rfl : t = u := Host.Outcome.next.inj (ht.symm.trans hu)
  have hb : (opB poppingAbandoned).getLsbD 4 = true := by decide +kernel
  rw [show poppingAbandoned.cur.core = 0 from rfl, hb] at hflights
  simp [hflights] at hposts

end Sys2Proof.Proofs


/-! PROOFS. What the shared operations leave of the cores, the memories and package time, one lemma for each part. -/

namespace Sys2Proof.Proofs
open Sys2Proof Sys2Proof.Machine Sys2Proof.Safety

section
variable (s : State) (d : Nat)

@[simp] theorem core_apply_post (t p : Nat) (w : What) : (Eff.apply (.post t p w) s).core d = s.core d := rfl
@[simp] theorem core_apply_purge (p : Item → Bool) : (Eff.apply (.purge p) s).core d = s.core d := rfl
@[simp] theorem core_apply_fresh (n : Nat) : (Eff.apply (.fresh n) s).core d = s.core d := rfl
@[simp] theorem core_apply_lput (c a n v : Nat) : (Eff.apply (.lput c a n v) s).core d = s.core d := rfl
end

section
variable (k : Core) (f : Flight)

/-- Only the flights of a core change as a flight is put under way. -/
theorem putFlight_eq : putFlight k f = { k with flights := (putFlight k f).flights } := by
  unfold putFlight; split <;> rfl

/-- The flights that result depend on the flights alone. -/
theorem putFlight_flights_congr {k l : Core} (h : k.flights = l.flights) :
    (putFlight k f).flights = (putFlight l f).flights := by
  unfold putFlight; rw [h]; split <;> rfl

@[simp] theorem putFlight_arch : (putFlight k f).arch = k.arch := by rw [putFlight_eq]
@[simp] theorem putFlight_accesses : (putFlight k f).accesses = k.accesses := by rw [putFlight_eq]
@[simp] theorem putFlight_pc : (putFlight k f).pc = k.pc := by rw [putFlight_eq]
end

section
variable (s : State) (c : Nat) (f : Flight)

theorem addFlight_core (h : c < 256) : ((addFlight c f).run s).core c = putFlight (s.core c) f := by
  cases hr : f.ready <;> simp [addFlight, hr, core_apply_core_self, h]

@[simp] theorem addFlight_time : ((addFlight c f).run s).time = s.time := by cases hr : f.ready <;> simp [addFlight, hr]
@[simp] theorem addFlight_lmem : ((addFlight c f).run s).lmem = s.lmem := by cases hr : f.ready <;> simp [addFlight, hr]
@[simp] theorem addFlight_mem : ((addFlight c f).run s).mem = s.mem := by cases hr : f.ready <;> simp [addFlight, hr]
end

section
variable (s : State) (t : Trig) (path : Nat) (kind : AccessKind) (pieces : List Piece) (wait : Nat)

theorem queueAccess_core (h : t.core < 256) : ((queueAccess t path kind pieces wait).run s).core t.core =
    { s.core t.core with
      accesses := queueIn (s.core t.core).accesses
        ⟨path, t.seq, t.unit, t.slot, kind, pieces, max s.time (t.t0 + wait), t.inTrap, bindings s kind pieces⟩ } := by
  simp [queueAccess, core_apply_core_self, h, bindings]

@[simp] theorem queueAccess_time : ((queueAccess t path kind pieces wait).run s).time = s.time := by simp [queueAccess]
@[simp] theorem queueAccess_lmem : ((queueAccess t path kind pieces wait).run s).lmem = s.lmem := by simp [queueAccess]
@[simp] theorem queueAccess_mem : ((queueAccess t path kind pieces wait).run s).mem = s.mem := by simp [queueAccess]
end

section
variable (s : State) (c : Nat) (all : Bool)

/-- A named point reached changes the pending faults alone. -/
theorem pointReached_core (h : c < 256) : ((pointReached c all).run s).core c =
    { s.core c with pend := (s.core c).pend.map fun p =>
      if p.code = 0x1C || all && p.code = 0x1A then { p with ready := true } else p } := by
  simp [pointReached, core_apply_core_self, h]

@[simp] theorem pointReached_time : ((pointReached c all).run s).time = s.time := rfl
@[simp] theorem pointReached_lmem : ((pointReached c all).run s).lmem = s.lmem := rfl
@[simp] theorem pointReached_mem : ((pointReached c all).run s).mem = s.mem := rfl
end

section
variable {α : Type} {n : Nat}

/-- Two changes that agree on the element changed are one. -/
theorem updAt_congr {v : Vector α n} {i : Nat} {f g : α → α} (d : α) (h : f (nth v i d) = g (nth v i d)) :
    updAt v i f = updAt v i g := by
  unfold updAt
  split
  · rename_i hi
    simp only [nth, hi, dif_pos] at h
    rw [h]
  · rfl

/-- A change that leaves the element as it is changes nothing. -/
theorem updAt_self {v : Vector α n} {i : Nat} {f : α → α} (d : α) (h : f (nth v i d) = nth v i d) : updAt v i f = v := by
  unfold updAt
  split
  · rename_i hi
    simp only [nth, hi, dif_pos] at h
    rw [h, Vector.set_getElem_self]
  · rfl

/-- Two changes of one element are one change. -/
theorem updAt_updAt (v : Vector α n) (i : Nat) (f g : α → α) : updAt (updAt v i f) i g = updAt v i (fun x => g (f x)) := by
  unfold updAt
  split <;> simp
end

section
variable (s : State) (c : Nat) (f g : Core → Core)

theorem apply_core_eq : (Eff.core c f).apply s = withCore s c f := rfl

theorem withCore_congr {f g : Core → Core} (h : f (s.core c) = g (s.core c)) : withCore s c f = withCore s c g := by
  rw [withCore, withCore, updAt_congr Core.reset h]

theorem withCore_self {f : Core → Core} (h : f (s.core c) = s.core c) : withCore s c f = s := by
  rw [withCore, updAt_self Core.reset h]

theorem withCore_withCore : withCore (withCore s c f) c g = withCore s c fun k => g (f k) := by
  simp only [withCore, updAt_updAt]

theorem withCore_core (h : c < 256) : (withCore s c f).core c = f (s.core c) := core_apply_core_self s c f h
theorem withCore_core_ne {d : Nat} (h : d ≠ c) : (withCore s c f).core d = s.core d := core_apply_core_ne s c f h.symm
@[simp] theorem withCore_time : (withCore s c f).time = s.time := rfl
@[simp] theorem withCore_lmem : (withCore s c f).lmem = s.lmem := rfl
@[simp] theorem withCore_mem : (withCore s c f).mem = s.mem := rfl
@[simp] theorem withCore_agenda : (withCore s c f).agenda = s.agenda := rfl
end

section
variable (k : Core) (q : Nat) (f : Arch → Arch)

@[simp] theorem updArch_arch : (k.updArch q f).arch = f k.arch := rfl
@[simp] theorem updArch_flights : (k.updArch q f).flights = k.flights := rfl
@[simp] theorem updArch_pend : (k.updArch q f).pend = k.pend := rfl
@[simp] theorem updArch_poison : (k.updArch q f).poison = k.poison := rfl
@[simp] theorem updArch_upsets : (k.updArch q f).upsets = k.upsets := rfl
@[simp] theorem updArch_seg_isSome : (k.updArch q f).seg.isSome = k.seg.isSome := by simp [Core.updArch]
end

section
variable (a : Arch) (v : Word)

theorem sr_setSr_same {i : Nat} (h : i < 24) : (a.setSr i v).sr i = v := nth_updAt_self a.st _ 0 h
theorem sr_setSr_ne {i j : Nat} (h : i ≠ j) : (a.setSr i v).sr j = a.sr j := nth_updAt_ne a.st _ 0 h
end

/-- A change of the task-visible state that changes nothing, neither in an open segment's shadow. -/
theorem updArch_id (k : Core) (q : Nat) : k.updArch q id = k := by
  have hseg : k.seg.map (fun g : Segment => if q < g.first then { g with shadow := id g.shadow } else g) = k.seg := by
    cases k.seg <;> simp
  rw [Core.updArch, hseg]
  rfl

/-- A fault of an operation that was triggered in no handler joins the pending ones while there are fewer than 16 (R383). -/
theorem addPending_run (s : State) (c : Nat) (p : PendFault) (h : (s.core c).pend.length < 16) :
    (addPending c p false).run s =
      withCore s c fun k => { k with pend := k.pend ++ [{ p with inSeg := k.seg.isSome }] } := by
  simp only [addPending, Prog.run_get, Bool.false_or, decide_eq_true_eq, if_neg (Nat.not_le.2 h)]
  rfl

end Sys2Proof.Proofs


/-! PROOFS. Numbers by their digits: reading back what `ofDigits`, `vecOf` and `setBits` put together. -/

namespace Sys2Proof.Proofs
open Sys2Proof Sys2Proof.Machine Sys2Proof.Safety

/-- The lowest digit and the ones above it. -/
theorem ofDigits_succ (n w : Nat) (f : Nat → Nat) :
    ofDigits (n + 1) w f = ofDigits n w (fun j => f (j + 1)) * 2 ^ w + f 0 % 2 ^ w := by
  simp [ofDigits, List.range_succ_eq_map, List.foldr_map]

theorem ofDigits_lt (n w : Nat) (f : Nat → Nat) : ofDigits n w f < 2 ^ (w * n) := by
  induction n generalizing f with
  | zero => simp [ofDigits]
  | succ n ih =>
    have h0 : f 0 % 2 ^ w < 2 ^ w := Nat.mod_lt _ (Nat.two_pow_pos w)
    calc ofDigits (n + 1) w f = ofDigits n w (fun j => f (j + 1)) * 2 ^ w + f 0 % 2 ^ w := ofDigits_succ ..
      _ < ofDigits n w (fun j => f (j + 1)) * 2 ^ w + 2 ^ w := Nat.add_lt_add_left h0 _
      _ = (ofDigits n w (fun j => f (j + 1)) + 1) * 2 ^ w := by ring
      _ ≤ 2 ^ (w * n) * 2 ^ w := Nat.mul_le_mul_right _ (ih _)
      _ = 2 ^ (w * (n + 1)) := by rw [← Nat.pow_add, Nat.mul_succ]

theorem digit_zero (x w : Nat) : digit x w 0 = x % 2 ^ w := by simp [digit]

theorem digit_succ (x w i : Nat) : digit x w (i + 1) = digit (x / 2 ^ w) w i := by
  simp [digit, Nat.div_div_eq_div_mul, ← Nat.pow_add, Nat.mul_succ, Nat.add_comm]

/-- A digit is the one put there. -/
theorem digit_ofDigits {n i : Nat} (w : Nat) (f : Nat → Nat) (h : i < n) : digit (ofDigits n w f) w i = f i % 2 ^ w := by
  induction n generalizing f i with
  | zero => omega
  | succ n ih =>
    have h0 : f 0 % 2 ^ w < 2 ^ w := Nat.mod_lt _ (Nat.two_pow_pos w)
    rw [ofDigits_succ]
    cases i with
    | zero => rw [digit_zero, Nat.mul_comm, Nat.mul_add_mod, Nat.mod_mod]
    | succ i =>
      rw [digit_succ, Nat.add_comm, Nat.add_mul_div_right _ _ (Nat.two_pow_pos w), Nat.div_eq_of_lt h0, Nat.zero_add]
      exact ih _ (by omega)

theorem digit_mod (x w i : Nat) : digit x w i % 2 ^ w = digit x w i := by simp [digit]

/-- A number whose digits fit a register is read back from it. -/
theorem digit_toNat_ofDigits {m n w i : Nat} (f : Nat → Nat) (h : i < n) (hm : w * n ≤ m) :
    digit (BitVec.ofNat m (ofDigits n w f)).toNat w i = f i % 2 ^ w := by
  rw [BitVec.toNat_ofNat, Nat.mod_eq_of_lt, digit_ofDigits w f h]
  exact (ofDigits_lt ..).trans_le (Nat.pow_le_pow_right (by decide) hm)

theorem digit_vecOf {n w i : Nat} (f : Nat → Nat) (h : i < n) (hm : w * n ≤ 8192) :
    digit (vecOf n w f).toNat w i = f i % 2 ^ w := digit_toNat_ofDigits f h hm

/-- A lane after a masked write (R21). -/
theorem lane_blend (m : Mask) (new old : Vec) {l : Nat} (h : l < 256) :
    lane (blend m new old) l = if m.getLsbD l then lane new l else lane old l := by
  unfold blend
  rw [lane, digit_vecOf _ h (by decide)]
  split <;> exact digit_mod ..

/-- A word with bit n replaced, by its parts below and from bit n on. -/
theorem setBits_bool_toNat (w : Word) {n : Nat} (b : Bool) (hn : n < 64) :
    (setBits w n 1 b.toNat).toNat = 2 ^ n * (w.toNat / 2 ^ n / 2 * 2 + b.toNat) + w.toNat % 2 ^ n := by
  obtain ⟨q, hq⟩ : ∃ q, q = w.toNat / 2 ^ n := ⟨_, rfl⟩
  obtain ⟨r, hr⟩ : ∃ r, r = w.toNat % 2 ^ n := ⟨_, rfl⟩
  have hb : b.toNat < 2 := Bool.toNat_lt b
  have hw : w.toNat = 2 ^ n * (q / 2 * 2) + q % 2 * 2 ^ n + r := by
    rw [← Nat.div_add_mod w.toNat (2 ^ n), ← hq, ← hr, Nat.mul_comm (q % 2), ← Nat.mul_add, Nat.div_add_mod']
  have hval : w.toNat - field w.toNat n 1 * 2 ^ n + b.toNat % 2 ^ 1 * 2 ^ n = 2 ^ n * (q / 2 * 2 + b.toNat) + r := by
    have hfield : field w.toNat n 1 = q % 2 := by rw [field, ← hq, pow_one]
    rw [hfield, pow_one, Nat.mod_eq_of_lt hb, Nat.mul_add, Nat.mul_comm b.toNat]
    omega
  have hsplit : 2 ^ 64 = 2 ^ n * (2 ^ (63 - n) * 2) := by
    rw [← Nat.pow_succ, ← Nat.pow_add]
    congr 1
    omega
  have hqlt : q < 2 ^ (63 - n) * 2 := by
    rw [hq, Nat.div_lt_iff_lt_mul (Nat.two_pow_pos n), Nat.mul_comm, ← hsplit]
    exact w.isLt
  have hlt : 2 ^ n * (q / 2 * 2 + b.toNat) + r < 2 ^ 64 :=
    calc 2 ^ n * (q / 2 * 2 + b.toNat) + r < 2 ^ n * (q / 2 * 2 + b.toNat) + 2 ^ n :=
          Nat.add_lt_add_left (hr ▸ Nat.mod_lt _ (Nat.two_pow_pos n)) _
      _ = 2 ^ n * (q / 2 * 2 + b.toNat + 1) := by ring
      _ ≤ 2 ^ n * (2 ^ (63 - n) * 2) := Nat.mul_le_mul_left _ (by omega)
      _ = 2 ^ 64 := hsplit.symm
  rw [setBits, BitVec.toNat_ofNat, hval, Nat.mod_eq_of_lt hlt, ← hq, ← hr]

/-- A bit of a word after bit n was replaced. -/
theorem getLsbD_setBits_bool (w : Word) {n : Nat} (b : Bool) (hn : n < 64) (i : Nat) :
    (setBits w n 1 b.toNat).getLsbD i = if i = n then b else w.getLsbD i := by
  have hlow : w.toNat % 2 ^ n < 2 ^ n := Nat.mod_lt _ (Nat.two_pow_pos n)
  rw [← BitVec.testBit_toNat, ← BitVec.testBit_toNat, setBits_bool_toNat w b hn, Nat.testBit_two_pow_mul_add _ hlow]
  conv_rhs => rw [← Nat.div_add_mod w.toNat (2 ^ n), Nat.testBit_two_pow_mul_add _ hlow]
  rcases Nat.lt_trichotomy i n with h | rfl | h
  · simp [h, Nat.ne_of_lt h]
  · cases b <;> simp [Nat.testBit_zero]
  · obtain ⟨j, rfl⟩ := Nat.exists_eq_add_of_lt h
    have : n + j + 1 - n = j + 1 := by omega
    have hn' : ¬ n + j + 1 < n := by omega
    have hne : n + j + 1 ≠ n := by omega
    have hd : (w.toNat / 2 ^ n / 2 * 2 + b.toNat) / 2 = w.toNat / 2 ^ n / 2 := by
      have := Bool.toNat_lt b
      omega
    simp only [hn', hne, if_false, this, Nat.testBit_succ, hd]

end Sys2Proof.Proofs


/-! PROOFS. ENTER and LEAVE (O13). -/

namespace Sys2Proof.Proofs
open Sys2Proof Sys2Proof.Machine Sys2Proof.Safety

/-- Word i of g28 to g31 as the running trigger's bundle read it. -/
def frameWord (s : State) (i : Nat) : Word := s.cur.aux.extractLsb' (64 * i) 64

theorem frameReg_eq (s : State) (u i : Nat) : (unitTrig s u).frameReg i = (frameWord s i).toNat := by
  simp [Trig.frameReg, digit, frameWord, BitVec.extractLsb'_toNat, Nat.shiftRight_eq_div_pow]

theorem sa_eq (s : State) (u : Nat) : (unitTrig s u).sa = (opA s).toNat := low_eq _
theorem sb_eq (s : State) (u : Nat) : (unitTrig s u).sb = (opB s).toNat := low_eq _

/-- An address below a register, in 64 bits. -/
theorem below_eq (x : Word) {n : Nat} (hn : n ≤ 2 ^ 64) : below x.toNat n = (x - BitVec.ofNat 64 n).toNat := by
  simp only [below, BitVec.toNat_sub, BitVec.toNat_ofNat]
  have := x.isLt
  omega

/-- A difference that does not pass zero, as a register holds it. -/
theorem info_sub (x y : Word) (h : y.toNat ≤ x.toNat) : info (x.toNat - y.toNat) = x - y := by
  apply BitVec.eq_of_toNat_eq
  have := x.isLt
  simp only [info, BitVec.toNat_sub, BitVec.toNat_ofNat]
  omega

@[simp] theorem info_toNat (x : Word) : info x.toNat = x := by simp [info]

/-- A local home is a place in some core's arrays. -/
theorem localHome_arr {s : State} {c p lim a n : Nat} {w : Bool} {l : Loc} (h : localHome s c p w lim a n = .ok l) :
    ∃ d y, l = .arr d y := by
  unfold localHome at h
  split at h
  · split at h
    · cases h
    · split at h
      · cases h
      · cases h; exact ⟨_, _, rfl⟩
  · split at h
    · split at h <;> cases h; exact ⟨_, _, rfl⟩
    · split at h
      · split at h <;> try split at h
        all_goals cases h
        exact ⟨_, _, rfl⟩
      · split at h
        · split at h <;> try split at h
          all_goals cases h
          exact ⟨_, _, rfl⟩
        · split at h
          · dsimp only at h
            split at h
            · cases h
            · split at h
              · cases h
              · split at h
                · cases h
                · cases h; exact ⟨_, _, rfl⟩
          · cases h

/-- Scalar memory is a core's own: its bytes are never read through a COMP page. -/
theorem sHomes_smem_arr {s : State} {c a n : Nat} {w b : Bool} {x : Loc × Nat × Nat}
    (h : x ∈ sHomes s c .smem w b a n) : ∃ d y, x.1 = .arr d y := by
  simp only [sHomes, spaceAddr] at h
  by_cases ha : a + n ≤ 0x40000
  · simp only [if_pos ha, accessHomes, coreAccess, Bool.not_false, if_true] at h
    cases hl : localHome s c pathS w (spadLimit s c) (0x400000 + a) n with
    | error e => simp [hl] at h
    | ok l =>
      simp only [hl, List.mem_singleton] at h
      subst h
      exact localHome_arr hl
  · simp [if_neg ha] at h

/-- Pieces in cores' arrays read no frame through a COMP page. -/
theorem pieceFrames_arr {l : List Piece} (h : ∀ p ∈ l, ∃ d y, p.at_ = .arr d y) : pieceFrames l = [] := by
  unfold pieceFrames
  rw [List.filterMap_eq_nil_iff.2]
  · rfl
  · intro p hp
    obtain ⟨d, y, hy⟩ := h p hp
    rw [hy]

/-- The pieces of scalar memory that a frame's words lie in. -/
theorem piecesFrom_smem_arr {s : State} {c at_ a n : Nat} {w b : Bool} :
    ∀ p ∈ piecesFrom at_ (sHomes s c .smem w b a n), ∃ d y, p.at_ = .arr d y := by
  intro p hp
  obtain ⟨x, hx, rfl⟩ := List.mem_map.1 hp
  exact sHomes_smem_arr hx

/-- A store of one frame word as it stands in LS's queue. -/
def frameStore (s : State) (x v : Word) : Access :=
  ⟨pathS, s.cur.seq, 10, s.cur.slot, .store (wide v.toNat),
    piecesFrom 0 (sHomes (view s) s.cur.core .smem true false x.toNat 8), max s.time (s.cur.t0 + storeWait), s.cur.inTrap, []⟩

/-- The load of the three frame words as it stands in LS's queue. -/
def frameLoad (s : State) (fp : Word) : Access :=
  let piece := fun (at_ : Nat) (x : Word) => piecesFrom at_ (sHomes (view s) s.cur.core .smem false false x.toNat 8)
  ⟨pathS, s.cur.seq, 10, s.cur.slot, .load 24 false [(31, 0), (28, 64), (29, 128)],
    piece 0 (fp - 8) ++ piece 64 (fp - 24) ++ piece 128 (fp - 16), max s.time (s.cur.t0 + 4), s.cur.inTrap, []⟩

/-- ENTER's effect, its checks passed. -/
theorem exec_enter (s : State) (hc : s.cur.core < 256) (h : admitted .enter s)
    (hs : (opA s).toNat ≤ (frameWord s 2).toNat) (hv : (opB s).toNat * 1024 ≤ (frameWord s 0).toNat) :
    ∃ t, exec .enter s = .next t ∧
      (t.core s.cur.core).accesses = queueIn (queueIn (queueIn (s.core s.cur.core).accesses
        (frameStore s (frameWord s 2 - 8) (frameWord s 3))) (frameStore s (frameWord s 2 - 16) (frameWord s 1)))
        (frameStore s (frameWord s 2 - 24) (frameWord s 0)) ∧
      (t.core s.cur.core).arch = { (s.core s.cur.core).arch with
        g := updAt (updAt (updAt (s.core s.cur.core).arch.g 29 (fun _ => frameWord s 2)) 30 (fun _ => frameWord s 2 - opA s)) 28
          (fun _ => frameWord s 0 - BitVec.ofNat 64 ((opB s).toNat * 1024)) } ∧
      (t.core s.cur.core).pc = (s.core s.cur.core).pc ∧ t.lmem = s.lmem ∧ t.mem = s.mem := by
  refine ⟨_, runOp_go opEnter s (admitted_go h rfl), ?_⟩
  have hstore : ∀ (u : State) (v : Nat) (l : List Piece), bindings u (.store (wide v)) l = [] := fun _ _ _ => rfl
  have hvsp : info ((frameWord s 0).toNat - (opB s).toNat * 1024) = frameWord s 0 - BitVec.ofNat 64 ((opB s).toNat * 1024) := by
    apply BitVec.eq_of_toNat_eq
    simp only [info, BitVec.toNat_sub, BitVec.toNat_ofNat]
    omega
  simp only [opEnter, opRun, Prog.run_all_cons, Prog.run_all_nil, finish, Prog.run_get, setArch_run, frameReg_eq, sa_eq, sb_eq]
  rw [below_eq _ (by decide), below_eq _ (by decide), below_eq _ (by decide)]
  refine ⟨?_, ?_, ?_, ?_, ?_⟩
  · simp [core_apply_core_self, queueAccess_core (t := unitTrig s 10), addFlight_core, hc, hstore, frameStore]
  · simp [core_apply_core_self, queueAccess_core (t := unitTrig s 10), addFlight_core, hc, Arch.setG, hvsp, info_sub _ _ hs]
  · simp [core_apply_core_self, queueAccess_core (t := unitTrig s 10), addFlight_core, hc]
  · simp
  · simp

/-- LEAVE's effect, its checks passed, with no S access queued. -/
theorem exec_leave (s : State) (hc : s.cur.core < 256) (h : admitted .leave s) (ha : (s.core s.cur.core).accesses = []) :
    ∃ t, exec .leave s = .next t ∧ (t.core s.cur.core).accesses = [frameLoad s (frameWord s 1)] ∧
      (t.core s.cur.core).flights =
        (putFlight (s.core s.cur.core) { flying s 10 5 with lands := false, ready := false, regs := [28, 29, 31] }).flights ∧
      (t.core s.cur.core).arch =
        { (s.core s.cur.core).arch with g := updAt (s.core s.cur.core).arch.g 30 (fun _ => frameWord s 1) } ∧
      (t.core s.cur.core).pc = (s.core s.cur.core).pc ∧ t.lmem = s.lmem ∧ t.mem = s.mem := by
  refine ⟨_, runOp_go opLeave s (admitted_go h rfl), ?_⟩
  have hload : ∀ u : State, bindings u (.load 24 false [(31, 0), (28, 64), (29, 128)]) (frameLoad s (frameWord s 1)).pieces = [] := by
    intro u
    have : pieceFrames (frameLoad s (frameWord s 1)).pieces = [] := by
      refine pieceFrames_arr fun p hp => ?_
      simp only [frameLoad, List.mem_append] at hp
      rcases hp with (hp | hp) | hp <;> exact piecesFrom_smem_arr p hp
    simp [bindings, this]
  simp only [opLeave, opRun, queueMarker, Prog.run_all_cons, Prog.run_all_nil, Prog.run_get, setArch_run, frameReg_eq, ha,
    List.any_nil, Bool.false_eq_true, if_false]
  rw [below_eq _ (by decide), below_eq _ (by decide), below_eq _ (by decide)]
  refine ⟨?_, ?_, ?_, ?_, ?_, ?_⟩
  · simp [core_apply_core_self, queueAccess_core (t := unitTrig s 10), addFlight_core, pointReached_core, hc, ha, queueIn, frameLoad,
      -BitVec.toNat_sub, -List.append_assoc]
    exact hload _
  · simp only [core_apply_core_self, queueAccess_core (t := unitTrig s 10), addFlight_core, pointReached_core, hc]
    exact putFlight_flights_congr _ rfl
  · simp [core_apply_core_self, queueAccess_core (t := unitTrig s 10), addFlight_core, pointReached_core, hc, Arch.setG]
  · simp [core_apply_core_self, queueAccess_core (t := unitTrig s 10), addFlight_core, pointReached_core, hc]
  · simp
  · simp

theorem enterCheck_eq (s : State) (hf : (s.core s.cur.core).fences = []) : opEnter.chk (view s) (unitTrig s 10) =
    if (opA s).toNat % 16 ≠ 0 ∨ (opA s).toNat < 32 ∨ 262144 < (opA s).toNat ∨ 4095 < (opB s).toNat then
      .bad 0x08 (info (low (Config.freeVec (view s).fresh)))
    else if (frameWord s 2).toNat < (opA s).toNat ∨ (frameWord s 2).toNat - (opA s).toNat < ((s.core s.cur.core).arch.sr 5).toNat ∨
        (frameWord s 0).toNat < 1024 * (opB s).toNat ∨
        (frameWord s 0).toNat - 1024 * (opB s).toNat < ((s.core s.cur.core).arch.sr 6).toNat then
      .bad 0x05 (info ((opA s).toNat % 2 ^ 32 + (opB s).toNat % 4096 * 2 ^ 32))
    else frameCheck (view s) s.cur.core true (enterSlots (frameWord s 2).toNat) := by
  have hgo : fenceCheck (view s) s.cur.core pathS = .go := by simp [fenceCheck, fenceHold, hf]
  have hsr : ∀ i, ((view s).core s.cur.core).arch.sr i = (s.core s.cur.core).arch.sr i := fun i => by
    simp [Arch.sr]
  simp only [opEnter, opRun, enterCheck, hgo, Verdict.and, frameReg_eq, sa_eq, sb_eq, hsr, Nat.mul_comm _ 1024]

/-- Settles O13. -/
theorem framesOpenAndClose : Obligations.FramesOpenAndClose := by
  intro s hc c k w piece store
  refine ⟨exec_enter s hc, exec_leave s hc, ?_⟩
  intro hu hf size n bad
  have hchk := enterCheck_eq s hf
  refine ⟨fun hbad => ?_, fun hok hlow => ?_⟩
  · exact ⟨_, runOp_bad opEnter s 0x08 _ hu (hchk.trans (if_pos hbad)) (by decide)⟩
  · have hinfo : info (size % 2 ^ 32 + n % 4096 * 2 ^ 32) = BitVec.ofNat 64 (size + n * 2 ^ 32) := by
      rw [Nat.mod_eq_of_lt (by omega : size < 2 ^ 32), Nat.mod_eq_of_lt (by omega : n < 4096)]
      rfl
    rw [← hinfo]
    exact runOp_bad opEnter s 0x05 _ hu ((hchk.trans (if_neg hok)).trans (if_pos hlow)) (by decide)

end Sys2Proof.Proofs


/-! PROOFS. RESULT_LANDING (O47): the one operation in flight of a core lands. -/

namespace Sys2Proof.Proofs
open Sys2Proof Sys2Proof.Machine Sys2Proof.Safety

/-- A core whose only flight f has landed at package time `now`, before the effects that come with it. -/
def landedCore (f : Flight) (now : Nat) (k : Core) : Core :=
  { k with
    flights := []
    undef := f.early (now - k.heldTotal) k.undef
    lastLand := if f.lands then assocSet k.lastLand f.unit now else k.lastLand }.updArch f.seq
      fun a => (if f.lands then a.setUnit f.unit (landPorts f) else a).engineDone f.unit

/-- The state with f landed on core c, before the effects that come with it. -/
def landed (s : State) (c : Nat) (f : Flight) : State := withCore s c (landedCore f s.time)

/-- f is core c's only flight and lands now: its outcome is known, its time has come, and neither another result of its unit nor, of VS,
another unit's record has landed in this cycle. -/
def LandsNow (s : State) (c : Nat) (f : Flight) : Prop :=
  (s.core c).flights = [f] ∧ f.ready = true ∧ f.due ≤ s.time ∧
    (f.lands = true → assoc (s.core c).lastLand f.unit ≠ some s.time ∧ (f.unit = 18 → (s.core c).portAt ≠ some s.time))

/-- Without a flight of another unit than VS no record takes the completion-ring port. -/
theorem portTaken_of_vs {k : Core} {f : Flight} {now : Nat} (hf : k.flights = [f]) (hu : f.unit = 18) :
    portTaken k now = decide (k.portAt = some now) := by
  have hrec : ∀ q, recordsNow k now q = false := fun q => by simp [recordsNow, hf, hu]
  simp [portTaken, hrec]

theorem LandsNow.not_waits {s : State} {c : Nat} {f : Flight} (h : LandsNow s c f) : landWaits (s.core c) f s.time = false := by
  obtain ⟨hf, -, -, hw⟩ := h
  cases hl : f.lands with
  | false => simp [landWaits, hl]
  | true =>
    obtain ⟨hlast, hport⟩ := hw hl
    by_cases hu : f.unit = 18
    · simp [landWaits, hl, hu ▸ hlast, hu, portTaken_of_vs hf hu, hport hu]
    · simp [landWaits, hl, hlast, hu]

theorem LandsNow.dueFlight {s : State} {c : Nat} {f : Flight} (h : LandsNow s c f) :
    dueFlight (s.core c) f.unit s.time = some f := by
  obtain ⟨hf, hr, hd, -⟩ := h
  simp [Machine.dueFlight, hf, landable, hr, hd]

/-- The landing of the only flight: its core's change, then the effects that come with it. -/
theorem landHead_run {s : State} {c : Nat} {f : Flight} (h : LandsNow s c f)
    (hno : (((Prog.each f.posts (applyPost c f)).run (landed s c f)).core c).flights = []) :
    (landHead c f.unit).run s = (Prog.each f.posts (applyPost c f)).run (landed s c f) := by
  have hflights := h.1
  simp only [landHead, Prog.run_get, h.dueFlight, h.not_waits, Bool.false_eq_true, if_false, Prog.run_all_cons, Prog.run_all_nil,
    setCore_run, apply_core_eq]
  rw [withCore_congr (g := landedCore f s.time) s c (by simp [landedCore, hflights])]
  unfold landed at hno ⊢
  rw [hno]
  rfl

/-- What a landing leaves beside its core's own registers: nothing else is in flight, and other cores, memories and counters stay. -/
def LandsOnCore (c : Nat) (s t : State) : Prop :=
  (t.core c).flights = [] ∧ (∀ d, d ≠ c → t.core d = s.core d) ∧ SameMemory s t ∧ t.ctrs = s.ctrs

section
variable {s : State} {c : Nat} {f : Flight}

theorem landed_core (hc : c < 256) : (landed s c f).core c = landedCore f s.time (s.core c) := withCore_core s c _ hc

theorem landsOnCore_landed (hc : c < 256) : LandsOnCore c s (landed s c f) :=
  ⟨by rw [landed_core hc]; rfl, fun _ hd => withCore_core_ne s c _ hd, ⟨rfl, rfl⟩, rfl⟩

/-- A further change of the core that starts nothing. -/
theorem LandsOnCore.withCore {t : State} {g : Core → Core} (hc : c < 256) (h : LandsOnCore c s t)
    (hg : (g (t.core c)).flights = (t.core c).flights) : LandsOnCore c s (withCore t c g) := by
  obtain ⟨hf, ho, hm, hk⟩ := h
  exact ⟨by rw [withCore_core t c g hc, hg, hf], fun d hd => (withCore_core_ne t c g hd).trans (ho d hd), hm, hk⟩

theorem landsOnCore_setArchAt {t : State} (hc : c < 256) (h : LandsOnCore c s t) (q : Nat) (g : Arch → Arch) :
    LandsOnCore c s ((setArchAt c q g).run t) :=
  h.withCore hc rfl

theorem landsOnCore_addPending {t : State} (hc : c < 256) (h : LandsOnCore c s t) (p : PendFault)
    (hp : (t.core c).pend.length < 16) : LandsOnCore c s ((addPending c p false).run t) := by
  rw [addPending_run t c p hp]
  exact h.withCore hc rfl

/-- An operation outside the engines that lands no result leaves its core's registers and ports to the effects that come with it. -/
theorem landed_arch_quiet (hc : c < 256) (hl : f.lands = false) (he : engineOf f.unit = none) :
    ((landed s c f).core c).arch = (s.core c).arch := by
  rw [landed_core hc]
  simp [landedCore, hl, Arch.engineDone, he]

/-- The landing with its effects: it is done where they start nothing. -/
theorem resultLanding_next {v : BitVec 8} {u : BitVec 5} (h : LandsNow s v.toNat f) (hu : f.unit = u.toNat)
    (hb : LandsOnCore v.toNat s ((Prog.each f.posts (applyPost v.toNat f)).run (landed s v.toNat f))) :
    exec (.resultLanding v u) s = .next ((Prog.each f.posts (applyPost v.toNat f)).run (landed s v.toNat f)) := by
  change ran (landHead v.toNat u.toNat) s = _
  rw [ran, ← hu, landHead_run h hb.1]

/-- f lands now on the unit that the event names, which is no engine, and gives no result: only its effects come about. -/
structure QuietLanding (s : State) (v : BitVec 8) (u : BitVec 5) (f : Flight) : Prop where
  now : LandsNow s v.toNat f
  unit : f.unit = u.toNat
  quiet : f.lands = false
  plain : engineOf u.toNat = none

variable {v : BitVec 8} {u : BitVec 5}

theorem QuietLanding.arch (h : QuietLanding s v u f) : ((landed s v.toNat f).core v.toNat).arch = (s.core v.toNat).arch :=
  landed_arch_quiet v.isLt h.quiet (h.unit ▸ h.plain)

/-- One effect comes with the landing, and it starts nothing. -/
theorem QuietLanding.next (h : QuietLanding s v u f) {p : Post} (hp : f.posts = [p])
    (hb : LandsOnCore v.toNat s ((applyPost v.toNat f p).run (landed s v.toNat f))) :
    exec (.resultLanding v u) s = .next ((applyPost v.toNat f p).run (landed s v.toNat f)) := by
  have h1 := resultLanding_next (u := u) h.now h.unit (by simpa only [hp, Prog.run_each_cons, Prog.run_each_nil] using hb)
  simpa only [hp, Prog.run_each_cons, Prog.run_each_nil] using h1

/-- An effect that changes the task-visible state alone. -/
theorem QuietLanding.turns (h : QuietLanding s v u f) {p : Post} (hp : f.posts = [p]) (g : Arch → Arch)
    (ha : (applyPost v.toNat f p).run (landed s v.toNat f) = (setArchAt v.toNat f.seq g).run (landed s v.toNat f)) :
    ∃ t, exec (.resultLanding v u) s = .next t ∧ LandsOnCore v.toNat s t ∧ (t.core v.toNat).arch = g (s.core v.toNat).arch := by
  have hb := landsOnCore_setArchAt v.isLt (landsOnCore_landed (s := s) (f := f) v.isLt) f.seq g
  refine ⟨_, h.next hp (by rwa [ha]), by rwa [ha], ?_⟩
  rw [ha, setArchAt_run, core_apply_core_self _ _ _ v.isLt, updArch_arch, h.arch]

/-- An effect that changes the task-visible state and raises a fault under a condition on what that leaves. -/
def raising (c : Nat) (f : Flight) (g : Arch → Arch) (b : Arch → Bool) (p : Arch → PendFault) : Prog := Prog.all [
  setArchAt c f.seq g,
  .get fun s => Prog.when_ (b (s.core c).arch) (addPending c (p (s.core c).arch) f.inTrap)]

variable {g : Arch → Arch} {b : Arch → Bool} {pf : Arch → PendFault}

theorem raising_run (h : QuietLanding s v u f) : (raising v.toNat f g b pf).run (landed s v.toNat f) =
    (Prog.when_ (b (g (s.core v.toNat).arch)) (addPending v.toNat (pf (g (s.core v.toNat).arch)) f.inTrap)).run
      ((setArchAt v.toNat f.seq g).run (landed s v.toNat f)) := by
  simp only [raising, Prog.run_all_cons, Prog.run_all_nil, Prog.run_get]
  rw [setArchAt_run, core_apply_core_self _ _ _ v.isLt, updArch_arch, h.arch]

theorem QuietLanding.turns_of_not_raised (h : QuietLanding s v u f) {p : Post} (hp : f.posts = [p])
    (ha : (applyPost v.toNat f p).run (landed s v.toNat f) = (raising v.toNat f g b pf).run (landed s v.toNat f))
    (hr : b (g (s.core v.toNat).arch) = false) :
    ∃ t, exec (.resultLanding v u) s = .next t ∧ LandsOnCore v.toNat s t ∧ (t.core v.toNat).arch = g (s.core v.toNat).arch := by
  have hrun : (applyPost v.toNat f p).run (landed s v.toNat f) = (setArchAt v.toNat f.seq g).run (landed s v.toNat f) := by
    rw [ha, raising_run h, hr, Prog.run_when_false]
  have hb := landsOnCore_setArchAt v.isLt (landsOnCore_landed (s := s) (f := f) v.isLt) f.seq g
  refine ⟨_, h.next hp (by rwa [hrun]), by rwa [hrun], ?_⟩
  rw [hrun, setArchAt_run, core_apply_core_self _ _ _ v.isLt, updArch_arch, h.arch]

theorem QuietLanding.pends (h : QuietLanding s v u f) {p : Post} (hp : f.posts = [p])
    (ha : (applyPost v.toNat f p).run (landed s v.toNat f) = (raising v.toNat f g b pf).run (landed s v.toNat f))
    (hr : b (g (s.core v.toNat).arch) = true)
    (ht : f.inTrap = false) (hl : (s.core v.toNat).pend.length < 16) :
    ∃ t, exec (.resultLanding v u) s = .next t ∧ LandsOnCore v.toNat s t ∧
      (t.core v.toNat).arch = g (s.core v.toNat).arch ∧
      (t.core v.toNat).pend = (s.core v.toNat).pend ++
        [{ pf (g (s.core v.toNat).arch) with inSeg := (s.core v.toNat).seg.isSome }] := by
  have hcore : ((setArchAt v.toNat f.seq g).run (landed s v.toNat f)).core v.toNat =
      (landedCore f s.time (s.core v.toNat)).updArch f.seq g := by
    rw [setArchAt_run, core_apply_core_self _ _ _ v.isLt, landed_core v.isLt]
  have hpend : (((setArchAt v.toNat f.seq g).run (landed s v.toNat f)).core v.toNat).pend = (s.core v.toNat).pend := by
    rw [hcore]; rfl
  have hseg : (((setArchAt v.toNat f.seq g).run (landed s v.toNat f)).core v.toNat).seg.isSome = (s.core v.toNat).seg.isSome := by
    rw [hcore]; simp [landedCore]
  have harch : (((setArchAt v.toNat f.seq g).run (landed s v.toNat f)).core v.toNat).arch = g (s.core v.toNat).arch := by
    rw [setArchAt_run, core_apply_core_self _ _ _ v.isLt, updArch_arch, h.arch]
  have hrun : (applyPost v.toNat f p).run (landed s v.toNat f) =
      (addPending v.toNat (pf (g (s.core v.toNat).arch)) false).run ((setArchAt v.toNat f.seq g).run (landed s v.toNat f)) := by
    rw [ha, raising_run h, hr, ht, Prog.run_when_true]
  have hb := landsOnCore_addPending v.isLt
    (landsOnCore_setArchAt v.isLt (landsOnCore_landed (s := s) (f := f) v.isLt) f.seq g) (pf (g (s.core v.toNat).arch))
    (by rwa [hpend])
  refine ⟨_, h.next hp (by rwa [hrun]), by rwa [hrun], ?_⟩
  rw [hrun, addPending_run _ _ _ (by rwa [hpend]), withCore_core _ _ _ v.isLt]
  exact ⟨harch, by simp only [hpend, hseg]⟩
end

/-- FLAGS joined with new bits: the word with those bits set. -/
theorem orFlags_eq (a : Arch) {b : Nat} (hb : b < 32) : a.orFlags b = a.setSr 14 (a.sr 14 ||| BitVec.ofNat 64 b) := by
  have hw := (a.sr 14).isLt
  unfold Arch.orFlags
  congr 1
  apply BitVec.eq_of_toNat_eq
  have hdiv : ((a.sr 14).toNat ||| b) / 2 ^ 5 = (a.sr 14).toNat / 2 ^ 5 := by
    rw [Nat.or_div_two_pow, Nat.div_eq_of_lt hb, Nat.or_zero]
  have hmod : ((a.sr 14).toNat ||| b) % 2 ^ 5 = ((a.sr 14).toNat % 2 ^ 5 ||| b) % 2 ^ 5 := by
    rw [Nat.or_mod_two_pow, Nat.or_mod_two_pow, Nat.mod_mod]
  have hor := Nat.div_add_mod ((a.sr 14).toNat ||| b) (2 ^ 5)
  have hlt : (a.sr 14).toNat ||| b < 2 ^ 64 := Nat.or_lt_two_pow hw (by omega)
  simp only [setBits, field, BitVec.toNat_ofNat, BitVec.toNat_or, pow_zero, Nat.div_one, Nat.mul_one,
    Nat.mod_eq_of_lt (by omega : b < 2 ^ 64)]
  rw [← hmod, Nat.mod_eq_of_lt (by omega)]
  omega

/-- Raising flags leaves the enables as they are. -/
theorem fpEnabled_orFlags (a : Arch) {b : Nat} (hb : b < 32) :
    (a.orFlags b).fpEnabled b = ((a.sr 14).toNat / 256 % 32 &&& b != 0) := by
  rw [orFlags_eq a hb, Arch.fpEnabled, sr_setSr_same _ _ (by decide), BitVec.toNat_or, BitVec.toNat_ofNat,
    Nat.mod_eq_of_lt (by omega : b < 2 ^ 64), field, Nat.or_div_two_pow, Nat.div_eq_of_lt (by omega : b < 2 ^ 8), Nat.or_zero]
  rfl

/-- Conversion counts joined. -/
def counted (x y z : Nat) (a : Arch) : Arch := a.setSr 12 (convAdd (a.sr 12) x y z)

theorem counted_counts (x y z : Nat) (a : Arch) : (counted x y z a).sr 12 = convAdd (a.sr 12) x y z :=
  sr_setSr_same _ _ (by decide)

theorem counted_thresholds (x y z : Nat) (a : Arch) : (counted x y z a).sr 13 = a.sr 13 := sr_setSr_ne _ _ (by decide)

theorem convOver_zero (w : Word) : convOver w 0 = false := by simp [convOver, field]

theorem convOver_of_lt {w t : Word} {i : Nat} (hi : i < 3) (h0 : 0 < field t.toNat (16 * i) 16)
    (h : field t.toNat (16 * i) 16 < field w.toNat (16 * i) 16) : convOver w t = true := by
  refine List.any_eq_true.2 ⟨16 * i, ?_, ?_⟩
  · interval_cases i <;> simp
  · simp [h, Nat.ne_of_gt h0]

/-- A keeper write where no word of the core is in error (R221). -/
theorem keeperLand_run {s : State} {c : Nat} (w : Who) (k : Nat) (bm : BitVec 1024) (y : Vec) (dm : BitVec 16) (d : BitVec 256)
    (rb : Bool) (hp : (s.core c).poison = []) (hu : (s.core c).upsets = []) :
    (keeperLand c w k bm y dm d rb).run s = (setArchAt c w.seq fun a => keeperWrite a k bm y dm d rb).run s := by
  simp [keeperLand, keeperErrors, hp, hu]

/-- A keeper write that rebinds nothing leaves tiles without a buckle as they are. -/
theorem keeperWrite_tiles {a : Arch} (k : Nat) (bm : BitVec 1024) (y : Vec) (dm : BitVec 16) (d : BitVec 256)
    (h : ∀ i, (nth a.tiles i Tile.reset).buckle = none) : (keeperWrite a k bm y dm d false).tiles = a.tiles := by
  ext1 i hi
  have hb : a.tiles[i].buckle = none := by simpa [nth, hi] using h i
  simp [keeperWrite, hb]

theorem keeperWrite_keeper (a : Arch) {k : Nat} (bm : BitVec 1024) (y : Vec) (dm : BitVec 16) (d : BitVec 256) (hk : k < 64) :
    nth (keeperWrite a k bm y dm d false).keepers k Keeper.reset =
      let o := nth a.keepers k Keeper.reset
      { o with bytes := mergeBytes bm y o.bytes, band := mergeBand dm d o.band, gen := o.gen + 1, writes := o.writes - 1 } :=
  nth_updAt_self _ _ _ hk

theorem digit_mergeBytes (m : BitVec 1024) (new old : Vec) {i : Nat} (hi : i < 1024) :
    digit (mergeBytes m new old).toNat 8 i = digit (if m.getLsbD i then new else old).toNat 8 i :=
  (digit_vecOf _ hi (by decide)).trans (digit_mod ..)

theorem digit_mergeBand (m : BitVec 16) (new old : BitVec 256) {i : Nat} (hi : i < 16) :
    digit (mergeBand m new old).toNat 16 i = digit (if m.getLsbD i then new else old).toNat 16 i :=
  (digit_toNat_ofDigits _ hi (by decide)).trans (digit_mod ..)

/-- The core after a write to its arrays where none of its words is in error: tags alone change. -/
theorem writeLoc_arr_core {s : State} {c : Nat} (a n v id : Nat) (w : Option Who) (hc : c < 256)
    (hp : (s.core c).poison = []) (hu : (s.core c).upsets = []) :
    ((writeLoc (.arr c a) n v id w).run s).core c =
      { s.core c with tags := (unitsOf a n 64).foldl (fun t ln => assocSet t ln (id % 65536)) (s.core c).tags } := by
  simp [writeLoc, hp, hu, core_apply_core_self, hc, healUpsets]

theorem writeLoc_arr_core_ne {s : State} {c d : Nat} (a n v id : Nat) (w : Option Who) (hd : d ≠ c)
    (hp : (s.core c).poison = []) (hu : (s.core c).upsets = []) :
    ((writeLoc (.arr c a) n v id w).run s).core d = s.core d := by
  simp [writeLoc, hp, hu, core_apply_core_ne _ _ _ hd.symm]

/-- The place of the next completion record (R10). -/
def recordPlace (a : Arch) : Nat := 0x400000 + a.crBase + 16 * (a.ring.written % 2 ^ a.crSize)

/-- The write of the record of operation q, the only one reserved, outside a segment. -/
def recordWrite (k : Core) (c q w n o : Nat) : Prog :=
  writeLoc (.arr c (recordPlace k.arch)) 16 (recordBytes w n o k.arch.ring.seq) ((k.ctx.map (·.id)).getD 0)
    (some ⟨c, (k.ctx.map (·.id)).getD 0, q, 0, false, none⟩)

/-- The only record of a ring is written: it is counted, and the number of the next one moves on. -/
def ringCounted (a : Arch) : Arch :=
  { a with ring := { a.ring with written := a.ring.written + 1, reserved := [], seq := a.ring.seq + 1 } }

/-- The one reserved record is written to the ring, and where an operation of another unit than VS left it the port is taken. -/
theorem flushRing_one_run {s : State} {c q w n o : Nat} (hr : (s.core c).arch.ring.reserved = [⟨q, some (w, n, o)⟩])
    (hg : (s.core c).seg = none) : ∃ p : Core → Option Nat, (flushRing c).run s =
      withCore ((recordWrite (s.core c) c q w n o).run s) c fun k => { k with portAt := p k }.updArch 0 fun a =>
        { a with ring := { a.ring with written := a.ring.written + 1, reserved := a.ring.reserved.drop 1, seq := a.ring.seq + 1 } } := by
  have hlim : (s.core c).recordLimit = none := by simp [Core.recordLimit, hg]
  simp only [flushRing, Prog.run_get, hr, hlim, List.takeWhile_cons, Option.isSome_some, Option.map_none, Option.getD_none,
    Bool.and_self, if_true, List.takeWhile_nil, List.zipIdx_cons, List.zipIdx_nil, Prog.run_all_cons, Prog.run_all_nil,
    Prog.run_each_cons, Prog.run_each_nil, List.length_cons, List.length_nil, Nat.add_zero, Prog.run_when, setArchAt_run]
  split
  · refine ⟨fun _ => some s.time, ?_⟩
    rw [setCore_run, apply_core_eq, apply_core_eq, withCore_withCore]
    simp [recordWrite, recordPlace]
  · refine ⟨fun k => k.portAt, ?_⟩
    simp [recordWrite, recordPlace, apply_core_eq]

/-- The one reserved record is written, outside a segment and where no word of the core is in error (R11). -/
theorem flushRing_one {s : State} {c q w n o : Nat} (hc : c < 256) (hr : (s.core c).arch.ring.reserved = [⟨q, some (w, n, o)⟩])
    (hg : (s.core c).seg = none) (hp : (s.core c).poison = []) (hu : (s.core c).upsets = []) :
    let t := (flushRing c).run s
    let a := (s.core c).arch
    (t.core c).arch = ringCounted a ∧
      (t.core c).flights = (s.core c).flights ∧ (∀ d, d ≠ c → t.core d = s.core d) ∧ t.mem = s.mem ∧
      t.lmem = updAt s.lmem c (fun m => memPut m (recordPlace a) 16 (recordBytes w n o a.ring.seq)) := by
  obtain ⟨p, hrun⟩ := flushRing_one_run hr hg
  have hcore := writeLoc_arr_core (recordPlace (s.core c).arch) 16 (recordBytes w n o (s.core c).arch.ring.seq)
    (((s.core c).ctx.map (·.id)).getD 0) (some ⟨c, ((s.core c).ctx.map (·.id)).getD 0, q, 0, false, none⟩) hc hp hu
  obtain ⟨hl, hm⟩ := writeLoc_arr_run s c (recordPlace (s.core c).arch) 16 (recordBytes w n o (s.core c).arch.ring.seq)
    (((s.core c).ctx.map (·.id)).getD 0) (some ⟨c, ((s.core c).ctx.map (·.id)).getD 0, q, 0, false, none⟩) hp hu
  simp only [hrun]
  refine ⟨?_, ?_, fun d hd => ?_, hm, hl⟩
  · rw [withCore_core _ _ _ hc, recordWrite, hcore]
    simp [ringCounted, hr]
  · rw [withCore_core _ _ _ hc, recordWrite, hcore]
    simp
  · rw [withCore_core_ne _ _ _ hd]
    exact writeLoc_arr_core_ne _ _ _ _ _ hd hp hu


/-- A record that came with a landing, its place being the only one reserved, is written. -/
theorem finishRecord_one {s : State} {c q w n o : Nat} (hc : c < 256) (hr : (s.core c).arch.ring.reserved = [⟨q, none⟩])
    (hg : (s.core c).seg = none) (hp : (s.core c).poison = []) (hu : (s.core c).upsets = []) :
    let t := (finishRecord c q w n o).run s
    let a := (s.core c).arch
    (t.core c).arch = ringCounted a ∧
      (t.core c).flights = (s.core c).flights ∧ (∀ d, d ≠ c → t.core d = s.core d) ∧ t.mem = s.mem ∧
      t.lmem = updAt s.lmem c (fun m => memPut m (recordPlace a) 16 (recordBytes w n o a.ring.seq)) := by
  obtain ⟨fin, hfin⟩ : ∃ fin, fin = withCore s c fun k => { k with arch := { k.arch with ring := { k.arch.ring with
    reserved := k.arch.ring.reserved.map fun e => if e.seq = q then { e with out := some (w, n, o) } else e } } } := ⟨_, rfl⟩
  have hcore : fin.core c = { s.core c with arch := { (s.core c).arch with ring := { (s.core c).arch.ring with
      reserved := [⟨q, some (w, n, o)⟩] } } } := by
    rw [hfin, withCore_core _ _ _ hc, hr]
    simp
  obtain ⟨ha, hf, ho, hm, hl⟩ := flushRing_one (s := fin) (w := w) (n := n) (o := o) hc (by rw [hcore]) (by rw [hcore]; exact hg)
    (by rw [hcore]; exact hp) (by rw [hcore]; exact hu)
  have hrun : (finishRecord c q w n o).run s = (flushRing c).run fin := by
    simp only [finishRecord, Prog.run_all_cons, Prog.run_all_nil, hfin]
    rfl
  rw [hcore] at ha hf hl
  rw [hrun]
  refine ⟨ha, hf, fun d hd => (ho d hd).trans ?_, hm.trans ?_, hl.trans ?_⟩
  · rw [hfin, withCore_core_ne _ _ _ hd]
  · rw [hfin, withCore_mem]
  · rw [hfin, withCore_lmem]
    rfl

section
variable (a : Arch)

theorem unit_setUnit_same {u : Nat} (h : u - 5 < 19) (g : Ports → Ports) : (a.setUnit u g).unit u = g (a.unit u) :=
  nth_updAt_self _ _ _ h

theorem unit_setUnit_ne {u w : Nat} (h : u - 5 ≠ w - 5) (g : Ports → Ports) : (a.setUnit u g).unit w = a.unit w :=
  nth_updAt_ne _ _ _ h

@[simp] theorem engineDone_unit (u w : Nat) : (a.engineDone u).unit w = a.unit w := by
  unfold Arch.engineDone
  split <;> rfl
end

section
variable {s : State} {v : BitVec 8} {u : BitVec 5} {f : Flight}

/-- A landing with no further effect. -/
theorem resultLanding_bare (h : LandsNow s v.toNat f) (hu : f.unit = u.toNat) (hp : f.posts = []) :
    exec (.resultLanding v u) s = .next (landed s v.toNat f) := by
  have hnext := resultLanding_next h hu (by rw [hp]; exact landsOnCore_landed v.isLt)
  rwa [hp] at hnext

/-- The task-visible state after a result has landed. -/
theorem landed_arch (hl : f.lands = true) : ((landed s v.toNat f).core v.toNat).arch =
    ((s.core v.toNat).arch.setUnit f.unit (landPorts f)).engineDone f.unit := by
  rw [landed_core v.isLt]
  simp [landedCore, hl]

/-- A lane of a result under a guard. -/
theorem lane_masked (m : Option Mask) (new old : Vec) {l : Nat} (hl : l < 256) :
    lane (match m with | none => new | some m => blend m new old) l =
      if (m.map (·.getLsbD l)).getD true then lane new l else lane old l := by
  cases m with
  | none => simp
  | some m => simpa using lane_blend m new old hl

/-- A landed result in the ports of its unit (R14, R21). -/
theorem landsResult (h : LandsNow s v.toNat f) (hu : f.unit = u.toNat) (h5 : 5 ≤ u.toNat) (h23 : u.toNat ≤ 23) (hl : f.lands = true)
    (hp : f.posts = []) : ∃ t, exec (.resultLanding v u) s = .next t ∧ LandsOnCore v.toNat s t ∧
      let old := (s.core v.toNat).arch.unit u.toNat
      let new := (t.core v.toNat).arch.unit u.toNat
      (∀ l, l < 256 → lane new.y0 l = if (f.mask.map (·.getLsbD l)).getD true then lane f.y0 l else lane old.y0 l) ∧
      (f.y1 = none → new.y1 = old.y0) ∧
      (∀ y, f.y1 = some y → ∀ l, l < 256 → lane new.y1 l =
        if (f.mask.map (·.getLsbD l)).getD true then lane y l else lane old.y1 l) ∧
      new.a = old.a ∧ new.b = old.b ∧ new.c = old.c ∧
      (engineOf u.toNat = none → (t.core v.toNat).arch = { (s.core v.toNat).arch with units := (t.core v.toNat).arch.units }) ∧
      (∀ w, 5 ≤ w → w ≠ u.toNat → (t.core v.toNat).arch.unit w = (s.core v.toNat).arch.unit w) := by
  refine ⟨_, resultLanding_bare h hu hp, landsOnCore_landed v.isLt, ?_⟩
  have hnew : ((landed s v.toNat f).core v.toNat).arch.unit u.toNat = landPorts f ((s.core v.toNat).arch.unit u.toNat) := by
    rw [landed_arch hl, engineDone_unit, hu, unit_setUnit_same _ (by omega)]
  refine ⟨fun l h256 => ?_, fun h1 => ?_, fun y h1 l h256 => ?_, ?_, ?_, ?_, fun he => ?_, fun w hw hne => ?_⟩
  · rw [hnew]
    exact lane_masked f.mask _ _ h256
  · rw [hnew]
    simp [landPorts, h1]
  · rw [hnew]
    simp only [landPorts, h1]
    exact lane_masked f.mask y _ h256
  · rw [hnew]; rfl
  · rw [hnew]; rfl
  · rw [hnew]; rfl
  · rw [landed_arch hl, Arch.engineDone, hu, he]
    rfl
  · rw [landed_arch hl, engineDone_unit, unit_setUnit_ne _ (by omega)]

/-- The shadow of an open segment takes the result of an operation that was triggered before the segment's entry. -/
theorem landsInShadow (h : LandsNow s v.toNat f) (hu : f.unit = u.toNat) (hp : f.posts = []) {g : Segment}
    (hg : (s.core v.toNat).seg = some g) (hl : f.lands = true) (he : engineOf u.toNat = none) :
    ∃ t, exec (.resultLanding v u) s = .next t ∧ (t.core v.toNat).seg = some (if f.seq < g.first then
      { g with shadow := g.shadow.setUnit u.toNat (landPorts f) } else g) := by
  refine ⟨_, resultLanding_bare h hu hp, ?_⟩
  rw [landed_core v.isLt]
  simp [landedCore, Core.updArch, hg, hl, hu, Arch.engineDone, he]

/-- A keeper write lands (R221). -/
theorem landsKeeper (h : QuietLanding s v u f) {n : Nat} {bm : BitVec 1024} {y : Vec} {dm : BitVec 16} {d : BitVec 256}
    (hp : f.posts = [.keeper n bm y dm d false]) (hpo : (s.core v.toNat).poison = []) (hup : (s.core v.toNat).upsets = []) :
    ∃ t, exec (.resultLanding v u) s = .next t ∧ LandsOnCore v.toNat s t ∧
      (t.core v.toNat).arch = keeperWrite (s.core v.toNat).arch n bm y dm d false := by
  refine h.turns hp (fun a => keeperWrite a n bm y dm d false) ?_
  have hcore := landed_core (s := s) (f := f) v.isLt
  exact keeperLand_run _ n bm y dm d false (by rw [hcore]; exact hpo) (by rw [hcore]; exact hup)

/-- A completion record comes with a landing, and it is the only one reserved (R10, R11). -/
theorem landsRecord (h : QuietLanding s v u f) {w n o : Nat} (hp : f.posts = [.record w n o]) (hg : (s.core v.toNat).seg = none)
    (hr : (s.core v.toNat).arch.ring.reserved = [⟨f.seq, none⟩]) (hi : intact s) :
    let k := s.core v.toNat
    ∃ t, exec (.resultLanding v u) s = .next t ∧ (t.core v.toNat).arch = ringCounted k.arch ∧
      t.lmem = updAt s.lmem v.toNat
        (fun m => memPut m (recordPlace k.arch) 16 (recordBytes w n o k.arch.ring.seq)) ∧
      (t.core v.toNat).flights = [] ∧ (∀ d, d ≠ v.toNat → t.core d = s.core d) ∧ t.mem = s.mem := by
  have hcore := landed_core (s := s) (f := f) v.isLt
  obtain ⟨hpo, hup⟩ := hi.1 v.toNat
  obtain ⟨ha, hf, ho, hm, hl⟩ := finishRecord_one (s := landed s v.toNat f) (q := f.seq) (w := w) (n := n) (o := o) v.isLt
    (by rw [h.arch]; exact hr) (by rw [hcore]; simp [landedCore, Core.updArch, hg]) (by rw [hcore]; exact hpo)
    (by rw [hcore]; exact hup)
  rw [h.arch] at ha hl
  have hnone : (((finishRecord v.toNat f.seq w n o).run (landed s v.toNat f)).core v.toNat).flights = [] := by
    rw [hf, hcore]
    rfl
  have hone : (Prog.each f.posts (applyPost v.toNat f)).run (landed s v.toNat f) =
      (finishRecord v.toNat f.seq w n o).run (landed s v.toNat f) := by
    rw [hp, Prog.run_each_cons, Prog.run_each_nil, applyPost]
  refine ⟨_, ?_, ha, hl, hnone, fun d hd => (ho d hd).trans (withCore_core_ne s _ _ hd), hm⟩
  change ran (landHead v.toNat u.toNat) s = _
  rw [ran, ← h.unit, landHead_run h.now (by rw [hone]; exact hnone), hone]
end

section
variable {s : State} {v : BitVec 8} {n : BitVec 6}

theorem coreBV_toNat (v : BitVec 8) : coreBV v.toNat = v := by simp [coreBV]

/-- A draining tile that an operation still holds is looked at again (R218). -/
theorem tileDrainDone_held (hd : (tileAt s v.toNat n.toNat).state = .draining)
    (h : (tileAt s v.toNat n.toNat).busy + (tileAt s v.toNat n.toNat).reads ≠ 0) :
    exec (.tileDrainDone v n) s = .next (posted s 1 3 (.tileDrainDone v n)) := by
  have hheld : ((tileAt s v.toNat n.toNat).busy != 0 || (tileAt s v.toNat n.toNat).reads != 0) = true := by
    simp; omega
  change ran (drainTile v.toNat n.toNat) s = _
  simp only [ran, drainTile, Prog.run_get, hd, hheld, if_true]
  simp [postEv, posted, Eff.apply, coreBV_toNat]

/-- A draining tile that nothing holds is empty (R218). -/
theorem tileDrainDone_free (hd : (tileAt s v.toNat n.toNat).state = .draining)
    (h : (tileAt s v.toNat n.toNat).busy + (tileAt s v.toNat n.toNat).reads = 0) :
    exec (.tileDrainDone v n) s = .next (withCore s v.toNat fun k => { k with
      arch := k.arch.setTile n.toNat fun x => { x with state := .empty } }) := by
  have hfree : ((tileAt s v.toNat n.toNat).busy != 0 || (tileAt s v.toNat n.toNat).reads != 0) = false := by
    simp; omega
  change ran (drainTile v.toNat n.toNat) s = _
  simp only [ran, drainTile, Prog.run_get, hd, hfree]
  rfl
end

/-- Settles O47: a landing is its core's change and then its effects, each of which turns the task-visible state alone, raises a fault
beside it, or writes a record. -/
theorem resultsLandInTriggerOrder : Obligations.ResultsLandInTriggerOrder := by
  unfold Obligations.ResultsLandInTriggerOrder
  intro s v u f h5 h23 c k due old base quiet turns pends counts
  have now : due → LandsNow s v.toNat f := fun ⟨hf, _, hr, hd, hw⟩ => ⟨hf, hr, hd, hw⟩
  have unit : due → f.unit = u.toNat := fun ⟨_, hu, _⟩ => hu
  have still : quiet → QuietLanding s v u f := fun ⟨hd, hl, he⟩ => ⟨now hd, unit hd, hl, he⟩
  refine ⟨fun hd hl hp => landsResult (now hd) (unit hd) h5 h23 hl hp, fun hq hp => ?_, fun n x hq hp => ?_, fun n x hq hp => ?_,
    fun n m hq hp => ?_, fun b hb h0 hq hp => ?_, fun b hb h0 hq hp ht hl => ?_, fun x y z h0 hq hp => ?_,
    fun x y z i hi h0 hlt hq hp ht hl => ?_,
    fun n hq hp => ?_, fun n hq hp => ?_, fun n q hq hp => ?_, fun n b hq hp => ?_, fun n bm y dm d hn hpo hup hbk hq hp => ?_,
    fun code i slot hq hp ht hl => ?_, fun hd hp g hg hl he => landsInShadow (now hd) (unit hd) hp hg hl he,
    fun n hdr => ⟨tileDrainDone_held hdr, tileDrainDone_free hdr⟩, fun w n o hq hp hg hr hi => ?_⟩
  · exact ⟨_, resultLanding_bare (now hq.1) (unit hq.1) hp, landsOnCore_landed v.isLt, (still hq).arch⟩
  · exact (still hq).turns hp _ rfl
  · exact (still hq).turns hp _ rfl
  · exact (still hq).turns hp _ rfl
  · obtain ⟨t, hx, hland, ha⟩ := (still hq).turns_of_not_raised (g := fun a => a.orFlags b) (b := fun a => a.fpEnabled b)
      (pf := fun _ => ⟨0x17, info b, f.slot, f.seq, true, false, 0⟩) hp rfl (by simp [fpEnabled_orFlags _ hb, h0, k, c])
    exact ⟨t, hx, hland, ha.trans (orFlags_eq _ hb)⟩
  · obtain ⟨t, hx, hland, ha, hpend⟩ := (still hq).pends (g := fun a => a.orFlags b) (b := fun a => a.fpEnabled b)
      (pf := fun _ => ⟨0x17, info b, f.slot, f.seq, true, false, 0⟩) hp rfl (by simp [fpEnabled_orFlags _ hb, h0, k, c]) ht hl
    exact ⟨t, hx, hland, ha.trans (orFlags_eq _ hb), hpend⟩
  · exact (still hq).turns_of_not_raised (g := counted x y z) (b := fun a => convOver (a.sr 12) (a.sr 13))
      (pf := fun a => ⟨0x16, a.sr 12, f.slot, f.seq, true, false, 0⟩) hp rfl
      (by rw [counted_thresholds, h0, convOver_zero])
  · have hover := convOver_of_lt hi h0 hlt
    obtain ⟨t, hx, hland, ha, hpend⟩ := (still hq).pends (g := counted x y z) (b := fun a => convOver (a.sr 12) (a.sr 13))
      (pf := fun a => ⟨0x16, a.sr 12, f.slot, f.seq, true, false, 0⟩) hp rfl
      (by rw [counted_counts, counted_thresholds]; exact hover) ht hl
    rw [counted_counts] at hpend
    exact ⟨t, hx, hland, ha, hpend⟩
  · exact (still hq).turns hp _ rfl
  · exact (still hq).turns hp _ rfl
  · exact (still hq).turns hp _ rfl
  · exact (still hq).turns hp _ rfl
  · obtain ⟨t, hx, hland, ha⟩ := landsKeeper (still hq) hp hpo hup
    have hz := keeperWrite_keeper k.arch bm y dm d hn
    rw [← ha] at hz
    refine ⟨t, hx, hland, by rw [hz], by rw [hz], by rw [hz], fun i hi => ?_, fun i hi => ?_, fun i hi => ?_, ?_⟩
    · rw [hz]
      exact digit_mergeBytes _ _ _ hi
    · rw [hz]
      exact digit_mergeBand _ _ _ hi
    · rw [ha]
      exact nth_updAt_ne _ _ _ hi.symm
    · rw [ha]
      exact keeperWrite_tiles _ _ _ _ _ hbk
  · refine (still hq).pends (g := id) (b := fun _ => true) (pf := fun _ => ⟨code, i, slot, f.seq, true, false, 0⟩) hp ?_ rfl ht hl
    rw [raising_run (still hq), setArchAt_run, apply_core_eq, withCore_self _ _ (updArch_id _ _)]
    rfl
  · obtain ⟨t, hx, ha, hm, hrest⟩ := landsRecord (still hq) hp hg hr hi
    exact ⟨t, hx, ⟨ha, hm⟩, hrest⟩

end Sys2Proof.Proofs


/-! PROOFS. The end of a context in class C (R35, R107, R385): its error record, and the end of its domain. -/

namespace Sys2Proof.Proofs
open Sys2Proof Sys2Proof.Machine Sys2Proof.Safety

/-- From every state the meaning leads to one in relation R to it. -/
def Within (R : State → State → Prop) (p : Prog) : Prop := ∀ s, R s (p.run s)

/-- A relation between a state and one that comes of it by any number of changes. -/
structure Frame (R : State → State → Prop) : Prop where
  refl : ∀ s, R s s
  trans : ∀ s t u, R s t → R t u → R s u

section
variable {R : State → State → Prop} (h : Frame R)
include h

theorem Frame.done : Within R .done := h.refl

theorem Frame.andThen {p q : Prog} (hp : Within R p) (hq : Within R q) : Within R (p.andThen q) := fun s => by
  rw [Prog.run_andThen]
  exact h.trans _ _ _ (hp s) (hq _)

theorem Frame.each_mem {α : Type} (l : List α) {p : α → Prog} (hp : ∀ x ∈ l, Within R (p x)) :
    Within R (Prog.each l p) := fun s => by
  induction l generalizing s with
  | nil => exact h.refl s
  | cons x l ih =>
    exact h.trans _ _ _ (hp x (by simp) s) (Prog.run_each_cons x l p s ▸ ih (fun y hy => hp y (by simp [hy])) _)

theorem Frame.each {α : Type} (l : List α) {p : α → Prog} (hp : ∀ x, Within R (p x)) : Within R (Prog.each l p) :=
  h.each_mem l fun x _ => hp x

theorem Frame.when (b : Bool) {p : Prog} (hp : Within R p) : Within R (Prog.when_ b p) := fun s => by
  cases b
  · exact h.refl s
  · exact hp s
end

/-- t is s but for what is pending and for the jobs of lanes and stack engines. -/
def QueuesOnly (s t : State) : Prop := ∃ a l e, t = { s with agenda := a, lanes := l, engines := e }

theorem queuesOnly_frame : Frame QueuesOnly where
  refl s := ⟨_, _, _, rfl⟩
  trans := by
    rintro s _ _ ⟨a, l, e, rfl⟩ ⟨a', l', e', rfl⟩
    exact ⟨a', l', e', rfl⟩

theorem queuesOnly_postEv (n p : Nat) (i : Instr) : Within QueuesOnly (postEv n p i) := fun _ => ⟨_, _, _, rfl⟩

theorem queuesOnly_wakeCore (c : Nat) : Within QueuesOnly (wakeCore c) := fun s =>
  queuesOnly_frame.andThen (queuesOnly_frame.when _ (queuesOnly_postEv _ _ _)) (queuesOnly_frame.when _ (queuesOnly_postEv _ _ _)) s

theorem queuesOnly_coreFreed (c n : Nat) : Within QueuesOnly (coreFreed c n) := fun s => by
  rw [coreFreed, Prog.run_get]
  split
  · exact queuesOnly_wakeCore c s
  · split
    · exact queuesOnly_frame.andThen (queuesOnly_wakeCore _) (queuesOnly_wakeCore _) s
    · exact queuesOnly_frame.andThen (queuesOnly_wakeCore _) (queuesOnly_wakeCore _) s

theorem queuesOnly_kickQueue (q : Nat) : Within QueuesOnly (kickQueue q) := fun s =>
  queuesOnly_frame.each _ (fun _ => queuesOnly_postEv _ _ _) s

/-- t is s but for its cores, and those without a task have their task-visible state and none still. -/
def TasksOnly (s t : State) : Prop :=
  (∃ k, t = { s with cores := k }) ∧ ∀ e, (s.core e).ctx = none → (t.core e).ctx = none ∧ (t.core e).arch = (s.core e).arch

theorem tasksOnly_frame : Frame TasksOnly where
  refl s := ⟨⟨_, rfl⟩, fun _ h => ⟨h, rfl⟩⟩
  trans := by
    rintro s _ _ ⟨⟨k, rfl⟩, h⟩ ⟨⟨k', rfl⟩, h'⟩
    refine ⟨⟨k', rfl⟩, fun e he => ?_⟩
    obtain ⟨hn, ha⟩ := h e he
    obtain ⟨hn', ha'⟩ := h' e hn
    exact ⟨hn', ha'.trans ha⟩

theorem withCore_core_ge (s : State) {c : Nat} (f : Core → Core) (d : Nat) (h : ¬ c < 256) : (withCore s c f).core d = s.core d := by
  simp [withCore, State.core, updAt, h]

/-- A property of every core's change. -/
theorem withCore_core_of {P : Core → Core → Prop} (s : State) (c : Nat) (f : Core → Core) (e : Nat) (hr : ∀ k, P k k)
    (hf : ∀ k, P k (f k)) : P (s.core e) ((withCore s c f).core e) := by
  by_cases hc : c < 256
  · by_cases he : e = c
    · subst he
      rw [withCore_core _ _ _ hc]
      exact hf _
    · rw [withCore_core_ne _ _ _ he]
      exact hr _
  · rw [withCore_core_ge _ _ _ hc]
    exact hr _

theorem tasksOnly_setCore (c : Nat) {f : Core → Core} (hf : ∀ k, k.ctx = none → (f k).ctx = none ∧ (f k).arch = k.arch) :
    Within TasksOnly (setCore c f) := fun s =>
  ⟨⟨_, rfl⟩, fun e =>
    withCore_core_of (P := fun k l => k.ctx = none → l.ctx = none ∧ l.arch = k.arch) s c f e (fun _ h => ⟨h, rfl⟩) hf⟩

/-- Buffers returned leave the tasks where they are. -/
theorem returnBuffers_within (ids cores : List Nat) :
    Within (fun s t => TasksOnly s t ∧ ∀ e, (t.core e).ctx = (s.core e).ctx) (returnBuffers ids cores) := fun s => by
  have hf : Frame fun s t : State => TasksOnly s t ∧ ∀ e, (t.core e).ctx = (s.core e).ctx :=
    ⟨fun s => ⟨tasksOnly_frame.refl s, fun _ => rfl⟩,
      fun s t u ⟨h, hc⟩ ⟨h', hc'⟩ => ⟨tasksOnly_frame.trans s t u h h', fun e => (hc' e).trans (hc e)⟩⟩
  refine hf.each _ (fun d => hf.when _ fun t => ?_) s
  refine ⟨?_, ?_⟩
  · exact tasksOnly_setCore d (by exact fun _ h => ⟨h, rfl⟩) t
  · exact fun e => withCore_core_of (P := fun k l => l.ctx = k.ctx) t d _ e (fun _ => rfl) fun _ => rfl

/-- What every change of a list of cores brings about on one of them. -/
theorem each_setCore_reaches {F : Core → Core} {A B : Core → Prop} (hA : ∀ k, A k → B (F k)) (hB : ∀ k, B k → B (F k)) {c : Nat}
    (hc : c < 256) {l : List Nat} (hl : c ∈ l) {s : State} (hs : A (s.core c) ∨ B (s.core c)) :
    B (((Prog.each l fun c => setCore c F).run s).core c) := by
  have hstays : ∀ (l : List Nat) (s : State), B (s.core c) → B (((Prog.each l fun c => setCore c F).run s).core c) := fun l => by
    induction l with
    | nil => exact fun s h => h
    | cons e l ih =>
      intro s h
      rw [Prog.run_each_cons]
      exact ih _ (withCore_core_of (P := fun k l => B k → B l) s e F c (fun _ => id) hB h)
  induction l generalizing s with
  | nil => simp at hl
  | cons e l ih =>
    rw [Prog.run_each_cons]
    by_cases he : c = e
    · subst he
      refine hstays l _ ?_
      rw [setCore_run, apply_core_eq, withCore_core _ _ _ hc]
      exact hs.elim (hA _) (hB _)
    · refine ih ((List.mem_cons.1 hl).resolve_left he) ?_
      rwa [setCore_run, apply_core_eq, withCore_core_ne _ _ _ he]

/-- A core whose task has ended. -/
def Idle (k : Core) : Prop := k.ctx = none ∧ k.flow = .idle ∧ k.flights = []

/-- What ends a task of a failed region takes from a core (R107). -/
def endTasks (gone : Ctx → Bool) (k : Core) : Core :=
  let k := { k with staged := k.staged.filter (fun x => !gone x), chans := k.chans.map (Channel.drop gone),
                    fxQ := k.fxQ.filter (fun q => !gone q.owner) }
  if (k.ctx.map gone).getD false then k.clear else k

section
variable {gone : Ctx → Bool} {k : Core}

theorem endTasks_of_free (h : k.ctx = none) : (endTasks gone k).ctx = none ∧ (endTasks gone k).arch = k.arch := by
  simp [endTasks, h]

theorem endTasks_idle (h : Idle k) : Idle (endTasks gone k) := by
  obtain ⟨hc, hf, hl⟩ := h
  simp [endTasks, Idle, hc, hf, hl]

theorem endTasks_gone {x : Ctx} (h : k.ctx = some x) (hx : gone x = true) : Idle (endTasks gone k) := by
  simp [endTasks, Idle, h, hx, Core.clear]
end

/-- A launch with the regions of an ended domain failed and complete (R107). -/
def failRegions (id : Nat) (inside : Nat → Bool) (m : Launch) : Launch :=
  if m.id = id then
    { m with regions := m.regions.mapIdx fun i x =>
        if inside i then { x with failed := true, issued := x.g * x.x * x.y, ended := x.g * x.x * x.y } else x }
  else m

theorem failRegions_id (id : Nat) (inside : Nat → Bool) (m : Launch) : (failRegions id inside m).id = m.id := by
  unfold failRegions
  split <;> rfl

theorem regionOf_failed {s t : State} {r : RegionRef} {l : Launch} {g : Region} {inside : Nat → Bool} (hl : launchOf s r = some l)
    (hg : l.regions[r.idx]? = some g) (hi : inside r.idx = true)
    (ht : t.disp.launches = s.disp.launches.map (failRegions l.id inside)) : (regionOf t r).map (·.failed) = some true := by
  have hfind : launchOf t r = some (failRegions l.id inside l) := by
    unfold launchOf at hl ⊢
    simp only [ht, List.find?_map, Function.comp_def, failRegions_id, hl, Option.map_some]
  simp [regionOf, hfind, failRegions, hg, hi]

/-- The context runs a task in the subtree of a launch's region. -/
def goneFrom (l : Launch) (root : Nat) (y : Ctx) : Bool :=
  decide (y.launch = l.id) && inSubtree l.regions root l.regions.length y.region

/-- The cores that run tasks in the subtree of a launch's region. -/
def coresFrom (s : State) (l : Launch) (root : Nat) : List Nat :=
  (List.range 256).filter fun c => ((s.core c).ctx.map (goneFrom l root)).getD false

/-- The end of a domain in its parts: buffers return, pending steps, tasks and jobs go, its regions fail, and what waited for them is
looked at (R107). -/
theorem domainEnd_run {s : State} {x : Ctx} {l : Launch} {g : Region} (hl : launchOf s x.ref = some l)
    (hi : l.regions[x.ref.idx]? = some g) (hg : g.fdom = true) : ∃ ids cores gone inside purged jobs tail,
      gone x = true ∧ inside x.ref.idx = true ∧ Within QueuesOnly jobs ∧ Within QueuesOnly tail ∧
      (domainEnd x.ref).run s = tail.run ((Eff.disp fun d => { d with
          saved := d.saved.filter (fun x => !gone x.ctx)
          returned := d.returned.filter (fun x => !gone x)
          launches := d.launches.map (failRegions l.id inside) }).apply
        (jobs.run ((Prog.each (List.range 256) fun c => setCore c (endTasks gone)).run
          ((Eff.purge purged).apply ((returnBuffers ids cores).run s))))) := by
  obtain ⟨n, hn⟩ : ∃ n, l.regions.length = n + 1 :=
    ⟨l.regions.length - 1, by have := (List.getElem?_eq_some_iff.1 hi).1; omega⟩
  have hid : l.id = x.launch := of_decide_eq_true (List.find?_some (p := fun m : Launch => decide (m.id = x.launch)) hl)
  have hroot : domainRoot l.regions l.regions.length x.ref.idx = x.ref.idx := by simp [hn, domainRoot, hi, hg]
  have hin : inSubtree l.regions x.ref.idx l.regions.length x.ref.idx = true := by simp [hn, inSubtree]
  have hq := queuesOnly_frame
  obtain ⟨gone, hgone⟩ : ∃ gone, gone = goneFrom l x.ref.idx := ⟨_, rfl⟩
  obtain ⟨cores, hcores⟩ : ∃ cores, cores = coresFrom s l x.ref.idx := ⟨_, rfl⟩
  refine ⟨(cores.filterMap fun c => (s.core c).ctx.map (·.id)) ++ (s.disp.saved.filter fun y => gone y.ctx).map (·.ctx.id), cores,
    gone, fun i => inSubtree l.regions x.ref.idx l.regions.length i, fun y => cores.any fun c => y.ofCore c,
    (Prog.each (List.range 384) fun i => .eff (.lane i (Lane.drop gone))).andThen
      (Prog.each (List.range 24) fun i => .eff (.engine i (StackEngine.drop gone))),
    (Prog.each (List.range 384) fun i => postEv 1 2 (.xlaneJobStart (BitVec.ofNat 9 i))).andThen
      ((Prog.each (List.range 24) fun i => postEv 1 2 (.seJobStart (BitVec.ofNat 5 i))).andThen
      ((Prog.each (List.range 12) fun i => postEv 1 2 (.tableLoadApply (BitVec.ofNat 4 i))).andThen
      ((Prog.each cores fun c => Prog.all [coreFreed c 0, postEv 1 3 (.taskStage (coreBV c))]).andThen
      ((kickQueue l.queue).andThen (Prog.each (List.range l.regions.length) fun i =>
        Prog.when_ (inSubtree l.regions x.ref.idx l.regions.length i)
        (postEv 1 3 (.regionComplete (BitVec.ofNat 32 l.id) (BitVec.ofNat 8 i)))))))),
    ?_, hin, ?_, ?_, ?_⟩
  · rw [hgone]
    exact Bool.and_eq_true_iff.2 ⟨decide_eq_true hid.symm, hin⟩
  · exact hq.andThen (hq.each _ fun _ _ => ⟨_, _, _, rfl⟩) (hq.each _ fun _ _ => ⟨_, _, _, rfl⟩)
  · exact hq.andThen (hq.each _ fun _ => queuesOnly_postEv _ _ _) (hq.andThen (hq.each _ fun _ => queuesOnly_postEv _ _ _)
      (hq.andThen (hq.each _ fun _ => queuesOnly_postEv _ _ _)
      (hq.andThen (hq.each _ fun _ => hq.andThen (queuesOnly_coreFreed _ _) (hq.andThen (queuesOnly_postEv _ _ _) hq.done))
      (hq.andThen (queuesOnly_kickQueue _) (hq.each _ fun _ => hq.when _ (queuesOnly_postEv _ _ _))))))
  · rw [hcores, hgone, domainEnd, Prog.run_get, hl]
    simp only [hroot, Prog.run_all_cons, Prog.run_andThen]
    rw [Prog.run_all_nil, Prog.run_eff, Prog.run_eff]
    rfl

/-- A task's domain ends: its own core is idle, its region has failed, and no memory, no die and no other task's registers change. -/
theorem domainEnd_ends {s : State} {c : Nat} {x : Ctx} {g : Region} (hc : c < 256) (hx : (s.core c).ctx = some x)
    (hr : regionOf s x.ref = some g) (hg : g.fdom = true) :
    let t := (domainEnd x.ref).run s
    Idle (t.core c) ∧ (regionOf t x.ref).map (·.failed) = some true ∧ t.lmem = s.lmem ∧ t.mem = s.mem ∧ t.dies = s.dies ∧
      ∀ e, (s.core e).ctx = none → (t.core e).arch = (s.core e).arch := by
  obtain ⟨l, hl, hi⟩ := Option.bind_eq_some_iff.1 hr
  obtain ⟨ids, cores, gone, inside, purged, jobs, tail, hgone, hin, hjobs, htail, hrun⟩ := domainEnd_run hl hi hg
  obtain ⟨⟨⟨k1, h1⟩, hfree1⟩, hctx1⟩ := returnBuffers_within ids cores s
  obtain ⟨s1, hs1⟩ : ∃ s1, s1 = (returnBuffers ids cores).run s := ⟨_, rfl⟩
  obtain ⟨s2, hs2⟩ : ∃ s2, s2 = (Eff.purge purged).apply s1 := ⟨_, rfl⟩
  obtain ⟨s3, hs3⟩ : ∃ s3, s3 = (Prog.each (List.range 256) fun c => setCore c (endTasks gone)).run s2 := ⟨_, rfl⟩
  obtain ⟨a4, l4, e4, h4⟩ := hjobs s3
  rw [← hs1] at h1 hfree1 hctx1 hrun
  rw [← hs2, ← hs3, h4] at hrun
  obtain ⟨⟨k3, h3⟩, hfree3⟩ := hs3 ▸ tasksOnly_frame.each (List.range 256)
    (fun c => tasksOnly_setCore c fun _ => endTasks_of_free (gone := gone)) s2
  have hidle : Idle (s3.core c) := by
    rw [hs3]
    refine each_setCore_reaches (A := fun k => k.ctx = some x) (fun k hk => endTasks_gone hk hgone) (fun _ => endTasks_idle) hc
      (List.mem_range.2 hc) (.inl ?_)
    rw [hs2, core_apply_purge, hctx1, hx]
  have hdisp : s3.disp = s.disp := by rw [h3, hs2, h1]; rfl
  obtain ⟨a5, l5, e5, h5⟩ := htail _
  rw [h5] at hrun
  simp only [hrun]
  refine ⟨hidle, regionOf_failed hl hi hin (congrArg _ (congrArg Disp.launches hdisp)), ?_, ?_, ?_, fun e he => ?_⟩
  · change s3.lmem = _
    rw [h3, hs2, h1]; rfl
  · change s3.mem = _
    rw [h3, hs2, h1]; rfl
  · change s3.dies = _
    rw [h3, hs2, h1]; rfl
  · obtain ⟨hn, ha⟩ := hfree1 e he
    change (s3.core e).arch = _
    rw [(hfree3 e (hs2 ▸ hn)).2, hs2]
    exact ha

/-- Bytes outside a read add nothing to it. -/
theorem memRead_fold_outside {l : Memory} {a n : Nat} (h : ∀ x ∈ l, ¬ (a ≤ x.1 ∧ x.1 < a + n)) (acc : Nat) :
    l.foldl (fun acc x => if a ≤ x.1 ∧ x.1 < a + n then acc + x.2.toNat * 2 ^ (8 * (x.1 - a)) else acc) acc = acc := by
  induction l with
  | nil => rfl
  | cons x l ih =>
    rw [List.foldl_cons, if_neg (h x (by simp))]
    exact ih fun y hy => h y (by simp [hy])

/-- The first byte of what was written is read back. -/
theorem memRead_memPut_first (m : Memory) (a n v : Nat) : memRead (memPut m a (n + 1) v) a 1 = v % 256 := by
  have hbelow : ∀ x ∈ m.filter (fun x => decide (x.1 < a)), ¬ (a ≤ x.1 ∧ x.1 < a + 1) := fun x hx => by
    have := of_decide_eq_true (List.mem_filter.1 hx).2
    omega
  have habove : ∀ x ∈ m.filter (fun x => decide (a + (n + 1) ≤ x.1)), ¬ (a ≤ x.1 ∧ x.1 < a + 1) := fun x hx => by
    have := of_decide_eq_true (List.mem_filter.1 hx).2
    omega
  obtain ⟨rest, hcells, hrest⟩ : ∃ rest, memCells a (n + 1) v =
      (if BitVec.ofNat 8 (digit v 8 0) = 0 then [] else [(a, BitVec.ofNat 8 (digit v 8 0))]) ++ rest ∧
      ∀ x ∈ rest, ¬ (a ≤ x.1 ∧ x.1 < a + 1) := by
    refine ⟨(List.range n).filterMap fun i =>
      if BitVec.ofNat 8 (digit v 8 (i + 1)) = 0 then none else some (a + (i + 1), BitVec.ofNat 8 (digit v 8 (i + 1))), ?_, fun x hx => ?_⟩
    · simp only [memCells, List.range_succ_eq_map, List.filterMap_cons, List.filterMap_map]
      split <;> simp_all
    · obtain ⟨i, -, hi⟩ := List.mem_filterMap.1 hx
      split at hi
      · simp at hi
      · obtain rfl := Option.some.inj hi
        simp
  have hbyte : (BitVec.ofNat 8 (digit v 8 0)).toNat = v % 256 := by simp [digit]
  rw [memRead, memPut, hcells, List.foldl_append, List.foldl_append, List.foldl_append, memRead_fold_outside hbelow,
    memRead_fold_outside habove, memRead_fold_outside hrest]
  split
  · next h => simpa [h] using hbyte
  · simpa using hbyte

/-- A record's first byte is its code. -/
theorem image_code (r : ErrRec) (time dropped : Nat) : r.image time dropped % 256 = r.code % 256 := by
  unfold ErrRec.image
  cases r.seg <;> dsimp only <;> omega

/-- The 64 bytes of a record, with their checksum (R385). -/
def recordWord (s : State) (r : ErrRec) : Nat :=
  r.image s.time (s.die r.die).errDropped + crc32c 60 (r.image s.time (s.die r.die).errDropped) * 2 ^ 480

theorem recordWord_code (s : State) (r : ErrRec) : recordWord s r % 256 = r.code % 256 := by
  have hcode := image_code r s.time (s.die r.die).errDropped
  unfold recordWord
  omega

/-- Where the next record of a die's ring goes (R386). -/
def recordAt (s : State) (d : Nat) : Nat := nth s.pkg.errBase d 0 + 64 * ((s.die d).errWp.toNat % 4096)

section
variable {s : State} {r : ErrRec}

theorem errorRecord_run (h : s.pkg.expEvents = []) : (errorRecord r).run s = (putRecord r).run s := by
  rw [errorRecord, Prog.run_get, h, List.find?_nil]

/-- A record joins a ring that has room for it (R386). -/
theorem putRecord_run (hroom : (s.die r.die).errWp - (s.die r.die).errRp ≠ 4096) (hr : recordable s r.die) :
    (putRecord r).run s = (Eff.die r.die fun d => { d with errWp := d.errWp + 1, errDropped := 0 }).apply
      ((Eff.gput (recordAt s r.die) 64 (recordWord s r)).apply s) := by
  obtain ⟨hpop, hcut⟩ := hr.1 ((s.die r.die).errWp.toNat % 4096) (Nat.mod_lt _ (by decide))
  have hfull : ((s.die r.die).errWp - (s.die r.die).errRp).toNat ≠ 4096 := fun h => hroom (BitVec.eq_of_toNat_eq h)
  rw [putRecord, Prog.run_get]
  simp only [if_neg hfull, hpop, hcut, Bool.not_true, Bool.or_self, Bool.false_eq_true, if_false]
  rw [Prog.run_all_cons, Prog.run_all_cons, Prog.run_all_nil, Prog.run_eff, Prog.run_eff]
  rfl
end

/-- A context ends in class C: its core is idle, its region has failed, and a record of the code joins the ring of its die (R35, R107,
R381). -/
structure EndsIn (s : State) (c : Nat) (x : Ctx) (code : Nat) (t : State) : Prop where
  idle : Idle (t.core c)
  failed : (regionOf t x.ref).map (·.failed) = some true
  counted : (t.die (c / 128)).errWp = (s.die (c / 128)).errWp + 1
  recorded : memRead t.mem (recordAt s (c / 128)) 1 = code
  arrays : t.lmem = s.lmem
  others : ∀ e, (s.core e).ctx = none → (t.core e).arch = (s.core e).arch

theorem die_apply_die_self (s : State) {d : Nat} (f : Die → Die) (h : d < 2) : ((Eff.die d f).apply s).die d = f (s.die d) :=
  nth_updAt_self _ _ _ h

theorem contextEnd_ends {s : State} {c : Nat} {x : Ctx} {g : Region} {rec : State → ErrRec} (hc : c < 256)
    (hx : (s.core c).ctx = some x) (hr : regionOf s x.ref = some g) (hg : g.fdom = true)
    (hroom : (s.die (c / 128)).errWp - (s.die (c / 128)).errRp ≠ 4096) (hw : recordable s (c / 128))
    (hdie : (rec s).die = c / 128) (hcode : (rec s).code < 256) : EndsIn s c x (rec s).code ((contextEnd c rec).run s) := by
  obtain ⟨m, hm⟩ : ∃ m, m = (putRecord (rec s)).run s := ⟨_, rfl⟩
  have hput := hm.trans (putRecord_run (hdie ▸ hroom) (hdie ▸ hw))
  have hrun : (contextEnd c rec).run s = (domainEnd x.ref).run m := by
    rw [contextEnd, Prog.run_get, hx]
    simp only [Prog.run_andThen]
    rw [errorRecord_run hw.2, hm]
  have hcores : ∀ e, m.core e = s.core e := fun e => by rw [hput]; rfl
  have hregion : regionOf m x.ref = some g := by rw [hput]; exact hr
  obtain ⟨hidle, hfail, hl, hmem, hdies, ho⟩ := domainEnd_ends hc ((hcores c).symm ▸ hx) hregion hg
  rw [← hrun] at hidle hfail hl hmem hdies ho
  refine ⟨hidle, hfail, ?_, ?_, ?_, fun e he => ?_⟩
  · rw [State.die, hdies, ← State.die, hput, hdie, die_apply_die_self _ _ (by omega)]
    rfl
  · rw [hmem, hput, hdie]
    exact (memRead_memPut_first ..).trans ((recordWord_code ..).trans (Nat.mod_eq_of_lt hcode))
  · rw [hl, hput]
    rfl
  · rw [ho e (by rw [hcores]; exact he), hcores]

end Sys2Proof.Proofs


/-! PROOFS. Traps, rewinds and timeouts (O48): taking a fault, and where it ends the context. -/

namespace Sys2Proof.Proofs
open Sys2Proof Sys2Proof.Machine Sys2Proof.Safety

/-- Nothing of a core is in flight, captured or in MA's queue. -/
def Landed (k : Core) : Prop := k.flights = [] ∧ (∀ e, e < 4 → nth k.captured e [] = []) ∧ k.maQ = []

theorem Landed.quiet {k : Core} (h : Landed k) : k.quiet = true := by
  obtain ⟨hf, hcap, hm⟩ := h
  have hall : k.captured.all (·.isEmpty) = true := Vector.all_eq_true.2 fun i hi => by
    have := hcap i hi
    simp only [nth, hi, dif_pos] at this
    simp [this]
  simp [Core.quiet, hf, hm, hall]

theorem nextFetch_refetching (s : State) (c n : Nat) : (nextFetch c n).run s = refetching s c n := by
  rw [nextFetch_run, refetching]
  congr 2
  refine List.filter_congr fun x _ => ?_
  simp

theorem raise_run (s : State) (c : Nat) (r : TrapReq) : (raise c r).run s = trapping s c r := by
  simp [raise, trapping, posted, Eff.apply, withCore]

theorem setBits_one (w : Word) : setBits w 0 1 1 = w ||| 1 := by
  refine BitVec.eq_of_getLsbD_eq fun i hi => ?_
  have h := getLsbD_setBits_bool w true (by decide : 0 < 64) i
  rw [Bool.toNat_true] at h
  rw [h, BitVec.getLsbD_or]
  split <;> simp_all

/-- The task-visible state as a trap is taken (R35). -/
def trapped (a : Arch) (pc : Nat) (r : TrapReq) : Arch :=
  (((a.setSr 2 (BitVec.ofNat 64 (r.code + r.slot * 2 ^ 8 + r.blevel.toNat * 2 ^ 11))).setSr 3
    (BitVec.ofNat 64 (r.pc.getD pc))).setSr 4 r.info).setSr 0 (a.sr 0 ||| 1)

/-- A trap is taken where the handler is enabled and none runs. -/
theorem takeTrap_enters {s : State} {c : Nat} {r : TrapReq} (hb : ((s.core c).arch.sr 1).getLsbD 63 = true)
    (ht : (s.core c).arch.inTrap = false) (hr : r.inTrap = false) :
    (takeTrap c r).run s = refetching (withCore s c fun k => { k with
      trapReq := none
      flow := .running
      pc := (k.arch.sr 1).toNat % 2 ^ 15
      arch := trapped k.arch k.pc r }) c 1 := by
  rw [takeTrap_run s c r hb ht hr, nextFetch_refetching, apply_core_eq]
  congr 1
  refine withCore_congr s c ?_
  simp [trapped, field, Arch.setInTrap, setBits_one, sr_setSr_ne]

/-- A fault that meets no handler ends the context (R35). -/
theorem takeTrap_escalates {s : State} {c : Nat} {r : TrapReq}
    (h : ((s.core c).arch.sr 1).getLsbD 63 = false ∨ (s.core c).arch.inTrap = true ∨ r.inTrap = true) : ∃ rec : State → ErrRec,
    (∀ s, (rec s).code = r.code ∧ (rec s).die = c / 128) ∧ (takeTrap c r).run s = (contextEnd c rec).run s := by
  have hcond : (!((s.core c).arch.sr 1).getLsbD 63 || (s.core c).arch.inTrap || r.inTrap) = true := by
    rcases h with h | h | h <;> rw [h] <;> simp
  refine ⟨_, ?_, by rw [takeTrap, Prog.run_get]; exact congrArg (Prog.run · s) (if_pos hcond)⟩
  exact fun _ => ⟨rfl, rfl⟩

/-- A core that stops for a fault, with every operation landed, no segment open and no rewind asked for. -/
def Entering (k : Core) : Prop := k.flow = .trapping ∧ k.rewind = none ∧ k.seg = none ∧ Landed k

section
variable {s : State} {c : Nat}

/-- Trap entry takes the bundle's own fault where none is pending. -/
theorem enterTrap_own (h : Entering (s.core c)) (hp : (s.core c).pend = []) {r : TrapReq} (hr : (s.core c).trapReq = some r) :
    (enterTrap c).run s = (takeTrap c r).run s := by
  obtain ⟨hf, hrew, hseg, hl⟩ := h
  simp [enterTrap, hf, Core.canRewind, hrew, hl.quiet, dueFault, hp, hr, hseg]

/-- Trap entry takes a pending fault before the bundle's own (R383). -/
theorem enterTrap_pending (h : Entering (s.core c)) {p : PendFault} (hp : (s.core c).pend = [p]) (hready : p.ready = true)
    (ht : (s.core c).arch.inTrap = false) : (enterTrap c).run s = (takePending c p (s.core c).pc).run s := by
  obtain ⟨hf, hrew, hseg, hl⟩ := h
  simp [enterTrap, hf, Core.canRewind, hrew, hl.quiet, dueFault, hp, hseg, hready, Core.raising, hl.1, hl.2.2, ht]
end

theorem postEv_posted (s : State) (n : Nat) {p : Nat} (i : Instr) (h : p < 8) : (postEv n p i).run s = posted s n p i := by
  simp [posted, Eff.apply, Nat.mod_eq_of_lt h]

/-- A ring with no record reserved has none to write. -/
theorem flushRing_empty {s : State} {c : Nat} (h : (s.core c).arch.ring.reserved = []) : (flushRing c).run s = s := by
  have hid : (fun k : Core => k.updArch 0 fun a => { a with ring := { a.ring with
      written := a.ring.written + 0, reserved := a.ring.reserved.drop 0, seq := a.ring.seq + BitVec.ofNat 16 0 } }) = id := by
    funext k
    exact (congrArg (k.updArch 0) (by funext a; simp)).trans (updArch_id k 0)
  simp only [flushRing, Prog.run_get, h, List.takeWhile_nil, List.zipIdx_nil, List.any_nil, List.length_nil, Prog.run_all_cons,
    Prog.run_all_nil, Prog.run_each_nil, Prog.run_when_false, setArchAt_run, apply_core_eq]
  rw [hid]
  exact withCore_self s c rfl

/-- A held bundle at the watchdog's limit, with no record of its core waiting to be written. -/
def Stuck (k : Core) : Prop :=
  k.flow = .running ∧ k.held ≠ 0 ∧ 2 ^ ((k.ctx.map (·.wdlim)).getD 22) ≤ k.held ∧ k.arch.ring.reserved = []

/-- The fault of a held bundle whose count has come to the limit (R29). -/
def frozenFault (k : Core) : TrapReq := ⟨0x19, k.holdInfo, 0, false, some k.pc, k.arch.inTrap, 0, false⟩

section
variable {s : State} {v : BitVec 8}

theorem freezeTimeout_stuck (h : Stuck (s.core v.toNat)) :
    exec (.freezeTimeout v) s = .next ((freeze v.toNat (s.core v.toNat).pc).run s) := by
  obtain ⟨hf, hheld, hlim, -⟩ := h
  have hlt : ¬ (s.core v.toNat).held < watchLimit (s.core v.toNat) := Nat.not_lt.2 hlim
  change ran (freezeExpired v.toNat) s = _
  simp [ran, freezeExpired, hf, hheld, hlt]

/-- A bundle that waits for no result takes 0x19 (R29). -/
theorem freezeTimeout_plain (h : Stuck (s.core v.toNat)) (h1 : field (s.core v.toNat).holdInfo.toNat 8 8 ≠ 1)
    (h9 : field (s.core v.toNat).holdInfo.toNat 8 8 ≠ 9) : exec (.freezeTimeout v) s = .next
      (trapping (withCore s v.toNat fun k => { k with held := 0, walk := none, walked := [] }) v.toNat
        (frozenFault (s.core v.toNat))) := by
  rw [freezeTimeout_stuck h, freeze, Prog.run_get]
  simp only [h1, h9, decide_false, Bool.or_self, Prog.run_all_cons, Prog.run_all_nil, Prog.run_when_false, flushRing_empty h.2.2.2,
    raise_run]
  rfl

/-- A result that the bundle waited for is discarded (R29, R399). -/
theorem abandon_ready {s : State} {c : Nat} {f : Flight} (hf : (s.core c).flights = [f]) (hl : f.lands = true)
    (hb : f.bound ≤ unheld s c) (hr : f.ready = true) (hp : f.posts = []) (hg : (s.core c).seg = none)
    (hring : (s.core c).arch.ring.reserved = []) : (abandon c f.unit).run s =
      posted (withCore s c fun k => { k with flights := [{ f with lands := false, dropped := true, regs := [], preds := [] }] }) 1 1
        (.resultLanding (coreBV c) (BitVec.ofNat 5 f.unit)) := by
  have hfind : (s.core c).flights.find? (fun g => (g.unit = f.unit && (g.lands || !g.regs.isEmpty) || f.unit = 13 && !g.preds.isEmpty)
      && decide (g.bound ≤ unheld s c)) = some f := by simp [hf, hl, hb]
  have hpolls : (!f.ready && !f.deferred && (f.unit = 12 || f.unit = 22 || f.unit = 21)) = false := by
    rw [hr]
    rfl
  rw [abandon, Prog.run_get]
  simp only [hfind, hpolls, Prog.run_all_cons, Prog.run_all_nil, Prog.run_when_false, setCore_run,
    Bool.false_eq_true, if_false, apply_core_eq]
  have hchange : withCore s c (fun k : Core => { k with
      flights := k.flights.map fun g : Flight => if g.unit = f.unit && g.seq = f.seq then g.drop else g }.updArch f.seq fun a =>
        { a with ring := { a.ring with reserved := a.ring.reserved.filter fun e : RingEntry => e.seq != f.seq } }) =
      withCore s c fun k => { k with flights := [{ f with lands := false, dropped := true, regs := [], preds := [] }] } := by
    refine withCore_congr s c ?_
    simp [hf, Core.updArch, hg, hring, Flight.drop, hp]
    rw [← hring]
  rw [hchange, postEv_posted _ _ _ (by decide)]

/-- The bundle that waited for a result takes 0x19, and the result is discarded (R29, R399). -/
theorem freezeTimeout_result {f : Flight} (h : Stuck (s.core v.toNat)) (h1 : field (s.core v.toNat).holdInfo.toNat 8 8 = 1)
    (hu : field (s.core v.toNat).holdInfo.toNat 0 5 = f.unit) (hf : (s.core v.toNat).flights = [f]) (hl : f.lands = true)
    (hb : f.bound ≤ unheld s v.toNat) (hr : f.ready = true) (hp : f.posts = []) (hg : (s.core v.toNat).seg = none) :
    exec (.freezeTimeout v) s = .next (trapping (posted (withCore s v.toNat fun k => { k with
      held := 0, walk := none, walked := []
      flights := [{ f with lands := false, dropped := true, regs := [], preds := [] }] }) 1 1
        (.resultLanding v (BitVec.ofNat 5 f.unit))) v.toNat (frozenFault (s.core v.toNat))) := by
  obtain ⟨m, hm⟩ : ∃ m, m = withCore s v.toNat fun k => { k with
      flights := [{ f with lands := false, dropped := true, regs := [], preds := [] }] } := ⟨_, rfl⟩
  have hcore : m.core v.toNat = { s.core v.toNat with
      flights := [{ f with lands := false, dropped := true, regs := [], preds := [] }] } := by rw [hm, withCore_core _ _ _ v.isLt]
  have hring : ((posted m 1 1 (.resultLanding v (BitVec.ofNat 5 f.unit))).core v.toNat).arch.ring.reserved = [] := by
    change (m.core v.toNat).arch.ring.reserved = []
    rw [hcore]
    exact h.2.2.2
  rw [freezeTimeout_stuck h, freeze, Prog.run_get]
  simp only [h1, hu, decide_true, Bool.true_or, Prog.run_all_cons, Prog.run_all_nil, Prog.run_when_true,
    abandon_ready hf hl hb hr hp hg h.2.2.2, raise_run, ← hm, coreBV, BitVec.ofNat_toNat, BitVec.setWidth_eq, flushRing_empty hring,
    setCore_run, apply_core_eq]
  have hboth : withCore (posted m 1 1 (.resultLanding v (BitVec.ofNat 5 f.unit))) v.toNat
        (fun k => { k with held := 0, walk := none, walked := [] }) =
      posted (withCore m v.toNat fun k => { k with held := 0, walk := none, walked := [] }) 1 1
        (.resultLanding v (BitVec.ofNat 5 f.unit)) := rfl
  rw [hboth, hm, withCore_withCore]
  rfl
end

section
variable {s : State} {v : BitVec 8}

/-- Writing an error record where nothing stops it leaves cores, arrays, package time and the lists of waiting work. -/
theorem errorRecord_leaves {r : ErrRec} (h : recordable s r.die) : let t := (errorRecord r).run s
    t.cores = s.cores ∧ t.lmem = s.lmem ∧ t.time = s.time := by
  simp only [errorRecord_run h.2]
  by_cases hfull : ((s.die r.die).errWp - (s.die r.die).errRp).toNat = 4096
  · rw [putRecord, Prog.run_get]
    simp only [if_pos hfull, Prog.run_eff, Eff.apply, and_self]
  · rw [putRecord_run (fun h => hfull (by rw [h]; rfl)) h]
    exact ⟨rfl, rfl, rfl⟩

/-- A rewind of the open segment, up to its fourth: a record, the core as it was at the segment's entry, and the next boundary (R395). -/
theorem rewind_run {g : Segment} {a : Nat × Nat} (hf : (s.core v.toNat).flow = .rewinding) (hl : Landed (s.core v.toNat))
    (hg : (s.core v.toNat).seg = some g) (ha : (s.core v.toNat).rewind = some a) (h3 : g.rewinds < 3) (hr : recordable s (v.toNat / 128)) :
    ∃ t, exec (.rewind v) s = .next t ∧ t.lmem = s.lmem ∧ (∀ d, d ≠ v.toNat → t.core d = s.core d) ∧
      t.core v.toNat = (s.core v.toNat).rewound g ∧ (⟨s.time + 1, 4, .ev (.fetch v)⟩ : Item) ∈ t.agenda := by
  obtain ⟨x, tag⟩ := a
  obtain ⟨r, hrec⟩ : ∃ r : ErrRec, r = { coreRecord s v.toNat 0x1B 1 (x + 2 ^ 63) with
      corr := true, addr := x, pc := g.entry, detail := tag } := ⟨_, rfl⟩
  have hleaves := errorRecord_leaves (s := s) (r := r) (by rw [hrec]; exact hr)
  obtain ⟨m, hm⟩ : ∃ m, m = (errorRecord r).run s := ⟨_, rfl⟩
  obtain ⟨hcores, hlm, htime⟩ := hm ▸ hleaves
  obtain ⟨u, hu⟩ : ∃ u, u = withCore m v.toNat fun k => k.rewound g := ⟨_, rfl⟩
  obtain ⟨agenda, lanes, engines, hposts⟩ := queuesOnly_frame.each
    ((List.range 64).filter fun n => (nth (u.core v.toNat).arch.tiles n Tile.reset).state = .draining)
    (fun n => queuesOnly_postEv 1 3 (.tileDrainDone (coreBV v.toNat) (BitVec.ofNat 6 n))) u
  have hcoreM : ∀ d, m.core d = s.core d := fun d => congrArg (nth · d Core.reset) hcores
  have hrun : exec (.rewind v) s = .next (refetching { u with agenda := agenda, lanes := lanes, engines := engines } v.toNat 1) := by
    change ran (rewindNow v.toNat) s = _
    rw [ran, rewindNow, Prog.run_get]
    simp only [hf, hg, ha, hl.quiet, Nat.not_le.2 h3, bne_self_eq_false, Bool.not_true, Bool.false_eq_true, if_false]
    rw [Prog.run_all_cons, Prog.run_all_cons, Prog.run_all_cons, Prog.run_all_cons, Prog.run_all_nil, ← hrec, ← hm, setCore_run,
      apply_core_eq, ← hu, Prog.run_get, hposts, nextFetch_refetching]
  refine ⟨_, hrun, ?_, fun d hd => ?_, ?_, ?_⟩
  · rw [← hlm, hu]; rfl
  · change u.core d = _
    rw [hu, withCore_core_ne _ _ _ hd, hcoreM]
  · change u.core v.toNat = _
    rw [hu, withCore_core _ _ _ v.isLt, hcoreM]
  · have ht : u.time = s.time := by rw [hu, withCore_time, htime]
    exact mem_insertItem.2 (.inl (by simp [ht, coreBV]))

/-- A fourth rewind of a segment ends the context (R395). -/
theorem rewind_fourth {g : Segment} {a : Nat × Nat} (hf : (s.core v.toNat).flow = .rewinding) (hl : Landed (s.core v.toNat))
    (hg : (s.core v.toNat).seg = some g) (ha : (s.core v.toNat).rewind = some a) (h3 : 3 ≤ g.rewinds) :
    exec (.rewind v) s = .next ((contextEnd v.toNat fun s => coreRecord s v.toNat 0x1D 2 g.id).run s) := by
  change ran (rewindNow v.toNat) s = _
  rw [ran, rewindNow, Prog.run_get]
  simp only [hf, hg, ha, hl.quiet, h3, bne_self_eq_false, Bool.not_true, Bool.false_eq_true, if_false, if_true]

/-- A replay's wait past its limit ends the context (R436). -/
theorem replayTimeout_late {since die id : Nat} (h : (s.core v.toNat).replayWait = some (since, die, id))
    (hlim : since + 2 ^ (((s.core v.toNat).ctx.map (·.wdlim)).getD 22) ≤ s.time) : ∃ rec : State → ErrRec,
    (∀ s, (rec s).code = 0x1F ∧ (rec s).die = v.toNat / 128) ∧
      exec (.replayWaitTimeout v) s = .next ((contextEnd v.toNat rec).run s) := by
  refine ⟨fun u => { coreRecord u v.toNat 0x1F 2 id with
      detail := entryWinner (logEntry s die id) % 2 ^ 32 +
        (((s.core v.toNat).ctx.map fun x => partyKey s x 0).getD 0) % 2 ^ 32 * 2 ^ 32 }, fun _ => ⟨rfl, rfl⟩, ?_⟩
  change ran (replayTimeout v.toNat) s = _
  rw [ran, replayTimeout, Prog.run_get]
  simp only [h, if_neg (Nat.not_lt.2 hlim)]
  rfl

theorem replayTimeout_early {since die id : Nat} (h : (s.core v.toNat).replayWait = some (since, die, id))
    {n : Nat} (hn : since + 2 ^ (((s.core v.toNat).ctx.map (·.wdlim)).getD 22) = n) (hlim : s.time < n) :
    exec (.replayWaitTimeout v) s = .next { s with agenda := insertItem ⟨n, 3, .ev (.replayWaitTimeout v)⟩ s.agenda } := by
  change ran (replayTimeout v.toNat) s = _
  simp [ran, replayTimeout, h, hn, hlim, Eff.apply, coreBV, Nat.max_eq_left hlim.le]
end

section
variable (cur sh : Arch)

theorem restored_sr {i : Nat} (h : i ≠ 0) : (restored cur sh).sr i = sh.sr i := by
  rw [restored, Arch.setSegAct, sr_setSr_ne _ _ h.symm, Arch.setPreq, sr_setSr_ne _ _ h.symm]
  rfl

theorem restored_status (i : Nat) : ((restored cur sh).sr 0).getLsbD i = if i = 8 then true
    else if i = 7 then (cur.sr 0).getLsbD 7 else (sh.sr 0).getLsbD i := by
  rw [restored, Arch.setSegAct, sr_setSr_same _ _ (by decide), getLsbD_setBits_bool _ _ (by decide), Arch.setPreq,
    sr_setSr_same _ _ (by decide), getLsbD_setBits_bool _ _ (by decide)]
  rfl

theorem restored_keeper_bytes {i : Nat} (h : i < 64) :
    (nth (restored cur sh).keepers i Keeper.reset).bytes = (nth sh.keepers i Keeper.reset).bytes := by
  simp [restored, nth, h, Arch.setSegAct, Arch.setPreq, Arch.setSr]

theorem restored_acc_els {i : Nat} (h : i < 4) :
    (nth (restored cur sh).accs i (Acc.reset 0)).els = (nth sh.accs i (Acc.reset 0)).els := by
  simp [restored, nth, h, Arch.setSegAct, Arch.setPreq, Arch.setSr]
end

/-- Settles O48: trap entry takes the due fault or ends the context, a freeze gives 0x19, and a rewind starts the segment again. -/
theorem trapsRewindsAndTimeouts : Obligations.TrapsRewindsAndTimeouts := by
  unfold Obligations.TrapsRewindsAndTimeouts
  intro s v c k d idle at_ ends enters traps enabled stuck frozen
  have hends : ∀ {i : Instr} {code : Nat} {rec : State → ErrRec}, exec i s = .next ((contextEnd c rec).run s) →
      (rec s).die = c / 128 → (rec s).code = code → code < 256 → ends i code :=
    fun hx hd hcode hlt x g hctx hreg hg hroom hw => by
      obtain ⟨⟨hn, hf, hfl⟩, hfail, hcount, hrec, harr, ho⟩ :=
        contextEnd_ends v.isLt hctx hreg hg hroom hw hd (hcode.symm ▸ hlt)
      exact ⟨_, hx, hn, hf, hfl, hfail, hcount, hrec.trans hcode, harr, ho⟩
  refine ⟨fun r ht hr hp he hin => ?_, fun p ht hp hready he => ?_, fun r ht hr hp hlt hesc => ?_,
    fun h h1 h9 => freezeTimeout_plain h h1 h9,
    fun f h h1 hu hf hl hb hr hp hg => freezeTimeout_result h h1 hu hf hl hb hr hp hg,
    fun g a hf hl hg ha => ⟨fun h3 => ?_, fun h3 hr => ?_⟩,
    fun since die id h => ⟨fun hlim => replayTimeout_early h rfl hlim, fun hlim => ?_⟩⟩
  · change ran (enterTrap c) s = _
    rw [ran, enterTrap_own ht hp hr, takeTrap_enters he.1 he.2 hin]
    refine congrArg (fun u => Host.Outcome.next (refetching u c 1)) (withCore_congr s c ?_)
    simp only [← hp]
    rfl
  · have hcore : (withCore s c fun k => { k with pend := k.pend.erase p }).core c = { k with pend := k.pend.erase p } :=
      withCore_core s c _ v.isLt
    change ran (enterTrap c) s = _
    rw [ran, enterTrap_pending ht hp hready he.2, takePending, Prog.run_all_cons, Prog.run_all_cons, Prog.run_all_nil, setCore_run,
      apply_core_eq, takeTrap_enters (by rw [hcore]; exact he.1) (by rw [hcore]; exact he.2) rfl, withCore_withCore]
    refine congrArg (fun u => Host.Outcome.next (refetching u c 1)) (withCore_congr s c ?_)
    have herase : (s.core c).pend.erase p = [] := hp ▸ List.erase_cons_head ..
    simp only [herase]
    rfl
  · obtain ⟨rec, hrec, hrun⟩ := takeTrap_escalates hesc
    refine hends (rec := rec) ?_ (hrec s).2 (hrec s).1 hlt
    change ran (enterTrap c) s = _
    rw [ran, enterTrap_own ht hp hr, hrun]
  · exact hends (rewind_fourth hf hl hg ha h3) rfl rfl (by decide)
  · obtain ⟨t, hx, hm, ho, hcore, hnext⟩ := rewind_run hf hl hg ha h3 hr
    have hz : t.core c = k.rewound g := hcore
    refine ⟨t, hx, hm, ho, ?_⟩
    simp only [hz]
    exact ⟨rfl, rfl, rfl, rfl, rfl, rfl, hnext, rfl, rfl, rfl, rfl, rfl, rfl, rfl, rfl, rfl, rfl, fun i hi => restored_sr _ _ hi,
      restored_status _ _, fun i hi => restored_keeper_bytes _ _ hi, fun i hi => restored_acc_els _ _ hi⟩
  · obtain ⟨rec, hrec, hrun⟩ := replayTimeout_late h hlim
    exact hends hrun (hrec s).2 (hrec s).1 (by decide)

end Sys2Proof.Proofs


/-! PROOFS. FETCH (O46): what a bundle boundary finds at the pc. -/

namespace Sys2Proof.Proofs
open Sys2Proof Sys2Proof.Machine Sys2Proof.Safety

/-- Digits put together give the number they are digits of. -/
theorem ofDigits_digit {n w x : Nat} {f : Nat → Nat} (h : ∀ i, i < n → f i = digit x w i) (hx : x < 2 ^ (w * n)) :
    ofDigits n w f = x := by
  induction n generalizing f x with
  | zero =>
    have h0 : x = 0 := by simpa using hx
    simp [ofDigits, h0]
  | succ n ih =>
    have hlow : f 0 % 2 ^ w = x % 2 ^ w := by rw [h 0 (by omega), digit_zero, Nat.mod_mod]
    have hhigh : ofDigits n w (fun j => f (j + 1)) = x / 2 ^ w :=
      ih (fun i hi => by rw [h (i + 1) (by omega), digit_succ])
        (by rwa [Nat.div_lt_iff_lt_mul (Nat.two_pow_pos w), ← Nat.pow_add, ← Nat.mul_succ])
    rw [ofDigits_succ, hhigh, hlow, Nat.div_add_mod']

/-- The literal after an escape is the bundle whose 16-bit parts index memory holds (R23). -/
theorem literal_eq {k : Core} {b : Bundle} (h : ∀ j, j < 24 → field b.toNat (16 * j) 16 = k.index (k.pc + (j + 1))) :
    k.literal k.pc = b := by
  apply BitVec.eq_of_toNat_eq
  rw [Core.literal, ofDigits_digit (x := b.toNat) (fun i hi => ?_) (by simpa using b.isLt), BitVec.toNat_ofNat, Nat.mod_eq_of_lt b.isLt]
  rw [Nat.add_assoc, Nat.add_comm 1 i, ← h i hi]
  rfl

/-- A running core with nothing else to take at the boundary, and with no word in error. -/
def Plain (k : Core) : Prop :=
  k.flow = .running ∧ k.rewind = none ∧ k.pend = [] ∧ k.preq = none ∧ k.poison = [] ∧ k.upsets = []

/-- A fault that FETCH finds. -/
def fetchFault (k : Core) (code i slot : Nat) (level : Bool) : TrapReq :=
  ⟨code, BitVec.ofNat 64 i, slot, level, some k.pc, k.arch.inTrap, 0, false⟩

/-- Nothing is corrected where nothing is in error. -/
theorem correct_run {s : State} {c : Nat} (words : List Nat) (h : (s.core c).upsets = []) : (correct false c words).run s = s := by
  rw [correct, Prog.run_get]
  simp only [Bool.false_eq_true, if_false, h, List.filter_nil, List.isEmpty_nil, Bool.not_true, Prog.run_when_false]

/-- What is taken before the bundle at a boundary: here nothing. -/
theorem Plain.takes_nothing {k : Core} (h : Plain k) : (k.flow != .running) = false ∧ k.canRewind = false ∧
    ((dueFault k).isSome && !k.arch.inTrap) = false ∧ k.yields = false ∧ k.fetchWords.any k.wordBad = false := by
  obtain ⟨hf, hrew, hpend, hpreq, hpois, hups⟩ := h
  refine ⟨by rw [hf]; rfl, by simp [Core.canRewind, hrew], by simp [dueFault, hpend], by simp [Core.yields, hpreq],
    List.any_eq_false.2 fun w _ => ?_⟩
  simp [Core.wordBad, hpois, hups]

section
variable {s : State} {v : BitVec 8}

theorem fetch_found {g : Fetched} (h : Plain (s.core v.toNat)) (hd : (s.core v.toNat).decodeAt = .ok g) :
    exec (.fetch v) s = .next (posted (withCore s v.toNat fun k => { k with fetched := some g }) 0 5 (.bundleIssue v)) := by
  obtain ⟨hf, hrew, hdue, hyield, hbad⟩ := h.takes_nothing
  obtain ⟨-, -, -, -, -, hups⟩ := h
  change ran (fetchNext v.toNat) s = _
  rw [ran, fetchNext, Prog.run_get]
  simp only [hf, hrew, hdue, hyield, hbad, hd, Bool.false_eq_true, if_false, Prog.run_andThen]
  rw [correct_run _ hups, Prog.run_all_cons, Prog.run_all_cons, Prog.run_all_nil, postEv_posted _ _ _ (by decide), coreBV_toNat]
  rfl

theorem fetch_stops {r : TrapReq} (h : Plain (s.core v.toNat)) (hd : (s.core v.toNat).decodeAt = .error r) :
    exec (.fetch v) s = .next (trapping s v.toNat r) := by
  obtain ⟨hf, hrew, hdue, hyield, hbad⟩ := h.takes_nothing
  obtain ⟨-, -, -, -, -, hups⟩ := h
  change ran (fetchNext v.toNat) s = _
  rw [ran, fetchNext, Prog.run_get]
  simp only [hf, hrew, hdue, hyield, hbad, hd, Bool.false_eq_true, if_false, Prog.run_andThen]
  rw [correct_run _ hups, raise_run]
end

section
variable {k : Core}

theorem decodeAt_entry {b : Bundle} (hpc : k.pc ≤ 32767) (hi : k.index k.pc < 4096) (hb : k.dict[k.index k.pc]? = some b) :
    k.decodeAt = .ok ⟨b, 1⟩ := by
  simp [Core.decodeAt, Nat.not_lt.2 hpc, hi, hb]

theorem decodeAt_past (hpc : 32767 < k.pc) : k.decodeAt = .error (fetchFault k 0x01 k.pc 0 true) := by
  simp [Core.decodeAt, hpc, fetchFault, info]

theorem decodeAt_illegal (hpc : k.pc ≤ 32767) (h : 4096 ≤ k.index k.pc ∧ k.index k.pc < 0xFFFF ∨
    k.index k.pc = 0xFFFF ∧ 32767 < k.pc + 24 ∨ k.index k.pc < 4096 ∧ k.dict[k.index k.pc]? = none) :
    k.decodeAt = .error (fetchFault k 0x01 (k.index k.pc) 0 true) := by
  rcases h with ⟨hlo, hhi⟩ | ⟨hi, hend⟩ | ⟨hi, hb⟩
  · simp [Core.decodeAt, Nat.not_lt.2 hpc, Nat.not_lt.2 hlo, Nat.ne_of_lt hhi, fetchFault, info]
  · simp [Core.decodeAt, Nat.not_lt.2 hpc, hi, hend, fetchFault, info]
  · simp [Core.decodeAt, Nat.not_lt.2 hpc, hi, hb, fetchFault, info]

section
variable {b : Bundle} (hpc : k.pc + 24 ≤ 32767) (hi : k.index k.pc = 0xFFFF)
  (hb : ∀ j, j < 24 → field b.toNat (16 * j) 16 = k.index (k.pc + (j + 1)))
include hpc hi hb

/-- An escape is followed by a literal, which is validated (R23). -/
theorem decodeAt_literal (hv : validate b = none) : k.decodeAt = .ok ⟨b, 25⟩ := by
  have h1 : ¬ 32767 < k.pc := by omega
  have h2 : ¬ 32767 < k.pc + 24 := by omega
  simp [Core.decodeAt, literal_eq hb, h1, hi, h2, hv]

theorem decodeAt_breach {code slot x : Nat} {level : Bool} (hv : validate b = some (code, slot, level, x)) :
    k.decodeAt = .error (fetchFault k code (if code = 0x02 then k.pc else x + k.pc * 2 ^ 48) slot level) := by
  have h1 : ¬ 32767 < k.pc := by omega
  have h2 : ¬ 32767 < k.pc + 24 := by omega
  simp [Core.decodeAt, literal_eq hb, h1, hi, h2, hv, fetchFault, info]
end
end

section
variable {b : Bundle}

theorem hdrBits_eq (b : Bundle) : hdrBits b = b.toNat / 2 ^ 368 := by
  refine Nat.mod_eq_of_lt ((Nat.div_lt_iff_lt_mul (Nat.two_pow_pos _)).2 ?_)
  rw [← Nat.pow_add]
  exact b.isLt

theorem hdrKind_eq (b : Bundle) : hdrKind b = hdrBits b / 2 ^ 13 := by
  have hlt : hdrBits b < 2 ^ 16 := Nat.mod_lt _ (by decide)
  rw [hdrKind, field]
  omega

theorem slotSix_high (b : Bundle) : slotBits b 6 / 2 ^ 18 = b.toNat / 2 ^ 64 % 2 ^ 28 := by
  rw [slotBits, field]
  omega

/-- The parts of a header that a breach shows in (R23). -/
theorem not_headerLegal {n : Nat} (hn : hdrBits b = n)
    (h : n % 64 ≠ 0 ∨ 3 ≤ n / 2 ^ 13 ∨ (n / 2 ^ 13 = 0 ∧ n / 2 ^ 6 % 64 ≠ 0) ∨
    (n / 2 ^ 12 % 2 = 1 ∧ b.toNat / 2 ^ 64 % 2 ^ 28 ≠ 0)) : headerLegal b = false := by
  have hreserved : field (hdrBits b) 0 6 = n % 64 := by rw [hn, field, pow_zero, Nat.div_one]; rfl
  have hid : hdrId b = n / 2 ^ 6 % 64 := by rw [hdrId, hn]; rfl
  have hlong : longLit b = decide (n / 2 ^ 12 % 2 = 1) := by rw [longLit, hn, bit]
  unfold headerLegal
  rw [hreserved, hid, hlong, hdrKind_eq, hn, slotSix_high]
  rcases h with h | h | ⟨h0, h⟩ | ⟨h1, h⟩
  · rw [decide_eq_false h]; rfl
  · rw [decide_eq_false (Nat.not_le.2 h)]; simp
  · simp only [h0, h]; simp
  · simp only [h1, h]; simp

theorem validate_header (h : headerLegal b = false) : validate b = some (0x02, 0, true, 0) := by
  simp [validate, h]

theorem validate_transport (h : headerLegal b = true) {i : Nat} (hi : badSlot b = some i) :
    validate b = some (0x03, i, false, slotBits b i) := by
  simp [validate, h, hi]

theorem validate_limits (h : headerLegal b = true) (hs : badSlot b = none) (hl : limitsLegal b = false) :
    validate b = some (0x02, 0, true, 0) := by
  simp [validate, h, hs, hl]

/-- A transport to no unit is illegal. -/
theorem badSlot_unit (h : 24 ≤ b.toNat / 2 ^ 344 % 2 ^ 5) : badSlot b = some 0 := by
  have hunit : dUnit (tDest (slotBits b 0)) = b.toNat / 2 ^ 344 % 2 ^ 5 := by
    rw [dUnit, tDest, slotBits, field, field, field]
    omega
  have hlegal : destLegal (tDest (slotBits b 0)) = false := by
    have hlow : ¬ dUnit (tDest (slotBits b 0)) < 5 := by omega
    have hhigh : 23 < dUnit (tDest (slotBits b 0)) := by omega
    simp [destLegal, hlow, hhigh]
  have hnz : slotBits b 0 ≠ 0 := fun h0 => by
    rw [h0] at hunit
    have : dUnit (tDest 0) = 0 := by decide
    omega
  have hbad : transportLegal (longLit b) (slotBits b 0) = false := by simp [transportLegal, hnz, hlegal]
  obtain ⟨rest, hrest⟩ : ∃ rest, transports b = slotBits b 0 :: rest := by
    unfold transports
    split <;> exact ⟨_, rfl⟩
  simp [badSlot, hrest, hbad]
end

end Sys2Proof.Proofs


/-! PROOFS. BUNDLE_ISSUE (O46): a bundle waits, faults or issues. -/

namespace Sys2Proof.Proofs
open Sys2Proof Sys2Proof.Machine Sys2Proof.Safety

/-- Bundle f has been fetched on a running core without a register error. -/
def ReadyTo (k : Core) (f : Fetched) : Prop := k.fetched = some f ∧ k.flow = .running ∧ k.regError = false

/-- The bundle opens no segment, or the one that it opened stands. -/
def GoesOn (k : Core) (f : Fetched) : Prop := hdrKind f.bits ≠ 1 ∨ (k.seg.map (·.again)).getD false = true

/-- BUNDLE_ISSUE past the segment's entry: the bundle is held, or faults, or issues. -/
def goesOn (c : Nat) (f : Fetched) : Prog := .get fun s =>
  match bundleWait s c f with
  | some w => holdBundle c w
  | none => match bundleFault s c f with
    | some r => Prog.all [
        setCore c fun k => { k with walk := none, walked := [] },
        Prog.when_ (r.code = 0x20) replayFree,
        raise c r]
    | none => issueBundle c f

section
variable {s : State} {c : Nat} {f : Fetched}

theorem goesOn_waits {w : Wait} (hw : bundleWait s c f = some w) : (goesOn c f).run s = (holdBundle c w).run s := by
  rw [goesOn, Prog.run_get]
  simp only [hw]

theorem goesOn_faults {r : TrapReq} (hw : bundleWait s c f = none) (hb : bundleFault s c f = some r) (hm : r.code ≠ 0x20) :
    (goesOn c f).run s = trapping (withCore s c fun k => { k with walk := none, walked := [] }) c r := by
  rw [goesOn, Prog.run_get]
  simp only [hw, hb, decide_eq_false hm]
  rw [Prog.run_all_cons, Prog.run_all_cons, Prog.run_all_cons, Prog.run_all_nil, raise_run]
  rfl

theorem goesOn_issues (hw : bundleWait s c f = none) (hb : bundleFault s c f = none) :
    (goesOn c f).run s = (issueBundle c f).run s := by
  rw [goesOn, Prog.run_get]
  simp only [hw, hb]

/-- BUNDLE_ISSUE of a core that is ready for it, in its two parts. -/
theorem issue_run (h : ReadyTo (s.core c) f) : (issue c).run s =
    if hdrKind f.bits = 1 then (segmentEntry c (hdrId f.bits) (goesOn c f)).run s else (goesOn c f).run s := by
  obtain ⟨hf, hr, he⟩ := h
  rw [issue, Prog.run_get]
  simp only [hf, hr, he, bne_self_eq_false, Bool.false_eq_true, if_false]
  split <;> rfl

theorem segmentEntry_again {go : Prog} {id : Nat} (h : ((s.core c).seg.map (·.again)).getD false = true) :
    (segmentEntry c id go).run s = go.run s := by
  rw [segmentEntry, Prog.run_get]
  simp only [h, if_true]

theorem issue_goesOn (h : ReadyTo (s.core c) f) (hg : GoesOn (s.core c) f) : (issue c).run s = (goesOn c f).run s := by
  rw [issue_run h]
  split
  · next hk => exact segmentEntry_again (hg.resolve_left (not_not_intro hk))
  · rfl

/-- The core as its segment opens (R387). -/
def entered (f : Fetched) (k : Core) : Core :=
  { k with seg := some ⟨hdrId f.bits, k.pc, 0, k.trigSeq, k.arch, [], true, false⟩, arch := k.arch.setSegAct true }

/-- A segment opens, and its first bundle goes on as in it (R387). -/
theorem segmentEntry_opens {go : Prog} (hg : (s.core c).seg = none) (hid : hdrId f.bits ≠ 0) (hp : (s.core c).pend = []) :
    (segmentEntry c (hdrId f.bits) go).run s = go.run (withCore s c (entered f)) := by
  have hnz : (hdrId f.bits != 0) = true := bne_iff_ne.2 hid
  rw [segmentEntry, Prog.run_get]
  simp only [hg, hp, Option.map_none, Option.getD_none, Bool.false_eq_true, if_false, Option.isSome_none, List.any_nil, hnz]
  rw [Prog.run_all_cons, Prog.run_all_cons, Prog.run_all_nil, Prog.run_when_true]
  rfl

theorem issue_opens (hc : c < 256) (h : ReadyTo (s.core c) f) (hk : hdrKind f.bits = 1) (hg : (s.core c).seg = none)
    (hid : hdrId f.bits ≠ 0) (hp : (s.core c).pend = []) : (issue c).run s = (issue c).run (withCore s c (entered f)) := by
  have hcore := withCore_core s c (entered f) hc
  rw [issue_run h, if_pos hk, segmentEntry_opens hg hid hp,
    issue_goesOn (s := withCore s c (entered f)) (by rw [hcore]; exact h) (by rw [hcore]; exact .inr rfl)]

/-- A held bundle: the hold is counted and named, and the bundle comes again (R28). -/
theorem holdBundle_run {a u n : Nat} (hlim : (s.core c).held + 1 < watchLimit (s.core c)) : (holdBundle c (.hold a u n)).run s =
    refetching (withCore s c fun k => { k with
      heldTotal := k.heldTotal + 1, held := k.held + 1,
      holdInfo := BitVec.ofNat 64 (u % 32 + a * 2 ^ 8 + n % 64 * 2 ^ 16) }) c 1 := by
  rw [holdBundle, Prog.run_get]
  simp only [Nat.not_le.2 hlim, if_false]
  rw [Prog.run_all_cons, Prog.run_all_cons, Prog.run_all_cons, Prog.run_all_nil, nextFetch_refetching]
  rfl
end

end Sys2Proof.Proofs


/-! PROOFS. A bundle issues (O46): what its triggers capture, and what stands after all of its writes. -/

namespace Sys2Proof.Proofs
open Sys2Proof Sys2Proof.Machine Sys2Proof.Safety

/-- b is a but for what triggers capture: the active sets of engines, reserved records, and the counts of MA, tiles, keepers and
accumulators. -/
def MarksOnly (a b : Arch) : Prop := ∃ active ring tiles keepers accs maSeq, b =
  { a with active := active, ring := ring, tiles := tiles, keepers := keepers, accs := accs, maSeq := maSeq }

theorem MarksOnly.refl (a : Arch) : MarksOnly a a := ⟨_, _, _, _, _, _, rfl⟩

theorem MarksOnly.trans {a b c : Arch} (h : MarksOnly a b) (h' : MarksOnly b c) : MarksOnly a c := by
  obtain ⟨active, ring, tiles, keepers, accs, maSeq, rfl⟩ := h
  obtain ⟨active', ring', tiles', keepers', accs', maSeq', rfl⟩ := h'
  exact ⟨active', ring', tiles', keepers', accs', maSeq', rfl⟩

/-- A fold of changes of marks. -/
theorem MarksOnly.foldl {α : Type} {f : Arch → α → Arch} (hf : ∀ a x, MarksOnly a (f a x)) (l : List α) (a : Arch) :
    MarksOnly a (l.foldl f a) := by
  induction l generalizing a with
  | nil => exact .refl a
  | cons x l ih => exact (hf a x).trans (ih _)

theorem marksOnly_holdTiles (a : Arch) (l : List Nat) (f : Nat → Nat) : MarksOnly a (a.holdTiles l f) :=
  .foldl (fun _ _ => ⟨_, _, _, _, _, _, rfl⟩) l a

theorem marksOnly_readKeepers (a : Arch) (l : List Nat) (f : Nat → Nat) : MarksOnly a (a.readKeepers l f) :=
  .foldl (fun a k => by
    split
    · exact .refl a
    · exact ⟨_, _, _, _, _, _, rfl⟩) l a

/-- MA's marks of a trigger (R200). -/
theorem marksOnly_maTrigger (t : Trig) (a : Arch) : MarksOnly a (maTrigger t a) := by
  unfold maTrigger
  extract_lets a1 a2
  have h1 : MarksOnly a a1 := ⟨_, _, _, _, _, _, rfl⟩
  have h2 : MarksOnly a1 a2 := by
    unfold a2
    split
    · exact ⟨_, _, _, _, _, _, rfl⟩
    · exact .refl a1
  refine (h1.trans h2).trans ?_
  split
  · exact (marksOnly_holdTiles ..).trans (marksOnly_readKeepers ..)
  · exact .refl a2

/-- l is k but for what triggers capture. -/
def CapturesOnly (k l : Core) : Prop := ∃ captured arch, MarksOnly k.arch arch ∧ l = { k with captured := captured, arch := arch }

theorem CapturesOnly.refl (k : Core) : CapturesOnly k k := ⟨_, _, .refl _, rfl⟩

theorem CapturesOnly.trans {k l m : Core} (h : CapturesOnly k l) (h' : CapturesOnly l m) : CapturesOnly k m := by
  obtain ⟨captured, arch, ha, rfl⟩ := h
  obtain ⟨captured', arch', ha', rfl⟩ := h'
  exact ⟨captured', arch', ha.trans ha', rfl⟩

/-- A trigger's effect as its bundle ends (R11, R50, R200, R345). -/
theorem captureTrig_only (k : Core) (t : Trig) : CapturesOnly k (captureTrig k t) := by
  unfold captureTrig
  extract_lets k1 k2 k3
  have h1 : CapturesOnly k k1 := by
    unfold k1
    split
    · exact ⟨_, _, ⟨_, _, _, _, _, _, rfl⟩, rfl⟩
    · exact .refl k
  have h2 : CapturesOnly k1 k2 := by
    unfold k2
    split
    · exact ⟨_, _, ⟨_, _, _, _, _, _, rfl⟩, rfl⟩
    · exact .refl k1
  have h3 : CapturesOnly k2 k3 := by
    unfold k3
    split
    · exact ⟨_, _, marksOnly_maTrigger t k2.arch, rfl⟩
    · exact .refl k2
  refine ((h1.trans h2).trans h3).trans ?_
  split
  · exact .refl k3
  · exact ⟨_, _, ⟨_, _, _, _, _, _, rfl⟩, rfl⟩

theorem captureTrigs_only (l : List Trig) (k : Core) : CapturesOnly k (l.foldl captureTrig k) := by
  induction l generalizing k with
  | nil => exact .refl k
  | cons t l ih => exact (captureTrig_only k t).trans (ih _)

section
variable {c : Nat}

/-- t is s but for the queued accesses and pending faults of core c. -/
def MarkersOnly (c : Nat) (s t : State) : Prop :=
  (∃ k, t = { s with cores := k }) ∧ (∀ d, d ≠ c → t.core d = s.core d) ∧
    ∃ accesses pend, t.core c = { s.core c with accesses := accesses, pend := pend }

theorem markersOnly_frame (c : Nat) : Frame (MarkersOnly c) where
  refl s := ⟨⟨_, rfl⟩, fun _ _ => rfl, _, _, rfl⟩
  trans := by
    rintro s _ _ ⟨⟨k, rfl⟩, ho, x, p, hk⟩ ⟨⟨k', rfl⟩, ho', x', p', hk'⟩
    refine ⟨⟨k', rfl⟩, fun d hd => (ho' d hd).trans (ho d hd), x', p', ?_⟩
    rw [hk', hk]

/-- A marker in a queue of accesses (R357, R440). -/
theorem markersOnly_queueMarker (hc : c < 256) {t : Trig} (ht : t.core = c) (path : Nat) :
    Within (MarkersOnly c) (queueMarker t path) := fun s => by
  rw [queueMarker, Prog.run_get, ht]
  split
  · exact ⟨⟨_, rfl⟩, fun d hd => withCore_core_ne s c _ hd, _, _, withCore_core s c _ hc⟩
  · exact ⟨⟨_, rfl⟩, fun d hd => withCore_core_ne s c _ hd, _, _, withCore_core s c _ hc⟩
end

section
variable (s : State) (c : Nat)

theorem queuesOnly_launchTrig (t : Trig) : Within QueuesOnly (launchTrig s c t) := fun u => by
  unfold launchTrig
  split <;> exact ⟨_, _, _, rfl⟩

/-- Nothing pending is lost, and no time passes. -/
def Pends (s t : State) : Prop := t.time = s.time ∧ ∀ x ∈ s.agenda, x ∈ t.agenda

theorem pends_frame : Frame Pends where
  refl _ := ⟨rfl, fun _ h => h⟩
  trans _ _ _ h h' := ⟨h'.1.trans h.1, fun x hx => h'.2 x (h.2 x hx)⟩

theorem pends_launchTrig (t : Trig) : Within Pends (launchTrig s c t) := fun u => by
  unfold launchTrig
  split <;> exact ⟨rfl, fun x hx => mem_insertItem.2 (.inr hx)⟩

/-- Each operation outside the engines is pending in the cycle of its bundle (R14). -/
theorem launched_pending {l : List Trig} {t : Trig} (ht : t ∈ l) (he : engineOf t.unit = none) {u : State} (hu : u.time = s.time) :
    (⟨s.time, 2, .op t⟩ : Item) ∈ ((Prog.each l (launchTrig s c)).run u).agenda := by
  induction l generalizing u with
  | nil => simp at ht
  | cons x l ih =>
    rw [Prog.run_each_cons]
    obtain ⟨htime, -⟩ := pends_launchTrig s c x u
    rcases List.mem_cons.1 ht with rfl | ht
    · refine (pends_frame.each l (pends_launchTrig s c) _).2 _ ?_
      simp only [launchTrig, he, Prog.run_eff]
      exact mem_insertItem.2 (.inl (by rw [hu, Nat.max_self]))
    · exact ih ht (htime.trans hu)
end

theorem issueRank_lt (i : Instr) : issueRank i < 5 := by
  unfold issueRank
  split <;> decide

/-- The bundle's triggers in the order of their effects (R13). -/
def ranked (l : List Trig) : List Trig := (List.range 5).flatMap fun r => l.filter fun t => (t.instr.map issueRank).getD 2 = r

theorem mem_ranked {l : List Trig} {t : Trig} (h : t ∈ l) : t ∈ ranked l := by
  have hlt : (t.instr.map issueRank).getD 2 < 5 := by
    cases t.instr with
    | none => decide
    | some i => exact issueRank_lt i
  exact List.mem_flatMap.2 ⟨_, List.mem_range.2 hlt, List.mem_filter.2 ⟨h, decide_eq_true rfl⟩⟩

/-- The triggers of a bundle with their random numbers (R153): each as it was but for its number and its check. -/
theorem numberSr_of_mem {l : List Trig} {t : Trig} (h : t ∈ l) (base : BitVec 32) :
    ∃ n, { t with srSeq := n, checked := true } ∈ numberSr base l := by
  induction l generalizing base with
  | nil => simp at h
  | cons x l ih =>
    rcases List.mem_cons.1 h with rfl | h
    · exact ⟨base, by simp [numberSr]⟩
    · obtain ⟨n, hn⟩ := ih h (if (x.instr.map (drawsSr x)).getD false then base + 1 else base)
      exact ⟨n, by simp only [numberSr]; exact List.mem_cons_of_mem _ hn⟩

theorem numberSr_core {l : List Trig} {c : Nat} (h : ∀ t ∈ l, t.core = c) (base : BitVec 32) :
    ∀ t ∈ numberSr base l, t.core = c := by
  induction l generalizing base with
  | nil => simp [numberSr]
  | cons x l ih =>
    intro t ht
    simp only [numberSr] at ht
    rcases List.mem_cons.1 ht with rfl | ht
    · exact h x (by simp)
    · exact ih (fun y hy => h y (by simp [hy])) _ t ht

section
variable (a : Arch) (d : Nat) (m : Option Mask) (v : Vec)

/-- A write to a port of a unit, or its trigger, changes ports of that unit and an engine's shadow mark alone. -/
theorem writeDest_unit (h : 5 ≤ dUnit d) : ∃ active p, writeDest a d m v = { a with active := active }.setUnit (dUnit d) p ∧
    (dPort d = 3 → p = fun x => { x with b := if destDomain d = .vector then v else wide (low v) }) := by
  obtain ⟨u, hu⟩ : ∃ u, dUnit d = u + 5 := ⟨dUnit d - 5, by omega⟩
  obtain ⟨active, hactive⟩ : ∃ active, (match engineOf (u + 5) with
      | some e => if m = some 0 && dPort d < 3 then a else { a with active := updAt a.active e fun x => { x with shadow := true } }
      | none => a) = { a with active := active } := by
    split
    · split <;> exact ⟨_, rfl⟩
    · exact ⟨_, rfl⟩
  unfold writeDest
  simp only [hu]
  split
  · next hp => exact ⟨active, _, congrArg (Arch.setUnit · (u + 5) _) hactive, fun h3 => by omega⟩
  · next hp => exact ⟨active, _, congrArg (Arch.setUnit · (u + 5) _) hactive, fun h3 => by omega⟩
  · next hp => exact ⟨active, _, congrArg (Arch.setUnit · (u + 5) _) hactive, fun h3 => by omega⟩
  · exact ⟨active, _, congrArg (Arch.setUnit · (u + 5) _) hactive, fun _ => rfl⟩

/-- A bundle's write to a register file changes that file alone. -/
theorem writeDest_file (h : dUnit d < 5) : ∃ g o w x p f,
    writeDest a d m v = { a with g := g, o := o, v := w, vo := x, p := p, f := f } ∧
    (dUnit d ≠ 0 → g = a.g) ∧ (dUnit d = 0 → g = updAt a.g (dReg d) fun _ => BitVec.ofNat 64 (low v)) := by
  have hu : dUnit d = 0 ∨ dUnit d = 1 ∨ dUnit d = 2 ∨ dUnit d = 3 ∨ dUnit d = 4 := by omega
  unfold writeDest
  rcases hu with hu | hu | hu | hu | hu <;> simp only [hu]
  · exact ⟨_, _, _, _, _, _, rfl, fun h0 => absurd rfl h0, fun _ => rfl⟩
  · exact ⟨_, _, _, _, _, _, rfl, fun _ => rfl, fun h0 => by omega⟩
  · exact ⟨_, _, _, _, _, _, rfl, fun _ => rfl, fun h0 => by omega⟩
  · exact ⟨_, _, _, _, _, _, rfl, fun _ => rfl, fun h0 => by omega⟩
  · split
    · exact ⟨_, _, _, _, _, _, rfl, fun _ => rfl, fun h0 => by omega⟩
    · exact ⟨_, _, _, _, _, _, rfl, fun _ => rfl, fun h0 => by omega⟩

/-- A bundle's write leaves state registers and the parameter block as they are. -/
theorem writeDest_keeps : (writeDest a d m v).st = a.st ∧ (writeDest a d m v).pb = a.pb := by
  rcases Nat.lt_or_ge (dUnit d) 5 with h | h
  · obtain ⟨_, _, _, _, _, _, hw, -⟩ := writeDest_file a d m v h
    rw [hw]
    exact ⟨rfl, rfl⟩
  · obtain ⟨_, _, hw, -⟩ := writeDest_unit a d m v h
    rw [hw]
    exact ⟨rfl, rfl⟩

/-- A general register after a write to it. -/
theorem writeDest_general (hu : dUnit d = 0) (hn : dReg d < 32) : nth (writeDest a d m v).g (dReg d) 0 = v.setWidth 64 := by
  obtain ⟨_, _, _, _, _, _, hw, -, hg⟩ := writeDest_file a d m v (by omega)
  rw [hw, hg hu, nth_updAt_self _ _ _ hn, low_eq, BitVec.ofNat_toNat, BitVec.setWidth_eq]

/-- A general register after a write to another register or to a port. -/
theorem writeDest_general_ne {n : Nat} (h : dUnit d = 0 → dReg d ≠ n) : nth (writeDest a d m v).g n 0 = nth a.g n 0 := by
  rcases Nat.lt_or_ge (dUnit d) 5 with h5 | h5
  · obtain ⟨_, _, _, _, _, _, hw, hkept, hg⟩ := writeDest_file a d m v h5
    by_cases h0 : dUnit d = 0
    · rw [hw, hg h0, nth_updAt_ne _ _ _ (h h0)]
    · rw [hw, hkept h0]
  · obtain ⟨_, _, hw, -⟩ := writeDest_unit a d m v h5
    rw [hw]
    rfl

/-- The ports of a unit after the write of its trigger (R14): port b alone is written. -/
theorem writeDest_trigger (h5 : 5 ≤ dUnit d) (h24 : dUnit d < 24) (hp : dPort d = 3) : (writeDest a d m v).unit (dUnit d) =
    { a.unit (dUnit d) with b := if destDomain d = .vector then v else wide (low v) } := by
  obtain ⟨active, p, hw, hport⟩ := writeDest_unit a d m v h5
  rw [hw, unit_setUnit_same _ (by omega), hport hp]
  rfl
end

section
variable {s : State} {c : Nat} {b : Bundle}

/-- A transport with its slot is what the bundle has there. -/
theorem slotted_get {p : Slotted} (h : p ∈ slotted b) : (transports b)[p.1]? = some p.2 ∧ p.2 ≠ 0 := by
  obtain ⟨hm, hnz⟩ := List.mem_filter.1 h
  obtain ⟨q, hq, rfl⟩ := List.mem_map.1 hm
  exact ⟨List.mem_zipIdx_iff_getElem?.1 hq, by simpa using hnz⟩

theorem acting_slotted {p : Slotted} (h : p ∈ acting s c b) : p ∈ slotted b := (List.mem_filter.1 h).1

theorem acting_acts {p : Slotted} (h : p ∈ acting s c b) : acts s c p.2 = true := (List.mem_filter.1 h).2

/-- Acting transports of one slot are one. -/
theorem acting_slot_inj {p q : Slotted} (hp : p ∈ acting s c b) (hq : q ∈ acting s c b) (h : p.1 = q.1) : p = q := by
  have h1 := (slotted_get (acting_slotted hp)).1
  rw [h, (slotted_get (acting_slotted hq)).1] at h1
  exact Prod.ext h (Option.some.inj h1).symm

/-- The transport writes general register n. -/
def WritesGeneral (n x : Nat) : Prop := dUnit (tDest x) = 0 ∧ dReg (tDest x) = n

/-- Acting transports of opposite guards do not write one general register (R15, R21). -/
theorem not_opposed {n : Nat} {p q : Slotted} (hp : p ∈ acting s c b) (hq : q ∈ acting s c b) (hn : WritesGeneral n p.2)
    (hm : WritesGeneral n q.2) : opposed p.2 q.2 = false := by
  have hguard : ∀ r : Slotted, r ∈ acting s c b → WritesGeneral n r.2 → guardFlag s c r.2 = true := fun r hr hw => by
    have hdom : destDomain (tDest r.2) = .scalar := by simp [destDomain, hw.1]
    simpa [acts, hdom] using acting_acts hr
  have hgp := hguard p hp hn
  have hgq := hguard q hq hm
  by_contra h
  simp only [Bool.not_eq_false, opposed, Bool.and_eq_true, decide_eq_true_eq, bne_iff_ne, ne_eq] at h
  obtain ⟨⟨⟨hp1, hq1⟩, hidx⟩, hinv⟩ := h
  simp only [guardFlag, hp1, hq1, hidx, Bool.not_true, Bool.false_or, bne_iff_ne, ne_eq] at hgp hgq
  revert hgp hgq hinv
  cases nth (s.core c).arch.f (tGidx q.2) false <;> cases tGinv p.2 <;> cases tGinv q.2 <;> simp

/-- Without a collision one acting transport at most writes a general register (R15). -/
theorem general_writer_unique (hcol : collision s c b = none) {n : Nat} {p q : Slotted} (hp : p ∈ acting s c b)
    (hq : q ∈ acting s c b) (hn : WritesGeneral n p.2) (hm : WritesGeneral n q.2) : q = p := by
  have hnot : ∀ x y : Slotted, x ∈ acting s c b → y ∈ acting s c b → WritesGeneral n x.2 →
      WritesGeneral n y.2 → ¬ x.1 < y.1 :=
    fun x y hx hy hwx hwy hlt => by
      have hkeys : ∀ z : Slotted, z ∈ acting s c b → WritesGeneral n z.2 → writeKeys z.2 = [n] := fun z hz hw => by
        have hnz := (slotted_get (acting_slotted hz)).2
        simp [writeKeys, hnz, hw.1, hw.2]
      have hsame : sameDest x.2 y.2 = true := by simp [sameDest, hkeys x hx hwx, hkeys y hy hwy]
      have hdom : destDomain (tDest x.2) = .scalar := by simp [destDomain, hwx.1]
      have hpass : bothPass s c x y = true := by simp [bothPass, hdom]
      have hnone := List.find?_eq_none.1 (Option.map_eq_none_iff.1 hcol) x hx
      refine hnone (List.any_eq_true.2 ⟨y, hy, ?_⟩)
      simp [hlt, hsame, hpass, not_opposed hx hy hwx hwy]
  have h1 := hnot p q hp hq hn hm
  have h2 := hnot q p hq hp hm hn
  exact acting_slot_inj hq hp (by omega)

/-- Every write of a bundle keeps what each of them keeps. -/
theorem written_keeps (s : State) (c : Nat) (b : Bundle) :
    (written s c b).st = (s.core c).arch.st ∧ (written s c b).pb = (s.core c).arch.pb := by
  unfold written
  generalize acting s c b = l, (s.core c).arch = a
  induction l generalizing a with
  | nil => exact ⟨rfl, rfl⟩
  | cons p l ih =>
    obtain ⟨hst, hpb⟩ := writeDest_keeps a (tDest p.2) (maskOf s c p) (carried s c b p)
    obtain ⟨hst', hpb'⟩ := ih (writeDest a (tDest p.2) (maskOf s c p) (carried s c b p))
    exact ⟨hst'.trans hst, hpb'.trans hpb⟩

/-- After a list of writes a general register has the value of its only writer. -/
theorem foldl_writeDest_general {l : List Slotted} {p : Slotted} {n : Nat} (hn : n < 32) (hp : WritesGeneral n p.2)
    (hu : ∀ q ∈ l, WritesGeneral n q.2 → q = p) (a : Arch)
    (h : p ∈ l ∨ nth a.g n 0 = (carried s c b p).setWidth 64) :
    nth (l.foldl (fun a q => writeDest a (tDest q.2) (maskOf s c q) (carried s c b q)) a).g n 0 = (carried s c b p).setWidth 64 := by
  induction l generalizing a with
  | nil => exact h.resolve_left (by simp)
  | cons q l ih =>
    refine ih (fun r hr => hu r (by simp [hr])) _ ?_
    by_cases hq : q = p
    · right
      subst hq
      obtain ⟨h0, rfl⟩ := hp
      exact writeDest_general _ _ _ _ h0 hn
    · rcases h with h | h
      · exact .inl ((List.mem_cons.1 h).resolve_left (Ne.symm hq))
      · right
        rw [writeDest_general_ne _ _ _ _ fun h0 hr => hq (hu q (by simp) ⟨h0, hr⟩), h]

/-- What a transport to a general register carries (R9). -/
theorem carried_general {p : Slotted} (h : dUnit (tDest p.2) = 0) :
    carried s c b p = srcValue s c false (literalOf b) (tSrc p.2) (s.fresh + 2 * p.1) := by
  have hdom : destDomain (tDest p.2) = .scalar := by simp [destDomain, h]
  simp [carried, hdom, slotFree]

/-- A general register after all writes of a bundle that issues: the value that was read for it (R13, R15). -/
theorem written_general (hcol : collision s c b = none) {p : Slotted} {n : Nat} (hp : p ∈ acting s c b) (hn : n < 32)
    (hw : WritesGeneral n p.2) : nth (written s c b).g n 0 = (carried s c b p).setWidth 64 :=
  foldl_writeDest_general hn hw (fun _ hq hm => general_writer_unique hcol hp hq hw hm) _ (.inl hp)
end

section
variable {s : State} {c : Nat} {f : Fetched}

/-- What a trigger is made of: its place, its destination, and its unit's ports after its own write (R14, R21). -/
theorem trigOf_parts (a : Arch) (n : Nat) (p : Slotted) :
    let x := trigOf s c f a n p
    let ports := (writeDest a (tDest p.2) (maskOf s c p) (carried s c f.bits p)).unit (dUnit (tDest p.2))
    x.core = c ∧ x.unit = dUnit (tDest p.2) ∧ x.slot = p.1 ∧ x.dest = tDest p.2 ∧
      x.a = ports.a ∧ x.b = ports.b ∧ x.c = ports.c := by
  unfold trigOf
  extract_lets k d u ports t x carriedPorts
  unfold x
  split <;> exact ⟨rfl, rfl, rfl, rfl, rfl, rfl, rfl⟩

/-- A trigger of a bundle comes of a transport to a trigger port. -/
theorem mem_trigsOf {x : Trig} (h : x ∈ trigsOf s c f) : ∃ p n,
    p ∈ acting s c f.bits ∧ 5 ≤ dUnit (tDest p.2) ∧ dPort (tDest p.2) = 3 ∧
    x = trigOf s c f (written s c f.bits) n p := by
  obtain ⟨⟨p, n⟩, hm, rfl⟩ := List.mem_map.1 h
  obtain ⟨hp, ht⟩ := List.mem_filter.1 (List.fst_mem_of_mem_zipIdx hm)
  simp only [isTrig, Bool.and_eq_true, decide_eq_true_eq] at ht
  exact ⟨p, n, hp, ht.1.2, ht.2, rfl⟩

theorem trigsOf_core (s : State) (c : Nat) (f : Fetched) : ∀ x ∈ trigsOf s c f, x.core = c := fun x hx => by
  obtain ⟨p, n, -, -, -, rfl⟩ := mem_trigsOf hx
  exact (trigOf_parts _ n p).1

/-- The value that a transport carries, as port b of a unit takes it. -/
def portValue (s : State) (c : Nat) (f : Fetched) (p : Slotted) : Vec :=
  if destDomain (tDest p.2) = .vector then carried s c f.bits p else ((carried s c f.bits p).setWidth 64).setWidth 8192

/-- A trigger's operands: ports a and c as all writes leave them, and b as its own transport carried it (R14, R21). -/
theorem trigsOf_operands {x : Trig} (h : x ∈ trigsOf s c f) (hu : x.unit < 24) :
    x.a = ((written s c f.bits).unit x.unit).a ∧ x.c = ((written s c f.bits).unit x.unit).c ∧
      ∃ p ∈ acting s c f.bits, x.slot = p.1 ∧ x.dest = tDest p.2 ∧ x.b = portValue s c f p := by
  obtain ⟨p, n, hp, h5, h3, rfl⟩ := mem_trigsOf h
  obtain ⟨-, hunit, hslot, hdest, ha, hb, hc⟩ := trigOf_parts (s := s) (c := c) (f := f) (written s c f.bits) n p
  rw [hunit] at hu
  rw [writeDest_trigger _ _ _ _ h5 hu h3] at ha hb hc
  rw [hunit]
  refine ⟨ha, hc, p, hp, hslot, hdest, hb.trans ?_⟩
  simp only [portValue, wide_eq, low_eq, BitVec.ofNat_toNat, BitVec.setWidth_eq]
end

/-- The core after all writes of a bundle and before its triggers are captured: what later lemmas read of it. -/
structure Written (s : State) (c : Nat) (f : Fetched) (k l : Core) : Prop where
  pc : l.pc = k.pc + f.size
  fetched : l.fetched = none
  held : l.held = 0
  flow : l.flow = k.flow
  arch : ∃ n pass, l.arch = { written s c f.bits with srSeq := n, rvPass := pass }

/-- The core as the writes of its bundle leave it, `ts` being the bundle's triggers (R13, R153, R398). -/
def bundleCore (s : State) (c : Nat) (f : Fetched) (ts : List Trig) (k : Core) : Core :=
  { k with
    fetched := none
    pc := k.pc + f.size
    held := 0
    walk := none
    walked := []
    trigSeq := k.trigSeq + ts.length
    outRewind := if hdrKind f.bits = 2 then k.outRewind.filter (· ≠ hdrId f.bits) else k.outRewind
    seg := k.seg.map fun (g : Segment) => { g with again := false }
    arch := { written s c f.bits with
      srSeq := (written s c f.bits).srSeq + BitVec.ofNat 32 (ts.filter fun t => (t.instr.map (drawsSr t)).getD false).length
      rvPass := if hdrKind f.bits = 2 then some (hdrId f.bits) else (written s c f.bits).rvPass } }

theorem bundleCore_written (s : State) (c : Nat) (f : Fetched) (ts : List Trig) (k : Core) : Written s c f k (bundleCore s c f ts k) :=
  ⟨rfl, rfl, rfl, rfl, _, _, rfl⟩

/-- The bundle's triggers with their random numbers (R153). -/
def issued (s : State) (c : Nat) (f : Fetched) : List Trig := numberSr (s.core c).arch.srSeq (trigsOf s c f)

/-- A bundle's issue in its parts (R13, R14): writes and captures, markers, and what its triggers start. -/
theorem issueBundle_run (s : State) (c : Nat) (f : Fetched) : (issueBundle c f).run s =
    refetching ((Prog.each (ranked (issued s c f)) (launchTrig s c)).run
      ((Prog.each ((issued s c f).filter fun t => t.instr.any placesMarker) fun t => queueMarker t pathS).run
        ((Eff.fresh 32).apply (withCore s c fun k => (issued s c f).foldl captureTrig (bundleCore s c f (issued s c f) k))))) c 1 := by
  rw [issueBundle, Prog.run_get]
  extract_lets k arch ts drawn mark id
  rw [Prog.run_all_cons, Prog.run_all_cons, Prog.run_all_cons, Prog.run_all_cons, Prog.run_all_cons, Prog.run_all_nil,
    nextFetch_refetching, Prog.run_eff, setCore_run, apply_core_eq]
  rfl

/-- A pending operation stays pending as the next boundary is put. -/
theorem op_mem_refetching {s : State} {n t p : Nat} {x : Trig} (c : Nat) (h : (⟨t, p, .op x⟩ : Item) ∈ s.agenda) :
    (⟨t, p, .op x⟩ : Item) ∈ (refetching s c n).agenda :=
  mem_insertItem.2 (.inr (List.mem_filter.2 ⟨h, by simp⟩))

theorem fetch_mem_refetching (s : State) (c n : Nat) :
    (⟨s.time + n, 4, .ev (.fetch (coreBV c))⟩ : Item) ∈ (refetching s c n).agenda :=
  mem_insertItem.2 (.inl rfl)

/-- What stands after a bundle has issued: its core, what is pending, and what has not changed. -/
structure IssuedTo (s : State) (c : Nat) (f : Fetched) (t : State) : Prop where
  core : ∃ l arch captured accesses pend, Written s c f (s.core c) l ∧ MarksOnly l.arch arch ∧
    t.core c = { l with captured := captured, arch := arch, accesses := accesses, pend := pend }
  operations : ∀ x ∈ issued s c f, engineOf x.unit = none → (⟨s.time, 2, .op x⟩ : Item) ∈ t.agenda
  next : (⟨s.time + 1, 4, .ev (.fetch (coreBV c))⟩ : Item) ∈ t.agenda
  others : ∀ d, d ≠ c → t.core d = s.core d
  memory : SameMemory s t
  counters : t.ctrs = s.ctrs

theorem issueBundle_issued {s : State} {c : Nat} {f : Fetched} (hc : c < 256) : IssuedTo s c f ((issueBundle c f).run s) := by
  obtain ⟨u, hu⟩ : ∃ u, u = (Eff.fresh 32).apply (withCore s c fun k =>
    (issued s c f).foldl captureTrig (bundleCore s c f (issued s c f) k)) := ⟨_, rfl⟩
  obtain ⟨w, hw⟩ : ∃ w, w =
      (Prog.each ((issued s c f).filter fun t => t.instr.any placesMarker) fun t => queueMarker t pathS).run u :=
    ⟨_, rfl⟩
  have hcores : ∀ t ∈ issued s c f, t.core = c := numberSr_core (trigsOf_core s c f) _
  obtain ⟨⟨k, hk⟩, ho, accesses, pend, hmarked⟩ := hw ▸ (markersOnly_frame c).each_mem _
    (fun t ht => markersOnly_queueMarker hc (hcores t (List.mem_of_mem_filter ht)) pathS) u
  obtain ⟨agenda, lanes, engines, hz⟩ := queuesOnly_frame.each (ranked (issued s c f)) (queuesOnly_launchTrig s c) w
  have htime : w.time = s.time := by rw [hk, hu]; rfl
  have hcore : u.core c = (issued s c f).foldl captureTrig (bundleCore s c f (issued s c f) (s.core c)) := by
    rw [hu, core_apply_fresh, withCore_core _ _ _ hc]
  have hrun := issueBundle_run s c f
  rw [← hu, ← hw] at hrun
  rw [hrun]
  refine ⟨?_, fun x hx he => ?_, ?_, fun d hd => ?_, ?_, ?_⟩
  · obtain ⟨captured, arch, hmarks, hcap⟩ := captureTrigs_only (issued s c f) (bundleCore s c f (issued s c f) (s.core c))
    refine ⟨_, arch, captured, accesses, pend, bundleCore_written s c f (issued s c f) (s.core c), hmarks, ?_⟩
    rw [hz]
    change w.core c = _
    rw [hmarked, hcore, hcap]
  · exact op_mem_refetching c (launched_pending s c (mem_ranked hx) he htime)
  · rw [← htime, hz]
    exact fetch_mem_refetching _ c 1
  · rw [hz]
    change w.core d = _
    rw [ho d hd, hu, core_apply_fresh, withCore_core_ne _ _ _ hd]
  · rw [hz, hk, hu]
    exact ⟨rfl, rfl⟩
  · rw [hz, hk, hu]
    rfl

section
variable {s : State} {v : BitVec 8} {e : Engine}

theorem engineCode_lt (e : Engine) : e.code < 4 := by cases e <;> decide

/-- A captured operation whose delay runs is looked at again (R49). -/
theorem engineOpStart_delayed {x : Trig} {rest : List Trig} (h : nth (s.core v.toNat).captured e.code [] = x :: rest)
    (hd : unheld s v.toNat < x.u0 + x.delay) : exec (.engineOpStart v e) s = .next (posted s 1 0 (.engineOpStart v e)) := by
  change ran (startCaptured v.toNat e) s = _
  rw [ran, startCaptured, Prog.run_get]
  simp only [h, hd, if_true]
  rw [postEv_posted _ _ _ (by decide), coreBV_toNat]

/-- The oldest captured operation of an engine starts (R49, R50). -/
theorem engineOpStart_starts {x : Trig} {rest : List Trig} (h : nth (s.core v.toNat).captured e.code [] = x :: rest)
    (hd : x.u0 + x.delay ≤ unheld s v.toNat) (hl : nth (s.core v.toNat).engLast e.code 0 < s.time) (hx : x.drained s = false) :
    exec (.engineOpStart v e) s = .next ((Eff.post s.time 2 (.op { x with t0 := s.time, u0 := unheld s v.toNat, checked := true })).apply
      (withCore s v.toNat fun k => { k with
        captured := updAt k.captured e.code fun _ => rest
        engLast := updAt k.engLast e.code fun _ => s.time }.updArch x.seq fun a => { a with
          active := updAt a.active e.code fun o => { o with a := x.a, b := x.b, c := x.c, running := o.running + 1 } })) := by
  have hdelay : ¬ unheld s v.toNat < x.u0 + x.delay := Nat.not_lt.2 hd
  have hlast : (0 < s.time && s.time ≤ nth (s.core v.toNat).engLast e.code 0) = false := by simp [Nat.not_le.2 hl]
  change ran (startCaptured v.toNat e) s = _
  rw [ran, startCaptured, Prog.run_get]
  simp only [h, hdelay, hx, hlast, if_false, Bool.false_eq_true]
  rw [Prog.run_all_cons, Prog.run_all_cons, Prog.run_all_nil, postOp_run]
  rfl
end

/-- A bundle in fault has no collision to report where it has no fault (R34). -/
theorem collision_none {s : State} {c : Nat} {f : Fetched} (h : bundleFault s c f = none) : collision s c f.bits = none := by
  unfold bundleFault at h
  cases hcol : collision s c f.bits with
  | none => rfl
  | some d => simp [hcol] at h

/-- Settles O46: FETCH decodes what stands at the pc, and a bundle is held, faults or issues with its writes and triggers. -/
theorem bundlesFetchAndIssue : Obligations.BundlesFetchAndIssue := by
  unfold Obligations.BundlesFetchAndIssue
  intro s v f w r b c k plain at_ found stops illegal literal header ready go
  have breach : ∀ {code slot x : Nat} {level : Bool}, literal → validate b = some (code, slot, level, x) →
      stops code (if code = 0x02 then k.pc else x + k.pc * 2 ^ 48) slot level := fun ⟨hp, hpc, hi, hb⟩ hv =>
    fetch_stops hp (decodeAt_breach hpc hi hb hv)
  refine ⟨fun hp hpc hi hb => fetch_found hp (decodeAt_entry hpc hi hb),
    fun ⟨hp, hpc, hi, hb⟩ hv => fetch_found hp (decodeAt_literal hpc hi hb hv),
    fun hl h => breach hl (validate_header (not_headerLegal (hdrBits_eq b) h)),
    fun hl hh i hi => breach hl (validate_transport hh hi),
    fun hl hh hu => ?_,
    fun hl hh hs hlim => breach hl (validate_limits hh hs hlim),
    fun hp hpc h => fetch_stops hp (decodeAt_illegal hpc h), fun hp hpc => fetch_stops hp (decodeAt_past hpc),
    fun hr hg hw hlim a u n hwait => ?_, fun hr hg hw hb hm => ?_, fun hr hg hw hb => ?_, fun hr hk hseg hid hp => ?_,
    fun e x rest h => ⟨fun hd => engineOpStart_delayed h hd, fun hd hl hx => ?_⟩⟩
  · exact breach hl (validate_transport hh (badSlot_unit hu))
  · change ran (issue c) s = _
    rw [ran, issue_goesOn hr hg, goesOn_waits hw, hwait, holdBundle_run hlim]
  · change ran (issue c) s = _
    rw [ran, issue_goesOn hr hg, goesOn_faults hw hb hm]
  · have hrun : exec (.bundleIssue v) s = .next ((issueBundle c f).run s) := by
      change ran (issue c) s = _
      rw [ran, issue_goesOn hr hg, goesOn_issues hw hb]
    obtain ⟨⟨l, arch, captured, accesses, pend, ⟨hpc, hfetched, hheld, hflow, sr, pass, harch⟩, hmarks, hcore⟩,
      hops, hnext, ho, hmem, hctrs⟩ := issueBundle_issued (s := s) (c := c) (f := f) v.isLt
    obtain ⟨active, ring, tiles, keepers, accs, maSeq, hmarks⟩ := hmarks
    rw [harch] at hmarks
    obtain ⟨hst, hpb⟩ := written_keeps s c f.bits
    refine ⟨_, hrun, ?_⟩
    simp only [hcore, hmarks, true_and]
    refine ⟨hpc, hfetched, hheld, hflow.trans hr.2.1, hst, hpb, fun p hp hlt h0 => ?_,
      fun x hx hu => trigsOf_operands hx hu, fun x hx he => ?_, ?_, ho, hmem, hctrs⟩
    · have hwrites : WritesGeneral (tDest p.2 / 64) p.2 := by
        refine ⟨?_, ?_⟩
        · rw [dUnit, field]
          omega
        · rw [dReg, field]
          omega
      exact (written_general (collision_none hb) hp (by omega) hwrites).trans (by rw [carried_general hwrites.1])
    · obtain ⟨n, hn⟩ := numberSr_of_mem hx (s.core c).arch.srSeq
      exact ⟨n, hops _ hn he⟩
    · rw [← coreBV_toNat v]
      exact hnext
  · change ran (issue c) s = ran (issue c) _
    rw [ran, issue_opens v.isLt hr hk hseg hid hp]
    rfl
  · refine ⟨_, engineOpStart_starts h hd hl hx, ?_, ?_, ?_, ?_, fun d hne => ?_, ⟨rfl, rfl⟩⟩
    · rw [Eff.apply_post_agenda, withCore_time, withCore_agenda, Nat.max_self]
    · rw [core_apply_post, withCore_core _ _ _ v.isLt]
      exact nth_updAt_self _ _ _ (engineCode_lt e)
    · rw [core_apply_post, withCore_core _ _ _ v.isLt]
      exact nth_updAt_self _ _ _ (engineCode_lt e)
    · rw [core_apply_post, withCore_core _ _ _ v.isLt, updArch_arch]
      have hset : updAt k.arch.active e.code (fun o => { o with a := x.a, b := x.b, c := x.c, running := o.running + 1 }) =
          updAt k.arch.active e.code fun _ =>
            { nth k.arch.active e.code EngineSet.reset with
              a := x.a, b := x.b, c := x.c, running := (nth k.arch.active e.code EngineSet.reset).running + 1 } :=
        updAt_congr EngineSet.reset rfl
      exact congrArg (fun active => ({ k.arch with active := active } : Arch)) hset
    · rw [core_apply_post, withCore_core_ne _ _ _ hne]

end Sys2Proof.Proofs


/-! PROOFS. The decoder and the encoder are inverse (O3), and words written out from the tables (O2). -/

namespace Sys2Proof.Laws.RoundTrip

/-- The decoder reads back every well-formed instruction: the induction principle of Instr takes, in the order of its constructors,
what the lemma of its name above says. -/
theorem decodeWord?_encode : ∀ i : Instr, Statement i :=
  @Instr.rec Statement
    dieReset rollbackFloorRaise powerLimitSet attestRequest powerWindowEnd registerWrite trootWrite tlbinvAll tlbinvPage
    tlbinvLargePage fcrateWrite errrpWrite rrrpWrite queueConfigWrite queueTailWrite hostMemAccess d2dFlitRetry slotBind
    slotIdle slotEmpty preemptRequest leaseExpiry slotTakeWaiting forcedPreemptTimeout launchValidate taskStage taskStart
    timeSliceYield contextSave contextRestore regionComplete fetch bundleIssue engineOpStart resultLanding trapEntry
    freezeTimeout pageWalk eccReread rewind scrubWord fragTimeSync cwaitWake cwaitTimeout mmaArrayStart mmaComplete mmaReplay
    tileDrainDone ceRecordRead cePrewaitMet ceRingClaim ceWaitTimeout ceRecordComplete tableLoadApply xlaneJobStart
    xlanePrewaitMet xlaneTransition xlaneWaitTimeout xlaneJobEnd seJobStart sePrewaitMet seColumnBlock seWaitTimeout seJobEnd
    fxQueueDepart stripeSend fragData fragReservedType stripeDeliver fragAck fragNak stripeBusyResend stripeDeadline
    ackTimeout fragReadRequest fragReadResponse fragContribution fragContribAck contribResendTimeout mergedPartialApply
    keyIncompleteTimeout replayWaitTimeout add sub and or xor andn shl shr sar rol ceq cne clt cltu cle cleu min max minu maxu
    sel clz ctz popc sext zext addsh bfx bfi fcvtif fcvtfi ldb ldbu ldh ldhu ldw ldwu ldd stb sth stw std pref aadd amax amin
    axchg acas afadd aand aor crpop vadd vsub vmul vmin vmax vand vor vxor vandn vshl vshr vsar vceq vcne vclt vcle vsel vabs
    vneg vclamp vcvt viota pand por pxor pandn pnot pcnt pfirst psetn ppack punpack vfma vfms vfnma vdiv vsqrt vrcp vrsq vexp2
    vlog2 vtanh vdot4 vmac vshuf vrot vbcast vzip vunzip vslide vpack vunpack vcompress vaccrd vaccwr vplane vld vst vlds vsts
    vgath vscat vscatadd vldz vstz vrsum vrmax vrmin vargmax vargmin vscan vmerge vsort vtopk vuniq kmov kadde kmax kmin kcvt
    kfold kamax kgen kld cque rinit rawait rrel tdmk xjob xtab sejob fwrite fread fred frwinRegister frwinRemove
    accessPerformed cinchMemoryAccess packageReset tlbinvComplete drainWindowOpen currySlotStart currySlotEnd planeEraseStart
    planeEraseEnd timeSyncSend timeSkewAlarm mul mulh mulhu div divu rem remu fadd fsub fmul fma fdiv fsqrt fmin fmax fceq
    fclt fcle fclass qmark fence br jmp call calli ret loop lset enter leave trap halt cadd cwait cread mvst mvts pbw
    curqStart curqDesc grpinc launch eret rlog vexpand vldt vstt mma mdrain msave mload mrawadd mzero mchk mclr mseed kbind
    kunbind krebind kst tcfg tstate trel tmarkOpen tmarkClose tmarkReopen thand ttake cstat cclrRetry cclrAbandonChain
    cclrAbandonAll fflowOpen fflowAccept fflowCloseSend fflowCloseRecv fcadd frate

end Sys2Proof.Laws.RoundTrip

namespace Sys2Proof.Proofs
open Sys2Proof Sys2Proof.Machine Sys2Proof.Safety

/-- The decoder reads no candidate but one that its two checks let pass, of events and of operations alike. -/
theorem decode_sound {w : Nat} {i : Instr} (h : decode w = .ok i) : i.wellFormed = true ∧ encode i = w := by
  have checked : ∀ {j : Instr} {e : DecodeError},
      (if j.wellFormed && encode j == w then Except.ok j else .error e) = Except.ok i → i.wellFormed = true ∧ encode i = w := by
    intro j e hj
    split at hj
    case isTrue hpass =>
      cases hj
      simpa using hpass
    case isFalse => cases hj
  unfold decode at h
  split at h
  · split at h
    · cases h
    · exact checked h
  · split at h
    · cases h
    · split at h
      · cases h
      · cases h
      · exact checked h

theorem decodeWord?_eq_some {w : Nat} {i : Instr} : decodeWord? w = some i ↔ decode w = .ok i := by
  unfold decodeWord?
  split
  · next hd => rw [hd, Option.some_inj, Except.ok.injEq]
  · next hd => simp [hd]

theorem decode_encode {i : Instr} (h : i.wellFormed = true) : decode (encode i) = .ok i :=
  decodeWord?_eq_some.1 (Laws.RoundTrip.decodeWord?_encode i h)

/-- Settles O3: what the decoder reads it has checked against the encoder, and it reads back what the encoder writes. -/
theorem eachWordNamesOneInstruction : Obligations.EachWordNamesOneInstruction := by
  unfold Obligations.EachWordNamesOneInstruction
  intro w i
  constructor
  · exact fun h => decode_sound (decodeWord?_eq_some.1 h)
  · rintro ⟨hwf, rfl⟩
    exact decodeWord?_eq_some.2 (decode_encode hwf)

/-- Settles O2, by running the decoder on each word. -/
theorem decodedWords : Obligations.DecodedWords := by
  unfold Obligations.DecodedWords
  decide +kernel

end Sys2Proof.Proofs


/-! PROOFS. What a step runs (O1): the earliest pending item's instruction, and of a word placed from outside its own. -/

namespace Sys2Proof.Proofs
open Sys2Proof Sys2Proof.Machine Sys2Proof.Safety

section
variable {s : State} {n p : Nat} {rest : List Item}

theorem step_tripped (h : s.pkg.tripped = true) : step s = .fault .poweredOff := by
  simp only [step, dueItem, h, if_true]

theorem step_idle (ht : s.pkg.tripped = false) (ha : s.agenda = []) : step s = .fault .idle := by
  simp only [step, dueItem, ht, ha, Bool.false_eq_true, if_false]

theorem step_event {i : Instr} (ht : s.pkg.tripped = false) (ha : s.agenda = ⟨n, p, .ev i⟩ :: rest) :
    step s = exec i { s with time := max s.time n, agenda := rest, cur := Trig.none } := by
  simp only [step, dueItem, ht, ha, Bool.false_eq_true, if_false]

/-- A trigger's decoding under another name, behind which the kernel does not evaluate it on a free destination word. -/
theorem decodeTrigger_named : ∃ D : Trig → Except DecodeError Instr, ∀ g, decodeTrigger g.dest (low g.a) (low g.b) = D g :=
  ⟨_, fun _ => rfl⟩

theorem step_operation {g : Trig} {i : Instr} (ht : s.pkg.tripped = false) (ha : s.agenda = ⟨n, p, .op g⟩ :: rest)
    (hd : decodeTrigger g.dest (low g.a) (low g.b) = .ok i) :
    step s = exec i { s with time := max s.time n, agenda := rest, cur := g } := by
  obtain ⟨D, hD⟩ := decodeTrigger_named
  rw [hD] at hd
  unfold step dueItem
  simp only [hD]
  simp only [ht, ha, hd, Bool.false_eq_true, if_false]

theorem step_undecodable {g : Trig} {e : DecodeError} (ht : s.pkg.tripped = false) (ha : s.agenda = ⟨n, p, .op g⟩ :: rest)
    (hd : decodeTrigger g.dest (low g.a) (low g.b) = .error e) : step s = .refused (.undecodable g.dest) := by
  obtain ⟨D, hD⟩ := decodeTrigger_named
  rw [hD] at hd
  unfold step dueItem
  simp only [hD]
  simp only [ht, ha, hd, Bool.false_eq_true, if_false]
end

/-! The operands of an instruction's word, each below the size of its field. -/

theorem typeCode_lt (ty : ElemType) : ty.code < 8 := by cases ty <;> decide
theorem spaceCode_lt (sp : Space) : sp.code < 3 := by cases sp <;> decide
theorem bits2_lt (x : BitVec 2) : x.toNat < 4 := x.isLt
theorem bits3_lt (x : BitVec 3) : x.toNat < 8 := x.isLt
theorem bits4_lt (x : BitVec 4) : x.toNat < 16 := x.isLt

/-- Bit 23 marks an event (log 7). -/
theorem bitOf_eventWord (n a : Nat) : bitOf (eventWord n a) 23 = true := by
  simp only [bitOf, eventWord, beq_iff_eq]
  omega

/-- The mode operand of the trigger that stands for a placed word (log 8): its selector, for FRWIN in bit 8. -/
def placedMode (w : Nat) : Nat := if field w 16 5 = 23 ∧ field w 6 8 = 7 then field w 21 2 * 256 else field w 21 2

/-- The word that a step reads from that trigger: its destination, and the selector that its mode operand gives again. -/
def placedWord (w : Nat) : Nat := w % 2 ^ 21 + selectorOf (w % 2 ^ 21) (placedMode w) (placedMode w) * 2 ^ 21

/-- With mode operands zero every opcode names its first row. -/
theorem selectorOf_zero (d : Nat) : selectorOf d 0 0 = 0 := by
  unfold selectorOf
  split
  · rfl
  · split <;> rfl

theorem placedWord_of_lt {w : Nat} (h : w < 2 ^ 21) : placedWord w = w := by
  have hrow : field w 21 2 = 0 := by simp only [field]; omega
  simp only [placedWord, placedMode, hrow, Nat.zero_mul, ite_self, selectorOf_zero, Nat.add_zero, Nat.mod_eq_of_lt h]

/-- Placing an operation's word loses no bit: the nine rows beyond an opcode's first have their selector given again, and every other
operation's word fits in a destination. -/
theorem placedWord_encode (i : Instr) (h : bitOf (encode i) 23 = false) : placedWord (encode i) = encode i := by
  cases i with
  | curqDesc | tmarkClose | tmarkReopen | cclrAbandonChain | cclrAbandonAll | fflowAccept | fflowCloseSend | fflowCloseRecv => decide
  | frwinRemove g => cases g <;> decide
  | _ =>
    refine placedWord_of_lt ?_
    dsimp only [encode] at h ⊢
    simp only [trigWord, bitOf_eventWord, reduceCtorEq] at h <;> clear h <;>
      grind only [trigWord, typeCode_lt, spaceCode_lt, bits2_lt, bits3_lt, bits4_lt, Bool.toNat_lt]

theorem placedMode_lt (w : Nat) : placedMode w < 2 ^ 64 := by
  unfold placedMode field
  split_ifs <;> omega

theorem low_wide {n : Nat} (h : n < 2 ^ 64) : low (wide n) = n := by
  simp only [low, wide, BitVec.toNat_ofNat]
  omega

/-- The trigger that stands for a word decodes as its placed word. -/
theorem decodeTrigger_placedTrig (s : State) (w : Nat) :
    decodeTrigger (placedTrig s w).dest (low (placedTrig s w).a) (low (placedTrig s w).b) = decode (placedWord w) := by
  have ha : (placedTrig s w).a = wide (placedMode w) := rfl
  have hb : (placedTrig s w).b = wide (placedMode w) := rfl
  have hdest : (placedTrig s w).dest = w % 2 ^ 21 := rfl
  rw [ha, hb, hdest, low_wide (placedMode_lt w), decodeTrigger, placedWord]

section
variable {s : State} {i : Instr} (k : Nat) (ht : s.pkg.tripped = false) (hwf : i.wellFormed = true)
include ht hwf

theorem step_withFetchWord_event (hbit : bitOf (encode i) 23 = true) :
    step (s.withFetchWord k (encode i)) = exec i { s with cur := Trig.none } := by
  have hitem : placedItem s (encode i) = ⟨s.time, 0, .ev i⟩ := by
    simp only [placedItem, hbit, if_true, decodeWord?_eq_some.2 (decode_encode hwf)]
  have hnext : (s.withFetchWord k (encode i)).agenda = ⟨s.time, 0, .ev i⟩ :: s.agenda := congrArg (· :: s.agenda) hitem
  rw [step_event (s := s.withFetchWord k (encode i)) ht hnext]
  simp only [State.withFetchWord, Nat.max_self]

theorem step_withFetchWord_operation (hbit : bitOf (encode i) 23 = false) :
    step (s.withFetchWord k (encode i)) = exec i { s with cur := placedTrig s (encode i) } := by
  have hitem : placedItem s (encode i) = ⟨s.time, 0, .op (placedTrig s (encode i))⟩ := by
    simp only [placedItem, hbit, Bool.false_eq_true, if_false]
  have hnext : (s.withFetchWord k (encode i)).agenda = ⟨s.time, 0, .op (placedTrig s (encode i))⟩ :: s.agenda :=
    congrArg (· :: s.agenda) hitem
  have hd := decodeTrigger_placedTrig s (encode i)
  rw [placedWord_encode i hbit, decode_encode hwf] at hd
  rw [step_operation (s := s.withFetchWord k (encode i)) ht hnext hd]
  simp only [State.withFetchWord, Nat.max_self]
end

/-- Settles O1: the cases of a step are those of the earliest item, and a placed word is that item. -/
theorem stepRunsDecodedInstruction : Obligations.StepRunsDecodedInstruction := by
  unfold Obligations.StepRunsDecodedInstruction
  intro s
  refine ⟨step_tripped, fun ht => ⟨step_idle ht, fun n p rest => ⟨fun i => step_event ht,
    fun g ha => ⟨fun i => step_operation ht ha, fun e => step_undecodable ht ha⟩⟩, fun i k hwf => ?_⟩⟩
  cases hbit : bitOf (encode i) 23 with
  | true => exact ⟨Trig.none, ⟨rfl, fun _ => rfl⟩, nofun, step_withFetchWord_event k ht hwf hbit⟩
  | false =>
    exact ⟨placedTrig s (encode i), ⟨rfl, nofun⟩, fun _ => ⟨rfl, rfl, rfl, rfl⟩, step_withFetchWord_operation k ht hwf hbit⟩

end Sys2Proof.Proofs


/-! PROOFS. The integer units IA and IM (O6): each function of R66 and R67 as a word. -/

namespace Sys2Proof.Proofs
open Sys2Proof Sys2Proof.Machine Sys2Proof.Safety

theorem sc_eq (s : State) (u : Nat) : (unitTrig s u).sc = (opC s).toNat := low_eq _

section
variable (s : State) (u : Bool) {y : Word}

/-- An operation of IA0 or IA1 lands the word that its function gives. -/
theorem alu_lands {f : Nat → Nat → Nat → Nat} (h : BitVec.ofNat 64 (f (opA s).toNat (opB s).toNat (opC s).toNat) = y) :
    runOp (aluOp u f) s = .next (landsWord s (if u then 6 else 5) 1 y) := by
  rw [runOp_go (aluOp u f) s (.inr rfl)]
  change Host.Outcome.next (Prog.run (land (unitTrig s (if u then 6 else 5)) 1 _ []) s) = _
  rw [land_run, sa_eq, sb_eq, sc_eq, wide_eq, h]
  rfl

/-- A multiplication of IM lands the word that its function gives. -/
theorem mul_lands {f : Nat → Nat → Nat} (h : BitVec.ofNat 64 (f (opA s).toNat (opB s).toNat) = y) :
    runOp (mulOp f) s = .next (landsWord s 7 3 y) := by
  rw [runOp_go (mulOp f) s (.inr rfl)]
  change Host.Outcome.next (Prog.run (land (unitTrig s 7) 3 _ []) s) = _
  rw [land_run, sa_eq, sb_eq, wide_eq, h]
  rfl

/-- A division by a number other than zero lands the word that its function gives. -/
theorem div_lands {f : Nat → Nat → Nat} (hb : opB s ≠ 0) (h : BitVec.ofNat 64 (f (opA s).toNat (opB s).toNat) = y) :
    runOp (divOp f) s = .next (landsWord s 7 20 y) := by
  have hgo : (divOp f).chk (view s) (unitTrig s 7) = .go := by
    have : (opB s).toNat ≠ 0 := fun h0 => hb (BitVec.eq_of_toNat_eq h0)
    simp [divOp, opRun, divCheck, need, sb_eq, this]
  rw [runOp_go (divOp f) s (.inr hgo)]
  change Host.Outcome.next (Prog.run (land (unitTrig s 7) 20 _ []) s) = _
  rw [land_run, sa_eq, sb_eq, wide_eq, h]
  rfl

/-- A division by zero is the precise fault 0x07 with the dividend (R68). -/
theorem div_traps {f : Nat → Nat → Nat} (hb : opB s = 0) (hu : s.cur.checked = false) :
    runOp (divOp f) s = .next (faults s 0x07 (opA s)) := by
  have hbad : (divOp f).chk (view s) (unitTrig s 7) = .bad 0x07 (opA s) := by
    simp [divOp, opRun, divCheck, need, sb_eq, sa_eq, hb]
  exact runOp_bad (divOp f) s 0x07 _ hu hbad (by decide)
end

/-! The values of the table of R66 and R67 as words. -/

section
variable (a b c : Word)

theorem ofNat_enc (z : Int) : BitVec.ofNat 64 (enc z 64) = BitVec.ofInt 64 z := by
  apply BitVec.eq_of_toNat_eq
  have hlt : z % (2 ^ 64 : Int) < 2 ^ 64 := Int.emod_lt_of_pos _ (by decide)
  simp only [enc, BitVec.toNat_ofInt, BitVec.toNat_ofNat]
  exact Nat.mod_eq_of_lt (by omega)

theorem ofNat_sub_word : BitVec.ofNat 64 (a.toNat + 2 ^ 64 - b.toNat) = a - b := by
  apply BitVec.eq_of_toNat_eq
  simp only [BitVec.toNat_sub, BitVec.toNat_ofNat]
  omega

theorem ofNat_addsh : BitVec.ofNat 64 (a.toNat + b.toNat * 2 ^ (c.toNat % 4)) = a + b <<< (c.toNat % 4) := by
  apply BitVec.eq_of_toNat_eq
  simp [BitVec.toNat_shiftLeft, Nat.shiftLeft_eq]

theorem bit_eq_one (n i : Nat) : bit n i = 1 ↔ n.testBit i = true := by
  simp [bit, Nat.testBit_eq_decide_div_mod_eq]

theorem ofNat_ite (p : Prop) [Decidable p] (x y : Word) :
    BitVec.ofNat 64 (if p then x.toNat else y.toNat) = if p then x else y := by
  split <;> simp

theorem ofNat_flagOf (p : Prop) [Decidable p] : BitVec.ofNat 64 (flagOf (decide p)) = if p then (1 : Word) else 0 := by
  simp only [flagOf, decide_eq_true_eq]
  split <;> rfl

theorem ofNat_andn : BitVec.ofNat 64 (a.toNat &&& (2 ^ 64 - 1 - b.toNat)) = a &&& ~~~b := by
  apply BitVec.eq_of_toNat_eq
  rw [BitVec.toNat_and, BitVec.toNat_not, BitVec.toNat_ofNat, Nat.mod_eq_of_lt]
  exact Nat.and_lt_two_pow _ (by omega)

theorem ofNat_shl (n : Nat) : BitVec.ofNat 64 (a.toNat * 2 ^ n) = a <<< n := by
  apply BitVec.eq_of_toNat_eq
  simp [BitVec.toNat_shiftLeft, Nat.shiftLeft_eq]

theorem ofNat_shr (n : Nat) : BitVec.ofNat 64 (a.toNat / 2 ^ n) = a >>> n := by
  apply BitVec.eq_of_toNat_eq
  rw [BitVec.toNat_ushiftRight, Nat.shiftRight_eq_div_pow, BitVec.toNat_ofNat, Nat.mod_eq_of_lt]
  exact (Nat.div_le_self _ _).trans_lt a.isLt

theorem ofNat_sar (n : Nat) : BitVec.ofNat 64 (enc (sint a.toNat 64 / 2 ^ n) 64) = a.sshiftRight n := by
  rw [ofNat_enc, sint_word]
  simp [BitVec.sshiftRight, Int.shiftRight_eq_div_pow]

theorem ofNat_rol {n : Nat} (hn : n < 64) :
    BitVec.ofNat 64 (a.toNat * 2 ^ n % 2 ^ 64 + a.toNat / 2 ^ (64 - n)) = a.rotateLeft n := by
  have hlow : a.toNat / 2 ^ (64 - n) < 2 ^ n := by
    rw [Nat.div_lt_iff_lt_mul (Nat.two_pow_pos _), ← Nat.pow_add, show n + (64 - n) = 64 by omega]
    exact a.isLt
  have hhigh : a.toNat * 2 ^ n % 2 ^ 64 = 2 ^ n * (a.toNat % 2 ^ (64 - n)) := by
    rw [Nat.mul_comm, show 2 ^ 64 = 2 ^ n * 2 ^ (64 - n) by rw [← Nat.pow_add]; congr 1; omega, Nat.mul_mod_mul_left]
  apply BitVec.eq_of_toNat_eq
  rw [BitVec.rotateLeft_def, Nat.mod_eq_of_lt hn, BitVec.toNat_or, BitVec.toNat_shiftLeft, BitVec.toNat_ushiftRight,
    Nat.shiftLeft_eq, Nat.shiftRight_eq_div_pow, hhigh, ← Nat.two_pow_add_eq_or_of_lt hlow, BitVec.toNat_ofNat, Nat.mod_eq_of_lt]
  calc 2 ^ n * (a.toNat % 2 ^ (64 - n)) + a.toNat / 2 ^ (64 - n) < 2 ^ n * (a.toNat % 2 ^ (64 - n)) + 2 ^ n :=
        Nat.add_lt_add_left hlow _
    _ = 2 ^ n * (a.toNat % 2 ^ (64 - n) + 1) := by ring
    _ ≤ 2 ^ n * 2 ^ (64 - n) := Nat.mul_le_mul_left _ (Nat.mod_lt _ (Nat.two_pow_pos _))
    _ = 2 ^ 64 := by rw [← Nat.pow_add]; congr 1; omega

theorem ofNat_signFrom (n : Nat) : BitVec.ofNat 64 (signFrom a.toNat n) = (a.setWidth (n + 1)).signExtend 64 := by
  have hsint : sint a.toNat (n + 1) = (a.setWidth (n + 1)).toInt := by
    have hhalf : (2 * (a.toNat % 2 ^ (n + 1)) < 2 ^ (n + 1)) = (a.toNat % 2 ^ (n + 1) < 2 ^ n) := by
      rw [Nat.pow_succ]
      exact propext ⟨fun h => by omega, fun h => by omega⟩
    simp [sint, BitVec.toInt, BitVec.toNat_setWidth, hhalf]
  rw [signFrom, ofNat_enc, hsint, BitVec.signExtend]

theorem ofNat_zext (n : Nat) : BitVec.ofNat 64 (a.toNat % 2 ^ (n + 1)) = (a.setWidth (n + 1)).setWidth 64 := by
  apply BitVec.eq_of_toNat_eq
  simp [BitVec.toNat_setWidth]

theorem ofNat_field (n w : Nat) : BitVec.ofNat 64 (field a.toNat n w) = ((a >>> n).setWidth w).setWidth 64 := by
  apply BitVec.eq_of_toNat_eq
  simp [field, BitVec.toNat_setWidth, BitVec.toNat_ushiftRight, Nat.shiftRight_eq_div_pow]


/-- A number whose n bits from bit p on are replaced, bit by bit. -/
theorem testBit_insert (x m : Nat) (p n i : Nat) : (x - field x p n * 2 ^ p + m % 2 ^ n * 2 ^ p).testBit i =
    if p ≤ i ∧ i < p + n then m.testBit (i - p) else x.testBit i := by
  have hlow : x % 2 ^ p < 2 ^ p := Nat.mod_lt _ (Nat.two_pow_pos p)
  have hnew : m % 2 ^ n < 2 ^ n := Nat.mod_lt _ (Nat.two_pow_pos n)
  have hx : x = 2 ^ p * (2 ^ n * (x / 2 ^ p / 2 ^ n) + field x p n) + x % 2 ^ p := by
    rw [field, Nat.div_add_mod, Nat.div_add_mod]
  have hy : x - field x p n * 2 ^ p + m % 2 ^ n * 2 ^ p = 2 ^ p * (2 ^ n * (x / 2 ^ p / 2 ^ n) + m % 2 ^ n) + x % 2 ^ p := by
    rw [Nat.mul_add] at hx ⊢
    rw [Nat.mul_comm (field x p n), Nat.mul_comm (m % 2 ^ n)]
    omega
  rw [hy, Nat.testBit_two_pow_mul_add _ hlow, Nat.testBit_two_pow_mul_add _ hnew]
  by_cases hp : i < p
  · have hout : ¬ (p ≤ i ∧ i < p + n) := by omega
    simp [hp, hout, Nat.testBit_mod_two_pow]
  · by_cases hn : i - p < n
    · have hin : p ≤ i ∧ i < p + n := by omega
      simp [hp, hn, hin, Nat.testBit_mod_two_pow]
    · have hout : ¬ (p ≤ i ∧ i < p + n) := by omega
      have hi : i - p - n + n + p = i := by omega
      simp [hp, hn, hout, Nat.testBit_div_two_pow, hi]

theorem getLsbD_insertField (p w : Nat) {i : Nat} (hi : i < 64) :
    (BitVec.ofNat 64 (insertField a.toNat p w c.toNat)).getLsbD i =
      if p ≤ i ∧ i < p + w then c.getLsbD (i - p) else a.getLsbD i := by
  have hin : (p ≤ i ∧ i < p + min w (64 - p)) ↔ (p ≤ i ∧ i < p + w) := by omega
  rw [BitVec.getLsbD_ofNat, insertField, testBit_insert, BitVec.testBit_toNat, BitVec.testBit_toNat]
  simp only [hi, decide_true, Bool.true_and, hin]

/-- Above a number's highest 1 bit there is none (R66). -/
theorem leadingZeros_spec : leadingZeros b.toNat ≤ 64 ∧ (∀ i, 64 - leadingZeros b.toNat ≤ i → b.getLsbD i = false) ∧
    (leadingZeros b.toNat < 64 → b.getLsbD (63 - leadingZeros b.toNat) = true) := by
  unfold leadingZeros bitlen
  by_cases h0 : b.toNat = 0
  · have hb : b = 0 := BitVec.eq_of_toNat_eq h0
    simp [hb]
  · have hlog : b.toNat.log2 < 64 := (Nat.log2_lt h0).2 b.isLt
    have htop : 63 - (64 - (b.toNat.log2 + 1)) = b.toNat.log2 := by omega
    simp only [if_neg h0, htop, ← BitVec.testBit_toNat]
    refine ⟨by omega, fun i hi => ?_, fun _ => Nat.testBit_log2 h0⟩
    exact Nat.testBit_lt_two_pow ((Nat.log2_lt h0).1 (by omega))

/-- Below a number's lowest 1 bit there is none (R66). -/
theorem trailingZeros_spec : trailingZeros b.toNat ≤ 64 ∧ (∀ i, i < trailingZeros b.toNat → b.getLsbD i = false) ∧
    (trailingZeros b.toNat < 64 → b.getLsbD (trailingZeros b.toNat) = true) := by
  have hbit : ∀ i, decide (bit b.toNat i = 1) = b.getLsbD i := fun i => by
    rw [← BitVec.testBit_toNat, Bool.eq_iff_iff, decide_eq_true_eq, bit_eq_one]
  simp only [trailingZeros, hbit]
  cases hf : (List.range 64).find? fun i => b.getLsbD i with
  | none =>
    have hall := List.find?_range_eq_none.1 hf
    exact ⟨le_rfl, fun i hi => by simpa using hall i hi, fun h => absurd h (lt_irrefl _)⟩
  | some n =>
    obtain ⟨hn, hmem, hbelow⟩ := List.find?_range_eq_some.1 hf
    exact ⟨(List.mem_range.1 hmem).le, fun i hi => by simpa using hbelow i hi, fun _ => hn⟩

theorem popCount_eq : popCount 64 b.toNat = (List.range 64).countP fun i => b.getLsbD i := by
  rw [popCount, List.countP_eq_length_filter]
  congr 2
  funext i
  rw [← BitVec.testBit_toNat, Bool.eq_iff_iff, decide_eq_true_eq, bit_eq_one]

end

/-- Settles O6: each operation lands what its function gives, as a word of the table. -/
theorem scalarIntegerResults : Obligations.ScalarIntegerResults := by
  unfold Obligations.ScalarIntegerResults
  refine ⟨⟨fun u s => ?_, fun u s => ?_⟩, fun s => ?_⟩
  · intro a b c gives
    have hbit : ∀ x : Word, bit x.toNat 0 = 1 ↔ x.getLsbD 0 = true := fun x => by rw [bit_eq_one, BitVec.testBit_toNat]
    have hle : ∀ x y : Word, sint x.toNat 64 ≤ sint y.toNat 64 ↔ x.sle y = true := fun x y => by
      rw [sint_word, sint_word, BitVec.sle_iff_toInt_le]
    have hlt : ∀ x y : Word, sint x.toNat 64 < sint y.toNat 64 ↔ x.slt y = true := fun x y => by
      rw [sint_word, sint_word, BitVec.slt_iff_toInt_lt]
    have hule : ∀ x y : Word, x.toNat ≤ y.toNat ↔ x.ule y = true := fun x y => BitVec.ule_iff_toNat_le.symm
    have hult : ∀ x y : Word, x.toNat < y.toNat ↔ x.ult y = true := fun x y => BitVec.ult_iff_toNat_lt.symm
    refine ⟨alu_lands s u ?_, alu_lands s u (ofNat_sub_word a b), alu_lands s u (ofNat_addsh a b c), alu_lands s u ?_,
      alu_lands s u ?_, alu_lands s u ?_, alu_lands s u ?_, alu_lands s u ?_, alu_lands s u ?_, alu_lands s u ?_,
      alu_lands s u ?_, alu_lands s u ?_, alu_lands s u ?_, alu_lands s u ?_⟩
    · exact BitVec.eq_of_toNat_eq (by simp [a, b])
    · simp only [hle]
      exact ofNat_ite ..
    · simp only [hle]
      exact ofNat_ite ..
    · simp only [Nat.min_def, hule]
      exact ofNat_ite ..
    · simp only [Nat.max_def, hule]
      exact ofNat_ite ..
    · simp only [hbit]
      exact ofNat_ite ..
    · simp only [BitVec.toNat_inj]
      exact ofNat_flagOf _
    · simp only [ne_eq, BitVec.toNat_inj]
      exact (ofNat_flagOf _).trans (ite_not ..)
    · simp only [hlt]
      exact ofNat_flagOf _
    · simp only [hult]
      exact ofNat_flagOf _
    · simp only [hle]
      exact ofNat_flagOf _
    · simp only [hule]
      exact ofNat_flagOf _
  · intro a b c n w gives
    obtain ⟨hclz, hclz0, hclz1⟩ := leadingZeros_spec b
    obtain ⟨hctz, hctz0, hctz1⟩ := trailingZeros_spec b
    refine ⟨alu_lands s u ?_, alu_lands s u ?_, alu_lands s u ?_, alu_lands s u (ofNat_andn a b), alu_lands s u (ofNat_shl a n),
      alu_lands s u (ofNat_shr a n), alu_lands s u (ofNat_sar a n), alu_lands s u (ofNat_rol a (Nat.mod_lt _ (by decide))),
      alu_lands s u (ofNat_signFrom a n), alu_lands s u (ofNat_zext a n), alu_lands s u (ofNat_field a n w),
      ⟨_, alu_lands s u rfl, fun i hi => getLsbD_insertField a c n w hi⟩,
      ⟨_, hclz, alu_lands s u rfl, hclz0, hclz1⟩, ⟨_, hctz, alu_lands s u rfl, hctz0, hctz1⟩, alu_lands s u ?_⟩
    · exact BitVec.eq_of_toNat_eq (by simp [a, b])
    · exact BitVec.eq_of_toNat_eq (by simp [a, b])
    · exact BitVec.eq_of_toNat_eq (by simp [a, b])
    · exact congrArg _ (popCount_eq b)
  · intro a b gives traps
    refine ⟨⟨mul_lands s ?_, mul_lands s ?_, mul_lands s rfl⟩,
      fun hb => ⟨div_lands s hb ?_, div_lands s hb ?_, div_lands s hb ?_, div_lands s hb ?_⟩,
      fun hb hu => ⟨div_traps s hb hu, div_traps s hb hu, div_traps s hb hu, div_traps s hb hu⟩⟩
    · exact BitVec.eq_of_toNat_eq (by simp [a, b])
    · rw [ofNat_enc, sint_word, sint_word]
    · rw [ofNat_enc, sint_word, sint_word]
    · exact (BitVec.ofNatLT_eq_ofNat _).symm
    · rw [ofNat_enc, sint_word, sint_word]
    · exact (BitVec.ofNatLT_eq_ofNat _).symm

end Sys2Proof.Proofs


/-! PROOFS. Scalar floating point, unit FS (O7). -/

namespace Sys2Proof.Proofs
open Sys2Proof Sys2Proof.Machine Sys2Proof.Safety

/-- An operation of FS lands the value and raises the flags that its function gives (R69, R70). -/
theorem fs_lands (s : State) {n : Nat} {f : Nat → Nat → Nat → Nat → Nat × FpFlags} {v : Nat} {g : FpFlags}
    (h : f (s.core s.cur.core).arch.fsRm (opA s).toNat (opB s).toNat (opC s).toNat = (v, g)) :
    runOp (fsOp n f) s = .next (landsFloat s n v g) := by
  have hrm : ((view s).core s.cur.core).arch.fsRm = (s.core s.cur.core).arch.fsRm := by simp [Arch.fsRm, Arch.sr]
  rw [runOp_go (fsOp n f) s (.inr rfl)]
  simp only [fsOp, opRun, sa_eq, sb_eq, sc_eq, hrm, h]
  rw [land_run]
  rfl

/-- Rounding divides by nothing. -/
theorem fsRound_divZero (rm : Nat) (x  : Machine.Num) : (fsRound rm x).2.divZero = false := by
  unfold fsRound
  split
  · rfl
  · rfl
  · split <;> rfl

/-- A result rounded once, its flags those of the rounding and `invalid`. -/
theorem fsResult_eq (rm : Nat) (invalid : Bool) (x  : Machine.Num) : fsResult rm invalid x =
    (if x.isNan then 0x7FC00000 else (fsRound rm x).1,
      { (if x.isNan then ({} : FpFlags) else (fsRound rm x).2) with invalid := invalid, divZero := false }) := by
  unfold fsResult
  split
  · rfl
  · rw [← fsRound_divZero rm x]

theorem bne_zero (m : Nat) : (m != 0) = decide (m ≠ 0) := by
  cases m <;> rfl

theorem fsDiv_eq (rm : Nat) (x y : Machine.Num) : fsDiv rm x y =
    let bothInf := match x, y with | .inf _, .inf _ => true | _, _ => false
    let finite := match x with | .fin _ m _ => m != 0 | _ => false
    (if (Machine.Num.div x y).isNan then 0x7FC00000 else (fsRound rm (Machine.Num.div x y)).1,
      { (if (Machine.Num.div x y).isNan then ({} : FpFlags) else (fsRound rm (Machine.Num.div x y)).2) with
        invalid := x.isSig || y.isSig || (x.isZero && y.isZero) || bothInf, divZero := finite && y.isZero }) := by
  unfold fsDiv
  simp only [fsResult_eq, bne_zero] <;> rfl

theorem fsSqrt_eq (rm : Nat) (x : Machine.Num) : fsSqrt rm x =
    let negative := match x with | .inf n => n | .fin n m _ => n && m != 0 | .nan _ => false
    fsResult rm (x.isSig || negative) x.sqrt := by
  simp only [bne_zero] <;> rfl

/-- What is no NaN is no signalling one. -/
theorem isSig_of_number {z : Machine.Num} (h : z.isNan = false) : z.isSig = false := by
  cases z with
  | nan => cases h
  | inf | fin => rfl

section
variable {a b : Nat}

/-- The smaller or the larger of two numbers: neither is a NaN. -/
theorem fsPick_numbers (max_ : Bool) (hx : (f32 a).isNan = false) (hy : (f32 b).isNan = false) : fsPick max_ a b =
    (if ((f32 a).lt (f32 b) || ((f32 a).eq (f32 b) && (f32 a).neg? && !(f32 b).neg?)) != max_ then a % 2 ^ 32 else b % 2 ^ 32, {}) := by
  simp [fsPick, hx, hy, isSig_of_number hx, isSig_of_number hy]

/-- Where one operand alone is a NaN the other is the result, and where both are the canonical NaN. -/
theorem fsPick_nan (max_ : Bool) (h : ((f32 a).isNan || (f32 b).isNan) = true) : fsPick max_ a b =
    (if (f32 a).isNan && (f32 b).isNan then 0x7FC00000 else if (f32 a).isNan then b % 2 ^ 32 else a % 2 ^ 32,
      { invalid := (f32 a).isSig || (f32 b).isSig }) := by
  cases hx : (f32 a).isNan <;> cases hy : (f32 b).isNan <;> simp_all [fsPick, nan32]
end

/-- An FP32 value with the greatest exponent is an infinity or a NaN (R125, R128). -/
theorem f32_of_exp_255 {x : Nat} (he : x % 2 ^ 32 / 2 ^ 23 % 256 = 255) : f32 x =
    if x % 2 ^ 32 % 2 ^ 23 = 0 then .inf (decide (2 ^ 31 ≤ x % 2 ^ 32)) else .nan (decide (x % 2 ^ 32 % 2 ^ 23 < 2 ^ 22)) := by
  have hneg : (bit (x % 2 ^ 32) 31 = 1) = (2 ^ 31 ≤ x % 2 ^ 32) := propext (by simp only [bit]; omega)
  have hquiet : (bit (x % 2 ^ 32 % 2 ^ 23) 22 = 0) = (x % 2 ^ 32 % 2 ^ 23 < 2 ^ 22) := propext (by simp only [bit]; omega)
  simp only [← hneg, ← hquiet]
  exact if_pos ⟨.inl rfl, he⟩

/-- An FP32 value with a lesser exponent is a number (R125). -/
theorem f32_of_exp_lt {x : Nat} (he : x % 2 ^ 32 / 2 ^ 23 % 256 ≠ 255) : f32 x =
    .fin (decide (2 ^ 31 ≤ x % 2 ^ 32)) ((if x % 2 ^ 32 / 2 ^ 23 % 256 = 0 then 0 else 2 ^ 23) + x % 2 ^ 32 % 2 ^ 23)
      (((max (x % 2 ^ 32 / 2 ^ 23 % 256) 1 : Nat) : Int) - 127 - 23) := by
  have hneg : (bit (x % 2 ^ 32) 31 = 1) = (2 ^ 31 ≤ x % 2 ^ 32) := propext (by simp only [bit]; omega)
  simp only [← hneg]
  exact if_neg fun h => he h.2

/-- FCLASS by sign, exponent and fraction (R70). -/
theorem fsClass_eq (x : Nat) : fsClass x =
    let b := x % 2 ^ 32
    let e := b / 2 ^ 23 % 256
    let f := b % 2 ^ 23
    let neg : Bool := 2 ^ 31 ≤ b
    2 ^ (if e = 255 then (if f = 0 then (if neg then 0 else 7) else if f < 2 ^ 22 then 8 else 9)
      else if e = 0 then (if f = 0 then (if neg then 3 else 4) else if neg then 2 else 5)
      else if neg then 1 else 6) := by
  have hexp : field x 23 8 = x % 2 ^ 32 / 2 ^ 23 % 256 := by simp only [field]; omega
  simp only [fsClass, hexp]
  by_cases he : x % 2 ^ 32 / 2 ^ 23 % 256 = 255
  · rw [f32_of_exp_255 he, if_pos he]
    by_cases hf : x % 2 ^ 32 % 2 ^ 23 = 0
    · simp only [if_pos hf]
    · simp only [if_neg hf, decide_eq_true_eq]
  · rw [f32_of_exp_lt he, if_neg he]
    by_cases h0 : x % 2 ^ 32 / 2 ^ 23 % 256 = 0
    · simp only [h0, decide_true, if_true, Nat.zero_add]
    · have hm : ¬ 2 ^ 23 + x % 2 ^ 32 % 2 ^ 23 = 0 := by omega
      simp only [if_neg hm, h0, decide_false, Bool.false_eq_true, if_false]

/-- An integer operand is the integer of its type's low bits (R71). -/
theorem tyInt_mod (ty : ElemType) (b : Nat) : tyInt ty (b % 2 ^ tyWidth ty) = intOperand ty b := by
  simp [tyInt, intOperand, sint]

/-- Settles O7. -/
theorem scalarFloatOperations : Obligations.ScalarFloatOperations := by
  unfold Obligations.ScalarFloatOperations
  refine ⟨fun s hc => ?_, fun s => ?_⟩
  · intro rm x y z p gives negative bothInf finite
    exact ⟨fs_lands s (fsResult_eq ..), fs_lands s (fsResult_eq ..), fs_lands s (fsResult_eq ..), fs_lands s (fsResult_eq ..),
      fs_lands s (fsDiv_eq ..), fs_lands s ((fsSqrt_eq ..).trans (fsResult_eq ..))⟩
  · intro a b x y below gives e f neg cls
    refine ⟨fun h => ?_, fun h => ?_, fun h => ?_, fun h => ?_, fs_lands s rfl, fs_lands s rfl, fs_lands s rfl,
      fs_lands s (congrArg (·, _) (fsClass_eq _)), fun ty rm => ?_, fun ty rm => ?_⟩
    · simp only [Bool.and_eq_true, Bool.not_eq_true'] at h
      obtain ⟨hx, hy⟩ := h
      refine ⟨fs_lands s ((fsPick_numbers false hx hy).trans ?_), fs_lands s ((fsPick_numbers true hx hy).trans ?_)⟩
      · simp [below, x, y, a, b]
      · change ((if (below != true) = true then a else b), ({} : FpFlags)) = (if below = true then b else a, {})
        cases below <;> rfl
    · simp only [Bool.and_eq_true, Bool.not_eq_true'] at h
      obtain ⟨hx, hy⟩ := h
      have hv : ∀ m, fsPick m (opA s).toNat (opB s).toNat = (b, { invalid := x.isSig }) := fun m => by
        rw [fsPick_nan m (by rw [hx]; rfl), hx, hy, isSig_of_number hy, Bool.or_false]
        rfl
      exact ⟨fs_lands s (hv _), fs_lands s (hv _)⟩
    · simp only [Bool.and_eq_true, Bool.not_eq_true'] at h
      obtain ⟨hx, hy⟩ := h
      have hv : ∀ m, fsPick m (opA s).toNat (opB s).toNat = (a, { invalid := y.isSig }) := fun m => by
        rw [fsPick_nan m (by rw [hx, hy]; rfl), hx, hy, isSig_of_number hx, Bool.false_or]
        rfl
      exact ⟨fs_lands s (hv _), fs_lands s (hv _)⟩
    · simp only [Bool.and_eq_true] at h
      obtain ⟨hx, hy⟩ := h
      have hv : ∀ m, fsPick m (opA s).toNat (opB s).toNat = (0x7FC00000, { invalid := x.isSig || y.isSig }) := fun m => by
        rw [fsPick_nan m (by rw [hx]; rfl), hx, hy]
        rfl
      exact ⟨fs_lands s (hv _), fs_lands s (hv _)⟩
    · refine fs_lands s ?_
      simp only [tyInt_mod]
    · have hb : y = f32 (unitTrig s 8).sb := by rw [sb_eq]
      simp only [hb]
      rw [show exec (.fcvtfi ty rm) s = runOp (opFcvtfi ty rm) s from rfl, runOp_go (opFcvtfi ty rm) s (.inr rfl)]
      exact congrArg Host.Outcome.next (land_run ..)

end Sys2Proof.Proofs


/-! PROOFS. Branches, traps, halts and loops, unit BC (O11, O12). -/

namespace Sys2Proof.Proofs
open Sys2Proof Sys2Proof.Machine Sys2Proof.Safety

/-- An operation without a result and without effects is complete after its bound. -/
theorem finish_completes (s : State) (u b : Nat) : (finish (unitTrig s u) b []).run s = completes s u b := finish_run s u b []

@[simp] theorem view_sr (s : State) (d i : Nat) : ((view s).core d).arch.sr i = (s.core d).arch.sr i :=
  view_part (fun k => k.arch.sr i) (fun _ _ _ _ => rfl) s d

section
variable (s : State)

/-- A relative target is the bundle's pc plus b, a signed value, in 64 bits (R80). -/
theorem relTarget_eq (u : Nat) : relTarget (unitTrig s u) = (BitVec.ofInt 64 (s.cur.pc + (opB s).toInt)).toNat := by
  rw [relTarget, sb_eq, sint_word, BitVec.toNat_ofInt]
  rfl

theorem targetCheck_go {n : Nat} (h : n ≤ 32767) : targetCheck n = .go := by simp [targetCheck, need, h]

theorem targetCheck_bad {n : Nat} (h : 32767 < n) : targetCheck n = .bad 0x01 (info n) := by
  simp [targetCheck, need, Nat.not_le.2 h]

variable {s} {target : Trig → Nat} {f : Trig → Arch → Arch} {x : Word}

/-- A redirection within index memory makes the target the next pc, with its further write (R80, R81). -/
theorem bcJump_jumps (ht : target (unitTrig s 10) = x.toNat) (hx : x.toNat ≤ 32767) :
    runOp (bcJump target f) s = .next (withCore (completes s 10 1) s.cur.core fun k =>
      { k with pc := x.toNat, arch := f (unitTrig s 10) k.arch }) := by
  have hgo : (bcJump target f).chk (view s) (unitTrig s 10) = .go := by
    rw [← ht] at hx
    exact targetCheck_go hx
  rw [runOp_go _ s (.inr hgo)]
  simp only [bcJump, opRun, Prog.run_all_cons, Prog.run_all_nil, jumpTo, setCore_run, setArch_run, ht]
  rw [finish_completes, apply_core_eq, apply_core_eq, withCore_withCore]

/-- A redirection beyond index memory is the precise fault 0x01 (R80). -/
theorem bcJump_traps (ht : target (unitTrig s 10) = x.toNat) (hx : 32767 < x.toNat) (hu : s.cur.checked = false) :
    runOp (bcJump target f) s = .next (faults s 0x01 x) := by
  have hbad : (bcJump target f).chk (view s) (unitTrig s 10) = .bad 0x01 x := by
    rw [← ht] at hx
    exact (targetCheck_bad hx).trans (by rw [ht, info_toNat])
  exact runOp_bad _ s 0x01 x hu hbad (by decide)
end

/-! The end of a task: what it leaves of the registers and the memories. -/

/-- t holds the general registers and the memories that s holds. -/
def GeneralsStand (s t : State) : Prop := t.lmem = s.lmem ∧ t.mem = s.mem ∧ ∀ d, (t.core d).arch.g = (s.core d).arch.g

/-- t holds the cores and the memories that s holds. -/
def CoresStand (s t : State) : Prop := t.lmem = s.lmem ∧ t.mem = s.mem ∧ t.cores = s.cores

theorem generalsStand_frame : Frame GeneralsStand where
  refl _ := ⟨rfl, rfl, fun _ => rfl⟩
  trans := fun _ _ _ ⟨hl, hm, hg⟩ ⟨hl', hm', hg'⟩ => ⟨hl'.trans hl, hm'.trans hm, fun d => (hg' d).trans (hg d)⟩

theorem coresStand_frame : Frame CoresStand where
  refl _ := ⟨rfl, rfl, rfl⟩
  trans := fun _ _ _ ⟨hl, hm, hc⟩ ⟨hl', hm', hc'⟩ => ⟨hl'.trans hl, hm'.trans hm, hc'.trans hc⟩

theorem CoresStand.generals {s t : State} (h : CoresStand s t) : GeneralsStand s t :=
  ⟨h.1, h.2.1, fun d => by rw [State.core, h.2.2]; rfl⟩

theorem coresStand_of_queuesOnly {p : Prog} (h : Within QueuesOnly p) : Within CoresStand p := fun s => by
  obtain ⟨a, l, e, ht⟩ := h s
  exact ⟨by rw [ht], by rw [ht], by rw [ht]⟩

theorem coresStand_setRegion (r : RegionRef) (f : Region → Region) : Within CoresStand (setRegion r f) := fun _ => ⟨rfl, rfl, rfl⟩

theorem coresStand_purge (p : Item → Bool) : Within CoresStand (.eff (.purge p)) := fun _ => ⟨rfl, rfl, rfl⟩

theorem generalsStand_setCore (c : Nat) {f : Core → Core} (hf : ∀ k, (f k).arch.g = k.arch.g) :
    Within GeneralsStand (setCore c f) := fun s =>
  ⟨rfl, rfl, fun d => withCore_core_of (P := fun k l => l.arch.g = k.arch.g) s c f d (fun _ => rfl) hf⟩

theorem generalsStand_dropHalted (x : Ctx) : Within GeneralsStand (dropHalted x) := fun s => by
  refine generalsStand_frame.when _ (generalsStand_frame.andThen ?_ (generalsStand_frame.andThen ?_ generalsStand_frame.done)) s
  · exact generalsStand_frame.each _ fun d => generalsStand_setCore d fun _ => rfl
  · exact fun t => (coresStand_setRegion x.ref _ t).generals

theorem generalsStand_returnBuffers (ids cores : List Nat) : Within GeneralsStand (returnBuffers ids cores) := fun s =>
  generalsStand_frame.each _ (fun d => generalsStand_frame.when _ (generalsStand_setCore d (by exact fun _ => rfl))) s

/-- What a task's end does before its core is cleared: the task's chains, buffers and pending steps go. -/
def taskLeaves (c : Nat) (k : Core) : Prog := Prog.all [
  match k.ctx with | none => .done | some x => dropHalted x,
  returnBuffers (k.ctx.map (·.id)).toList [c],
  .eff (.purge fun x => x.ofCore c)]

/-- What it does after: the region counts the task, and what waits for the core or in the queue is looked at. -/
def taskCounted (s : State) (c : Nat) (k : Core) : Prog := Prog.all [
  match k.ctx with
  | none => .done
  | some x => Prog.all [
      setRegion x.ref (fun r => { r with ended := r.ended + 1 }),
      postEv 1 3 (.regionComplete (BitVec.ofNat 32 x.launch) (BitVec.ofNat 8 x.region))],
  coreFreed c ((k.ctx.map (·.started)).getD 0),
  postEv 1 3 (.taskStage (coreBV c)),
  match k.ctx.bind fun x => launchOf s x.ref with
  | none => .done
  | some l => kickQueue l.queue]

theorem taskEnd_run (s : State) (c : Nat) : (taskEnd c).run s =
    (taskCounted s c (s.core c)).run ((setCore c Core.clear).run ((taskLeaves c (s.core c)).run s)) := by
  simp only [taskEnd, taskLeaves, taskCounted, Prog.run_get, Prog.run_all_cons, Prog.run_all_nil] <;> rfl

theorem generalsStand_taskLeaves (c : Nat) (k : Core) : Within GeneralsStand (taskLeaves c k) := by
  refine generalsStand_frame.andThen ?_ (generalsStand_frame.andThen (generalsStand_returnBuffers _ _)
    (generalsStand_frame.andThen (fun t => (coresStand_purge _ t).generals) generalsStand_frame.done))
  cases k.ctx with
  | none => exact generalsStand_frame.done
  | some x => exact generalsStand_dropHalted x

theorem coresStand_taskCounted (s : State) (c : Nat) (k : Core) : Within CoresStand (taskCounted s c k) := by
  refine coresStand_frame.andThen ?_ (coresStand_frame.andThen (coresStand_of_queuesOnly (queuesOnly_coreFreed _ _))
    (coresStand_frame.andThen (coresStand_of_queuesOnly (queuesOnly_postEv _ _ _)) (coresStand_frame.andThen ?_ coresStand_frame.done)))
  · cases k.ctx with
    | none => exact coresStand_frame.done
    | some x => exact coresStand_frame.andThen (coresStand_setRegion _ _) (coresStand_frame.andThen
        (coresStand_of_queuesOnly (queuesOnly_postEv _ _ _)) coresStand_frame.done)
  · cases k.ctx.bind fun x => launchOf s x.ref with
    | none => exact coresStand_frame.done
    | some l => exact coresStand_of_queuesOnly (queuesOnly_kickQueue _)

/-- A task's end frees its core and keeps the general registers and the memories (R84). -/
theorem taskEnd_frees (s : State) {c : Nat} (hc : c < 256) : GeneralsStand s ((taskEnd c).run s) ∧
    (((taskEnd c).run s).core c).ctx = none ∧ (((taskEnd c).run s).core c).flow = .idle := by
  have hleaves := generalsStand_taskLeaves c (s.core c) s
  have hclear := generalsStand_setCore c (f := Core.clear) (fun _ => rfl) ((taskLeaves c (s.core c)).run s)
  have hcounted := coresStand_taskCounted s c (s.core c) ((setCore c Core.clear).run ((taskLeaves c (s.core c)).run s))
  rw [← taskEnd_run] at hcounted
  have hcore : ((taskEnd c).run s).core c = Core.clear (((taskLeaves c (s.core c)).run s).core c) := by
    rw [State.core, hcounted.2.2]
    exact withCore_core _ _ _ hc
  have hgenerals := generalsStand_frame.trans _ _ _ (generalsStand_frame.trans _ _ _ hleaves hclear) hcounted.generals
  exact ⟨hgenerals, by rw [hcore]; rfl, by rw [hcore]; rfl⟩

section
variable (s : State)

/-- A halting core whose operations have landed, with no access queued, no open segment and no pending fault, ends its task (R84). -/
theorem haltStep_ends {t : Trig} (hc : t.core < 256) (hf : (s.core t.core).flow = .halting) (hq : (s.core t.core).quiet = true)
    (ha : (s.core t.core).accesses = []) (hg : (s.core t.core).seg = none) (hp : (s.core t.core).pend = [])
    (hr : (s.core t.core).rewind = none) :
    (haltStep t).run s = (taskEnd t.core).run ((pointReached t.core true).run s) := by
  have hcan : (s.core t.core).canRewind = false := by simp [Core.canRewind, hr]
  have hdue : dueFault (((pointReached t.core true).run s).core t.core) = none := by
    rw [pointReached_core s _ _ hc, dueFault, hp]
    rfl
  simp only [haltStep, Prog.run_get, hf, hcan, hq, ha, hg, Bool.not_true, List.isEmpty_nil, Bool.or_self, Option.isSome_none,
    bne_self_eq_false, Bool.false_eq_true, if_false, Prog.run_all_cons, Prog.run_all_nil, hdue]
end

/-- Settles O11: jumps are `bcJump`, TRAP adds one pending fault, and a quiet HALT is `taskEnd`. -/
theorem jumpsTrapsAndHalts : Obligations.JumpsTrapsAndHalts := by
  unfold Obligations.JumpsTrapsAndHalts
  refine ⟨fun s hc => ?_, fun s hc => ?_⟩
  · intro c rel link jumps
    have hrel := relTarget_eq s 10
    have hb := sb_eq s 10
    exact ⟨⟨bcJump_jumps hrel, bcJump_traps hrel⟩, ⟨bcJump_jumps hb, bcJump_traps hb⟩, ⟨bcJump_jumps hrel, bcJump_traps hrel⟩,
      ⟨bcJump_jumps hb, bcJump_traps hb⟩, ⟨bcJump_jumps hb, bcJump_traps hb⟩⟩
  · intro c k
    refine ⟨fun ht hl => ?_, fun h0 hf => ?_, fun h1 hf hq ha hg hp hr => ?_⟩
    · have hpend : ((completes s 10 1).core c).pend.length < 16 := by
        change ((withCore s c fun k => putFlight k _).core c).pend.length < 16
        rw [withCore_core _ _ _ hc, putFlight_eq]
        exact hl
      change runOp opTrap s = _
      rw [runOp_go opTrap s (.inr rfl)]
      simp only [opTrap, opRun, Prog.run_all_cons, Prog.run_all_nil, ht, Bool.false_and, finish_completes, sb_eq, info_toNat]
      rw [addPending_run _ _ _ hpend]
    · have heret : ¬ ((view s).core s.cur.core).flow = .returning := by rwa [view_core_flow]
      refine ⟨_, runOp_go opHalt s (.inr rfl), ?_⟩
      simp only [opHalt, opRun, h0, if_true, Prog.run_all_cons, Prog.run_all_nil, setCore_run, postOp_run, core_apply_post]
      refine ⟨?_, fun d hd => withCore_core_ne s c _ hd, rfl, rfl⟩
      rw [apply_core_eq, withCore_core _ _ _ hc]
      simp only [if_neg heret]
      rfl
    · have hrun := haltStep_ends s (t := unitTrig s 10) hc hf hq ha hg hp hr
      obtain ⟨⟨hl, hm, hg⟩, hctx, hflow⟩ := taskEnd_frees ((pointReached c true).run s) hc
      refine ⟨_, runOp_go opHalt s (.inr rfl), ?_⟩
      simp only [opHalt, opRun, h1, if_false]
      rw [hrun]
      refine ⟨hctx, hflow, (hg c).trans ?_, hl, hm⟩
      rw [pointReached_core s _ _ hc]

/-- LOOPC's, ROTB's and ROTP's next values (R82). -/
theorem rotate_sr (a : Arch) : (rotate a).sr 7 = BitVec.ofNat 64 (((a.sr 7).toNat % 32 + 31) % 32) ∧
    (rotate a).sr 8 = BitVec.ofNat 64 (((a.sr 8).toNat % 8 + 7) % 8) ∧ ∀ i, i ≠ 7 → i ≠ 8 → (rotate a).sr i = a.sr i := by
  have hfield : ∀ x w, field x 0 w = x % 2 ^ w := fun x w => by simp [field]
  refine ⟨?_, ?_, fun i h7 h8 => ?_⟩
  · rw [rotate, sr_setSr_ne _ _ (by decide), sr_setSr_same _ _ (by decide), hfield]
    rfl
  · rw [rotate, sr_setSr_same _ _ (by decide), hfield]
    rfl
  · rw [rotate, sr_setSr_ne _ _ h8.symm, sr_setSr_ne _ _ h7.symm]

/-- LOOP's registers after it (R82). -/
def looped (a : Arch) : Arch := (rotate a).setSr 9 (info ((a.sr 9).toNat - 1))

theorem looped_sr (a : Arch) : (looped a).sr 9 = (if (a.sr 9).toNat ≤ 1 then 0 else BitVec.ofNat 64 ((a.sr 9).toNat - 1)) ∧
    (looped a).sr 7 = BitVec.ofNat 64 (((a.sr 7).toNat % 32 + 31) % 32) ∧
    (looped a).sr 8 = BitVec.ofNat 64 (((a.sr 8).toNat % 8 + 7) % 8) ∧
    ∀ i, i ≠ 7 → i ≠ 8 → i ≠ 9 → (looped a).sr i = a.sr i := by
  obtain ⟨h7, h8, hrest⟩ := rotate_sr a
  refine ⟨?_, (sr_setSr_ne _ _ (by decide)).trans h7, (sr_setSr_ne _ _ (by decide)).trans h8,
    fun i n7 n8 n9 => (sr_setSr_ne _ _ n9.symm).trans (hrest i n7 n8)⟩
  rw [looped, sr_setSr_same _ _ (by decide)]
  split
  · rw [Nat.sub_eq_zero_of_le ‹_›]
    rfl
  · rfl

/-- LSET's registers after it (R81). -/
def counting (n : Word) (a : Arch) : Arch := ((a.setSr 9 n).setSr 7 0).setSr 8 0

theorem counting_sr (n : Word) (a : Arch) : (counting n a).sr 9 = n ∧ (counting n a).sr 7 = 0 ∧ (counting n a).sr 8 = 0 ∧
    ∀ i, i ≠ 7 → i ≠ 8 → i ≠ 9 → (counting n a).sr i = a.sr i := by
  refine ⟨?_, ?_, sr_setSr_same _ _ (by decide), fun i n7 n8 n9 => ?_⟩
  · rw [counting, sr_setSr_ne _ _ (by decide), sr_setSr_ne _ _ (by decide), sr_setSr_same _ _ (by decide)]
  · rw [counting, sr_setSr_ne _ _ (by decide), sr_setSr_same _ _ (by decide)]
  · rw [counting, sr_setSr_ne _ _ n8.symm, sr_setSr_ne _ _ n7.symm, sr_setSr_ne _ _ n9.symm]

section
variable {s : State} (hc : s.cur.core < 256)
include hc

/-- The core of an operation that is complete, after a further change that no flight matters to. -/
theorem withCore_completes_core (u b : Nat) (f : Core → Core) : (withCore (completes s u b) s.cur.core f).core s.cur.core =
    f (putFlight (s.core s.cur.core) { flying s u b with lands := false }) := by
  rw [withCore_core _ _ _ hc]
  exact congrArg f (withCore_core s _ _ hc)

omit hc in
theorem withCore_completes_core_ne (u b : Nat) (f : Core → Core) {d : Nat} (hd : d ≠ s.cur.core) :
    (withCore (completes s u b) s.cur.core f).core d = s.core d :=
  (withCore_core_ne _ _ _ hd).trans (withCore_core_ne s _ _ hd)

omit hc in
/-- LOOP redirects when LOOPC is above 1 (R82). -/
theorem loopTaken_view : loopTaken (view s) (unitTrig s 10) = decide (1 < ((s.core s.cur.core).arch.sr 9).toNat) := by
  rw [loopTaken, view_sr]

omit hc in
/-- LOOP as a change of its core. -/
theorem exec_loop (hgo : ((s.core s.cur.core).arch.sr 9).toNat ≤ 1 ∨ relTarget (unitTrig s 10) ≤ 32767) :
    exec .loop s = .next (withCore (completes s 10 1) s.cur.core fun k => { k with
      arch := looped k.arch
      pc := if ((s.core s.cur.core).arch.sr 9).toNat ≤ 1 then k.pc else relTarget (unitTrig s 10) }) := by
  have hchk : opLoop.chk (view s) (unitTrig s 10) = .go := by
    simp only [opLoop, opRun, loopTaken_view, decide_eq_true_eq]
    split
    · exact targetCheck_go (hgo.resolve_left (by omega))
    · rfl
  change runOp opLoop s = _
  rw [runOp_go opLoop s (.inr hchk)]
  simp only [opLoop, opRun, Prog.run_all_cons, Prog.run_all_nil, loopTaken_view, finish_completes, jumpTo, setArch_run]
  by_cases hn : ((s.core s.cur.core).arch.sr 9).toNat ≤ 1
  · simp only [decide_eq_false (Nat.not_lt.2 hn), Prog.run_when_false, if_pos hn]
    rfl
  · simp only [decide_eq_true (Nat.lt_of_not_le hn), Prog.run_when_true, if_neg hn, setCore_run, apply_core_eq, withCore_withCore]
    rfl

omit hc in
/-- LSET as a change of its core. -/
theorem exec_lset : exec .lset s = .next (withCore (completes s 10 1) s.cur.core fun k => { k with arch := counting (opB s) k.arch }) := by
  change runOp opLset s = _
  rw [runOp_go opLset s (.inr rfl)]
  simp only [opLset, opRun, Prog.run_all_cons, Prog.run_all_nil, finish_completes, setArch_run, sb_eq, info_toNat]
  rfl
end

/-- Settles O12: LOOP and LSET complete with a change of the state registers and the pc. -/
theorem loopsCountAndRotate : Obligations.LoopsCountAndRotate := by
  unfold Obligations.LoopsCountAndRotate
  intro s hc c a n target keeps
  have htarget : relTarget (unitTrig s 10) = target := relTarget_eq s 10
  refine ⟨fun hgo => ?_, fun hn ht hu => ?_, ?_⟩
  · obtain ⟨h9, h7, h8, hrest⟩ := looped_sr a
    refine ⟨_, exec_loop (htarget ▸ hgo), ⟨rfl, rfl, fun k hk => withCore_completes_core_ne _ _ _ hk, ?_⟩, ?_⟩
    all_goals rw [withCore_completes_core hc]; simp only [putFlight_arch, putFlight_pc]
    · exact ⟨rfl, hrest⟩
    · exact ⟨h9, h7, h8, by rw [htarget]⟩
  · have htaken : loopTaken (view s) (unitTrig s 10) = true :=
      loopTaken_view.trans (decide_eq_true hn)
    refine runOp_bad opLoop s 0x01 _ hu ?_ (by decide)
    simp only [opLoop, opRun, htaken, if_true, htarget]
    exact targetCheck_bad ht
  · obtain ⟨h9, h7, h8, hrest⟩ := counting_sr (opB s) a
    refine ⟨_, exec_lset, ⟨rfl, rfl, fun k hk => withCore_completes_core_ne _ _ _ hk, ?_⟩, ?_⟩
    all_goals rw [withCore_completes_core hc]; simp only [putFlight_arch, putFlight_pc]
    · exact ⟨rfl, hrest⟩
    · exact ⟨h9, h7, h8, rfl⟩

end Sys2Proof.Proofs


/-! PROOFS. State registers, parameter words and the curry calendar, unit SY (O15, O17). -/

namespace Sys2Proof.Proofs
open Sys2Proof Sys2Proof.Machine Sys2Proof.Safety

theorem stCheck_go {i : Nat} (h : i < 24) : stCheck i = .go := by simp [stCheck, need, h]

theorem stCheck_bad {i : Nat} (h : 24 ≤ i) : stCheck i = .bad 0x03 (info i) := by simp [stCheck, need, Nat.not_lt.2 h]

section
variable {s : State}

/-- The register as MVST reads it, on the state that the operation finds. -/
theorem readState_view (d time i : Nat) : readState ((view s).core d).arch time i = readState (s.core d).arch time i := by
  rw [readState, view_sr]
  rfl

/-- MVST's register index is checked in every state. -/
theorem exec_mvst (h : (opB s).toNat < 24) : exec .mvst s =
    .next (landsWord s 12 2 (readState (s.core s.cur.core).arch s.cur.t0 (opB s).toNat)) := by
  have hgo : opMvst.chk (view s) (unitTrig s 12) = .go := by
    simp only [opMvst, opRun, sb_eq]
    exact stCheck_go h
  change runOp opMvst s = _
  rw [runOp_go opMvst s (.inr hgo)]
  simp only [opMvst, opRun, sb_eq, readState_view]
  rw [land_run, wide_eq, BitVec.ofNat_toNat, BitVec.setWidth_eq]
  rfl

theorem reserved_view : ((view s).core s.cur.core).arch.ring.reserved = (s.core s.cur.core).arch.ring.reserved :=
  view_part (fun k => k.arch.ring.reserved) (fun _ _ _ _ => rfl) s _

/-- MVTS's check, but for its wait for reserved records (R11). -/
theorem mvtsCheck_free (h : (s.core s.cur.core).arch.ring.reserved = [] ∨ (opB s).toNat ≠ 21 ∧ (opB s).toNat ≠ 22) :
    opMvts.chk (view s) (unitTrig s 12) = stCheck (opB s).toNat := by
  simp only [opMvts, opRun, mvtsCheck, sb_eq, reserved_view]
  refine if_neg ?_
  rintro ⟨hn, hr⟩
  rcases h with h | ⟨h1, h2⟩
  · simp [h] at hr
  · exact hn.elim h1 h2

/-- A change of the task-visible state is its value on the state found. -/
theorem withArch_congr {u b : Nat} {f g : Arch → Arch} (hc : s.cur.core < 256) (h : f (s.core s.cur.core).arch = g (s.core s.cur.core).arch) :
    withArch (completes s u b) f = withArch (completes s u b) g := by
  have harch : ((completes s u b).core s.cur.core).arch = (s.core s.cur.core).arch :=
    (congrArg Core.arch (withCore_core s _ _ hc)).trans (putFlight_arch ..)
  refine withCore_congr _ _ ?_
  rw [show (completes s u b).cur = s.cur from rfl]
  simp only [harch, h]

/-- A change of the task-visible state that changes nothing. -/
theorem withArch_same {u b : Nat} {f : Arch → Arch} (h : ∀ a, f a = a) : withArch (completes s u b) f = completes s u b :=
  withCore_self _ _ (by simp only [h])

/-- MVTS writes what `writeState` says of its operands. -/
theorem exec_mvts {n : Nat} (hn : (opB s).toNat = n) (hlt : n < 24)
    (hr : s.cur.checked = true ∨ (s.core s.cur.core).arch.ring.reserved = [] ∨ n ≠ 21 ∧ n ≠ 22) :
    exec .mvts s = .next (withArch (completes s 12 1) fun a => writeState a n (opA s).toNat) := by
  subst hn
  change runOp opMvts s = _
  rw [runOp_go opMvts s (hr.imp_right fun h => (mvtsCheck_free h).trans (stCheck_go hlt))]
  simp only [opMvts, opRun, Prog.run_all_cons, Prog.run_all_nil, finish_completes, sa_eq, sb_eq]
  rfl

/-- MVTS puts one word in one state register. -/
theorem exec_mvts_setSr {n : Nat} {w : Word} (hc : s.cur.core < 256) (hlt : n < 24) (hr : n ≠ 21 ∧ n ≠ 22)
    (hw : writeState (s.core s.cur.core).arch n (opA s).toNat = (s.core s.cur.core).arch.setSr n w) (hn : (opB s).toNat = n) :
    exec .mvts s = .next (withArch (completes s 12 1) fun a => a.setSr n w) := by
  rw [exec_mvts hn hlt (.inr (.inr hr))]
  exact congrArg _ (withArch_congr hc hw)

theorem exec_pbw (h : (opB s).toNat < 32) : exec .pbw s =
    .next (withArch (completes s 12 1) fun a => { a with pb := updAt a.pb (opB s).toNat (fun _ => opA s) }) := by
  have hgo : opPbw.chk (view s) (unitTrig s 12) = .go := by
    simp only [opPbw, opRun, sb_eq, need, decide_eq_true h, if_true]
  change runOp opPbw s = _
  rw [runOp_go opPbw s (.inr hgo)]
  simp only [opPbw, opRun, Prog.run_all_cons, Prog.run_all_nil, finish_completes, sa_eq, sb_eq, info_toNat]
  rfl
end

/-! The words that MVTS writes. -/

section
variable (v old : Word)

/-- The low bits of a word, as a mask takes them. -/
theorem info_mod (n : Nat) (hn : n ≤ 64) : info (v.toNat % 2 ^ n) = v &&& BitVec.ofNat 64 (2 ^ n - 1) := by
  apply BitVec.eq_of_toNat_eq
  have hpow : 2 ^ n ≤ 2 ^ 64 := Nat.pow_le_pow_right (by decide) hn
  rw [info, BitVec.toNat_and, BitVec.toNat_ofNat, BitVec.toNat_ofNat, Nat.mod_eq_of_lt (a := 2 ^ n - 1) (by omega),
    Nat.and_two_pow_sub_one_eq_mod]
  exact Nat.mod_eq_of_lt ((Nat.mod_le _ _).trans_lt v.isLt)

theorem testBit_field (x p w i : Nat) : (field x p w).testBit i = (decide (i < w) && x.testBit (p + i)) := by
  rw [field, Nat.testBit_mod_two_pow, Nat.testBit_div_two_pow, Nat.add_comm]

theorem field_lt (x p w : Nat) : field x p w < 2 ^ w := Nat.mod_lt _ (Nat.two_pow_pos w)

/-- The writable bits of TRAPBASE: its address and its enable (R32). -/
theorem info_trapBase : info (v.toNat % 2 ^ 15 + bit v.toNat 63 * 2 ^ 63) = v &&& 0x8000000000007FFF := by
  have hlow : v.toNat % 2 ^ 15 < 2 ^ 63 := (Nat.mod_lt _ (by decide)).trans (by decide)
  have hmask : ∀ i : Fin 64, (0x8000000000007FFF : Word).getLsbD i = (decide (i.val < 15) || decide (i.val = 63)) := by decide
  have hbit : bit v.toNat 63 = field v.toNat 63 1 := rfl
  apply BitVec.eq_of_getLsbD_eq
  intro i hi
  rw [info, BitVec.getLsbD_ofNat, Nat.add_comm, Nat.mul_comm, Nat.testBit_two_pow_mul_add _ hlow, BitVec.getLsbD_and, hmask ⟨i, hi⟩,
    Nat.testBit_mod_two_pow, hbit, testBit_field, BitVec.testBit_toNat, BitVec.testBit_toNat]
  by_cases h63 : i = 63
  · simp [h63]
  · have hlt : i < 63 := by omega
    simp [hi, hlt, h63, Bool.and_comm]

theorem info_wholeKiB : info (v.toNat / 1024 * 1024) = v >>> 10 <<< 10 := by
  apply BitVec.eq_of_toNat_eq
  rw [info, BitVec.toNat_shiftLeft, BitVec.toNat_ushiftRight, Nat.shiftLeft_eq, Nat.shiftRight_eq_div_pow, BitVec.toNat_ofNat]

/-- FPSTAT by its fields. -/
theorem getLsbD_fpstat_fields {flags en rm : Nat} (hf : flags < 2 ^ 8) (he : en < 2 ^ 8) {i : Nat} (hi : i < 64) :
    (info (flags + en * 2 ^ 8 + rm * 2 ^ 16)).getLsbD i =
      if i < 8 then flags.testBit i else if i < 16 then en.testBit (i - 8) else rm.testBit (i - 16) := by
  have hsum : flags + en * 2 ^ 8 + rm * 2 ^ 16 = 2 ^ 8 * (2 ^ 8 * rm + en) + flags := by ring
  rw [info, BitVec.getLsbD_ofNat, hsum, Nat.testBit_two_pow_mul_add _ hf, Nat.testBit_two_pow_mul_add _ he, decide_eq_true hi,
    Bool.true_and]
  by_cases h8 : i < 8
  · simp only [if_pos h8]
  · have h16 : (i - 8 < 8) = (i < 16) := propext (by omega)
    simp only [if_neg h8, h16, Nat.sub_sub]

/-- RM changes to a legal code alone (R32). -/
theorem fpstatRm_eq : (if field v.toNat 16 3 < 4 then field v.toNat 16 3 else field old.toNat 16 3) =
    field (if v.getLsbD 18 then old else v).toNat 16 3 := by
  have htop : v.getLsbD 18 = (field v.toNat 16 3).testBit 2 := by
    rw [testBit_field, ← BitVec.testBit_toNat]
    rfl
  have hlt := field_lt v.toNat 16 3
  rw [htop, Nat.testBit_eq_decide_div_mod_eq]
  by_cases h : field v.toNat 16 3 < 4
  · have hz : ¬ field v.toNat 16 3 / 2 ^ 2 % 2 = 1 := by omega
    rw [if_pos h, decide_eq_false hz]
    rfl
  · have ho : field v.toNat 16 3 / 2 ^ 2 % 2 = 1 := by omega
    rw [if_neg h, decide_eq_true ho]
    rfl

theorem getLsbD_fpstat {i : Nat} (hi : i < 64) : (info (writeFpstat old.toNat v.toNat)).getLsbD i =
    if i < 5 then old.getLsbD i && !v.getLsbD i
    else if 8 ≤ i ∧ i < 13 then v.getLsbD i
    else if 16 ≤ i ∧ i < 19 then (if v.getLsbD 18 then old.getLsbD i else v.getLsbD i) else false := by
  have hflags : field old.toNat 0 5 &&& (31 - field v.toNat 0 5) < 2 ^ 8 :=
    Nat.and_lt_two_pow _ (by omega)
  have hkept : (31 - field v.toNat 0 5).testBit i = (decide (i < 5) && !v.getLsbD i) := by
    rw [show 31 - field v.toNat 0 5 = 2 ^ 5 - (field v.toNat 0 5 + 1) by omega, Nat.testBit_two_pow_sub_succ (field_lt ..),
      testBit_field, BitVec.testBit_toNat, Nat.zero_add]
    cases decide (i < 5) <;> rfl
  simp only [writeFpstat, fpstatRm_eq]
  rw [getLsbD_fpstat_fields hflags ((field_lt ..).trans (by decide)) hi, Nat.testBit_and, hkept]
  simp only [testBit_field, BitVec.testBit_toNat]
  by_cases h8 : i < 8
  · have h16 : ¬ 16 ≤ i := by omega
    have hno : ¬ 8 ≤ i := by omega
    by_cases h5 : i < 5 <;> simp [h8, h16, hno, h5]
  · have h5 : ¬ i < 5 := by omega
    by_cases h16 : i < 16
    · have hin : i - 8 < 5 ↔ i < 13 := by omega
      have hadd : 8 + (i - 8) = i := by omega
      have hno : ¬ 16 ≤ i := by omega
      by_cases h13 : i < 13 <;> simp [h5, h8, h16, hno, hin, h13, hadd, Nat.le_of_not_lt h8]
    · have hin : i - 16 < 3 ↔ i < 19 := by omega
      have hadd : 16 + (i - 16) = i := by omega
      have h13 : ¬ i < 13 := by omega
      by_cases h19 : i < 19 <;> cases hv : v.getLsbD 18 <;> simp [h5, h8, h16, hin, h13, h19, hadd, Nat.le_of_not_lt h16]
end

/-- Settles O15: MVTS is `writeState` of its operands, register by register. -/
theorem stateRegistersAndParameterWords : Obligations.StateRegistersAndParameterWords := by
  unfold Obligations.StateRegistersAndParameterWords
  intro s hc c a v n writes
  have same : ∀ {x : Nat} {y z : Word}, y = z → a.setSr x y = a.setSr x z := fun h => by rw [h]
  refine ⟨fun h => exec_mvst h, fun h => exec_pbw h, ?_, ?_, ?_, ?_, ?_, ?_, ?_, ?_, ?_, ?_, ?_, ?_, ?_, fun hr => ?_, fun hn => ?_,
    fun hu hn => ⟨?_, ?_⟩, fun hu hn => ?_⟩
  · exact exec_mvts_setSr hc (by decide) (by decide) (same (info_trapBase v))
  · exact exec_mvts_setSr hc (by decide) (by decide) (same (info_toNat v))
  · exact exec_mvts_setSr hc (by decide) (by decide) (same (info_toNat v))
  · exact exec_mvts_setSr hc (by decide) (by decide) (same (info_wholeKiB v))
  · exact exec_mvts_setSr hc (by decide) (by decide) (same (info_mod v 5 (by decide)))
  · exact exec_mvts_setSr hc (by decide) (by decide) (same (info_mod v 3 (by decide)))
  · exact exec_mvts_setSr hc (by decide) (by decide) (same (info_toNat v))
  · exact exec_mvts_setSr hc (by decide) (by decide) (same (info_toNat v))
  · exact exec_mvts_setSr hc (by decide) (by decide) (same (info_toNat v))
  · exact exec_mvts_setSr hc (by decide) (by decide) (same (info_mod v 48 (by decide)))
  · exact exec_mvts_setSr hc (by decide) (by decide) (same (info_mod v 48 (by decide)))
  · exact exec_mvts_setSr hc (by decide) (by decide) (same (info_mod v 4 (by decide)))
  · exact ⟨_, exec_mvts_setSr hc (by decide) (by decide) rfl, fun i hi => getLsbD_fpstat v _ hi⟩
  · intro m size base emptied
    have hm : a.crSize = m := by simp [Arch.crSize, field, m]
    refine ⟨fun hn => ?_, fun hn => ?_⟩
    · refine (exec_mvts hn (by decide) (hr.imp_right .inl)).trans (congrArg _ (withArch_congr hc ?_))
      rw [← hm]
      rfl
    · refine (exec_mvts hn (by decide) (hr.imp_right .inl)).trans (congrArg _ (withArch_congr hc ?_))
      simp only [size, ← hm]
      rfl
  · simp only [List.mem_cons, List.not_mem_nil, or_false] at hn
    have hkeep : ∀ b : Arch, writeState b n v.toNat = b := fun b => by
      rcases hn with h | h | h | h | h | h | h | h | h <;> rw [h] <;> rfl
    rw [exec_mvts rfl (by omega) (.inr (.inr (by omega))), withArch_same hkeep]
  · refine runOp_bad opMvst s 0x03 _ hu ?_ (by decide)
    simp only [opMvst, opRun, sb_eq]
    rw [stCheck_bad hn, info_toNat]
  · refine runOp_bad opMvts s 0x03 _ hu ?_ (by decide)
    refine (mvtsCheck_free (.inr ?_)).trans ((stCheck_bad hn).trans (by rw [info_toNat]))
    change n ≠ 21 ∧ n ≠ 22
    omega
  · refine runOp_bad opPbw s 0x09 _ hu ?_ (by decide)
    simp only [opPbw, opRun, sb_eq, need, info_toNat]
    exact if_neg (by simpa using hn)

/-- A frame starts a curry slot from frame 3 on, unless its number is 1 or 2 modulo 256 (R331). -/
def StartsSlot (f : Nat) : Prop := 3 ≤ f ∧ (f % 256 = 0 ∨ 3 ≤ f % 256)

theorem frameSlot_isSome (f : Nat) : (frameSlot f).isSome = true ↔ StartsSlot f := by
  unfold frameSlot StartsSlot
  split
  · simp; omega
  · split
    · simp; omega
    · split
      · simp; omega
      · simp; omega

theorem frameSlot_of_starts {f : Nat} (h : StartsSlot f) : frameSlot f = some (if f % 256 = 0 then (25000, 1) else (960, 0)) := by
  obtain ⟨h3, h256⟩ := h
  rw [frameSlot, if_neg (by omega)]
  split
  · rfl
  · rw [if_neg (by omega)]

/-- The slot after a package time is that of the first frame still to come that starts one; there is one among any four (R89, R335). -/
theorem slotAfter_first (time : Nat) : ∃ f, StartsSlot f ∧ time < 9728 * f ∧ (∀ g, StartsSlot g → time < 9728 * g → f ≤ g) ∧
    slotAfter time = (f, 9728 * f, if f % 256 = 0 then (25000, 1) else (960, 0)) := by
  simp only [slotAfter, frameCycles]
  cases hfind : (List.range 4).find? (fun i => (frameSlot (time / 9728 + 1 + i)).isSome) with
  | none =>
    have hno : ∀ i, i < 4 → ¬ StartsSlot (time / 9728 + 1 + i) := fun i hi hs => by
      have hi' := List.find?_range_eq_none.1 hfind i hi
      simp [(frameSlot_isSome _).2 hs] at hi'
    have h0 := hno 0 (by decide)
    have h2 := hno 2 (by decide)
    have h3 := hno 3 (by decide)
    unfold StartsSlot at h0 h2 h3
    omega
  | some i =>
    obtain ⟨hi, -, hbelow⟩ := List.find?_range_eq_some.1 hfind
    have hs := (frameSlot_isSome _).1 hi
    refine ⟨_, hs, by omega, fun g hg ht => ?_, ?_⟩
    · by_contra hlt
      have hj := hbelow (g - (time / 9728 + 1)) (by omega)
      rw [show time / 9728 + 1 + (g - (time / 9728 + 1)) = g by omega, (frameSlot_isSome g).2 hg] at hj
      cases hj
    · simp only [frameSlot_of_starts hs]

/-- Settles O17. -/
theorem nextCurrySlot : Obligations.NextCurrySlot := by
  unfold Obligations.NextCurrySlot
  intro s starts
  obtain ⟨f, hf, ht, hfirst, hslot⟩ := slotAfter_first s.cur.t0
  refine ⟨⟨f, hf, ht, hfirst, ?_, fun hb => ?_⟩, fun hb hu => ?_⟩
  · change runOp opCurqStart s = _
    rw [runOp_go opCurqStart s (.inr rfl)]
    simp only [opCurqStart, opRun, hslot]
    rw [land_run, wide_eq]
    rfl
  · have hgo : opCurqDesc.chk (view s) (unitTrig s 12) = .go := by
      simp only [opCurqDesc, opRun, sb_eq, hb]
      rfl
    change runOp opCurqDesc s = _
    rw [runOp_go opCurqDesc s (.inr hgo)]
    simp only [opCurqDesc, opRun, hslot]
    rw [land_run, wide_eq]
    by_cases h : f % 256 = 0
    · simp only [if_pos h]
      rfl
    · simp only [if_neg h]
      rfl
  · have hne : ¬ (opB s).toNat = 1 := fun h => hb (BitVec.eq_of_toNat_eq h)
    refine runOp_bad opCurqDesc s 0x03 _ hu ?_ (by decide)
    simp only [opCurqDesc, opRun, sb_eq, need, info_toNat]
    exact if_neg (by simpa using hne)

end Sys2Proof.Proofs


/-! PROOFS. Groups, launches, returns and logs, unit SY (O18). -/

namespace Sys2Proof.Proofs
open Sys2Proof Sys2Proof.Machine Sys2Proof.Safety

section
variable (s : State)

/-- An operation sees its core's and the engines' queues as they are. -/
theorem pathsDone_view (c : Nat) (mask : BitVec 8) (seq : Nat) : pathsDone (view s) c mask seq = pathsDone s c mask seq := by
  have hcap : ∀ p, captureBusy ((view s).core c) p seq = captureBusy (s.core c) p seq := fun p =>
    view_part (fun k => captureBusy k p seq) (fun _ _ _ _ => rfl) s c
  have hqueued : ∀ p, queuedBusy (view s) (ctxId (view s) c) p seq = queuedBusy s (ctxId s c) p seq := fun p => by
    simp only [queuedBusy, ctxId, view_core_ctx, view_core_chans, view_lanes, view_hbm, view_engines, view_core_fxQ, view_dies] <;> rfl
  simp only [pathsDone, engineBusy, hcap, hqueued, view_core_accesses, view_core_maQ, view_core_flights]

theorem covers_view (u : Nat) : (unitTrig s u).covers (view s) = s.cur.covers s := by
  simp only [Trig.covers, view_core_trigSeq]

theorem mustDefer_view (u : Nat) (h : (s.core s.cur.core).seg = none) : mustDefer (view s) (unitTrig s u) = false := by
  simp only [mustDefer, view_core_seg, h]
  rfl

/-- A launch with one region changed. -/
def inRegion (r : RegionRef) (f : Region → Region) (l : Launch) : Launch :=
  if l.id = r.launch then { l with regions := l.regions.mapIdx fun i x => if i = r.idx then f x else x } else l

theorem inRegion_id (r : RegionRef) (f : Region → Region) (l : Launch) : (inRegion r f l).id = l.id := by
  unfold inRegion
  split <;> rfl

/-- A change of a region, seen from the region. -/
theorem regionOf_setRegion (r : RegionRef) (f : Region → Region) : regionOf ((setRegion r f).run s) r = (regionOf s r).map f := by
  have hlaunch : launchOf ((setRegion r f).run s) r = (launchOf s r).map (inRegion r f) := by
    change List.find? _ (List.map (inRegion r f) s.disp.launches) = _
    simp only [List.find?_map, Function.comp_def, inRegion_id, launchOf]
  rw [regionOf, hlaunch, regionOf]
  cases hl : launchOf s r with
  | none => rfl
  | some l =>
    have hid : l.id = r.launch := of_decide_eq_true (List.find?_some (p := fun m : Launch => decide (m.id = r.launch)) hl)
    simp [inRegion, hid, List.getElem?_mapIdx]

theorem land_lands (u b n : Nat) : (land (unitTrig s u) b (wide n) []).run s = landsWord s u b (BitVec.ofNat 64 n) := by
  rw [land_run, wide_eq]
  rfl

section
variable {s} {x : Ctx} {r : Region}

/-- GRPINC past the greatest count lands all ones (R92). -/
theorem exec_grpinc_full (hx : (s.core s.cur.core).ctx = some x) (hr : regionOf s x.ref = some r)
    (hg : (s.core s.cur.core).seg = none) (hn : 2 ^ 32 ≤ r.g + (opB s).toNat % 2 ^ 32) :
    exec .grpinc s = .next (landsWord s 12 40 (BitVec.allOnes 64)) := by
  have hr' : regionOf (view s) x.ref = some r := hr
  change runOp opGrpinc s = _
  rw [runOp_go opGrpinc s (.inr rfl)]
  simp only [opGrpinc, opRun, mustDefer_view s 12 hg, view_core_ctx, hx, hr', sb_eq, Option.map_some, Option.getD_some,
    Bool.false_eq_true, if_false]
  rw [if_pos (by omega), land_lands]
  rfl

/-- GRPINC adds to the group count of its task's region (R90, R92). -/
theorem exec_grpinc_adds (hx : (s.core s.cur.core).ctx = some x) (hr : regionOf s x.ref = some r)
    (hg : (s.core s.cur.core).seg = none) (hn : r.g + (opB s).toNat % 2 ^ 32 < 2 ^ 32) :
    ∃ t, exec .grpinc s = .next t ∧
      QueuesOnly ((setRegion x.ref fun r => { r with g := r.g + (opB s).toNat % 2 ^ 32 }).run (landsWord s 12 40 (BitVec.ofNat 64 r.g))) t := by
  have hr' : regionOf (view s) x.ref = some r := hr
  refine ⟨_, runOp_go opGrpinc s (.inr rfl), ?_⟩
  simp only [opGrpinc, opRun, mustDefer_view s 12 hg, view_core_ctx, hx, hr', sb_eq, Option.map_some, Option.getD_some,
    Bool.false_eq_true, if_false]
  rw [if_neg (by omega)]
  simp only [Prog.run_all_cons, Prog.run_all_nil, land_lands]
  exact queuesOnly_frame.when _ (queuesOnly_frame.andThen (queuesOnly_kickQueue _)
    (queuesOnly_frame.andThen (queuesOnly_postEv _ _ _) queuesOnly_frame.done)) _
end

/-- A launch that enters its queue stands last in the dispatcher's list, with the queue's next sequence value (R103). -/
theorem enqueue_run (q root : Nat) (from_ : Option RegionRef) : let t := (enqueue q root from_).run s
    t.cores = s.cores ∧ t.disp.launches = s.disp.launches ++
      [⟨s.disp.nextLaunch, q, (s.queue q).nextSeq, root, from_, .queued, false, false, false, []⟩] ∧
    t.queue q = { s.queue q with nextSeq := (s.queue q).nextSeq + 1 } ∧ t.lmem = s.lmem ∧ t.mem = s.mem ∧ t.ctrs = s.ctrs := by
  refine ⟨rfl, rfl, ?_, rfl, rfl, rfl⟩
  simp [enqueue, setQueue, State.queue, Eff.apply]

section
variable {s} (h : admitted .launch s) (hg : (s.core s.cur.core).seg = none)
  (hd : pathsDone s s.cur.core 7 (s.cur.covers s) = true)
include h hg hd

/-- LAUNCH, its checks passed and its task's accesses performed. -/
theorem exec_launch : exec .launch s = .next
    ((if queuedCount s (opB s).toNat ≥ 2 ^ (s.queue (opB s).toNat).log2n then land (unitTrig s 12) 60 0 []
      else Prog.all [land (unitTrig s 12) 60 (wide (s.queue (opB s).toNat).nextSeq) [],
        enqueue (opB s).toNat ((opA s).toNat % 2 ^ 48) ((s.core s.cur.core).ctx.map (·.ref))]).run s) := by
  have hcovered : launchCovered (view s) (unitTrig s 12) = true := by rw [launchCovered, pathsDone_view, covers_view, hd]
  change runOp opLaunch s = _
  rw [runOp_go opLaunch s (admitted_go h rfl)]
  simp only [opLaunch, opRun, mustDefer_view s 12 hg, hcovered, view_core_ctx, sa_eq, sb_eq, Bool.not_true, Bool.false_eq_true, if_false]
  rfl

theorem exec_launch_full (hn : 2 ^ (s.queue (opB s).toNat).log2n ≤ queuedCount s (opB s).toNat) :
    exec .launch s = .next (landsWord s 12 60 0) := by
  have hzero : (0 : Vec) = wide 0 := by rw [wide_eq, BitVec.ofNat_eq_ofNat, BitVec.setWidth_zero]
  rw [exec_launch h hg hd, if_pos hn, hzero, land_lands, BitVec.ofNat_eq_ofNat]

theorem exec_launch_enters (hn : ¬ 2 ^ (s.queue (opB s).toNat).log2n ≤ queuedCount s (opB s).toNat) :
    exec .launch s = .next ((enqueue (opB s).toNat ((opA s).toNat % 2 ^ 48) ((s.core s.cur.core).ctx.map (·.ref))).run
      (landsWord s 12 60 (BitVec.ofNat 64 (s.queue (opB s).toNat).nextSeq))) := by
  rw [exec_launch h hg hd, if_neg hn]
  simp only [Prog.run_all_cons, Prog.run_all_nil, land_lands]
end

/-- A word with its lowest bit cleared. -/
theorem setBits_zero (w : Word) : setBits w 0 1 0 = w &&& ~~~1 := by
  refine BitVec.eq_of_getLsbD_eq fun i hi => ?_
  have h := getLsbD_setBits_bool w false (by decide : 0 < 64) i
  rw [Bool.toNat_false] at h
  rw [h, BitVec.getLsbD_and, BitVec.getLsbD_not]
  split <;> simp_all

theorem quiet_view (d : Nat) : ((view s).core d).quiet = (s.core d).quiet := view_part (·.quiet) (fun _ _ _ _ => rfl) s d

/-- A return from a trap handler (R37, R93). -/
theorem returnFromTrap_run (c : Nat) : (returnFromTrap c).run s = refetching (withCore s c fun k => { k with
    flow := .running, pc := (k.arch.sr 3).toNat, arch := k.arch.setSr 0 (k.arch.sr 0 &&& ~~~1) }) c 0 := by
  have hpc : ∀ w : Word, w.toNat % 2 ^ 64 = w.toNat := fun w => Nat.mod_eq_of_lt w.isLt
  have htrap : ∀ a : Arch, a.setInTrap false = a.setSr 0 (a.sr 0 &&& ~~~1) := fun a => congrArg (a.setSr 0) (setBits_zero _)
  simp only [returnFromTrap, Prog.run_all_cons, Prog.run_all_nil, setCore_run, nextFetch_refetching, hpc, htrap]
  rfl

theorem exec_eret_first {s : State} (h : admitted .eret s) (h0 : s.cur.stage = 0) :
    exec .eret s = .next (again (withCore s s.cur.core fun k => { k with flow := .returning }) 12 1) := by
  change runOp opEret s = _
  rw [runOp_go opEret s (admitted_go h rfl)]
  simp only [opEret, opRun, h0, if_true, Prog.run_all_cons, Prog.run_all_nil, setCore_run, postOp_run]
  simp [Eff.apply, again, withCore]

theorem exec_eret_again {s : State} (h : admitted .eret s) (h1 : s.cur.stage ≠ 0) (hf : (s.core s.cur.core).flow = .returning)
    (hq : (s.core s.cur.core).quiet = true) : exec .eret s = .next ((returnFromTrap s.cur.core).run s) := by
  change runOp opEret s = _
  rw [runOp_go opEret s (admitted_go h rfl)]
  simp only [opEret, opRun, if_neg h1, view_core_flow, hf, quiet_view, hq, bne_self_eq_false, Bool.not_true, Bool.false_eq_true, if_false]

/-- A context whose region neither records nor replays decides without a log (R434). -/
theorem ruling_off {x : Ctx} (h : rrMode s x = 0) (d kind object winner : Nat) (mine : Bool) :
    ruling s x d kind object winner mine = .go false none := by
  simp only [ruling, h]

theorem rlogCheck_off (h : ∀ x, (s.core s.cur.core).ctx = some x → rrMode s x = 0) : opRlog.chk (view s) (unitTrig s 12) = .go := by
  simp only [opRlog, opRun, rlogCheck, markerMet, view_core_ctx]
  cases hx : (s.core s.cur.core).ctx with
  | none => rfl
  | some x =>
    have hoff : rrMode (view s) x = 0 := h x hx
    simp only [Option.bind_some, ruling_off (view s) hoff]

theorem exec_rlog {s : State} (h0 : s.cur.stage = 0) (h : ∀ x, (s.core s.cur.core).ctx = some x → rrMode s x = 0) :
    exec .rlog s = .next (landsWord s 12 8 ((opB s).setWidth 32 |>.setWidth 64)) := by
  have hv : BitVec.ofNat 64 ((opB s).toNat % 2 ^ 32) = ((opB s).setWidth 32).setWidth 64 :=
    BitVec.eq_of_toNat_eq (by simp)
  change runOp opRlog s = _
  rw [runOp_go opRlog s (.inr (rlogCheck_off s h))]
  simp only [opRlog, opRun, view_core_ctx, sb_eq, h0]
  cases hx : (s.core s.cur.core).ctx with
  | none => exact congrArg _ ((land_lands s 12 8 _).trans (by rw [hv]))
  | some x =>
    have hoff : rrMode (view s) x = 0 := h x hx
    simp only [hoff, if_true]
    exact congrArg _ ((land_lands s 12 8 _).trans (by rw [hv]))
end

/-- Settles O18. -/
theorem groupsLaunchesReturnsAndLogs : Obligations.GroupsLaunchesReturnsAndLogs := by
  unfold Obligations.GroupsLaunchesReturnsAndLogs
  intro s hc c k b
  refine ⟨fun x r hx hr hg => ⟨exec_grpinc_full hx hr hg, fun hn => ?_⟩, fun h hg hd => ⟨fun hn => ?_, fun hn => ?_⟩,
    exec_eret_first, fun h h1 hf hq => ?_, fun hu ht => ?_, exec_rlog⟩
  · obtain ⟨t, ht, a, l, e, rfl⟩ := exec_grpinc_adds hx hr hg hn
    refine ⟨_, ht, rfl, ?_, rfl, rfl, rfl⟩
    have hland : regionOf (landsWord s 12 40 (BitVec.ofNat 64 r.g)) x.ref = some r := hr
    exact (regionOf_setRegion _ x.ref _).trans (by rw [hland]; rfl)
  · exact exec_launch_full h hg hd (of_decide_eq_true hn)
  · exact ⟨_, exec_launch_enters h hg hd (of_decide_eq_false hn), enqueue_run _ _ _ _⟩
  · refine ⟨_, exec_eret_again h h1 hf hq, ?_⟩
    rw [returnFromTrap_run]
    exact ⟨withCore_core _ _ _ hc, fun d hd => withCore_core_ne _ _ _ hd, rfl, rfl⟩
  · refine runOp_bad opEret s 0x03 _ hu ?_ (by decide)
    have hin : ((view s).core s.cur.core).arch.inTrap = false := by rw [Arch.inTrap, view_sr]; exact ht
    simp only [opEret, opRun, eretCheck, need, hin, Bool.false_eq_true, if_false]
    rfl

end Sys2Proof.Proofs


/-! PROOFS. Loads, stores and atomics, units LS and CT (O8): what a check says, and what is queued. -/

namespace Sys2Proof.Proofs
open Sys2Proof Sys2Proof.Machine Sys2Proof.Safety

/-! Loads, stores and atomics whose checks have passed. -/

section
variable (s : State)

/-- The address of an LS access is the sum in 64 bits (R73). -/
theorem lsAddr_eq (u : Nat) : lsAddr (unitTrig s u) = (opA s + opB s).toNat := by
  rw [lsAddr, sa_eq, sb_eq, BitVec.toNat_add]

variable {s} {i : Instr} {sp : Space} {n : Nat}

theorem exec_lsLoad {signed : Bool} (he : exec i s = runOp (lsLoad sp n signed) s) (ho : opOf i = some (lsLoad sp n signed))
    (h : admitted i s) : let b := loadBound (sClass sp (opA s + opB s).toNat n)
    exec i s = .next (withAccess (withFlight s { flying s 9 b with ready := false }) pathS 9 (.load n signed [])
      (piecesFrom 0 (sHomes (view s) s.cur.core sp false false (opA s + opB s).toNat n)) (b - 1)) := by
  rw [he, runOp_go _ s (admitted_go h ho)]
  simp only [lsLoad, opRun, Prog.run_all_cons, Prog.run_all_nil, lsAddr_eq, await_run]
  exact congrArg _ (queueAccess_run (withFlight s _) ..)

theorem exec_lsStore (he : exec i s = runOp (lsStore sp n) s) (ho : opOf i = some (lsStore sp n)) (h : admitted i s) :
    exec i s = .next (withAccess (completes s 9 1) pathS 9 (.store s.cur.c)
      (piecesFrom 0 (sHomes (view s) s.cur.core sp true false (opA s + opB s).toNat n)) storeWait) := by
  rw [he, runOp_go _ s (admitted_go h ho)]
  simp only [lsStore, opRun, Prog.run_all_cons, Prog.run_all_nil, lsAddr_eq, finish_completes]
  exact congrArg _ (queueAccess_run (completes s 9 1) ..)

/-- Where no reduction window is registered an atomic acts on memory (R432). -/
theorem exec_ctAtomic {dbl : Bool} {op : Amo} (he : exec i s = runOp (ctAtomic sp dbl op) s)
    (ho : opOf i = some (ctAtomic sp dbl op)) (h : admitted i s) (hw : s.pkg.windows = []) :
    let m := if dbl then 8 else 4
    let b := amoBound (sClass sp (opA s).toNat m)
    exec i s = .next (withAccess (withFlight s { flying s 11 b with ready := false }) pathS 11 (.amo op (opB s) (opC s))
      (piecesFrom 0 (sHomes (view s) s.cur.core sp true true (opA s).toNat m)) (b - 1)) := by
  have hnone : ∀ c a o t, atomicWindow (view s) c a o t = none := fun c a o t => by
    rw [atomicWindow, view_pkg, hw]
    rfl
  rw [he, runOp_go _ s (admitted_go h ho)]
  simp only [ctAtomic, opRun, Prog.run_all_cons, Prog.run_all_nil, sa_eq, sb_eq, sc_eq, info_toNat, await_run, hnone, ite_self]
  cases op.windowOp <;> exact congrArg _ (queueAccess_run (withFlight s _) ..)
end

/-! The verdicts of the checks of an S access (R75). -/

/-- A verdict that lets its operation issue or faults: nothing is waited for. -/
def Final (v : Verdict) : Prop := v = .go ∨ ∃ code i, v = .bad code i

theorem bad_and_final {v : Verdict} (h : Final v) (code : Nat) (i : Word) : (Verdict.bad code i).and v = .bad code i := by
  rcases h with rfl | ⟨_, _, rfl⟩ <;> rfl

theorem final_expandCheck (s : State) (l : List (Loc × Nat × Nat)) (a : Nat) : Final (expandCheck s l a) := by
  unfold expandCheck
  split
  · split
    · exact .inr ⟨_, _, rfl⟩
    · exact .inr ⟨_, _, rfl⟩
    · exact .inl rfl
  · exact .inl rfl

section
variable {s : State} {c path : Nat} {write amo : Bool} {a n : Nat}

theorem final_accessCheck_ok {glob : Bool} {l : List (Loc × Nat × Nat)} (h : coreAccess s c path glob write amo a n = .ok l) :
    Final (accessCheck s c path glob write amo a n) := by
  simp only [accessCheck, h]
  split
  · exact .inl rfl
  · exact final_expandCheck ..

/-- A local access waits for nothing. -/
theorem final_accessCheck_local : Final (accessCheck s c path false write amo a n) := by
  cases h : localHome s c path write (spadLimit s c) a n with
  | error e =>
    refine .inr ⟨e, info a, ?_⟩
    simp [accessCheck, coreAccess, h]
  | ok l => exact final_accessCheck_ok (l := [(l, 0, n)]) (by simp [coreAccess, h])

theorem accessCheck_error {glob : Bool} {v : Verdict} (h : coreAccess s c path glob write amo a n = .error v) :
    accessCheck s c path glob write amo a n = v := by
  simp only [accessCheck, h]

theorem fenceCheck_free (h : (s.core c).fences = []) : fenceCheck s c path = .go := by simp [fenceCheck, fenceHold, h]

variable {sp : Space} (hf : (s.core c).fences = [])
include hf

/-- A misaligned access that waits for nothing is the fault 0x08 (R75). -/
theorem sCheck_misaligned (ha : a % n ≠ 0) (hcalm : sp = .glob → ∃ l, coreAccess s c pathS true write amo a n = .ok l) :
    sCheck s c sp write amo a n = .bad 0x08 (info a) := by
  have hneed : need (decide (a % n = 0)) 0x08 a = .bad 0x08 (info a) := by simp [need, ha]
  rw [sCheck, fenceCheck_free hf, hneed]
  refine bad_and_final ?_ _ _
  cases sp with
  | loc => exact final_accessCheck_local
  | glob =>
    obtain ⟨l, hl⟩ := hcalm rfl
    exact final_accessCheck_ok hl
  | smem =>
    by_cases hend : a + n ≤ 0x40000
    · simp only [spaceAddr, if_pos hend]
      exact final_accessCheck_local
    · simp only [spaceAddr, if_neg hend]
      exact .inr ⟨_, _, rfl⟩

/-- An aligned access is checked at its place (R73, R75). -/
theorem sCheck_at {g : Bool} {x : Nat} (ha : a % n = 0) (hs : spaceAddr sp a n = some (g, x)) :
    sCheck s c sp write amo a n = accessCheck s c pathS g write amo x n := by
  have hneed : need (decide (a % n = 0)) 0x08 a = .go := by simp [need, ha]
  rw [sCheck, fenceCheck_free hf, hneed, hs]
  rfl

theorem sCheck_nowhere (ha : a % n = 0) (hs : spaceAddr sp a n = none) : sCheck s c sp write amo a n = .bad 0x09 (info a) := by
  have hneed : need (decide (a % n = 0)) 0x08 a = .go := by simp [need, ha]
  rw [sCheck, fenceCheck_free hf, hneed, hs]
  rfl

theorem sCheck_loc_bad {e : Nat} (ha : a % n = 0) (h : localHome s c pathS write (spadLimit s c) a n = .error e) :
    sCheck s c .loc write amo a n = .bad e (info a) := by
  rw [sCheck_at hf ha rfl]
  exact accessCheck_error (by simp [coreAccess, h])
end

/-- The sizes of a scalar. -/
theorem size_cases {n : Nat} (hn : n ∈ [1, 2, 4, 8]) : n = 1 ∨ n = 2 ∨ n = 4 ∨ n = 8 := by simpa using hn

/-! The homes that R241 does not give. -/

section
variable {s : State} {c lim a n : Nat} {write : Bool}

theorem localHome_past_limit (h : lim < a + n) (h4 : a + n ≤ 0x400000) : localHome s c pathS write lim a n = .error 0x09 := by
  rw [localHome, if_pos h4, if_pos h]

theorem localHome_past_space (h : 0x1000000 < a + n) : localHome s c pathS write lim a n = .error 0x09 := by
  rw [localHome, if_neg (by omega), if_neg (by omega), if_neg (by omega), if_neg (by omega), if_neg (by omega)]

theorem localHome_parameters (h : 0x480000 ≤ a ∧ a + n ≤ 0x480100) : localHome s c pathS true lim a n = .error 0x0B := by
  rw [localHome, if_neg (by omega), if_neg (by omega), if_pos h]
  rfl

theorem localHome_empty_slot (hn : n ∈ [1, 2, 4, 8]) (ha : a % n = 0) (h : 0x800000 ≤ a ∧ a + n ≤ 0x1000000)
    (hs : nth (s.core c).arch.slots ((a - 0x800000) / 0x100000) none = none) :
    localHome s c pathS write lim a n = .error 0x0C := by
  have hfits : ¬ a % 0x100000 + n > 0x100000 := by
    rcases size_cases hn with rfl | rfl | rfl | rfl <;> omega
  rw [localHome, if_neg (by omega), if_neg (by omega), if_neg (by omega), if_neg (by omega), if_pos h]
  simp only [if_neg hfits, hs]
end

/-- An aligned scalar lies in one line. -/
theorem lineRuns_aligned {a n : Nat} (hn : n ∈ [1, 2, 4, 8]) (ha : a % n = 0) : lineRuns a n = [(0, n)] := by
  have hrange : List.range (n / 64 + 2) = [0, 1] := by
    rcases size_cases hn with rfl | rfl | rfl | rfl <;> rfl
  have hline : a + n ≤ (a / 64 + 1) * 64 := by
    rcases size_cases hn with rfl | rfl | rfl | rfl <;> omega
  have hpos : 0 < n := by
    rcases size_cases hn with rfl | rfl | rfl | rfl <;> decide
  simp only [lineRuns, hrange, List.filterMap_cons, List.filterMap_nil, if_true, Nat.add_zero, Nat.min_eq_left hline,
    Nat.lt_add_of_pos_right hpos, Nat.sub_self, Nat.add_sub_cancel_left, Nat.one_ne_zero, if_false]
  rw [if_neg (by omega)]

section
variable {s : State} {c path : Nat} {write amo : Bool} {a n : Nat}

theorem coreAccess_past (hd : s.pkg.draining = false) (h : 2 ^ 48 < a + n) :
    coreAccess s c path true write amo a n = .error (.bad 0x0A (info a)) := by
  simp only [coreAccess, hd, Bool.not_true, Bool.false_eq_true, if_false]
  exact if_pos h

variable (hd : s.pkg.draining = false) (hl : lineRuns a n = [(0, n)])
include hd hl

theorem coreAccess_unwalked (hp : tlbHit s c a = none) (hw : walkFailed (s.core c) a = true) :
    coreAccess s c path true write amo a n = .error (.bad 0x0A (info a)) := by
  simp [coreAccess, hd, hl, hp, hw]

theorem coreAccess_unpopulated {e : TlbEntry} (hp : tlbHit s c a = some e) (hpa : paThrough s e.pte.toNat e.large a = none) :
    coreAccess s c path true write amo a n = .error (.bad 0x0A (info a)) := by
  simp [coreAccess, hd, hl, hp, hpa]

theorem coreAccess_denied {e : TlbEntry} {pa : Nat} (h48 : a + n ≤ 2 ^ 48) (hp : tlbHit s c a = some e) (hpa : paThrough s e.pte.toNat e.large a = some pa)
    (hperm : pagePermits e.pte.toNat (((s.core c).ctx.map (·.domain)).getD 0) (!write || amo) (write || amo) amo = false) :
    coreAccess s c path true write amo a n = .error (.bad 0x0B (info a)) := by
  simp only [coreAccess, hd, hl, hp, hpa, hperm, List.foldr_cons, List.foldr_nil, Nat.add_zero, Bool.not_true, Bool.false_eq_true,
    if_false]
  exact if_neg (Nat.not_lt.2 h48)
end

/-! The precise faults of LS and CT. -/

section
variable {s : State} {i : Instr} {sp : Space} {n code : Nat}

/-- The fault of a unit that names no tiles. -/
theorem runOp_faults {o : Op} {x : Word} (hu : s.cur.checked = false) (hunit : o.unit = 9 ∨ o.unit = 11) (hcode : code ≠ 0x20)
    (h : o.chk (view s) (unitTrig s o.unit) = .bad code x) : runOp o s = .next (faults s code x) := by
  have htile : tileFault (unitTrig s o.unit) code = false := by
    rcases hunit with h | h <;> simp [tileFault, h]
  rw [runOp_bad o s code x hu h hcode, htile]

theorem lsLoad_faults {signed : Bool} (hu : s.cur.checked = false) (hcode : code ≠ 0x20)
    (h : sCheck (view s) s.cur.core sp false false (opA s + opB s).toNat n = .bad code (opA s + opB s)) :
    runOp (lsLoad sp n signed) s = .next (faults s code (opA s + opB s)) := by
  refine runOp_faults hu (.inl rfl) hcode ?_
  simp only [lsLoad, opRun, lsAddr_eq]
  exact h

theorem lsStore_faults (hu : s.cur.checked = false) (hcode : code ≠ 0x20)
    (h : sCheck (view s) s.cur.core sp true false (opA s + opB s).toNat n = .bad code (opA s + opB s)) :
    runOp (lsStore sp n) s = .next (faults s code (opA s + opB s)) := by
  refine runOp_faults hu (.inl rfl) hcode ?_
  simp only [lsStore, opRun, lsAddr_eq]
  exact h

theorem ctAtomic_faults {dbl : Bool} {op : Amo} (hu : s.cur.checked = false) (hcode : code ≠ 0x20)
    (h : sCheck (view s) s.cur.core sp true true (opA s).toNat (if dbl then 8 else 4) = .bad code (opA s)) :
    runOp (ctAtomic sp dbl op) s = .next (faults s code (opA s)) := by
  refine runOp_faults hu (.inr rfl) hcode ?_
  simp only [ctAtomic, opRun, sa_eq]
  rw [h]
  rfl

/-- A condition under which every aligned scalar access faults makes each load and store fault. -/
theorem ls_faults {when_ : Bool → Nat → Prop} (hu : s.cur.checked = false) (hcode : code ≠ 0x20)
    (h : ∀ w n, n ∈ [1, 2, 4, 8] → (opA s + opB s).toNat % n = 0 → when_ w n →
      sCheck (view s) s.cur.core sp w false (opA s + opB s).toNat n = .bad code (info (opA s + opB s).toNat)) :
    let one := fun (i : Instr) (w : Bool) (n : Nat) => (opA s + opB s).toNat % n = 0 → when_ w n →
      exec i s = .next (faults s code (opA s + opB s))
    one (.ldb sp) false 1 ∧ one (.ldbu sp) false 1 ∧ one (.ldh sp) false 2 ∧ one (.ldhu sp) false 2 ∧ one (.ldw sp) false 4 ∧
    one (.ldwu sp) false 4 ∧ one (.ldd sp) false 8 ∧ one (.stb sp) true 1 ∧ one (.sth sp) true 2 ∧ one (.stw sp) true 4 ∧
    one (.std sp) true 8 := by
  rw [info_toNat] at h
  have load : ∀ n signed, n ∈ [1, 2, 4, 8] → (opA s + opB s).toNat % n = 0 → when_ false n →
      runOp (lsLoad sp n signed) s = .next (faults s code (opA s + opB s)) :=
    fun n signed hn ha hw => lsLoad_faults hu hcode (h false n hn ha hw)
  have store : ∀ n, n ∈ [1, 2, 4, 8] → (opA s + opB s).toNat % n = 0 → when_ true n →
      runOp (lsStore sp n) s = .next (faults s code (opA s + opB s)) :=
    fun n hn ha hw => lsStore_faults hu hcode (h true n hn ha hw)
  exact ⟨load 1 true (by decide), load 1 false (by decide), load 2 true (by decide), load 2 false (by decide),
    load 4 true (by decide), load 4 false (by decide), load 8 false (by decide), store 1 (by decide), store 2 (by decide),
    store 4 (by decide), store 8 (by decide)⟩
end

/-- Settles O8. -/
theorem scalarAccesses : Obligations.ScalarAccesses := by
  unfold Obligations.ScalarAccesses
  refine ⟨fun sp dbl uns s => ?_, fun sp dbl uns s hu hf => ?_, fun sp s hu hf => ?_⟩
  · intro c a m loads stores updates
    exact ⟨exec_lsLoad rfl rfl, exec_lsLoad rfl rfl, exec_lsLoad rfl rfl, exec_lsLoad rfl rfl, exec_lsLoad rfl rfl,
      exec_lsLoad rfl rfl, exec_lsLoad rfl rfl, exec_lsStore rfl rfl, exec_lsStore rfl rfl, exec_lsStore rfl rfl,
      exec_lsStore rfl rfl, (runOp_go (opPref sp) s (.inr rfl)).trans (congrArg _ (finish_completes s 9 1)),
      exec_ctAtomic rfl rfl, exec_ctAtomic rfl rfl, exec_ctAtomic rfl rfl, exec_ctAtomic rfl rfl, exec_ctAtomic rfl rfl,
      exec_ctAtomic rfl rfl, exec_ctAtomic rfl rfl, exec_ctAtomic rfl rfl⟩
  · intro a calm traps m trapsAt
    have hfences : ((view s).core s.cur.core).fences = [] := (view_core_fences ..).trans hf
    have load : ∀ n signed, a.toNat % n ≠ 0 → calm false false a.toNat n → runOp (lsLoad sp n signed) s = .next (faults s 0x08 a) :=
      fun n signed ha hcalm => lsLoad_faults (code := 0x08) hu (by decide) ((sCheck_misaligned hfences ha hcalm).trans (by rw [info_toNat]))
    have store : ∀ n, a.toNat % n ≠ 0 → calm true false a.toNat n → runOp (lsStore sp n) s = .next (faults s 0x08 a) :=
      fun n ha hcalm => lsStore_faults (code := 0x08) hu (by decide) ((sCheck_misaligned hfences ha hcalm).trans (by rw [info_toNat]))
    have update : ∀ op, (opA s).toNat % m ≠ 0 → calm true true (opA s).toNat m →
        runOp (ctAtomic sp dbl op) s = .next (faults s 0x08 (opA s)) :=
      fun op ha hcalm => ctAtomic_faults (code := 0x08) hu (by decide) ((sCheck_misaligned hfences ha hcalm).trans (by rw [info_toNat]))
    exact ⟨load 2 true, load 2 false, load 4 true, load 4 false, load 8 false, store 2, store 4, store 8, update _, update _, update _,
      update _, update _, update _, update _, update _⟩
  · intro c x a page traps
    have hfences : ((view s).core s.cur.core).fences = [] := (view_core_fences ..).trans hf
    have hlimit : spadLimit (view s) c = spadLimit s c := by simp only [spadLimit, view_core_ctx]
    have each : ∀ code when_, code ≠ 0x20 → (∀ w n, n ∈ [1, 2, 4, 8] → a % n = 0 → when_ w n →
        sCheck (view s) c sp w false a n = .bad code (info a)) → traps code when_ := fun _ _ hcode h => ls_faults hu hcode h
    clear_value traps
    refine ⟨?_, ?_, ?_⟩
    · rintro rfl
      refine ⟨?_, ?_, ?_⟩
      · refine each 0x09 _ (by decide) fun w n _ ha hw => sCheck_loc_bad hfences ha ?_
        rcases hw with ⟨hlim, h4⟩ | hend
        · exact localHome_past_limit (by rw [hlimit]; exact hlim) h4
        · exact localHome_past_space hend
      · refine each 0x0B _ (by decide) fun w n _ ha hw => sCheck_loc_bad hfences ha ?_
        obtain ⟨rfl, hw⟩ := hw
        exact localHome_parameters hw
      · refine each 0x0C _ (by decide) fun w n hn ha hw => sCheck_loc_bad hfences ha ?_
        obtain ⟨hlo, hhi, hslot⟩ := hw
        exact localHome_empty_slot hn ha ⟨hlo, hhi⟩ hslot
    · rintro rfl
      exact each 0x09 _ (by decide) fun w n _ ha hend => sCheck_nowhere hfences ha (if_neg (Nat.not_le.2 hend))
    · rintro rfl hdrain
      refine ⟨?_, ?_⟩
      · refine each 0x0A _ (by decide) fun w n hn ha hw => (sCheck_at hfences ha rfl).trans (accessCheck_error ?_)
        rcases hw with hend | ⟨hp, hwalk, -⟩ | ⟨e, hp, hpa⟩
        · exact coreAccess_past hdrain hend
        · exact coreAccess_unwalked hdrain (lineRuns_aligned hn ha) hp hwalk
        · exact coreAccess_unpopulated hdrain (lineRuns_aligned hn ha) hp hpa
      · refine each 0x0B _ (by decide) fun w n hn ha hw => (sCheck_at hfences ha rfl).trans (accessCheck_error ?_)
        obtain ⟨h48, e, pa, hp, hpa, hperm⟩ := hw
        refine coreAccess_denied hdrain (lineRuns_aligned hn ha) h48 hp hpa ?_
        rw [view_core_ctx, Bool.or_false, Bool.or_false]
        exact hperm

end Sys2Proof.Proofs


/-! PROOFS. Operations that settle a flight (O9, O10, O39): an abandoned one. -/

namespace Sys2Proof.Proofs
open Sys2Proof Sys2Proof.Machine Sys2Proof.Safety

/-- A flight of a unit that is marked as abandoned while `lands` still stands as at its trigger: no step leaves one so, since
`Flight.drop` clears both, but the statements of O9, O10 and O39 take any flight. -/
def abandonedFlight (unit : Nat) : Flight := { flightOf { Trig.none with unit := unit } 0 4 with dropped := true }

theorem abandonedFlight_lands (unit : Nat) : (abandonedFlight unit).lands = true := rfl

/-- On core 0 a load of one byte of its own scratchpad is due, its operation abandoned. -/
def loadingAbandoned : State :=
  { State.reset with
    cores := updAt State.reset.cores 0 fun k => { k with
      flights := [abandonedFlight 9], accesses := [⟨pathS, 0, 9, 0, .load 1 false [], [⟨.arr 0 0, 1, 0⟩], 0, false, []⟩] } }

theorem accessPerformed_loadingAbandoned :
    ∃ t, exec (.accessPerformed 0) loadingAbandoned = .next t ∧ (t.core 0).flights.map (·.lands) = [false] :=
  ⟨_, rfl, by decide +kernel⟩

/-- Refutes O9: the flight of an abandoned load, taken as one that would land, settles as one that lands nothing (`putFlight`). The
statement takes any flight of the access, an abandoned one among them. -/
theorem not_performedScalarAccesses : ¬ Obligations.PerformedScalarAccesses := by
  intro h
  obtain ⟨u, hu, hlands⟩ := accessPerformed_loadingAbandoned
  obtain ⟨t, ht, -, -, -, hflights⟩ := (h.1 0 loadingAbandoned ⟨pathS, 0, 9, 0, .load 1 false [], [⟨.arr 0 0, 1, 0⟩], 0, false, []⟩
    (abandonedFlight 9) 0 0 1 (by decide +kernel) rfl (by decide +kernel) rfl (by decide) (by decide) rfl (by decide)
    (by decide +kernel) (by decide +kernel) (by decide +kernel) rfl rfl).1 false rfl
  obtain rfl : t = u := Host.Outcome.next.inj (ht.symm.trans hu)
  change (t.core 0).flights = _ at hflights
  simp [hflights, abandonedFlight_lands] at hlands

/-- On core 0 a FENCE over no path comes again, its operation abandoned. -/
def fencingAbandoned : State :=
  { State.reset with
    cur := { Trig.none with unit := 9, stage := 1, checked := true }
    cores := updAt State.reset.cores 0 fun k => { k with flights := [abandonedFlight 9] } }

theorem fence_fencingAbandoned :
    ∃ t, exec .fence fencingAbandoned = .next t ∧ (t.core 0).flights.map (·.lands) = [false] :=
  ⟨_, rfl, by decide +kernel⟩

/-- Refutes O10: the flight of an abandoned FENCE, taken as one that would land, settles as one that lands nothing (`putFlight`). -/
theorem not_markersAndFences : ¬ Obligations.MarkersAndFences := by
  intro h
  obtain ⟨u, hu, hlands⟩ := fence_fencingAbandoned
  obtain ⟨-, -, -, hdone, -⟩ := h fencingAbandoned (by decide)
  obtain ⟨t, ht, -, hflights, -⟩ := hdone (abandonedFlight 9) (by decide) (by decide +kernel) (by decide +kernel) rfl rfl
  obtain rfl : t = u := Host.Outcome.next.inj (ht.symm.trans hu)
  change (t.core 0).flights = _ at hflights
  simp [hflights, abandonedFlight_lands] at hlands

/-- On core 0 a TMARK that closes tile 0 comes again with no store before it, its operation abandoned. -/
def closingAbandoned : State :=
  { State.reset with
    cur := { Trig.none with unit := 21, stage := 1, checked := true }
    cores := updAt State.reset.cores 0 fun k => { k with flights := [abandonedFlight 31] } }

theorem tmarkClose_closingAbandoned :
    ∃ t, exec .tmarkClose closingAbandoned = .next t ∧ (t.core 0).flights.map (·.lands) = [false] :=
  ⟨_, rfl, by decide +kernel⟩

/-- Refutes O39: the flight of an abandoned TMARK close, taken as one that would land, settles as one that lands nothing
(`putFlight`). -/
theorem not_tileTable : ¬ Obligations.TileTable := by
  intro h
  obtain ⟨u, hu, hlands⟩ := tmarkClose_closingAbandoned
  obtain ⟨-, -, -, -, -, -, -, hclose, -⟩ := h closingAbandoned (by decide)
  obtain ⟨t, ht, -, -, -, hflights⟩ := hclose (abandonedFlight 31) (.inl rfl) (by decide) (by decide +kernel) rfl rfl (by decide +kernel)
  obtain rfl : t = u := Host.Outcome.next.inj (ht.symm.trans hu)
  change (t.core 0).flights = _ at hflights
  simp [hflights, abandonedFlight_lands] at hlands

end Sys2Proof.Proofs


/-! PROOFS. Yielding and restoring (O59, O60): two states that no step leaves, but that the statements take. -/

namespace Sys2Proof.Proofs
open Sys2Proof Sys2Proof.Machine Sys2Proof.Safety

/-- A request that is due though no time limit has begun: no step leaves one so, since `requestPreempt` and `forceNow` make a request
due only where it has a limit. -/
def untimedDue : Preempt := ⟨false, 0, true, false, false⟩

/-- Logical cores 0 and 1 of each die share a physical core. The task on core 0 has run its slice and is asked by `untimedDue`; core 1 has a
staged task. -/
def sliceOverUntimed : State :=
  let task := regionCtx ⟨0, 0⟩ 0 0
  { State.reset with
    time := 500000
    cores := updAt (updAt State.reset.cores 0 fun k => { k with ctx := some task, flow := .running, preq := some untimedDue }) 1
      fun k => { k with staged := some task }
    dies := State.reset.dies.map fun y => { y with remap := Vector.replicate 128 (0, true) } }

/-- The yield posts the time limit's end, whatever the request says of being due. -/
theorem timeSliceYield_sliceOverUntimed : ∃ t, exec (.timeSliceYield 0) sliceOverUntimed = .next t ∧
    ⟨550000, 2, .ev (.forcedPreemptTimeout 0)⟩ ∈ t.agenda :=
  ⟨_, rfl, by decide +kernel⟩

/-- Refutes O59: a yield asks for a task whose request is due but has no limit as for any other, and its time limit is posted
(`requestPreempt`). The statement takes any request, and posts nothing for one that is due. -/
theorem not_slotsRotationAndPreemption : ¬ Obligations.SlotsRotationAndPreemption := by
  intro h
  obtain ⟨t, ht, hposted⟩ := timeSliceYield_sliceOverUntimed
  obtain ⟨-, -, -, -, -, -, -, -, -, -, hyield⟩ := h sliceOverUntimed 0 0 0 0 false
  obtain ⟨-, -, hover, -⟩ := hyield 1 (regionCtx ⟨0, 0⟩ 0 0) (by decide +kernel) (by decide +kernel)
  obtain ⟨-, hasked⟩ := hover (by decide +kernel) (by decide +kernel) (by decide +kernel)
  obtain rfl := Host.Outcome.next.inj (ht.symm.trans (hasked untimedDue (by decide +kernel)))
  exact absurd hposted (by decide +kernel)

/-- A register of 32 bits stays one. -/
theorem crcBit_lt {c : Nat} (h : c < 2 ^ 32) : crcBit c < 2 ^ 32 := by
  unfold crcBit
  split
  · exact Nat.xor_lt_two_pow (by omega) (by decide)
  · omega

theorem crcByte_lt {c b : Nat} (hc : c < 2 ^ 32) (hb : b < 256) : crcByte c b < 2 ^ 32 := by
  have hmix : c ^^^ b < 2 ^ 32 := Nat.xor_lt_two_pow hc (by omega)
  unfold crcByte
  iterate 8 apply crcBit_lt
  exact hmix

theorem computed_eq {α : Type} (n : Nat) (f : Nat → α) : computed n f = f n := by cases n <;> rfl

theorem crcLoop_lt (n x : Nat) {c : Nat} (hc : c < 2 ^ 32) : crcLoop n x c < 2 ^ 32 := by
  induction n generalizing x c with
  | zero => exact hc
  | succ n ih =>
    rw [crcLoop, computed_eq, computed_eq]
    exact ih _ (crcByte_lt hc (Nat.mod_lt _ (by decide)))

/-- A CRC is a 32-bit number. -/
theorem crc32c_lt (n x : Nat) : crc32c n x < 2 ^ 32 := Nat.xor_lt_two_pow (crcLoop_lt n x (by decide)) (by decide)

/-- What 256 times byte k counts in a number of bytes: a carry into byte k + 1. -/
def carryOut (k : Nat) : Nat := 2 ^ (8 * (k + 1))

/-- Memory with the four bytes of v at a, and byte a + k listed twice, its cells adding up to 256: in no canonical memory, so that no step
leaves it (`Inv.mem`). -/
def carrying (a k v : Nat) : Memory :=
  (List.range 4).map (fun i => (a + i, BitVec.ofNat 8 (digit v 8 i))) ++ [(a + k, 255), (a + k, 1)]

section
variable {a k n v : Nat}

/-- Read as one number the two cells carry into the next byte. -/
theorem memRead_carrying (hv : v < 2 ^ 32) (hk : k < n) (hn : 4 ≤ n) : memRead (carrying a k v) a n = v + carryOut k := by
  have hbytes : v % 256 + v / 2 ^ 8 % 256 * 2 ^ 8 + v / 2 ^ 16 % 256 * 2 ^ 16 + v / 2 ^ 24 % 256 * 2 ^ 24 = v := by omega
  have hcarry : 255 * 2 ^ (8 * k) + 1 * 2 ^ (8 * k) = carryOut k := by rw [carryOut, Nat.mul_succ, Nat.pow_add]; omega
  have h0 : 0 < n := by omega
  have h1 : 1 < n := by omega
  have h2 : 2 < n := by omega
  have h3 : 3 < n := by omega
  rw [← hcarry, ← Nat.add_assoc]
  conv_rhs => rw [← hbytes]
  simp [memRead, carrying, digit, List.range_succ, hk, h0, h1, h2, h3]

/-- The bytes after the two cells, read by themselves, are zero. -/
theorem memRead_carrying_after (hk : 3 ≤ k) : memRead (carrying a k v) (a + k + 1) n = 0 := by
  refine memRead_fold_outside (fun x hx => ?_) 0
  simp only [carrying, List.mem_append, List.mem_map, List.mem_range, List.mem_cons, List.not_mem_nil, or_false] at hx
  obtain ⟨i, hi, rfl⟩ | rfl | rfl := hx <;> simp only <;> omega

/-- An area is sound that holds a carry past its CRC's word, and the CRC. -/
theorem saveSound_of_carry {s : State} (hk : 7 ≤ k) (h : memRead s.mem a saveBytes = crc32c saveBytes (carryOut k) + carryOut k) :
    saveSound s a = true := by
  obtain ⟨m, hm⟩ : 2 ^ 64 ∣ carryOut k := Nat.pow_dvd_pow 2 (by omega)
  have hcrc := crc32c_lt saveBytes (carryOut k)
  have hlow : (crc32c saveBytes (carryOut k) + carryOut k) % 2 ^ 32 = crc32c saveBytes (carryOut k) := by omega
  have hhigh : (crc32c saveBytes (carryOut k) + carryOut k) / 2 ^ 64 * 2 ^ 64 = carryOut k := by omega
  refine decide_eq_true ?_
  rw [h, hlow, hhigh]

/-- The part of an area that begins where the carry goes. -/
theorem areaPart_carry (hv : v < 2 ^ 32) (hk : 3 ≤ k) (hn : 0 < n) : areaPart (v + carryOut k) (k + 1) n = 1 := by
  have hlt : v < 2 ^ (8 * (k + 1)) := hv.trans_le (Nat.pow_le_pow_right (by decide) (by omega))
  rw [areaPart, carryOut, Nat.add_div_right _ (Nat.two_pow_pos _), Nat.div_eq_of_lt hlt]
  exact Nat.mod_eq_of_lt (Nat.one_lt_two_pow (by omega))
end

/-- General register 0 as an area gives it back, from byte 0xE0 on (R404, R405). -/
theorem fromArea_g0 (k : Core) (v : Nat) : (k.fromArea v).arch.g[0] = BitVec.ofNat 64 (digit (areaPart v (0xDF + 1) 256) 64 0) := by
  change (Vector.ofFn _)[0] = _
  exact Vector.getElem_ofFn ..

/-- A context of core 0 without a PARK, saved in the area at 2^24. -/
def savedAtArea : Saved := ⟨regionCtx ⟨0, 0⟩ 0 0, Core.reset, 2 ^ 24, 0, false⟩

/-- The launch of the saved context, in queue 0. -/
def launchOfSaved : Launch := ⟨0, 0, 0, 0, none, .started, true, false, false, []⟩

/-- Core 0 is idle, of a slot that binds queue 0, and has the image installed; the saved context may return to it. Its area holds a carry into
general register 0 and the CRC of that. -/
def returning : State :=
  { State.reset with
    mem := carrying (2 ^ 24) 0xDF (crc32c saveBytes (carryOut 0xDF))
    cores := updAt State.reset.cores 0 fun k => { k with idx := [0] }
    dies := updAt State.reset.dies 0 fun y => { y with slots := updAt y.slots 0 fun x => { x with bound := true } }
    disp := { State.reset.disp with launches := [launchOfSaved], saved := [savedAtArea] } }

/-- A state is intact whose cores and device memory list no error. -/
theorem intact_of_lists {s : State} (hcores : s.cores.all (fun k => k.poison.isEmpty && k.upsets.isEmpty) = true)
    (hpoison : s.pkg.hbmPoison = []) (hupsets : s.pkg.hbmUpsets = []) : intact s := by
  refine ⟨fun c => ?_, hpoison, hupsets⟩
  unfold State.core nth
  split
  · next hc => simpa using Vector.all_eq_true.1 hcores c hc
  · exact ⟨rfl, rfl⟩

theorem returning_intact : intact returning := intact_of_lists (by decide +kernel) rfl rfl

theorem memRead_returning : memRead returning.mem (2 ^ 24) saveBytes = crc32c saveBytes (carryOut 0xDF) + carryOut 0xDF :=
  memRead_carrying (crc32c_lt ..) (by decide) (by decide)

theorem saveSound_returning : saveSound returning (2 ^ 24) = true := saveSound_of_carry (by decide) memRead_returning

/-- Restored from there, general register 0 holds the carry. -/
theorem fromArea_returning : (savedAtArea.core.fromArea (memRead returning.mem (2 ^ 24) saveBytes)).arch.g[0] = 1 := by
  rw [fromArea_g0, memRead_returning, areaPart_carry (crc32c_lt ..) (by decide) (by decide)]
  decide

/-- Refutes O60: where the cells of memory are not canonical, the save area read as one number carries from the byte below general register 0
into it, and the restored register differs from the eight bytes at its place. The statement of a return takes any memory (its premise is
about the core's own), as that of a save does not. -/
theorem not_launchesTasksAndContexts : ¬ Obligations.LaunchesTasksAndContexts := by
  intro h
  obtain ⟨-, -, -, -, -, -, -, -, -, -, -, ⟨-, hback⟩, -⟩ :=
    h returning 0 0 launchOfSaved (resolve none none ⟨0, 0, 0⟩) returning_intact
  obtain ⟨hsound, -⟩ := hback savedAtArea (by decide +kernel) rfl (by decide +kernel) (by decide +kernel) (by decide +kernel)
    (by decide +kernel) (by decide +kernel)
  obtain ⟨t, -, -, -, -, -, -, ⟨-, -, -, -, -, hregs⟩, -⟩ := hsound saveSound_returning (by decide +kernel) rfl (by decide +kernel)
  have hzero : memRead returning.mem (2 ^ 24 + 0xDF + 1) 8 = 0 := memRead_carrying_after (by decide)
  exact absurd (fromArea_returning.symm.trans ((hregs 0).trans (congrArg _ hzero))) (by decide)

end Sys2Proof.Proofs


/-! PROOFS. Block products and the window accumulator (O33). -/

namespace Sys2Proof.Proofs
open Sys2Proof Sys2Proof.Machine Sys2Proof.Safety

/-! The product of a block of finite elements (R143). -/

/-- The running maximum from the first element is an element that none exceeds. -/
theorem foldl_max_head {l : List Int} {top : Int} (hmem : top ∈ l) (hle : ∀ x ∈ l, x ≤ top) :
    l.foldl max (l.head?.getD 0) = top := by
  cases l with
  | nil => cases hmem
  | cons x r =>
    have hmax : (x :: r).max? = some top := List.max?_eq_some_iff.2 ⟨hmem, hle⟩
    rw [List.max?_cons', Option.some.injEq] at hmax
    rw [List.foldl_cons, List.head?_cons, Option.getD_some, max_self, hmax]

/-- A running sum is the sum of the summands. -/
theorem foldl_add_eq_sum {α : Type} (l : List α) (f : α → Int) : l.foldl (fun acc x => acc + f x) 0 = (l.map f).sum := by
  rw [List.sum_eq_foldl, List.foldl_map]

/-- A power of two of the product window is an integer. -/
theorem frac_of_nonneg (m : Nat) {e : Int} (h : 0 ≤ e) : frac m e = (m * 2 ^ e.toNat, 1) := if_pos h

/-- The exact product of a pair of block elements, in units of 2^e. -/
def pairProduct (e : Int) (p : BlockEl × BlockEl) : Int :=
  (if p.1.neg ^^ p.2.neg then -1 else 1) * (p.1.m * p.2.m * 2 ^ (p.1.q + p.2.q - e).toNat : Int)

/-- In the product window no bit of a product is cut off. -/
theorem product_term {e : Int} (p : BlockEl × BlockEl) (h : e ≤ p.1.q + p.2.q) :
    (let f := frac (p.1.m * p.2.m) (p.1.q + p.2.q - e)
     let v : Int := ((f.1 / f.2 : Nat) : Int)
     if p.1.neg != p.2.neg then -v else v) = pairProduct e p := by
  rw [frac_of_nonneg _ (Int.sub_nonneg.2 h), pairProduct]
  cases p.1.neg <;> cases p.2.neg <;> simp

theorem blockProduct_finite {a b : List BlockEl} {wa wb xa xb : Nat} {top : Int} (hxa : xa < 255) (hxb : xb < 255)
    (ha : ∀ x ∈ a, x.inf = false ∧ x.nan = false) (hb : ∀ x ∈ b, x.inf = false ∧ x.nan = false)
    (hmem : ∃ p ∈ a.zip b, p.1.q + p.2.q = top) (hle : ∀ p ∈ a.zip b, p.1.q + p.2.q ≤ top)
    (hwin : ∀ p ∈ a.zip b, top + wa + wb + 5 - 75 ≤ p.1.q + p.2.q) :
    blockProduct a b wa wb (some (xa, xb)) = ⟨.fin, ((a.zip b).map (pairProduct (top + wa + wb + 5 - 75))).sum,
      top + wa + wb + 5 - 75 + ((xa : Int) - 127) + ((xb : Int) - 127)⟩ := by
  have hfin : ∀ p ∈ a.zip b, (p.1.inf = false ∧ p.1.nan = false) ∧ p.2.inf = false ∧ p.2.nan = false := fun p hp =>
    ⟨ha _ (List.of_mem_zip hp).1, hb _ (List.of_mem_zip hp).2⟩
  have hnan : (a.zip b).any (fun p => p.1.nan || p.2.nan || (p.1.inf && (!p.2.inf && decide (p.2.m = 0))) ||
      (p.2.inf && (!p.1.inf && decide (p.1.m = 0)))) = false := by
    simp only [List.any_eq_false]
    intro p hp
    obtain ⟨⟨h1, h2⟩, h3, h4⟩ := hfin p hp
    simp [h1, h2, h3, h4]
  have hinf : (a.zip b).filter (fun p => p.1.inf || p.2.inf) = [] := by
    simp only [List.filter_eq_nil_iff]
    intro p hp
    obtain ⟨⟨h1, -⟩, h3, -⟩ := hfin p hp
    simp [h1, h3]
  have htop : ((a.zip b).map fun p => p.1.q + p.2.q).foldl max (((a.zip b).map fun p => p.1.q + p.2.q).head?.getD 0) = top := by
    obtain ⟨p, hp, hq⟩ := hmem
    exact foldl_max_head (List.mem_map.2 ⟨p, hp, hq⟩) (List.forall_mem_map.2 hle)
  have hscale : (decide (xa = 255) || decide (xb = 255)) = false := by simp [hxa.ne, hxb.ne]
  unfold blockProduct
  simp only [hnan, hinf, hscale, htop, List.map_nil, List.contains_nil, Bool.or_self, Bool.and_self, Bool.false_eq_true, if_false,
    Contribution.mk.injEq, true_and, and_true]
  rw [foldl_add_eq_sum]
  exact congrArg List.sum (List.map_congr_left fun p hp => product_term p (hwin p hp))

/-! A finite significand in the window (R147). -/

/-- A significand has a place in an element after n bits are cut off. -/
abbrev Fits (x : Int) (n : Nat) : Prop := -(2 ^ 94) ≤ x.tdiv (2 ^ n) ∧ x.tdiv (2 ^ n) < 2 ^ 94

theorem truncBits_eq (x : Int) (n : Nat) : truncBits x n = x.tdiv (2 ^ n) := by
  have hcast : ((x.natAbs / 2 ^ n : Nat) : Int) = (x.natAbs : Int).tdiv (2 ^ n) := by
    rw [Int.ofNat_tdiv, Nat.cast_pow, Nat.cast_ofNat]
  unfold truncBits
  split
  · next h => rw [hcast, ← Int.neg_tdiv, Int.ofNat_natAbs_of_nonpos h.le, neg_neg]
  · next h => rw [hcast, Int.natAbs_of_nonneg (not_lt.1 h)]

/-- A negative significand may reach one further than the others. -/
theorem fits_iff (x : Int) (n : Nat) : Fits x n ↔ x.natAbs < (2 ^ 94 + if x < 0 then 1 else 0) * 2 ^ n := by
  rw [← Nat.div_lt_iff_lt_mul (Nat.two_pow_pos n), Fits, ← truncBits_eq, truncBits]
  generalize x.natAbs / 2 ^ n = q
  split <;> omega

/-- The fewest bits whose loss brings a significand into the window. -/
theorem fitBits_least {x : Int} (hx : x ≠ 0) : Fits x (fitBits x) ∧ ∀ k, k < fitBits x → ¬ Fits x k := by
  have hlog : bitlen x.natAbs = Nat.log2 x.natAbs + 1 := if_neg (Int.natAbs_ne_zero.2 hx)
  have hhigh : Fits x (bitlen x.natAbs - 94) := by
    rw [fits_iff, hlog]
    calc x.natAbs < 2 ^ (x.natAbs.log2 + 1) := Nat.lt_log2_self
      _ ≤ 2 ^ (94 + (x.natAbs.log2 + 1 - 94)) := Nat.pow_le_pow_right (by decide) (by omega)
      _ = 2 ^ 94 * 2 ^ (x.natAbs.log2 + 1 - 94) := Nat.pow_add ..
      _ ≤ _ := Nat.mul_le_mul_right _ (Nat.le_add_right ..)
  have hlow : ∀ j, j + 1 < bitlen x.natAbs - 94 → ¬ Fits x j := fun j hj => by
    rw [fits_iff, not_lt]
    calc _ ≤ 2 ^ 95 * 2 ^ j := Nat.mul_le_mul_right _ (by split <;> decide)
      _ = 2 ^ (95 + j) := (Nat.pow_add ..).symm
      _ ≤ 2 ^ x.natAbs.log2 := Nat.pow_le_pow_right (by decide) (by omega)
      _ ≤ x.natAbs := Nat.log2_self_le (Int.natAbs_ne_zero.2 hx)
  have heq : fitBits x = if 0 < bitlen x.natAbs - 94 ∧ Fits x (bitlen x.natAbs - 94 - 1) then bitlen x.natAbs - 94 - 1
      else bitlen x.natAbs - 94 := by
    simp [fitBits, Fits, truncBits_eq]
  rw [heq]
  split
  · next h => exact ⟨h.2, fun k hk => hlow k (by omega)⟩
  · next h =>
    refine ⟨hhigh, fun k hk hfit => ?_⟩
    by_cases hlast : k + 1 < bitlen x.natAbs - 94
    · exact hlow k hlast hfit
    · obtain rfl : k = bitlen x.natAbs - 94 - 1 := by omega
      exact h ⟨by omega, hfit⟩

theorem accFit_of_ne_zero {x : Int} (hx : x ≠ 0) (m : Int) : accFit x m =
    if 2047 < m + fitBits x then ⟨if x < 0 then .ninf else .pinf, 0, -2048⟩ else ⟨.fin, x.tdiv (2 ^ fitBits x), m + fitBits x⟩ := by
  simp only [accFit, if_neg hx, gt_iff_lt, truncBits_eq, accSpecial]

theorem accAdd_finite {a : AccEl} {c : Contribution} (ha : a.cls = .fin) (hc : c.cls = .fin) (hp : c.p ≠ 0) : accAdd a c =
    accFit (a.s * 2 ^ (a.e - min a.e c.e).toNat + c.p * 2 ^ (c.e - min a.e c.e).toNat) (min a.e c.e) := by
  simp only [accAdd, ha, hc, if_neg hp]

/-! Contributions by class (R147). -/

section
variable (a : AccEl) (c : Contribution)

theorem accAdd_nan (h : a.cls = .nan ∨ c.cls = .nan ∨ (a.cls = .pinf ∧ c.cls = .ninf) ∨ (a.cls = .ninf ∧ c.cls = .pinf)) :
    accAdd a c = accSpecial .nan := by
  unfold accAdd
  cases ha : a.cls <;> cases hc : c.cls <;> simp_all

theorem accAdd_pinf (hnan : a.cls ≠ .nan) (hinf : a.cls ≠ .ninf) (hc : c.cls = .pinf) : accAdd a c = accSpecial .pinf := by
  unfold accAdd
  cases ha : a.cls <;> simp_all

theorem accAdd_ninf (hnan : a.cls ≠ .nan) (hinf : a.cls ≠ .pinf) (hc : c.cls = .ninf) : accAdd a c = accSpecial .ninf := by
  unfold accAdd
  cases ha : a.cls <;> simp_all

theorem accAdd_stays (hnan : a.cls ≠ .nan) (hc : c.cls = .fin) (h : a.cls ≠ .fin ∨ c.p = 0) : accAdd a c = a := by
  unfold accAdd
  cases ha : a.cls <;> simp_all
end

/-! The image of an element (R146). -/

/-- The integer of its low bits in two's complement, where it fits. -/
theorem sint_enc {x : Int} {w : Nat} (hw : 0 < w) (hlo : -(2 ^ (w - 1)) ≤ x) (hhi : x < 2 ^ (w - 1)) : sint (enc x w) w = x := by
  obtain ⟨v, rfl⟩ : ∃ v, w = v + 1 := ⟨w - 1, by omega⟩
  rw [Nat.add_sub_cancel] at hlo hhi
  have hpow : (2 : Int) ^ (v + 1) = 2 * 2 ^ v := pow_succ' ..
  have hpos : (0 : Int) < 2 ^ v := by positivity
  have hcast : (enc x (v + 1) : Int) = x % 2 ^ (v + 1) := Int.toNat_of_nonneg (Int.emod_nonneg _ (by positivity))
  have hlt : enc x (v + 1) < 2 ^ (v + 1) := by
    zify
    rw [hcast]
    exact Int.emod_lt_of_pos _ (by positivity)
  rw [sint, Nat.mod_eq_of_lt hlt, Nat.add_sub_cancel]
  by_cases hx : 0 ≤ x
  · have hx2 : (enc x (v + 1) : Int) = x := hcast.trans (Int.emod_eq_of_lt hx (by omega))
    have : enc x (v + 1) < 2 ^ v := by zify; omega
    simp only [if_pos this, hx2]
  · have hx2 : (enc x (v + 1) : Int) = x + 2 ^ (v + 1) := by
      rw [hcast, ← Int.add_emod_right, Int.emod_eq_of_lt (by omega) (by omega)]
    have : ¬ enc x (v + 1) < 2 ^ v := by zify; omega
    simp only [if_neg this, hx2]
    omega

theorem enc_lt (x : Int) (w : Nat) : enc x w < 2 ^ w := by
  have hpos : (0 : Int) < 2 ^ w := by positivity
  have hlt := Int.emod_lt_of_pos x hpos
  have hnonneg := Int.emod_nonneg x hpos.ne'
  rw [enc]
  zify
  omega

/-- The fields of an image. -/
theorem image_fields (a : AccEl) : a.image % 2 ^ 96 = enc a.s 96 ∧ field a.image 96 12 = enc a.e 12 ∧
    field a.image 108 2 = a.cls.code ∧ field a.image 110 18 = 0 := by
  have hs := enc_lt a.s 96
  have he := enc_lt a.e 12
  have hc : a.cls.code < 4 := by cases a.cls <;> decide
  unfold AccEl.image field
  omega

theorem sint_mod (x w : Nat) : sint (x % 2 ^ w) w = sint x w := by rw [sint, sint, Nat.mod_mod]

theorem accOfImage_image {a : AccEl} (hs : -(2 ^ 94) ≤ a.s ∧ a.s < 2 ^ 94) (he : -2048 ≤ a.e ∧ a.e ≤ 2047)
    (hzero : a.s = 0 → a.e = -2048) (hspecial : a.cls ≠ .fin → a.s = 0) : accOfImage a.image = some a := by
  obtain ⟨h0, h1, h2, h3⟩ := image_fields a
  have hsint : sint a.image 96 = a.s := by
    rw [← sint_mod, h0, sint_enc (by decide) (by omega) (by omega)]
  have hexp : sint (field a.image 96 12) 12 = a.e := by
    rw [h1, sint_enc (by decide) (by omega) (by omega)]
  unfold accOfImage
  simp only [hsint, hexp, h2, h3]
  rcases a with ⟨cls, x, e⟩
  cases cls <;> simp_all [AccClass.code, accSpecial]

/-! Skipped digits (R193). -/

/-- The planes of a digit as a mask: their powers of two do not meet. -/
theorem testBit_foldl_two_pow (l : List Nat) (hl : l.Pairwise (· < ·)) : ∀ a, (∀ t ∈ l, a < 2 ^ t) → ∀ i,
    (l.foldl (fun x t => x + 2 ^ t) a).testBit i = (a.testBit i || decide (i ∈ l)) := by
  induction l with
  | nil => simp
  | cons t r ih =>
    obtain ⟨hhead, htail⟩ := List.pairwise_cons.1 hl
    intro a ha i
    have hor : a + 2 ^ t = 2 ^ t ||| a := by
      simpa [Nat.add_comm] using Nat.two_pow_add_eq_or_of_lt (ha t List.mem_cons_self) 1
    have hnext : ∀ u ∈ r, a + 2 ^ t < 2 ^ u := fun u hu => by
      have hpow : 2 ^ (t + 1) ≤ 2 ^ u := Nat.pow_le_pow_right (by decide) (hhead u hu)
      have hlt := ha t List.mem_cons_self
      omega
    rw [List.foldl_cons, ih htail _ hnext, hor, Nat.testBit_or, Nat.testBit_two_pow]
    by_cases h : t = i
    · simp [h]
    · simp [h, Ne.symm h]

/-- A digit that the header marks unoccupied adds no occupied plane to what is delivered. -/
theorem unoccupied_digit {p pw occ dd : Nat} (h : ((List.range pw).map (· + dd)).any (fun t => bit occ t = 1) = false) (m : Nat) :
    (m ||| ((((List.range pw).map (· + dd)).filter (· < p)).foldl (fun x t => x + 2 ^ t) 0)) &&& occ = m &&& occ := by
  have hsorted : (((List.range pw).map (· + dd)).filter (· < p)).Pairwise (· < ·) :=
    (List.pairwise_map.2 (List.pairwise_lt_range.imp fun h => Nat.add_lt_add_right h dd)).filter _
  refine Nat.eq_of_testBit_eq fun i => ?_
  rw [Nat.testBit_and, Nat.testBit_and, Nat.testBit_or,
    testBit_foldl_two_pow _ hsorted 0 (fun t _ => Nat.two_pow_pos t), Nat.zero_testBit, Bool.false_or]
  cases hocc : occ.testBit i with
  | false => simp
  | true =>
    have hnot : i ∉ ((List.range pw).map (· + dd)).filter (· < p) := fun hi => by
      have := List.any_eq_false.1 h i (List.mem_filter.1 hi).1
      rw [decide_eq_true_eq, bit_eq_one] at this
      exact this hocc
    simp [hnot]

/-- With skipping and without it the same occupied planes are delivered. -/
theorem deliver_occupied (p pw occ : Nat) (stop : Nat → Bool) : ∀ fuel dd d d' m m', m &&& occ = m' &&& occ →
    (deliver p pw occ true stop fuel dd d m).1 &&& occ = (deliver p pw occ false stop fuel dd d' m').1 &&& occ := by
  intro fuel
  induction fuel with
  | zero => exact fun _ _ _ _ _ h => h
  | succ fuel ih =>
    intro dd d d' m m' h
    simp only [deliver, Bool.true_and, Bool.false_and, Bool.false_eq_true, if_false]
    by_cases hend : (decide (p ≤ dd) || (decide (dd % 2 = 0) && stop dd)) = true
    · rw [if_pos hend, if_pos hend]
      exact h
    · rw [if_neg hend, if_neg hend]
      split
      · next hnone => exact ih _ _ _ _ _ (h.trans (unoccupied_digit (by simpa using hnone) m').symm)
      · exact ih _ _ _ _ _ (by rw [Nat.and_or_distrib_right, h, Nat.and_or_distrib_right])

theorem blockSum_skip (w : Pcw) (scA scB : Array (List Nat)) (raw : Array (List BlockEl)) (y : RowB) (els : Vector AccEl 1024) :
    (blockSum { w with skip := true } scA scB raw y els).1 = (blockSum { w with skip := false } scA scB raw y els).1 := by
  simp only [blockSum, blockOperands, deliver_occupied _ _ _ _ _ _ 0 0 0 0 rfl]

/-- An MMA with skipping as given. -/
def withSkip (m : MmaIn) (b : Bool) : MmaIn := { m with pcw := { m.pcw with skip := b } }

theorem product_skip (m : MmaIn) (s : State) (a : Acc) : ((withSkip m true).product s a).1 = ((withSkip m false).product s a).1 := by
  refine List.foldl_rel (r := fun (x y : Vector AccEl 1024 × List Nat) => x.1 = y.1) rfl fun b _ x y hxy => ?_
  change (blockSum _ _ _ _ _ x.1).1 = (blockSum _ _ _ _ _ y.1).1
  rw [hxy]
  exact blockSum_skip ..

/-- Settles O33: products of the window keep all their bits, the bits that R147 cuts off are the fewest, and a digit that is skipped
holds no occupied plane, whatever the profile. -/
theorem windowAccumulatorArithmetic : Obligations.WindowAccumulatorArithmetic := by
  unfold Obligations.WindowAccumulatorArithmetic
  refine ⟨?_, ?_, ?_, ?_, ?_⟩
  · intro a b wa wb xa xb hxa hxb ha hb l q top hmem hle e hwin
    exact blockProduct_finite hxa hxb ha hb hmem hle hwin
  · intro a c ha hc hp m x fits
    rw [accAdd_finite ha hc hp]
    refine ⟨fun hx => if_pos hx, fun hx => ⟨fitBits x, (fitBits_least hx).1, (fitBits_least hx).2, accFit_of_ne_zero hx m⟩⟩
  · exact fun a c => ⟨accAdd_nan a c, accAdd_pinf a c, accAdd_ninf a c, accAdd_stays a c⟩
  · exact fun a hlo hhi helo hehi => accOfImage_image ⟨hlo, hhi⟩ ⟨helo, hehi⟩
  · exact fun m s a _ => product_skip m s a

end Sys2Proof.Proofs


/-! PROOFS. What the operations of unit VS share (O27, O28): the order of keys and ties, their inputs, and how they land. -/

namespace Sys2Proof.Proofs
open Sys2Proof Sys2Proof.Machine Sys2Proof.Safety

/-! The order of keys (R181), as the order of a rank: a class, -1 and 1 the infinities and 2 the NaNs, and within it the value. -/

/-- The value of a finite number. -/
def valueOf (neg : Bool) (m : Nat) (e : Int) : ℚ := (if neg then -(m : ℚ) else m) * 2 ^ e

def numRank : Machine.Num → ℤ ×ₗ ℚ
  | .nan _ => toLex (2, 0)
  | .inf neg => toLex (if neg then -1 else 1, 0)
  | .fin neg m e => toLex (0, valueOf neg m e)

/-- Numbers scaled to a common exponent are in the order of their values. -/
theorem scaled_eq_value (neg : Bool) (m : Nat) {e g : Int} (h : g ≤ e) :
    ((Machine.Num.scaled neg m e g : Int) : ℚ) * 2 ^ g = valueOf neg m e := by
  have hpow : (2 : ℚ) ^ e = 2 ^ (e - g).toNat * 2 ^ g := by
    rw [← zpow_natCast, Int.toNat_of_nonneg (by omega), ← zpow_add₀ two_ne_zero, sub_add_cancel]
  rw [Machine.Num.scaled, valueOf, hpow]
  cases neg <;> simp <;> ring

theorem num_lt_iff {x y : Machine.Num} (hx : x.isNan = false) (hy : y.isNan = false) : x.lt y = true ↔ numRank x < numRank y := by
  cases x with
  | nan _ => cases hx
  | inf a => cases y with
    | nan _ => cases hy
    | inf b => cases a <;> cases b <;> simp [Machine.Num.lt, numRank, Prod.Lex.toLex_lt_toLex]
    | fin b n f => cases a <;> simp [Machine.Num.lt, numRank, Prod.Lex.toLex_lt_toLex]
  | fin a m e => cases y with
    | nan _ => cases hy
    | inf b => cases b <;> simp [Machine.Num.lt, numRank, Prod.Lex.toLex_lt_toLex]
    | fin b n f =>
      have hpos : (0 : ℚ) < 2 ^ min e f := zpow_pos two_pos _
      simp only [Machine.Num.lt, numRank, Prod.Lex.toLex_lt_toLex, lt_irrefl, false_or, true_and, decide_eq_true_eq,
        ← scaled_eq_value a m (min_le_left e f), ← scaled_eq_value b n (min_le_right e f), mul_lt_mul_iff_left₀ hpos, Int.cast_lt]

/-- The rank of a key of a type. -/
def keyRank (ty : ElemType) (x : Nat) : ℤ ×ₗ ℚ := if tyFloat ty then numRank (tyNum ty x) else toLex (0, (tyInt ty x : ℚ))

theorem numRank_nan {x : Machine.Num} (h : x.isNan = true) : numRank x = toLex (2, 0) := by
  cases x with
  | nan _ => rfl
  | _ => cases h

theorem numRank_lt_nan {x : Machine.Num} (h : x.isNan = false) : numRank x < toLex (2, 0) := by
  cases x with
  | nan _ => cases h
  | inf a => cases a <;> simp [numRank, Prod.Lex.toLex_lt_toLex]
  | fin => simp [numRank, Prod.Lex.toLex_lt_toLex]

theorem keyLess_iff (ty : ElemType) (a b : Nat) : keyLess ty a b = true ↔ keyRank ty a < keyRank ty b := by
  unfold keyLess keyRank
  split
  · cases ha : (tyNum ty a).isNan with
    | true =>
      rw [numRank_nan ha]
      cases hb : (tyNum ty b).isNan with
      | true => simp [ha, numRank_nan hb]
      | false => simp [ha, (numRank_lt_nan hb).not_gt]
    | false =>
      cases hb : (tyNum ty b).isNan with
      | true => simp [ha, hb, numRank_nan hb, numRank_lt_nan ha]
      | false => simpa [ha, hb] using num_lt_iff ha hb
  · simp [Prod.Lex.toLex_lt_toLex]

theorem keyLess_false_iff (ty : ElemType) (a b : Nat) : keyLess ty a b = false ↔ keyRank ty b ≤ keyRank ty a := by
  rw [← Bool.not_eq_true, keyLess_iff, not_lt]

/-- Neither of two keys is less than the other where their ranks are one. -/
theorem keyRank_eq_iff (ty : ElemType) (a b : Nat) : keyRank ty a = keyRank ty b ↔ keyLess ty a b = false ∧ keyLess ty b a = false := by
  rw [keyLess_false_iff, keyLess_false_iff, and_comm, le_antisymm_iff]

/-! The order of elements (R154, R181): by key, ascending or descending, then by the tie hash and the lane. -/

/-- A rank turned round. -/
def turned (r : ℤ ×ₗ ℚ) : ℤ ×ₗ ℚ := toLex (-(ofLex r).1, -(ofLex r).2)

theorem turned_lt_iff (x y : ℤ ×ₗ ℚ) : turned x < turned y ↔ y < x := by
  rw [turned, turned, Prod.Lex.toLex_lt_toLex, Prod.Lex.lt_iff]
  simp only [neg_lt_neg_iff, neg_inj, eq_comm]

theorem turned_inj {x y : ℤ ×ₗ ℚ} : turned x = turned y ↔ x = y := by
  rw [le_antisymm_iff, le_antisymm_iff (a := x), ← not_lt, ← not_lt, turned_lt_iff, turned_lt_iff, not_lt, not_lt, and_comm]

/-- Where an element stands in an order of keys. -/
def place (ty : ElemType) (desc : Bool) (x : Keyed) : (ℤ ×ₗ ℚ) ×ₗ ℕ ×ₗ ℕ :=
  toLex (if desc then turned (keyRank ty x.key) else keyRank ty x.key, toLex (x.h, x.lane))

theorem tie_iff (a b : Keyed) : a.tie b = true ↔ toLex (a.h, a.lane) < toLex (b.h, b.lane) := by
  simp [Keyed.tie, Prod.Lex.toLex_lt_toLex]

theorem before_iff (ty : ElemType) (desc : Bool) (a b : Keyed) : a.before ty desc b = true ↔ place ty desc a < place ty desc b := by
  cases desc <;>
    simp only [Keyed.before, place, Prod.Lex.toLex_lt_toLex, turned_lt_iff, turned_inj, Bool.or_eq_true, Bool.and_eq_true,
      Bool.not_eq_true', keyLess_iff, keyLess_false_iff, tie_iff, Bool.false_eq_true, if_true, if_false]
  · exact or_congr_right' fun h => and_congr_left' ⟨fun h' => le_antisymm h' (not_lt.1 h), fun h' => h'.le⟩
  · exact or_congr_right' fun h => and_congr_left' ⟨fun h' => le_antisymm (not_lt.1 h) h', fun h' => h'.ge⟩

theorem lane_of_place_eq {ty : ElemType} {desc : Bool} {a b : Keyed} (h : place ty desc a = place ty desc b) : a.lane = b.lane :=
  congrArg (fun x => (ofLex (ofLex x).2).2) h

/-- Of two elements of different lanes the one that is not after the other is before it. -/
theorem before_of_le {ty : ElemType} {desc : Bool} {a b : Keyed} (h : place ty desc a ≤ place ty desc b) (hl : a.lane ≠ b.lane) :
    a.before ty desc b = true := (before_iff ..).2 (h.lt_of_ne fun he => hl (lane_of_place_eq he))

/-- An element that comes before another has the key that comes first or, at equal keys, precedes it. -/
theorem before_cases {ty : ElemType} {desc : Bool} {a b : Keyed} (h : a.before ty desc b = true) :
    (if desc then keyLess ty b.key a.key else keyLess ty a.key b.key) = true ∨
      keyLess ty b.key a.key = false ∧ keyLess ty a.key b.key = false ∧ a.tie b = true := by
  by_cases hlt : (if desc then keyLess ty b.key a.key else keyLess ty a.key b.key) = true
  · exact .inl hlt
  · cases desc <;> simp_all [Keyed.before]

/-! Sorting under an order given by places. -/

section
variable {β : Type} [LinearOrder β] {lt : Keyed → Keyed → Bool} {f : Keyed → β}

theorem insertKeyed_perm (x : Keyed) (l : List Keyed) : (insertKeyed lt x l).Perm (x :: l) := by
  induction l with
  | nil => rfl
  | cons y r ih =>
    rw [insertKeyed]
    split
    · rfl
    · exact (ih.cons y).trans (.swap x y r)

theorem insertKeyed_sorted (hlt : ∀ a b, lt a b = true ↔ f a < f b) (x : Keyed) {l : List Keyed}
    (hl : l.Pairwise fun a b => f a ≤ f b) : (insertKeyed lt x l).Pairwise fun a b => f a ≤ f b := by
  induction l with
  | nil => exact List.pairwise_singleton ..
  | cons y r ih =>
    obtain ⟨hy, hr⟩ := List.pairwise_cons.1 hl
    rw [insertKeyed]
    split
    · next h =>
      have hxy : f x < f y := (hlt x y).1 h
      exact List.pairwise_cons.2 ⟨List.forall_mem_cons.2 ⟨hxy.le, fun z hz => hxy.le.trans (hy z hz)⟩, hl⟩
    · next h =>
      have hyx : f y ≤ f x := not_lt.1 fun h' => h ((hlt x y).2 h')
      refine List.pairwise_cons.2 ⟨fun z hz => ?_, ih hr⟩
      rcases List.mem_cons.1 ((insertKeyed_perm x r).mem_iff.1 hz) with rfl | hz
      · exact hyx
      · exact hy z hz

theorem foldl_insertKeyed_perm (l : List Keyed) : ∀ acc, (l.foldl (fun acc x => insertKeyed lt x acc) acc).Perm (l ++ acc) := by
  induction l with
  | nil => exact fun _ => .refl _
  | cons x r ih =>
    exact fun acc => (ih _).trans (((insertKeyed_perm x acc).append_left r).trans List.perm_middle)

theorem foldl_insertKeyed_sorted (hlt : ∀ a b, lt a b = true ↔ f a < f b) (l : List Keyed) : ∀ acc,
    acc.Pairwise (fun a b => f a ≤ f b) → (l.foldl (fun acc x => insertKeyed lt x acc) acc).Pairwise fun a b => f a ≤ f b := by
  induction l with
  | nil => exact fun _ h => h
  | cons x r ih => exact fun acc h => ih _ (insertKeyed_sorted hlt x h)

end

theorem sortKeyed_perm (lt : Keyed → Keyed → Bool) (l : List Keyed) : (sortKeyed lt l).Perm l := by
  simpa [sortKeyed] using foldl_insertKeyed_perm (lt := lt) l []

/-- Elements of different lanes sorted stand each before the next. -/
theorem sortKeyed_before (ty : ElemType) (desc : Bool) {l : List Keyed} (hl : (l.map (·.lane)).Nodup) :
    (sortKeyed (Keyed.before ty desc) l).Pairwise fun x y => x.before ty desc y = true := by
  have hle := foldl_insertKeyed_sorted (before_iff ty desc) l [] .nil
  have hlanes : ((sortKeyed (Keyed.before ty desc) l).map (·.lane)).Nodup := ((sortKeyed_perm _ l).map _).nodup_iff.2 hl
  exact hle.imp₂ (fun _ _ h hne => before_of_le h hne) (List.pairwise_map.1 hlanes)

/-- The first in an order: no element comes before it. -/
theorem foldl_first {ty : ElemType} {desc : Bool} {best : Keyed} (r : List Keyed) : ∀ x,
    r.foldl (fun best y => if y.before ty desc best then y else best) x = best →
    best ∈ x :: r ∧ ∀ y ∈ x :: r, place ty desc best ≤ place ty desc y := by
  induction r with
  | nil => rintro x rfl; simp
  | cons z r ih =>
    intro x hbest
    obtain ⟨hmem, hle⟩ := ih _ hbest
    rw [List.forall_mem_cons] at hle
    cases h : z.before ty desc x with
    | true =>
      simp only [h, if_true] at hmem hle
      exact ⟨List.mem_cons_of_mem _ hmem, List.forall_mem_cons.2 ⟨hle.1.trans ((before_iff ..).1 h).le, List.forall_mem_cons.2 hle⟩⟩
    | false =>
      have hxz : place ty desc x ≤ place ty desc z := not_lt.1 fun h' => by simp [(before_iff ..).2 h'] at h
      simp only [h, Bool.false_eq_true, if_false] at hmem hle
      refine ⟨?_, List.forall_mem_cons.2 ⟨hle.1, List.forall_mem_cons.2 ⟨hle.1.trans hxz, hle.2⟩⟩⟩
      rcases List.mem_cons.1 hmem with rfl | hr
      · exact List.mem_cons_self
      · exact List.mem_cons_of_mem _ (List.mem_cons_of_mem _ hr)

/-! The inputs: the elements of a port in the lanes that pass. -/

section
variable (s : State)

/-- The passing elements of a port with their lanes and tie hashes (R154, R180). -/
def keyed (v : Vec) : List Keyed := ((List.range 256).filter (shown s)).map fun l => ⟨lane v l, l, tieHash s s.cur.core l⟩

theorem mem_keyed {v : Vec} {x : Keyed} : x ∈ keyed s v ↔
    ∃ l ∈ (List.range 256).filter (shown s), (⟨lane v l, l, tieHash s s.cur.core l⟩ : Keyed) = x := List.mem_map

theorem keyed_lanes (v : Vec) : ((keyed s v).map (·.lane)).Nodup := by
  have hmap : (keyed s v).map (·.lane) = (List.range 256).filter (shown s) := by simp [keyed, Function.comp_def]
  rw [hmap]
  exact List.nodup_range.filter _

theorem inputs_eq (u : Nat) (v : Vec) : inputs (unitTrig s u) v = ((List.range 256).filter (shown s)).map fun l => (l, lane v l) := rfl

theorem keyedInputs_eq (u : Nat) (v : Vec) : keyedInputs (view s) (unitTrig s u) v = keyed s v := by
  simp only [keyedInputs, inputs_eq, keyed, List.map_map, Function.comp_def, tieHash, Arch.sr, view_arch_st]

/-! How an operation lands that may finish a completion record (R10, R157, R158). -/

theorem reserveRecord_run (u : Nat) (cr : Bool) : (reserveRecord (unitTrig s u) cr).run s = reserving s cr := by
  rw [reserveRecord, Prog.run_when, reserving]
  rfl

/-- Reserving a record leaves the running operation and package time. -/
theorem reserving_flying (cr : Bool) (u b : Nat) : unitTrig (reserving s cr) u = unitTrig s u ∧ flying (reserving s cr) u b = flying s u b := by
  unfold reserving
  split <;> exact ⟨rfl, rfl⟩

theorem record_land_run (u b : Nat) (cr : Bool) (y : Vec) (v : Nat) :
    (Prog.all [reserveRecord (unitTrig s u) cr, land (unitTrig s u) b y (recordPost (unitTrig s u) cr v)]).run s =
      withFlight (reserving s cr) { flying s u b with
        y0 := y, posts := if cr then [.record v u (s.cur.dest / 64 % 256)] else [] } := by
  obtain ⟨htrig, hfly⟩ := reserving_flying s cr u b
  have hland := land_run (reserving s cr) u b y (recordPost (unitTrig s u) cr v)
  rw [hfly, htrig] at hland
  rw [Prog.run_all_cons, Prog.run_all_cons, Prog.run_all_nil, reserveRecord_run]
  exact hland

theorem record_land2_run (u b : Nat) (cr : Bool) (y0 y1 : Vec) (v : Nat) :
    (Prog.all [reserveRecord (unitTrig s u) cr, land2 (unitTrig s u) b y0 y1 (recordPost (unitTrig s u) cr v)]).run s =
      withFlight (reserving s cr) { flying s u b with
        y0 := y0, y1 := some y1, posts := if cr then [.record v u (s.cur.dest / 64 % 256)] else [] } := by
  obtain ⟨htrig, hfly⟩ := reserving_flying s cr u b
  have hland := land2_run (reserving s cr) u b y0 y1 (recordPost (unitTrig s u) cr v)
  rw [hfly, htrig] at hland
  rw [Prog.run_all_cons, Prog.run_all_cons, Prog.run_all_nil, reserveRecord_run]
  exact hland
end

end Sys2Proof.Proofs


/-! PROOFS. Reductions and the scan (O27). -/

namespace Sys2Proof.Proofs
open Sys2Proof Sys2Proof.Machine Sys2Proof.Safety

/-! Sums (R182). -/

/-- A running sum of integers, as a number, is z. -/
def SumsTo (z : Int) (acc : Option Machine.Num) : Prop :=
  acc = none ∧ z = 0 ∨ ∃ neg m, acc = some (.fin neg m 0) ∧ Machine.Num.scaled neg m 0 0 = z

theorem scaled_of_int (z : Int) : Machine.Num.scaled (decide (z < 0)) z.natAbs 0 0 = z := by
  simp only [Machine.Num.scaled, sub_self, Int.toNat_zero, pow_zero, mul_one, decide_eq_true_eq]
  split <;> omega

theorem sumsTo_ofInt (z : Int) : SumsTo z (some (Machine.Num.ofInt z)) := .inr ⟨_, _, rfl, scaled_of_int z⟩

section
variable {ty : ElemType}

theorem sumsTo_sumStep (hty : tyFloat ty = false) {z : Int} {acc : Option Machine.Num} (h : SumsTo z acc) (x : Nat) :
    SumsTo (z + tyInt ty x) (sumStep ty acc x) := by
  have hnum : tyNum ty x = Machine.Num.ofInt (tyInt ty x) := by simp [tyNum, hty]
  rcases h with ⟨rfl, rfl⟩ | ⟨neg, m, rfl, rfl⟩
  · simp only [sumStep, hnum, zero_add]
    exact sumsTo_ofInt _
  · simp only [sumStep, hnum, Machine.Num.ofInt, Machine.Num.add, min_self, scaled_of_int]
    split
    · next hz => exact .inr ⟨_, _, rfl, by rw [hz]; simp [Machine.Num.scaled]⟩
    · exact .inr ⟨_, _, rfl, scaled_of_int _⟩

theorem sumResult_of_sumsTo (hty : tyFloat ty = false) {z : Int} {acc : Option Machine.Num} (h : SumsTo z acc) :
    sumResult ty acc = (z % 2 ^ 32).toNat := by
  rcases h with ⟨rfl, rfl⟩ | ⟨neg, m, rfl, rfl⟩
  · rfl
  · simp [sumResult, hty, enc]

/-- Integers are summed modulo 2^32. -/
theorem sumOf_int (hty : tyFloat ty = false) (l : List (Nat × Nat)) :
    sumOf ty l = ((l.map fun (x : Nat × Nat) => tyInt ty x.2).sum % 2 ^ 32).toNat := by
  refine sumResult_of_sumsTo hty ?_
  have hfold : ∀ (l : List (Nat × Nat)) (z : Int) (acc : Option Machine.Num), SumsTo z acc →
      SumsTo (z + (l.map fun x : Nat × Nat => tyInt ty x.2).sum) (l.foldl (fun acc x => sumStep ty acc x.2) acc) := by
    intro l
    induction l with
    | nil => simp
    | cons x r ih =>
      intro z acc h
      rw [List.map_cons, List.sum_cons, ← add_assoc]
      exact ih _ _ (sumsTo_sumStep hty h x.2)
  simpa using hfold l 0 none (.inl ⟨rfl, rfl⟩)

theorem roundIeee_f32_lt (rm : Nat) (x : Machine.Num) : roundIeee .f32 rm x < 2 ^ 32 := by
  have hsgn : ∀ (neg : Bool) (c : Nat), c < 2 ^ 31 → (if neg then c + 2 ^ 31 else c) < 2 ^ 32 := fun neg c h => by
    cases neg <;> simp <;> omega
  cases x with
  | nan _ => exact hsgn false _ (by decide)
  | inf neg => exact hsgn neg _ (by decide)
  | fin neg m e =>
    unfold roundIeee
    dsimp only
    split
    · exact hsgn neg 0 (by decide)
    · generalize (roundCode _ _ _ _ _ _ _).1 = c
      by_cases hc : c > Fmt.f32.maxCode
      · rw [if_pos hc]
        split
        · exact hsgn neg _ (by decide)
        · exact hsgn neg _ (by decide)
      · rw [if_neg hc]
        exact hsgn neg c (Nat.lt_of_le_of_lt (not_lt.1 hc) (by decide))

theorem sumResult_lt (acc : Option Machine.Num) : sumResult ty acc < 2 ^ 32 := by
  unfold sumResult
  split
  · decide
  · split
    · exact roundIeee_f32_lt ..
    · split
      · have := Int.emod_lt_of_pos (Machine.Num.scaled ‹_› ‹_› ‹_› 0) (b := 2 ^ 32) (by decide)
        simp only [enc]
        omega
      · decide
end

/-! Extremes (R182). -/

/-- The integer of x does not pass that of v, upward or downward. -/
def Unpassed (ty : ElemType) (max_ : Bool) (v x : Nat) : Prop := if max_ then tyInt ty x ≤ tyInt ty v else tyInt ty v ≤ tyInt ty x

theorem unpassed_refl (ty : ElemType) (max_ : Bool) (v : Nat) : Unpassed ty max_ v v := by
  cases max_ <;> exact le_rfl

theorem Unpassed.trans {ty : ElemType} {max_ : Bool} {u v x : Nat} (h : Unpassed ty max_ u v) (h' : Unpassed ty max_ v x) :
    Unpassed ty max_ u x := by
  cases max_
  · exact le_trans (α := Int) h h'
  · exact le_trans (α := Int) h' h

section
variable {ty : ElemType} (hty : tyFloat ty = false)
include hty

theorem pickElem_int (max_ : Bool) (a b : Nat) : (pickElem ty max_ a b = a ∨ pickElem ty max_ a b = b) ∧
    Unpassed ty max_ (pickElem ty max_ a b) a ∧ Unpassed ty max_ (pickElem ty max_ a b) b := by
  by_cases h : tyInt ty a ≤ tyInt ty b <;> cases max_ <;> simp [pickElem, Unpassed, hty, h] <;> omega

/-- The pick of a list is one of it, and none passes it. -/
theorem foldl_pickElem_int (max_ : Bool) {v : Nat} (r : List (Nat × Nat)) : ∀ x, r.foldl (fun acc y => pickElem ty max_ acc y.2) x = v →
    (v = x ∨ v ∈ r.map (·.2)) ∧ Unpassed ty max_ v x ∧ ∀ y ∈ r, Unpassed ty max_ v y.2 := by
  induction r with
  | nil => rintro x rfl; exact ⟨.inl rfl, unpassed_refl .., by simp⟩
  | cons z r ih =>
    intro x hv
    obtain ⟨hmem, hhead, hrest⟩ := ih _ hv
    obtain ⟨hpick, hx, hz⟩ := pickElem_int hty max_ x z.2
    refine ⟨?_, hhead.trans hx, List.forall_mem_cons.2 ⟨hhead.trans hz, hrest⟩⟩
    rw [List.map_cons, List.mem_cons]
    rcases hmem with rfl | hr
    · rcases hpick with h | h <;> simp [h]
    · exact .inr (.inr hr)

theorem extremeOf_int (max_ : Bool) {l : List (Nat × Nat)} (hl : l ≠ []) :
    extremeOf ty max_ l ∈ l.map (·.2) ∧ ∀ x ∈ l, Unpassed ty max_ (extremeOf ty max_ l) x.2 := by
  cases l with
  | nil => exact absurd rfl hl
  | cons x r =>
    obtain ⟨hmem, hx, hr⟩ := foldl_pickElem_int hty max_ r x.2 rfl
    simp only [extremeOf, hty, Bool.false_and, Bool.false_eq_true, if_false]
    exact ⟨List.mem_cons.2 hmem, List.forall_mem_cons.2 ⟨hx, hr⟩⟩
end

/-! The scan (R183). -/

section
variable (s : State) (ty : ElemType)

/-- The running sum of the passing inputs below lane n. -/
def runningSum (n : Nat) : Option Machine.Num :=
  ((List.range n).filter (shown s)).foldl (fun acc l => sumStep ty acc (lane s.cur.b l)) none

theorem runningSum_succ (n : Nat) :
    runningSum s ty (n + 1) = if shown s n then sumStep ty (runningSum s ty n) (lane s.cur.b n) else runningSum s ty n := by
  rw [runningSum, List.range_succ, List.filter_append, List.foldl_append]
  cases h : shown s n <;> simp [h, runningSum]

theorem prefixSums_eq (ex : Bool) : prefixSums ty ex (unitTrig s 18) =
    ((List.range 256).map fun l => sumResult ty (runningSum s ty (if ex then l else l + 1)), runningSum s ty 256) := by
  have hfold : ∀ n, (List.range n).foldl (fun (p : List Nat × Option Machine.Num) l =>
      let next := if passes (unitTrig s 18) l then sumStep ty p.2 (lane s.cur.b l) else p.2
      (p.1 ++ [sumResult ty (if ex then p.2 else next)], next)) ([], none) =
      ((List.range n).map fun l => sumResult ty (runningSum s ty (if ex then l else l + 1)), runningSum s ty n) := by
    intro n
    induction n with
    | zero => rfl
    | succ n ih =>
      have hnext : (if passes (unitTrig s 18) n then sumStep ty (runningSum s ty n) (lane s.cur.b n) else runningSum s ty n) =
          runningSum s ty (n + 1) := (runningSum_succ s ty n).symm
      rw [List.range_succ, List.foldl_append, ih, List.map_append]
      simp only [List.foldl_cons, List.foldl_nil, hnext, List.map_cons, List.map_nil]
      cases ex <;> rfl
  exact hfold 256

/-- The lanes below n. -/
theorem filter_range_lt {n m : Nat} (h : n ≤ m) : (List.range m).filter (fun l => decide (l < n)) = List.range n := by
  obtain ⟨k, rfl⟩ := Nat.exists_eq_add_of_le h
  rw [List.range_add, List.filter_append, List.filter_eq_self.2 (by simp), List.filter_eq_nil_iff.2 (by simp), List.append_nil]

theorem sumOf_below {n : Nat} (h : n ≤ 256) {p : Nat → Bool} (hp : ∀ l, p l = decide (l < n)) :
    sumOf ty ((inputs (unitTrig s 18) s.cur.b).filter fun x => p x.1) = sumResult ty (runningSum s ty n) := by
  rw [inputs_eq, sumOf, runningSum, List.filter_map, List.foldl_map, ← filter_range_lt h, List.filter_filter, List.filter_filter]
  simp only [Function.comp_def, hp, Bool.and_comm]

/-- Lane l of a vector made of 256 words. -/
theorem lane_lanesOf_map {f : Nat → Nat} (hf : ∀ l, f l < 2 ^ 32) {l : Nat} (hl : l < 256) : lane (lanesOf ((List.range 256).map f)) l = f l := by
  rw [lane, lanesOf, digit_vecOf _ hl (by decide)]
  simpa [hl] using hf l
end

/-! The operations. -/

section
variable {s : State} {ty : ElemType} {cr : Bool}

/-- An admitted reduction lands its scalar in every lane, and records it (R180). -/
theorem vsReduce_lands {i : Instr} {f : State → Trig → Nat} (he : exec i s = runOp (vsReduce cr f) s) (ho : opOf i = some (vsReduce cr f))
    (h : admitted i s) {v : Nat} (hv : f (view s) (unitTrig s 18) = v) : exec i s = .next (landsRecorded s 18 8 cr (broadcast v) v) := by
  rw [he, runOp_go _ s (admitted_go h ho), ← hv]
  exact congrArg _ (record_land_run ..)

/-- The lane of the first passing element in an order, NaNs left out, or all ones (R182). -/
theorem argFirst_first (ty : ElemType) (desc : Bool) : let first := argFirst ty desc (view s) (unitTrig s 18)
    (∃ x ∈ keyed s s.cur.b, keyNan ty x.key = false ∧ x.lane = first ∧
      ∀ y ∈ keyed s s.cur.b, keyNan ty y.key = true ∨ y.lane = x.lane ∨ x.before ty desc y = true) ∨
    (∀ x ∈ keyed s s.cur.b, keyNan ty x.key = true) ∧ first = 2 ^ 32 - 1 := by
  intro first
  have hfirst : first = argFirst ty desc (view s) (unitTrig s 18) := rfl
  rw [argFirst, keyedInputs_eq] at hfirst
  generalize hl : (keyed s s.cur.b).filter (fun x => !keyNan ty x.key) = l at hfirst
  cases l with
  | nil => exact .inr ⟨fun x hx => by simpa using List.filter_eq_nil_iff.1 hl x hx, hfirst⟩
  | cons x r =>
    obtain ⟨hmem, hle⟩ := foldl_first (ty := ty) (desc := desc) r x rfl
    rw [← hl] at hmem hle
    obtain ⟨hin, hnum⟩ := List.mem_filter.1 hmem
    refine .inl ⟨_, hin, by simpa using hnum, hfirst.symm, fun y hy => ?_⟩
    cases hy2 : keyNan ty y.key with
    | true => exact .inl rfl
    | false =>
      by_cases hlane : y.lane = (r.foldl (fun best y => if y.before ty desc best then y else best) x).lane
      · exact .inr (.inl hlane)
      · exact .inr (.inr (before_of_le (hle y (List.mem_filter.2 ⟨hy, by simp [hy2]⟩)) (Ne.symm hlane)))

theorem exec_vscan {ex : Bool} (h : admitted (.vscan ty cr ex) s) : exec (.vscan ty cr ex) s = .next (withFlight (reserving s cr) { flying s 18 10 with
    y0 := lanesOf ((List.range 256).map fun l => sumResult ty (runningSum s ty (if ex then l else l + 1)))
    posts := if cr then [.record (sumResult ty (runningSum s ty 256)) 18 (s.cur.dest / 64 % 256)] else [] }) := by
  have he : exec (.vscan ty cr ex) s = runOp (opVscan ty cr ex) s := rfl
  rw [he, runOp_go _ s (admitted_go h rfl)]
  simp only [opVscan, opRun]
  rw [prefixSums_eq]
  exact congrArg _ (record_land_run ..)
end
/-- Settles O27: integers add up in a running sum, the fold of an extreme or of an order keeps the best so far, and each lane of the scan
holds the running sum of its turn. -/
theorem reductionsAndScan : Obligations.ReductionsAndScan := by
  unfold Obligations.ReductionsAndScan
  intro s ty cr ex ins total gives h firstOf
  have htotal : ∀ l, total l = sumOf ty l := fun l => by
    cases hty : tyFloat ty with
    | true => exact if_pos hty
    | false => exact (if_neg (by simp [hty])).trans (sumOf_int hty l).symm
  have harg : ∀ (up : Bool) (i : Instr), exec i s = runOp (vsReduce cr (argFirst ty up)) s → opOf i = some (vsReduce cr (argFirst ty up)) →
      admitted i s → (∃ l, firstOf up l ∧ gives i l) ∨ (∀ x ∈ ins, keyNan ty x.2 = true) ∧ gives i (2 ^ 32 - 1) := by
    intro up i he ho hadm
    rcases argFirst_first (s := s) ty up with ⟨x, hx, hnum, hlane, hbest⟩ | ⟨hall, hnone⟩
    · obtain ⟨l, hl, rfl⟩ := (mem_keyed ..).1 hx
      refine .inl ⟨l, ⟨List.mem_map.2 ⟨l, hl, rfl⟩, hnum, List.forall_mem_map.2 fun m hm => ?_⟩, vsReduce_lands he ho hadm hlane.symm⟩
      rcases hbest ⟨lane s.cur.b m, m, h m⟩ ((mem_keyed ..).2 ⟨m, hm, rfl⟩) with hnan | hsame | hbefore
      · exact .inl hnan
      · exact .inr (.inl hsame)
      · refine .inr (.inr ((before_cases hbefore).imp_right fun ⟨hge, hle, htie⟩ => ⟨hge, hle, ?_⟩))
        simpa [Keyed.tie] using htie
    · exact .inr ⟨List.forall_mem_map.2 fun l hl => hall ⟨lane s.cur.b l, l, h l⟩ ((mem_keyed ..).2 ⟨l, hl, rfl⟩), vsReduce_lands he ho hadm hnone⟩
  refine ⟨fun _ hadm => vsReduce_lands (f := fun _ t => sumOf ty (inputs t t.b)) rfl rfl hadm (htotal ins).symm,
    fun hadm => vsReduce_lands (f := fun _ t => extremeOf ty true (inputs t t.b)) rfl rfl hadm rfl,
    fun hadm => vsReduce_lands (f := fun _ t => extremeOf ty false (inputs t t.b)) rfl rfl hadm rfl, fun hty hne => ?_, fun hnil => ?_, harg true _ rfl rfl, harg false _ rfl rfl, fun _ hadm => ?_⟩
  · obtain ⟨hmax, hge⟩ := extremeOf_int hty true hne
    obtain ⟨hmin, hle⟩ := extremeOf_int hty false hne
    exact ⟨hmax, hmin, fun x hx => ⟨hge x hx, hle x hx⟩⟩
  · rw [hnil]
    decide
  · have hall : total ins = sumResult ty (runningSum s ty 256) := by
      rw [htotal, ← sumOf_below s ty le_rfl fun _ => rfl]
      exact congrArg _ (List.filter_eq_self.2 (List.forall_mem_map.2 fun l hl => by simpa using (List.mem_filter.1 hl).1)).symm
    rw [hall]
    refine ⟨_, exec_vscan hadm, fun l hl => ?_⟩
    rw [lane_lanesOf_map (fun _ => sumResult_lt _) hl, htotal]
    refine (sumOf_below s ty ?_ (p := fun m => decide (if ex then m < l else m ≤ l)) fun m => ?_).symm
    · cases ex <;> simp <;> omega
    · cases ex <;> simp

end Sys2Proof.Proofs


/-! PROOFS. Sorts, selections and merges (O28). -/

namespace Sys2Proof.Proofs
open Sys2Proof Sys2Proof.Machine Sys2Proof.Safety

/-! One key of each class (R187). -/

section
variable {ty : ElemType}

theorem firstsOf_head (x : Keyed) (r : List Keyed) : ∃ t, firstsOf ty (x :: r) = x :: t := by
  cases r with
  | nil => exact ⟨_, rfl⟩
  | cons y r =>
    rw [firstsOf]
    split <;> exact ⟨_, rfl⟩

/-- Two keys that are equal in the order. -/
def SameKey (ty : ElemType) (x y : Keyed) : Prop := keyRank ty x.key = keyRank ty y.key

/-- A representative of an element: of its class, and the element itself or one that precedes it. -/
def Represents (ty : ElemType) (x y : Keyed) : Prop := SameKey ty x y ∧ (x = y ∨ x.tie y = true)

theorem tie_trans {x y z : Keyed} (h : x.tie y = true) (h' : y.tie z = true) : x.tie z = true :=
  (tie_iff x z).2 (((tie_iff x y).1 h).trans ((tie_iff y z).1 h'))

theorem keyRank_le_of_before {x y : Keyed} (h : x.before ty false y = true) : keyRank ty x.key ≤ keyRank ty y.key := by
  rcases before_cases h with hlt | ⟨hge, -, -⟩
  · exact ((keyLess_iff ..).1 hlt).le
  · exact (keyLess_false_iff ..).1 hge

/-- The first of each run of sorted elements: they stand in strict order, and each element has its representative among them. -/
theorem firstsOf_spec : ∀ l : List Keyed, l.Pairwise (fun x y => x.before ty false y = true) →
    (∀ x ∈ firstsOf ty l, x ∈ l) ∧ (firstsOf ty l).Pairwise (fun x y => keyLess ty x.key y.key = true) ∧
      ∀ x ∈ l, ∃ r ∈ firstsOf ty l, Represents ty r x
  | [], _ => ⟨by simp [firstsOf], .nil, by simp⟩
  | [x], _ => ⟨by simp [firstsOf], List.pairwise_singleton .., by simp [firstsOf, Represents, SameKey]⟩
  | x :: y :: r, hl => by
    obtain ⟨hx, hrest⟩ := List.pairwise_cons.1 hl
    obtain ⟨hsub, hstrict, hrep⟩ := firstsOf_spec (y :: r) hrest
    obtain ⟨hy, hyr⟩ := List.pairwise_cons.1 hrest
    obtain ⟨t, ht⟩ := firstsOf_head (ty := ty) y r
    have hself : Represents ty x x := ⟨rfl, .inl rfl⟩
    have hxy := before_cases (hx y List.mem_cons_self)
    rw [firstsOf]
    split
    · next hne =>
      have hlt : keyLess ty x.key y.key = true := by
        rcases hxy with h | ⟨hge, hle, -⟩
        · exact h
        · simp [hge, hle] at hne
      have hall : ∀ z ∈ firstsOf ty (y :: r), keyLess ty x.key z.key = true := fun z hz => by
        refine (keyLess_iff ..).2 (((keyLess_iff ..).1 hlt).trans_le ?_)
        rcases List.mem_cons.1 (hsub z hz) with rfl | hz
        · exact le_rfl
        · exact keyRank_le_of_before (hy z hz)
      refine ⟨List.forall_mem_cons.2 ⟨List.mem_cons_self, fun z hz => List.mem_cons_of_mem _ (hsub z hz)⟩,
        List.pairwise_cons.2 ⟨hall, hstrict⟩, List.forall_mem_cons.2 ⟨⟨x, List.mem_cons_self, hself⟩, fun z hz => ?_⟩⟩
      obtain ⟨w, hw, hwz⟩ := hrep z hz
      exact ⟨w, List.mem_cons_of_mem _ hw, hwz⟩
    · next heq =>
      simp only [Bool.or_eq_true, not_or, Bool.not_eq_true] at heq
      have hsame : keyRank ty x.key = keyRank ty y.key := (keyRank_eq_iff ..).2 heq
      have htie : x.tie y = true := (hxy.resolve_left (by simp [heq.1])).2.2
      rw [ht] at hsub hstrict hrep ⊢
      obtain ⟨hyt, htt⟩ := List.pairwise_cons.1 hstrict
      refine ⟨List.forall_mem_cons.2 ⟨List.mem_cons_self, fun z hz => List.mem_cons_of_mem _ (hsub z (List.mem_cons_of_mem _ hz))⟩,
        List.pairwise_cons.2 ⟨fun z hz => ?_, htt⟩, List.forall_mem_cons.2 ⟨⟨x, List.mem_cons_self, hself⟩, fun z hz => ?_⟩⟩
      · rw [keyLess_iff, hsame, ← keyLess_iff]
        exact hyt z hz
      · obtain ⟨w, hw, hwz, hwt⟩ := hrep z hz
        rcases List.mem_cons.1 hw with rfl | hw
        · refine ⟨x, List.mem_cons_self, hsame.trans hwz, .inr ?_⟩
          rcases hwt with rfl | h
          · exact htie
          · exact tie_trans htie h
        · exact ⟨w, List.mem_cons_of_mem _ hw, hwz, hwt⟩
end

/-- The key of a 32-bit type as it is put out (R128). -/
theorem keyOut_eq {ty : ElemType} (hty : tyWidth ty = 32) (x : Nat) :
    keyOut ty x = if ty = .f32 ∧ keyNan ty x = true then 0x7FC00000 else x := by
  cases ty <;> simp [tyWidth] at hty <;> simp [keyOut, keyNan, tyFloat, tyFmt, Fmt.nanCode]

/-! The operations on sorted keys. -/

section
variable {s : State} {ty : ElemType} {cr desc : Bool}

theorem exec_vsort : let l := sortKeyed (Keyed.before ty desc) (keyed s s.cur.a)
    exec (.vsort ty desc) s = .next (withFlight s { flying s 18 32 with
      y0 := lanesOf (l.map fun x => keyOut ty x.key), y1 := some (lanesOf (l.map fun x => lane s.cur.b x.lane)) }) := by
  have he : exec (.vsort ty desc) s = runOp (opVsort ty desc) s := rfl
  rw [he, runOp_go _ s (.inr rfl)]
  simp only [opVsort, opRun, keyedInputs_eq]
  exact congrArg _ (land2_run ..)

theorem exec_vtopk (h : admitted (.vtopk ty cr desc) s) :
    let k := s.cur.b.toNat % 2 ^ 32
    let l := (sortKeyed (Keyed.before ty (!desc)) ((keyed s s.cur.a).filter fun x => !keyNan ty x.key)).take k
    exec (.vtopk ty cr desc) s = .next (withFlight (reserving s cr) { flying s 18 24 with
      y0 := lanesOf (l.map (·.key)), y1 := some (lanesOf (l.map (·.lane) ++ List.replicate (k - l.length) 0xFFFFFFFF)),
      posts := if cr then [.record l.length 18 (s.cur.dest / 64 % 256)] else [] }) := by
  have he : exec (.vtopk ty cr desc) s = runOp (opVtopk ty cr desc) s := rfl
  rw [he, runOp_go _ s (admitted_go h rfl)]
  simp only [opVtopk, opRun, keyedInputs_eq]
  exact congrArg _ (record_land2_run ..)

theorem exec_vuniq (h : admitted (.vuniq ty cr) s) :
    let l := firstsOf ty (sortKeyed (Keyed.before ty false) (keyed s s.cur.a))
    exec (.vuniq ty cr) s = .next (withFlight (reserving s cr) { flying s 18 16 with
      y0 := lanesOf (l.map (fun x => keyOut ty x.key) ++ List.replicate (256 - l.length) 0xFFFFFFFF),
      y1 := some (lanesOf (l.map (·.lane) ++ List.replicate (256 - l.length) 0xFFFFFFFF)),
      posts := if cr then [.record l.length 18 (s.cur.dest / 64 % 256)] else [] }) := by
  have he : exec (.vuniq ty cr) s = runOp (opVuniq ty cr) s := rfl
  rw [he, runOp_go _ s (admitted_go h rfl)]
  simp only [opVuniq, opRun, keyedInputs_eq]
  exact congrArg _ (record_land2_run ..)
end


/-! The merge (R184), step by step. -/

/-- Where a merge stands: pairs of a and of b taken, and the pairs put out. -/
abbrev Merging := Nat × Nat × List (Nat × Nat)

/-- A pair put out, or its zero dropped. -/
def putPair (dz : Bool) (pt k v : Nat) (out : List (Nat × Nat)) : List (Nat × Nat) :=
  if dz && mergeZero pt v then out else out ++ [(k, v)]

/-- A payload taken alone. -/
def mergeAlone (pt x : Nat) : Nat := if pt = 0 then keyOut .f32 x else x

/-- The key of a pair put out, an end key beyond them. -/
def keyAt (out : List (Nat × Nat)) (i : Nat) : Nat := ((out[i]?).map (·.1)).getD (2 ^ 32 - 1)

/-- The payload of a pair put out, zero beyond them. -/
def loadAt (out : List (Nat × Nat)) (i : Nat) : Nat := ((out[i]?).map (·.2)).getD 0

theorem pairs_beyond {out : List (Nat × Nat)} {i : Nat} (h : out.length ≤ i) : keyAt out i = 2 ^ 32 - 1 ∧ loadAt out i = 0 := by
  simp [keyAt, loadAt, List.getElem?_eq_none h]

section
variable (comb pt : Nat) (dz : Bool) (a b : Vec) (nx ny : Nat)

/-- The merge goes on: there is room, and a pair to take. -/
def MergeOpen (c : Merging) : Prop := c.2.2.length < 128 ∧ (c.1 < nx ∨ c.2.1 < ny)

/-- One step of the merge. -/
def mergeStep (c : Merging) : Merging := mergeLoop comb pt dz a b nx ny 1 c.1 c.2.1 c.2.2

/-- The merge after m steps. -/
def mergeAt (m : Nat) : Merging := (mergeStep comb pt dz a b nx ny)^[m] (0, 0, [])

variable {comb pt dz a b nx ny}

theorem mergeAt_succ (m : Nat) : mergeAt comb pt dz a b nx ny (m + 1) =
    mergeStep comb pt dz a b nx ny (mergeAt comb pt dz a b nx ny m) := Function.iterate_succ_apply' ..

/-- The merge's own test. -/
theorem MergeOpen.goes_on {c : Merging} (h : MergeOpen nx ny c) : ¬ (c.2.2.length ≥ 128 ∨ (c.1 ≥ nx ∧ c.2.1 ≥ ny)) := by
  simp only [MergeOpen] at h
  omega

/-- A merge that is over stays as it is. -/
theorem mergeLoop_closed {c : Merging} (h : ¬ MergeOpen nx ny c) (n : Nat) : mergeLoop comb pt dz a b nx ny n c.1 c.2.1 c.2.2 = c := by
  cases n with
  | zero => rfl
  | succ n =>
    rw [mergeLoop, if_pos]
    simp only [MergeOpen] at h
    omega

theorem mergeStep_closed {c : Merging} (h : ¬ MergeOpen nx ny c) : mergeStep comb pt dz a b nx ny c = c := mergeLoop_closed h 1

theorem mergeLoop_eq_iterate : ∀ (n : Nat) (c : Merging),
    mergeLoop comb pt dz a b nx ny n c.1 c.2.1 c.2.2 = (mergeStep comb pt dz a b nx ny)^[n] c := by
  intro n
  induction n with
  | zero => exact fun _ => rfl
  | succ n ih =>
    intro c
    rw [Function.iterate_succ_apply, ← ih]
    by_cases h : MergeOpen nx ny c
    · simp only [mergeStep, mergeLoop, if_neg h.goes_on]
    · rw [mergeLoop_closed h, mergeStep_closed h, mergeLoop_closed h]

theorem mergeLoop_eq_mergeAt (n : Nat) : mergeLoop comb pt dz a b nx ny n 0 0 [] = mergeAt comb pt dz a b nx ny n :=
  mergeLoop_eq_iterate n (0, 0, [])

section
variable {c : Merging} (h : MergeOpen nx ny c)
include h

/-- The pair of a alone is taken: b is at its end, or a's key is the smaller. -/
theorem mergeStep_first (hf : ny ≤ c.2.1 ∨ c.1 < nx ∧ lane a (2 * c.1) < lane b (2 * c.2.1)) : mergeStep comb pt dz a b nx ny c =
    (c.1 + 1, c.2.1, putPair dz pt (lane a (2 * c.1)) (mergeAlone pt (lane a (2 * c.1 + 1))) c.2.2) := by
  simp only [mergeStep, mergeLoop, if_neg h.goes_on, ge_iff_le, hf, not_true_eq_false, false_and, if_true, if_false]
  rfl

/-- The pair of b alone is taken. -/
theorem mergeStep_second (hf : ¬ (ny ≤ c.2.1 ∨ c.1 < nx ∧ lane a (2 * c.1) < lane b (2 * c.2.1)))
    (hs : nx ≤ c.1 ∨ lane b (2 * c.2.1) < lane a (2 * c.1)) : mergeStep comb pt dz a b nx ny c =
    (c.1, c.2.1 + 1, putPair dz pt (lane b (2 * c.2.1)) (mergeAlone pt (lane b (2 * c.2.1 + 1))) c.2.2) := by
  simp only [mergeStep, mergeLoop, if_neg h.goes_on, ge_iff_le, hf, hs, not_false_eq_true, true_and, if_true, if_false]
  rfl

/-- Both pairs are taken, of one key. -/
theorem mergeStep_both (hf : ¬ (ny ≤ c.2.1 ∨ c.1 < nx ∧ lane a (2 * c.1) < lane b (2 * c.2.1)))
    (hs : ¬ (nx ≤ c.1 ∨ lane b (2 * c.2.1) < lane a (2 * c.1))) : mergeStep comb pt dz a b nx ny c =
    (c.1 + 1, c.2.1 + 1, putPair dz pt (lane a (2 * c.1)) (mergeComb comb pt (lane a (2 * c.1 + 1)) (lane b (2 * c.2.1 + 1))) c.2.2) := by
  have hkey : lane a (2 * c.1) = lane b (2 * c.2.1) := by omega
  simp only [mergeStep, mergeLoop, if_neg h.goes_on, ge_iff_le, hf, hs, not_false_eq_true, and_false, if_false]
  rw [hkey]
  rfl
end

variable (comb pt dz a b) in
/-- What a step takes: a pair of one stream or of each, and puts out at most one. -/
theorem mergeStep_advances {c : Merging} (h : MergeOpen nx ny c) (hx : c.1 ≤ nx) (hy : c.2.1 ≤ ny) :
    let d := mergeStep comb pt dz a b nx ny c
    d.1 ≤ nx ∧ d.2.1 ≤ ny ∧ c.1 + c.2.1 < d.1 + d.2.1 ∧ ∃ k v, d.2.2 = putPair dz pt k v c.2.2 := by
  have hopen := h
  simp only [MergeOpen] at hopen
  by_cases hf : ny ≤ c.2.1 ∨ c.1 < nx ∧ lane a (2 * c.1) < lane b (2 * c.2.1)
  · rw [mergeStep_first h hf]
    exact ⟨by dsimp only; omega, hy, by dsimp only; omega, _, _, rfl⟩
  · by_cases hs : nx ≤ c.1 ∨ lane b (2 * c.2.1) < lane a (2 * c.1)
    · rw [mergeStep_second h hf hs]
      exact ⟨hx, by dsimp only; omega, by dsimp only; omega, _, _, rfl⟩
    · rw [mergeStep_both h hf hs]
      exact ⟨by dsimp only; omega, by dsimp only; omega, by dsimp only; omega, _, _, rfl⟩

theorem putPair_prefix (k v : Nat) (out : List (Nat × Nat)) : out <+: putPair dz pt k v out := by
  unfold putPair
  split
  · exact List.prefix_refl _
  · exact List.prefix_append ..

theorem length_putPair_le (k v : Nat) (out : List (Nat × Nat)) : (putPair dz pt k v out).length ≤ out.length + 1 := by
  unfold putPair
  split <;> simp

/-- While the merge is open it stays within both streams and the room, and each step takes a pair. -/
theorem mergeAt_bounds {n : Nat} (h : ∀ m, m < n → MergeOpen nx ny (mergeAt comb pt dz a b nx ny m)) : ∀ m, m ≤ n →
    let c := mergeAt comb pt dz a b nx ny m
    c.1 ≤ nx ∧ c.2.1 ≤ ny ∧ m ≤ c.1 + c.2.1 ∧ c.2.2.length ≤ 128 := by
  intro m
  induction m with
  | zero => simp [mergeAt]
  | succ m ih =>
    intro hm
    obtain ⟨hx, hy, hsum, -⟩ := ih (by omega)
    obtain ⟨hx', hy', hsum', k, v, hout⟩ := mergeStep_advances comb pt dz a b (h m hm) hx hy
    have hroom := (h m hm).1
    have hlen := length_putPair_le (dz := dz) (pt := pt) k v (mergeAt comb pt dz a b nx ny m).2.2
    rw [mergeAt_succ]
    refine ⟨hx', hy', by dsimp only at *; omega, ?_⟩
    rw [hout]
    omega

/-- The merge ends after some steps, at most as many as there are pairs. -/
theorem exists_mergeAt_closed (hx : nx ≤ 128) (hy : ny ≤ 128) : ∃ n, n ≤ 256 ∧
    (∀ m, m < n → MergeOpen nx ny (mergeAt comb pt dz a b nx ny m)) ∧ ¬ MergeOpen nx ny (mergeAt comb pt dz a b nx ny n) := by
  classical
  have hex : ∃ n, ¬ MergeOpen nx ny (mergeAt comb pt dz a b nx ny n) := by
    by_contra hall
    push Not at hall
    obtain ⟨h1, h2, h3, -⟩ := mergeAt_bounds (n := 257) (fun m _ => hall m) 257 le_rfl
    omega
  refine ⟨Nat.find hex, ?_, fun m hm => not_not.1 (Nat.find_min hex hm), Nat.find_spec hex⟩
  obtain ⟨h1, h2, h3, -⟩ := mergeAt_bounds (fun m hm => not_not.1 (Nat.find_min hex hm)) (Nat.find hex) le_rfl
  omega

variable {n : Nat} (hopen : ∀ m, m < n → MergeOpen nx ny (mergeAt comb pt dz a b nx ny m))

theorem mergeAt_closed (hend : ¬ MergeOpen nx ny (mergeAt comb pt dz a b nx ny n)) (k : Nat) :
    mergeAt comb pt dz a b nx ny (n + k) = mergeAt comb pt dz a b nx ny n := by
  induction k with
  | zero => rfl
  | succ k ih => rw [← Nat.add_assoc, mergeAt_succ, ih, mergeStep_closed hend]

include hopen

/-- What is put out stays. -/
theorem mergeAt_prefix {m : Nat} (hm : m ≤ n) : (mergeAt comb pt dz a b nx ny m).2.2 <+: (mergeAt comb pt dz a b nx ny n).2.2 := by
  induction n, hm using Nat.le_induction with
  | base => exact List.prefix_refl _
  | succ k _ ih =>
    obtain ⟨hx, hy, -, -⟩ := mergeAt_bounds hopen k (by omega)
    obtain ⟨-, -, -, _, _, hout⟩ := mergeStep_advances comb pt dz a b (hopen k (by omega)) hx hy
    refine (ih fun m hm => hopen m (by omega)).trans ?_
    rw [mergeAt_succ, hout]
    exact putPair_prefix ..

/-- A pair put out at a step stands at its place in the end, and a dropped one adds none. -/
theorem mergeAt_puts {m k v : Nat} (hm : m < n)
    (hout : (mergeAt comb pt dz a b nx ny (m + 1)).2.2 = putPair dz pt k v (mergeAt comb pt dz a b nx ny m).2.2) :
    let N := fun i => (mergeAt comb pt dz a b nx ny i).2.2.length
    let out := (mergeAt comb pt dz a b nx ny n).2.2
    (dz = true ∧ mergeZero pt v = true → N (m + 1) = N m) ∧
      (¬ (dz = true ∧ mergeZero pt v = true) → N (m + 1) = N m + 1 ∧ keyAt out (N m) = k ∧ loadAt out (N m) = v) := by
  refine ⟨fun hz => ?_, fun hz => ?_⟩
  · have hput : putPair dz pt k v (mergeAt comb pt dz a b nx ny m).2.2 = _ := if_pos (by simpa using hz)
    exact congrArg List.length (hout.trans hput)
  · have hput : putPair dz pt k v (mergeAt comb pt dz a b nx ny m).2.2 = _ := if_neg (by simpa using hz)
    obtain ⟨t, ht⟩ := mergeAt_prefix hopen (Nat.succ_le_of_lt hm)
    refine ⟨by simpa using congrArg List.length (hout.trans hput), ?_⟩
    rw [← ht, hout, hput]
    simp [keyAt, loadAt]
end

/-- The pairs of a stream before its end key. -/
theorem mergeEnd_spec (v : Vec) : mergeEnd v ≤ 128 ∧ (∀ i, i < mergeEnd v → lane v (2 * i) ≠ 2 ^ 32 - 1) ∧
    (mergeEnd v < 128 → lane v (2 * mergeEnd v) = 2 ^ 32 - 1) := by
  unfold mergeEnd
  cases h : (List.range 128).find? fun i => lane v (2 * i) = 0xFFFFFFFF with
  | none =>
    refine ⟨le_rfl, fun i hi => ?_, fun h => absurd h (lt_irrefl _)⟩
    simpa using List.find?_eq_none.1 h i (List.mem_range.2 hi)
  | some n =>
    obtain ⟨hp, hmem, hmin⟩ := List.find?_range_eq_some.1 h
    refine ⟨(List.mem_range.1 hmem).le, fun i hi => by simpa using hmin i hi, fun _ => by simpa using hp⟩

/-- A list of at most 128 pairs, filled up with end keys, pair by pair. -/
theorem padded_pairs {l : List (Nat × Nat)} (h : l.length ≤ 128) :
    (l ++ List.replicate (128 - l.length) (0xFFFFFFFF, 0)).flatMap (fun (p : Nat × Nat) => [p.1, p.2]) =
    (List.range 128).flatMap fun m => [keyAt l m, loadAt l m] := by
  have hlist : l ++ List.replicate (128 - l.length) (0xFFFFFFFF, 0) = (List.range 128).map fun m => (keyAt l m, loadAt l m) := by
    refine List.ext_getElem (by simp; omega) fun i h1 h2 => ?_
    rw [List.getElem_append, List.getElem_map, List.getElem_range]
    split
    · next hi => simp [keyAt, loadAt, hi]
    · next hi => simp [keyAt, loadAt, hi]
  rw [hlist, List.flatMap_map]

section
variable {s : State} {cr dz : Bool} {comb pt : BitVec 2}

theorem exec_vmerge (h : admitted (.vmerge comb dz cr pt) s) :
    let c := mergeAt comb.toNat pt.toNat dz s.cur.a s.cur.b (mergeEnd s.cur.a) (mergeEnd s.cur.b) 256
    exec (.vmerge comb dz cr pt) s = .next (withFlight (reserving s cr) { flying s 18 16 with
      y0 := lanesOf ((c.2.2 ++ List.replicate (128 - c.2.2.length) (0xFFFFFFFF, 0)).flatMap fun (p : Nat × Nat) => [p.1, p.2]),
      y1 := some (lanesOf [c.1, c.2.1, c.2.2.length]),
      posts := if cr then [.record (c.1 + c.2.1 * 2 ^ 16 + c.2.2.length * 2 ^ 32) 18 (s.cur.dest / 64 % 256)] else [] }) := by
  have he : exec (.vmerge comb dz cr pt) s = runOp (opVmerge comb dz cr pt) s := rfl
  rw [he, runOp_go _ s (admitted_go h rfl)]
  simp only [opVmerge, opRun, mergeLoop_eq_mergeAt]
  rw [record_land2_run]

theorem mergeAlone_eq (x : Nat) : mergeAlone pt.toNat x = if pt = 0 ∧ keyNan .f32 x = true then 0x7FC00000 else x := by
  have hpt : pt.toNat = 0 ↔ pt = 0 := by rw [← BitVec.toNat_inj]; rfl
  by_cases h : pt = 0
  · simp [mergeAlone, h, keyOut_eq (ty := .f32) rfl]
  · rw [mergeAlone, if_neg (mt hpt.1 h), if_neg fun h' => h h'.1]

theorem mergeZero_iff (v : Nat) : mergeZero pt.toNat v = true ↔ v = 0 ∨ pt = 0 ∧ v = 2 ^ 31 := by
  have hpt : pt.toNat = 0 ↔ pt = 0 := by rw [← BitVec.toNat_inj]; rfl
  simp [mergeZero, hpt]

theorem mergeComb_eq (hcomb : comb ≠ 3) (hpt : pt ≠ 3) (x y : Nat) : mergeComb comb.toNat pt.toNat x y =
    if comb = 0 then (if pt = 0 then roundIeee .f32 0 (Machine.Num.add false (f32 x) (f32 y)) else (x + y) % 2 ^ 32)
    else pickElem (if pt = 0 then .f32 else if pt = 1 then .i32 else .ui32) (comb = 2) x y := by
  have hc : comb = 0 ∨ comb = 1 ∨ comb = 2 := by revert comb; decide
  have hp : pt = 0 ∨ pt = 1 ∨ pt = 2 := by revert pt; decide
  rcases hc with rfl | rfl | rfl <;> rcases hp with rfl | rfl | rfl <;> rfl

/-- What a step takes of both streams and puts out. -/
theorem mergeAt_takes {a b : Vec} {nx ny n m : Nat} (hm : m < n)
    (hopen : ∀ m, m < n → MergeOpen nx ny (mergeAt comb.toNat pt.toNat dz a b nx ny m)) {i j k v : Nat} :
    let c := mergeAt comb.toNat pt.toNat dz a b nx ny
    let N := fun i => (c i).2.2.length
    mergeStep comb.toNat pt.toNat dz a b nx ny (c m) = ((c m).1 + i, (c m).2.1 + j, putPair dz pt.toNat k v (c m).2.2) →
    (c (m + 1)).1 = (c m).1 + i ∧ (c (m + 1)).2.1 = (c m).2.1 + j ∧
      (dz = true ∧ (v = 0 ∨ pt = 0 ∧ v = 2 ^ 31) → N (m + 1) = N m) ∧
      (¬ (dz = true ∧ (v = 0 ∨ pt = 0 ∧ v = 2 ^ 31)) →
        N (m + 1) = N m + 1 ∧ keyAt (c n).2.2 (N m) = k ∧ loadAt (c n).2.2 (N m) = v) := by
  intro c N h
  have hnext : c (m + 1) = _ := (mergeAt_succ m).trans h
  rw [← mergeZero_iff]
  exact ⟨congrArg (·.1) hnext, congrArg (·.2.1) hnext, mergeAt_puts hopen hm (congrArg (·.2.2) hnext)⟩
end

/-- Settles O28: sorting puts each element before the next, the firsts of the runs of a sorted list stand for their classes, and VMERGE is
told step by step. -/
theorem sortsSelectionsAndMerges : Obligations.SortsSelectionsAndMerges := by
  unfold Obligations.SortsSelectionsAndMerges
  intro s ty cr desc dz comb pt hty ins record two pad k out
  have hlanes : (ins.map (·.lane)).Nodup := keyed_lanes s s.cur.a
  have hout : ∀ x, keyOut ty x = out x := keyOut_eq hty
  refine ⟨?_, fun hadm _ => ?_, fun hadm => ?_, fun hadm hcomb hpt => ?_⟩
  · refine ⟨_, sortKeyed_perm _ ins, sortKeyed_before ty desc hlanes, exec_vsort.trans ?_⟩
    simp only [hout]
    rfl
  · have hsub : ((ins.filter fun x => !keyNan ty x.key).map (·.lane)).Nodup := hlanes.sublist (List.filter_sublist.map _)
    refine ⟨_, sortKeyed_perm _ _, sortKeyed_before ty (!desc) hsub, (exec_vtopk hadm).trans ?_⟩
    simp only [pad, List.length_map, List.length_take]
    rfl
  · obtain ⟨hmem, hstrict, hrep⟩ := firstsOf_spec _ (sortKeyed_before ty false hlanes)
    have hperm := sortKeyed_perm (Keyed.before ty false) ins
    refine ⟨_, fun x hx => hperm.mem_iff.1 (hmem x hx), hstrict, fun x hx => ?_, (exec_vuniq hadm).trans ?_⟩
    · obtain ⟨r, hr, hsame, htie⟩ := hrep x (hperm.mem_iff.2 hx)
      obtain ⟨h1, h2⟩ := (keyRank_eq_iff ..).1 hsame
      exact ⟨r, hr, h1, h2, htie⟩
    · simp only [pad, List.length_map, hout]
      rfl
  · intro ty key load alone both zero ends
    obtain ⟨hnx, -, -⟩ := mergeEnd_spec s.cur.a
    obtain ⟨hny, -, -⟩ := mergeEnd_spec s.cur.b
    let c := mergeAt comb.toNat pt.toNat dz s.cur.a s.cur.b (mergeEnd s.cur.a) (mergeEnd s.cur.b)
    obtain ⟨n, hn, hopen, hclosed⟩ : ∃ n, n ≤ 256 ∧ (∀ m, m < n → MergeOpen _ _ (c m)) ∧ ¬ MergeOpen _ _ (c n) :=
      exists_mergeAt_closed hnx hny
    obtain ⟨-, -, -, hroom⟩ := mergeAt_bounds hopen n le_rfl
    have hend : mergeAt comb.toNat pt.toNat dz s.cur.a s.cur.b (mergeEnd s.cur.a) (mergeEnd s.cur.b) 256 =
        mergeAt comb.toNat pt.toNat dz s.cur.a s.cur.b (mergeEnd s.cur.a) (mergeEnd s.cur.b) n :=
      Nat.add_sub_of_le hn ▸ mergeAt_closed hclosed (256 - n)
    refine ⟨_, _, n, fun m => (c m).1, fun m => (c m).2.1, fun m => (c m).2.2.length, keyAt (c n).2.2, loadAt (c n).2.2,
      mergeEnd_spec s.cur.a, mergeEnd_spec s.cur.b, rfl, rfl, rfl, ⟨fun m hm => ⟨hopen m hm, ?_⟩, hclosed⟩, fun m => pairs_beyond,
      (exec_vmerge hadm).trans ?_⟩
    · intro first second takes
      obtain ⟨hx, hy, -, -⟩ := mergeAt_bounds hopen m hm.le
      have hfirst : first ↔ mergeEnd s.cur.b ≤ (c m).2.1 ∨ (c m).1 < mergeEnd s.cur.a ∧ key s.cur.a (c m).1 < key s.cur.b (c m).2.1 :=
        or_congr_left ⟨fun h => h.ge, fun h => le_antisymm hy h⟩
      have hsecond : second ↔ mergeEnd s.cur.a ≤ (c m).1 ∨ key s.cur.b (c m).2.1 < key s.cur.a (c m).1 :=
        or_congr_left ⟨fun h => h.ge, fun h => le_antisymm hx h⟩
      have halone : ∀ x, alone x = mergeAlone pt.toNat x := fun x => (mergeAlone_eq x).symm
      have hboth : ∀ x y, both x y = mergeComb comb.toNat pt.toNat x y := fun x y => (mergeComb_eq hcomb hpt x y).symm
      rw [hfirst, hsecond, halone, halone, hboth]
      exact ⟨fun hf => mergeAt_takes hm hopen (mergeStep_first (hopen m hm) hf),
        fun hf hs => mergeAt_takes hm hopen (mergeStep_second (hopen m hm) hf hs),
        fun hf hs => mergeAt_takes hm hopen (mergeStep_both (hopen m hm) hf hs)⟩
    · simp only [hend, padded_pairs hroom]
      rfl

end Sys2Proof.Proofs


/-! PROOFS. Drains and accumulator images, unit MA (O35). -/

namespace Sys2Proof.Proofs
open Sys2Proof Sys2Proof.Machine Sys2Proof.Safety

/-! Writes to arrays where no word is in error: bytes and owner tags change (R257, R258). -/

/-- A core's task-visible state and flights stand, and where none of its words is in error none is after. -/
structure CoreStands (k l : Core) : Prop where
  arch : l.arch = k.arch
  flights : l.flights = k.flights
  poison : k.poison = [] → l.poison = []
  upsets : k.upsets = [] → l.upsets = []

theorem CoreStands.refl (k : Core) : CoreStands k k := ⟨rfl, rfl, id, id⟩

/-- t is s but for bytes of arrays, owner tags, lists of errors, and what is pending. -/
structure BytesOnly (s t : State) : Prop where
  mem : t.mem = s.mem
  time : t.time = s.time
  cur : t.cur = s.cur
  core : ∀ d, CoreStands (s.core d) (t.core d)

theorem bytesOnly_frame : Frame BytesOnly where
  refl _ := ⟨rfl, rfl, rfl, fun _ => .refl _⟩
  trans _ _ _ h h' := ⟨h'.mem.trans h.mem, h'.time.trans h.time, h'.cur.trans h.cur, fun d =>
    ⟨(h'.core d).arch.trans (h.core d).arch, (h'.core d).flights.trans (h.core d).flights,
      (h'.core d).poison ∘ (h.core d).poison, (h'.core d).upsets ∘ (h.core d).upsets⟩⟩

theorem bytesOnly_setCore (c : Nat) {f : Core → Core} (hf : ∀ k, CoreStands k (f k)) : Within BytesOnly (setCore c f) := fun s =>
  ⟨rfl, rfl, rfl, fun d => withCore_core_of (P := CoreStands) s c f d .refl hf⟩

/-- No word of core c's arrays is in error. -/
def Clean (s : State) (c : Nat) : Prop := (s.core c).poison = [] ∧ (s.core c).upsets = []

theorem BytesOnly.clean {s t : State} {c : Nat} (h : BytesOnly s t) (hc : Clean s c) : Clean t c :=
  ⟨(h.core c).poison hc.1, (h.core c).upsets hc.2⟩

section
variable {s : State} {c : Nat}

theorem bytesOnly_writeLoc (hc : Clean s c) (a n v id : Nat) (w : Option Who) : BytesOnly s ((writeLoc (.arr c a) n v id w).run s) := by
  obtain ⟨hp, hu⟩ := hc
  have hput : BytesOnly s ((Eff.lput c a n v).apply s) := ⟨rfl, rfl, rfl, fun d => .refl _⟩
  simp only [writeLoc, Prog.run_get, hp, hu, List.isEmpty_nil, Bool.and_self, Bool.not_true, Bool.false_and, Bool.false_eq_true, if_false,
    Prog.run_all_cons, Prog.run_all_nil, Prog.run_eff]
  refine bytesOnly_frame.trans _ _ _ hput ?_
  exact bytesOnly_setCore c (by exact fun k => ⟨rfl, rfl, fun h => by simp [h], fun h => by simp [h, healUpsets]⟩) _

/-- A write of one piece. -/
theorem writePieces_one (s : State) (l : Loc) (n v id : Nat) (w : Option Who) :
    (writePieces [(l, 0, n)] v id w).run s = (writeLoc l n (v % 2 ^ (8 * n)) id w).run s := by
  simp only [writePieces, Prog.run_each_cons, Prog.run_each_nil, Nat.mul_zero, pow_zero, Nat.div_one]

/-- Writes of one size to a core's arrays, one after another. -/
theorem each_writePieces {α : Type} (l : List α) {homes : α → List (Loc × Nat × Nat)} {a : α → Nat} (v : α → Nat) {n : Nat}
    (id : Nat) (w : Option Who) (hh : ∀ x ∈ l, homes x = [(.arr c (a x), 0, n)]) (hc : Clean s c) :
    let t := (Prog.each l fun x => writePieces (homes x) (v x) id w).run s
    BytesOnly s t ∧ t.lmem = updAt s.lmem c fun m => l.foldl (fun m x => memPut m (a x) n (v x % 2 ^ (8 * n))) m := by
  induction l generalizing s with
  | nil => exact ⟨bytesOnly_frame.refl s, (updAt_self [] rfl).symm⟩
  | cons x l ih =>
    have hone := bytesOnly_writeLoc hc (a x) n (v x % 2 ^ (8 * n)) id w
    obtain ⟨hrest, hlmem⟩ := ih (fun y hy => hh y (List.mem_cons_of_mem _ hy)) (hone.clean hc)
    rw [Prog.run_each_cons, hh x List.mem_cons_self, writePieces_one]
    refine ⟨bytesOnly_frame.trans _ _ _ hone hrest, hlmem.trans ?_⟩
    rw [(writeLoc_arr_run s c (a x) n (v x % 2 ^ (8 * n)) id w hc.1 hc.2).1, updAt_updAt]
    rfl
end

/-- t is s but for owner tags and lists of errors. -/
def ErrorsOnly (s t : State) : Prop := BytesOnly s t ∧ t.lmem = s.lmem

theorem errorsOnly_frame : Frame ErrorsOnly where
  refl s := ⟨bytesOnly_frame.refl s, rfl⟩
  trans _ _ _ h h' := ⟨bytesOnly_frame.trans _ _ _ h.1 h'.1, h'.2.trans h.2⟩

/-- What writes made piece by piece replace in full is no longer in error; no byte changes by that (R258). -/
theorem errorsOnly_healWhole (l : List MaskedWrite) : Within ErrorsOnly (healWhole l) := fun s => by
  rw [healWhole, Prog.run_get]
  refine errorsOnly_frame.andThen (errorsOnly_frame.each _ fun c t => ⟨bytesOnly_setCore c (by
    exact fun k => ⟨rfl, rfl, fun h => by simp [h], fun h => by simp [h, healUpsets]⟩) t, rfl⟩)
    (errorsOnly_frame.andThen (errorsOnly_frame.when _ fun t => ?_) errorsOnly_frame.done) s
  exact ⟨⟨rfl, rfl, rfl, fun _ => .refl _⟩, rfl⟩

/-! An operation of MA that its bundle has checked (R206). -/

/-- The accumulator that an MA operation names. -/
theorem maAcc_unitTrig (s : State) (u : Nat) : maAcc (unitTrig s u) = (opA s).toNat % 4 := by simp [maAcc, sa_eq, field]

/-- Changes of a trigger's core that leave its own trigger: it finishes as from the state before. -/
theorem maFinish_run {s t : State} (hcur : t.cur = s.cur) (htime : t.time = s.time) (b : Nat) (p : List Post) :
    (maFinish (unitTrig s 19) b p).run t = withFlight t { flying s 19 b with
      lands := false, posts := .accFree ((opA s).toNat % 4) s.cur.maSeq.toNat :: p } := by
  have htrig : unitTrig t 19 = unitTrig s 19 := by rw [unitTrig, hcur]
  have hfly : flying t 19 b = flying s 19 b := by simp only [flying, hcur, htime]
  rw [maFinish, maAcc_unitTrig]
  change (finish (unitTrig s 19) b (.accFree ((opA s).toNat % 4) s.cur.maSeq.toNat :: p)).run t = _
  rw [← htrig, finish_run, hfly]

section
variable {s : State} (hchk : s.cur.checked = true) (hhalt : (s.core s.cur.core).arch.maHalt = false)
include hchk hhalt

/-- An operation of MA whose checks are made, MA not halted, has its effect. -/
theorem maRun_run (chk : State → Trig → Verdict) (body : State → Trig → Prog) :
    runOp (maRun chk body) s = .next ((body (view s) (unitTrig s 19)).run s) := by
  have htaken : maTaken (view s) (unitTrig s 19) = unitTrig s 19 := if_pos hchk
  rw [runOp_go _ s (.inl hchk)]
  simp only [maRun, opRun, htaken, hchk, Bool.not_true, Prog.run_all_cons, Prog.run_all_nil, Prog.run_when_false, Prog.run_get, hhalt,
    Bool.false_and, Bool.false_eq_true, if_false]
  rfl
end

/-! What the running operation sees of its core (R235). -/

section
variable (s : State) (d n : Nat)

@[simp] theorem accAt_view : accAt (view s) d n = accAt s d n := by rw [accAt, accAt, view_arch_accs]
@[simp] theorem tileAt_view : tileAt (view s) d n = tileAt s d n := by rw [tileAt, tileAt, view_arch_tiles]
@[simp] theorem spadLimit_view : spadLimit (view s) d = spadLimit s d := by rw [spadLimit, spadLimit, view_core_ctx]

theorem randomBits_view (q : BitVec 32) (site tag i : Nat) : randomBits (view s) d q site tag i = randomBits s d q site tag i := by
  simp only [randomBits, taskKeys, view_core_ctx, Arch.sr, view_arch_st]

end

/-- A core that has handed on no range has handed on none in the view. -/
theorem handedOut_view {s : State} (hc : s.cur.core < 256) (h : (s.core s.cur.core).handedOut = [])
    (hp : (s.core s.cur.core).parted = []) : ((view s).core s.cur.core).handedOut = [] := by
  rw [State.core] at h hp
  simp [view, Trig.sees, asOf, State.core, nth_updAt_self _ _ _ hc, h, hp]

section
variable (t : State) (f : Flight)

theorem withFlight_arch (d : Nat) : ((withFlight t f).core d).arch = (t.core d).arch :=
  withCore_core_of (P := fun k l => l.arch = k.arch) t t.cur.core (putFlight · f) d (fun _ => rfl) fun k => putFlight_arch k f

theorem withFlight_flights {c : Nat} (hc : t.cur.core = c) (h : c < 256) :
    ((withFlight t f).core c).flights = (putFlight (t.core c) f).flights := by
  subst hc
  exact congrArg Core.flights (withCore_core t _ (putFlight · f) h)
end

/-! Places in a core's own scratchpad, and images. -/

theorem localHome_own {s : State} {c p lim a n : Nat} {w : Bool} (hlim : a + n ≤ lim) (h4 : a + n ≤ 0x400000)
    (hh : (s.core c).handedOut = []) : localHome s c p w lim a n = .ok (.arr c a) := by
  rw [localHome, if_pos h4, if_neg (Nat.not_lt.2 hlim), handedOn, hh]
  rfl

/-- Elements of a tile in the core's own scratchpad. -/
theorem tileHomes_own {s : State} {c tile off n : Nat} (hhold : tHold (tileAt s c tile).word.toNat = 0)
    (hroom : tBase (tileAt s c tile).word.toNat + off + n ≤ min (spadLimit s c) 0x400000) (hh : (s.core c).handedOut = []) :
    tileHomes s c 2 true tile off n = [(.arr c (tBase (tileAt s c tile).word.toNat + off), 0, n)] := by
  obtain ⟨hlim, h4⟩ := le_min_iff.1 hroom
  simp only [tileHomes, tileHome, tileAddr, if_pos hhold, localHome_own hlim h4 hh]

theorem imageHomes_ok {s : State} {u d a : Nat} {w : Bool}
    (h : localHome (view s) s.cur.core 2 w (spadLimit s s.cur.core) (opB s).toNat 16384 = .ok (.arr d a)) :
    imageHomes (view s) (unitTrig s u) w = [(.arr d a, 0, 16384)] := by
  unfold imageHomes
  rw [sb_eq, spadLimit_view]
  dsimp only
  rw [h]

/-- An image is 16 KiB. -/
theorem accImage_mod (a : Acc) : accImage a % 2 ^ (8 * 16384) = accImage a := by
  have hbits : 8 * 16384 = 128 * 1024 := rfl
  rw [hbits]
  exact Nat.mod_eq_of_lt (ofDigits_lt ..)

theorem imageBound_eq (s : State) (u n : Nat) :
    imageBound (unitTrig s u) n = n + if 0x800000 ≤ (opB s).toNat then 40 else 0 := by
  rw [imageBound, sb_eq]
  split <;> rfl

section
variable {s : State} (hc : s.cur.core < 256) (hchk : s.cur.checked = true) (hhalt : (s.core s.cur.core).arch.maHalt = false)
include hchk hhalt

/-- MSAVE writes the accumulator's image (R212). -/
theorem exec_msave {d a : Nat} (hd : Clean s d)
    (h : localHome (view s) s.cur.core 2 true (spadLimit s s.cur.core) (opB s).toNat 16384 = .ok (.arr d a)) :
    ∃ t, exec .msave s = .next t ∧ (∀ e, (t.core e).arch = (s.core e).arch) ∧ t.mem = s.mem ∧
      t.lmem = updAt s.lmem d fun m => memPut m a 16384 (accImage (accAt s s.cur.core ((opA s).toNat % 4))) := by
  have he : exec .msave s = runOp opMsave s := rfl
  have hfits : accImage (accAt s s.cur.core ((opA s).toNat % 4)) % 2 ^ (8 * 16384) =
      accImage (accAt s s.cur.core ((opA s).toNat % 4)) := accImage_mod _
  have hput := bytesOnly_writeLoc hd a 16384 (accImage (accAt s s.cur.core ((opA s).toNat % 4))) (ctxId (view s) s.cur.core)
    (some ((unitTrig s 19).who (view s)))
  refine ⟨_, he.trans (maRun_run hchk hhalt _ _), ?_⟩
  rw [imageHomes_ok h, accAt_view, maAcc_unitTrig, Prog.run_all_cons, Prog.run_all_cons, Prog.run_all_nil, writePieces_one, hfits,
    maFinish_run hput.cur hput.time]
  exact ⟨fun e => (withFlight_arch ..).trans (hput.core e).arch, hput.mem, (writeLoc_arr_run s d a _ _ _ _ hd.1 hd.2).1⟩

/-! The drain (R149, R211). -/

omit hchk hhalt

/-- The format and the rows of a drain, from its control word and the columns that port c shows (R211). -/
def drainFmt (s : State) : Fmt := if (opB s).toNat % 8 = 6 then .f32 else .bf16

/-- See drainFmt. -/
def drainRows (s : State) : List Nat :=
  (List.range 1024).filter fun r => (opB s).toNat / 2 ^ 7 % 2 = 0 || s.cur.c.getLsbD (32 * (r % 32))

/-- Element r of the accumulator, drained (R149, R150). -/
def drained (s : State) (r : Nat) : Conv :=
  let acc := accAt s s.cur.core ((opA s).toNat % 4)
  let rm := (opB s).toNat / 8 % 8
  drainEl (drainFmt s) rm (if rm = 4 then randomBits s s.cur.core s.cur.srSeq 1 acc.tag.toNat r else 0)
    (nth acc.els r AccEl.zero) acc.bandA.toNat acc.bandB.toNat

/-- The output tile fills (R216). -/
def drainFills (s : State) (a : Arch) : Arch := a.setTile ((opA s).toNat / 2 ^ 8 % 64) fun x => x.fill .matrix (x.state = .empty)

/-- The accumulator is zeroed. -/
def drainZeroes (s : State) (a : Arch) : Arch :=
  a.setAcc ((opA s).toNat % 4) fun x => { x with els := Vector.replicate 1024 AccEl.zero }

theorem each_map {α β : Type} (l : List α) (f : α → β) (p : β → Prog) : Prog.each (l.map f) p = Prog.each l fun x => p (f x) := by
  simp only [Prog.each, List.map_map, Function.comp_def]

/-- The counts of conversion events are sums. -/
theorem convPost_eq (l : List Conv) : convPost l = [.conv (l.map (·.sat)).sum (l.map (·.flush)).sum (l.map (·.nan)).sum] := by
  simp only [convPost, List.sum_eq_foldl, List.foldl_map]

include hchk hhalt in
/-- A well-formed drain, step by step. -/
theorem exec_mdrain (hwf : drainFailing { s.cur with unit := 19 } (tileAt s s.cur.core ((opA s).toNat / 2 ^ 8 % 64)).word.toNat = 0) :
    let n := (opA s).toNat / 2 ^ 8 % 64
    let size := (drainFmt s).width / 8
    let homes := fun r => tileHomes (view s) s.cur.core 2 true n (r * size) size
    exec .mdrain s = .next ((Prog.all [
      setArchAt s.cur.core s.cur.seq (drainFills s),
      healWhole ((drainRows s).flatMap fun r => (homes r).map fun h => ⟨h.1, h.2.2, allBits h.2.2⟩),
      Prog.each (drainRows s) fun r => writePieces (homes r) (drained s r).code (ctxId (view s) s.cur.core)
        (some ((unitTrig s 19).who (view s))),
      Prog.when_ ((opB s).toNat / 2 ^ 6 % 2 = 1) (setArchAt s.cur.core s.cur.seq (drainZeroes s)),
      maFinish (unitTrig s 19) 24 [.tileReady n, .conv ((drainRows s).map fun r => (drained s r).sat).sum
        ((drainRows s).map fun r => (drained s r).flush).sum ((drainRows s).map fun r => (drained s r).nan).sum]]).run s) := by
  have he : exec .mdrain s = runOp opMdrain s := rfl
  have hn : maTileA (unitTrig s 19) = (opA s).toNat / 2 ^ 8 % 64 := by simp [maTileA, sa_eq, field]
  have hf3 : field (opB s).toNat 0 3 = (opB s).toNat % 8 := by simp [field]
  have hrm : field (opB s).toNat 3 3 = (opB s).toNat / 8 % 8 := rfl
  have hsb : (unitTrig s 19).sb = (opB s).toNat := sb_eq s 19
  intro n size homes
  rw [he, opMdrain, maRun_run hchk hhalt]
  have hcount : countSr (unitTrig s 19) ((opB s).toNat / 8 % 8 = 4) = .done := by simp [countSr, hchk, Prog.when_]
  simp only [hn, maAcc_unitTrig, hsb, tileAt_view, accAt_view, hwf, hf3, hrm, bne_self_eq_false, Bool.false_eq_true, if_false, bitsFor,
    randomBits_view, hcount]
  change Host.Outcome.next ((Prog.all [.done, setArchAt s.cur.core s.cur.seq (drainFills s),
      healWhole (((drainRows s).map fun r => (r, drained s r)).flatMap fun x => (homes x.1).map fun h => ⟨h.1, h.2.2, allBits h.2.2⟩),
      Prog.each ((drainRows s).map fun r => (r, drained s r)) fun x => writePieces (homes x.1) x.2.code (ctxId (view s) s.cur.core)
        (some ((unitTrig s 19).who (view s))),
      Prog.when_ ((opB s).toNat / 2 ^ 6 % 2 = 1) (setArchAt s.cur.core s.cur.seq (drainZeroes s)),
      maFinish (unitTrig s 19) 24 (.tileReady n :: convPost (((drainRows s).map fun r => (r, drained s r)).map (·.2)))]).run s) = _
  rw [Prog.run_all_cons, Prog.run_done, List.flatMap_map, each_map, convPost_eq]
  simp only [List.map_map, Function.comp_def]

include hc hchk hhalt in
/-- A drain to a tile of the core's own scratchpad where no word is in error. -/
theorem mdrain_fills (hwf : drainFailing { s.cur with unit := 19 } (tileAt s s.cur.core ((opA s).toNat / 2 ^ 8 % 64)).word.toNat = 0)
    (hhold : tHold (tileAt s s.cur.core ((opA s).toNat / 2 ^ 8 % 64)).word.toNat = 0)
    (hroom : tBase (tileAt s s.cur.core ((opA s).toNat / 2 ^ 8 % 64)).word.toNat + 1024 * ((drainFmt s).width / 8) ≤
      min (spadLimit s s.cur.core) 0x400000)
    (hhand : (s.core s.cur.core).handedOut = []) (hpart : (s.core s.cur.core).parted = []) (hclean : Clean s s.cur.core) :
    let c := s.cur.core
    let n := (opA s).toNat / 2 ^ 8 % 64
    let base := tBase (tileAt s c n).word.toNat
    let size := (drainFmt s).width / 8
    ∃ t, exec .mdrain s = .next t ∧ (∀ d, d ≠ c → (t.core d).arch = (s.core d).arch) ∧ t.mem = s.mem ∧
      t.lmem = updAt s.lmem c (fun m => (drainRows s).foldl (fun m r =>
        memPut m (base + r * size) size ((drained s r).code % 2 ^ (8 * size))) m) ∧
      (t.core c).arch = (let a := drainFills s (s.core c).arch
        if (opB s).toNat / 2 ^ 6 % 2 = 1 then drainZeroes s a else a) ∧
      (t.core c).flights = (putFlight (s.core c) { flying s 19 24 with
        lands := false, posts := .accFree ((opA s).toNat % 4) s.cur.maSeq.toNat :: .tileReady n ::
          [.conv ((drainRows s).map fun r => (drained s r).sat).sum ((drainRows s).map fun r => (drained s r).flush).sum
            ((drainRows s).map fun r => (drained s r).nan).sum] }).flights := by
  intro c n base size
  have hhome : ∀ r ∈ drainRows s, tileHomes (view s) c 2 true n (r * size) size = [(.arr c (base + r * size), 0, size)] := by
    intro r hr
    have hr' : r < 1024 := List.mem_range.1 (List.mem_filter.1 hr).1
    have hlast : r * size + size ≤ 1024 * size := Nat.succ_mul r size ▸ Nat.mul_le_mul_right size hr'
    have hin : tBase (tileAt (view s) c n).word.toNat + r * size + size ≤ min (spadLimit (view s) c) 0x400000 := by
      rw [tileAt_view, spadLimit_view, Nat.add_assoc]
      exact le_trans (Nat.add_le_add_left hlast base) hroom
    rw [tileHomes_own (by rwa [tileAt_view]) hin (handedOut_view hc hhand hpart), tileAt_view]
  refine ⟨_, exec_mdrain hchk hhalt hwf, ?_⟩
  simp only [Prog.run_all_cons, Prog.run_all_nil, Prog.run_when, setArchAt_run, apply_core_eq]
  generalize hs1 : withCore s c (fun k => k.updArch s.cur.seq (drainFills s)) = s1
  have hcore1 : s1.core c = (s.core c).updArch s.cur.seq (drainFills s) := hs1 ▸ withCore_core _ _ _ hc
  have hother1 : ∀ d, d ≠ c → s1.core d = s.core d := fun d hd => hs1 ▸ withCore_core_ne _ _ _ hd
  have hclean1 : Clean s1 c := by rw [Clean, hcore1]; exact hclean
  obtain ⟨hcur1, htime1, hmem1, hlmem1⟩ : s1.cur = s.cur ∧ s1.time = s.time ∧ s1.mem = s.mem ∧ s1.lmem = s.lmem := by
    rw [← hs1]
    exact ⟨rfl, rfl, rfl, rfl⟩
  generalize hs2 : (healWhole _).run s1 = s2
  obtain ⟨hb2, hl2⟩ : ErrorsOnly s1 s2 := hs2 ▸ errorsOnly_healWhole _ s1
  generalize hs3 : (Prog.each _ _).run s2 = s3
  obtain ⟨hb3, hl3⟩ := each_writePieces (drainRows s) (fun r => (drained s r).code) (ctxId (view s) s.cur.core)
    (some ((unitTrig s 19).who (view s))) hhome (hb2.clean hclean1)
  rw [hs3] at hb3 hl3
  obtain ⟨hmem, htime, hcur, hcore⟩ := bytesOnly_frame.trans _ _ _ hb2 hb3
  generalize hs4 : (if decide ((opB s).toNat / 2 ^ 6 % 2 = 1) = true then
    withCore s3 s.cur.core (fun k => k.updArch s.cur.seq (drainZeroes s)) else s3) = s4
  obtain ⟨hcur4, htime4, hmem4, hlmem4, hother4, harch4, hflights4⟩ : s4.cur = s3.cur ∧ s4.time = s3.time ∧ s4.mem = s3.mem ∧
      s4.lmem = s3.lmem ∧ (∀ d, d ≠ c → s4.core d = s3.core d) ∧
      (s4.core c).arch = (if (opB s).toNat / 2 ^ 6 % 2 = 1 then drainZeroes s (s3.core c).arch else (s3.core c).arch) ∧
      (s4.core c).flights = (s3.core c).flights := by
    rw [← hs4]
    by_cases hz : (opB s).toNat / 2 ^ 6 % 2 = 1
    · simp only [hz, decide_true, if_true]
      refine ⟨rfl, rfl, rfl, rfl, fun d hd => withCore_core_ne _ _ _ hd, ?_, ?_⟩ <;> rw [withCore_core _ _ _ hc] <;> rfl
    · simp only [hz, decide_false, Bool.false_eq_true, if_false, implies_true, and_self]
  rw [maFinish_run (hcur4.trans (hcur.trans hcur1)) (htime4.trans (htime.trans htime1))]
  refine ⟨fun d hd => ?_, hmem4.trans (hmem.trans hmem1), ?_, ?_, ?_⟩
  · rw [withFlight_arch, hother4 d hd, (hcore d).arch, hother1 d hd]
  · exact hlmem4.trans (hl3.trans (by rw [hl2, hlmem1]))
  · rw [withFlight_arch, harch4, (hcore c).arch, hcore1]
    rfl
  · rw [withFlight_flights _ _ (congrArg Trig.core (hcur4.trans (hcur.trans hcur1))) hc]
    exact putFlight_flights_congr _ (hflights4.trans ((hcore c).flights.trans (by rw [hcore1]; rfl)))
end

/-! Images that are read (R146, R212). -/

section
variable {s : State} {d a : Nat} (hclean : Clean s d)
include hclean

theorem readError_clean (n : Nat) : readError (view s) (.arr d a) n = none := by
  simp [readError, hclean.1, hclean.2]

/-- The bytes of an array below the parameter words. -/
theorem gather_array {n : Nat} (h : a + n ≤ 0x400000) : gather (view s) [⟨.arr d a, n, 0⟩] = memRead (nth s.lmem d []) a n := by
  have hread : readLoc (view s) (.arr d a) n = memRead (nth s.lmem d []) a n := by
    unfold readLoc
    dsimp only
    rw [if_neg (by omega), if_neg (by omega), view_lmem]
  rw [gather, List.foldl_cons, List.foldl_nil]
  simp only [readError_clean hclean, hread, Option.isSome_none, Bool.false_eq_true, if_false, zero_add, pow_zero, mul_one]
end

/-- The elements of an image, none where they are ill-formed. -/
def imageEls (x : Nat) : List (Option AccEl) := (List.range 1024).map fun i => accOfImage (digit x 128 i)

theorem imageEls_eq (x : Nat) : imageEls x = (List.range 1024).map fun i => accOfImage (digit x 128 i) := rfl

theorem imageEls_sound {x : Nat} {e : Nat → AccEl} (h : ∀ i, i < 1024 → accOfImage (digit x 128 i) = some (e i)) :
    imageEls x = (List.range 1024).map fun i => some (e i) :=
  List.map_congr_left fun i hi => h i (List.mem_range.1 hi)

section
variable {s : State} {x bound : Nat} {l : List Piece} (hl : piecesFrom 0 (imageHomes (view s) (unitTrig s 19) false) = l)
  (hx : gather (view s) l = x) (f : Vector AccEl 1024 → Acc → Acc)
include hl hx

/-- An image with an ill-formed element. -/
theorem imageRead_bad {i : Nat} (hi : i < 1024) (h : accOfImage (digit x 128 i) = none) :
    ∃ w, imageRead (view s) (unitTrig s 19) bound f = maIllFormed (unitTrig s 19) 10 w := by
  cases hfind : (imageEls x).zipIdx.find? (·.1.isNone) with
  | none =>
    have hmem : ((none : Option AccEl), i) ∈ (imageEls x).zipIdx := List.mk_mem_zipIdx_iff_getElem?.2 (by simp [imageEls, hi, h])
    simpa using List.find?_eq_none.1 hfind _ hmem
  | some p =>
    refine ⟨p.2, ?_⟩
    unfold imageRead
    rw [hl]
    dsimp only
    rw [hx]
    rw [← imageEls_eq, hfind]

/-- A sound image. -/
theorem imageRead_good {e : Nat → AccEl} (h : ∀ i, i < 1024 → accOfImage (digit x 128 i) = some (e i)) :
    imageRead (view s) (unitTrig s 19) bound f = Prog.all [
      setArchAt s.cur.core s.cur.seq (fun a => a.setAcc ((opA s).toNat % 4) (f (Vector.ofFn fun (i : Fin 1024) => e i.val))),
      Prog.each (l.filter fun p => (readError (view s) p.at_ p.n).isSome) (fun p => consumeError ((unitTrig s 19).who (view s)) p.at_ p.n),
      maFinish (unitTrig s 19) bound []] := by
  have hels : imageEls x = (List.range 1024).map fun i => some (e i) := imageEls_sound h
  have hfind : (imageEls x).zipIdx.find? (·.1.isNone) = none := by
    refine List.find?_eq_none.2 fun p hp => ?_
    have hmem := List.fst_mem_of_mem_zipIdx hp
    rw [hels] at hmem
    obtain ⟨i, -, hi⟩ := List.mem_map.1 hmem
    simp [← hi]
  have hvec : (Vector.ofFn fun (i : Fin 1024) => (((imageEls x).toArray[i.val]?).getD none).getD AccEl.zero) =
      Vector.ofFn fun (i : Fin 1024) => e i.val := by
    refine congrArg _ (funext fun i => ?_)
    simp [hels]
  unfold imageRead
  rw [hl]
  dsimp only
  rw [hx, maAcc_unitTrig]
  rw [← imageEls_eq, hfind]
  dsimp only
  rw [hvec]
end

section
variable {s : State} {d a : Nat} {e : Nat → AccEl} (hchk : s.cur.checked = true)
  (hhalt : (s.core s.cur.core).arch.maHalt = false)
  (hhome : localHome (view s) s.cur.core 2 false (spadLimit s s.cur.core) (opB s).toNat 16384 = .ok (.arr d a))
  (hroom : a + 16384 ≤ 0x400000) (hclean : Clean s d)

/-- The pieces of an image in one array. -/
theorem imagePieces (hhome : localHome (view s) s.cur.core 2 false (spadLimit s s.cur.core) (opB s).toNat 16384 = .ok (.arr d a)) :
    piecesFrom 0 (imageHomes (view s) (unitTrig s 19) false) = [⟨.arr d a, 16384, 0⟩] := by
  rw [imageHomes_ok hhome]
  rfl

include hchk hhalt hhome hroom hclean

/-- An operation of MA that reads a sound image changes its accumulator by it, in one step (R212). -/
theorem imageRead_run (chk : State → Trig → Verdict) (n : Nat) (f : Vector AccEl 1024 → Acc → Acc)
    (h : ∀ i, i < 1024 → accOfImage (digit (memRead (nth s.lmem d []) a 16384) 128 i) = some (e i)) :
    runOp (maRun chk fun s t => imageRead s t (imageBound t n) f) s =
      .next (withFlight (withArchAt s fun x => x.setAcc ((opA s).toNat % 4) (f (Vector.ofFn fun (i : Fin 1024) => e i.val)))
        { flying s 19 (n + if 0x800000 ≤ (opB s).toNat then 40 else 0) with
          lands := false, posts := [.accFree ((opA s).toNat % 4) s.cur.maSeq.toNat] }) := by
  have hsound : ([⟨.arr d a, 16384, 0⟩] : List Piece).filter (fun p => (readError (view s) p.at_ p.n).isSome) = [] := by
    simp [readError_clean hclean]
  rw [maRun_run hchk hhalt, imageRead_good (imagePieces hhome) (gather_array hclean hroom) f h, hsound, imageBound_eq]
  simp only [Prog.run_all_cons, Prog.run_all_nil, Prog.run_each_nil]
  exact congrArg Host.Outcome.next (maFinish_run (s := s) (t := withArchAt s _) rfl rfl _ _)

/-- An operation of MA that reads an image with an ill-formed element is refused (R206, R212). -/
theorem imageRead_refused (chk : State → Trig → Verdict) (n : Nat) (f : Vector AccEl 1024 → Acc → Acc) {i : Nat} (hi : i < 1024)
    (h : accOfImage (digit (memRead (nth s.lmem d []) a 16384) 128 i) = none) :
    ∃ w, runOp (maRun chk fun s t => imageRead s t (imageBound t n) f) s = .next ((maIllFormed (unitTrig s 19) 10 w).run s) := by
  obtain ⟨w, hw⟩ := imageRead_bad (bound := imageBound (unitTrig s 19) n) (imagePieces hhome) (gather_array hclean hroom) f hi h
  exact ⟨w, (maRun_run hchk hhalt _ _).trans (by rw [hw])⟩
end

/-- Adding the elements of an image one by one (R148). -/
theorem zipWith_contribution (els : Vector AccEl 1024) (p : Nat) (e : Nat → AccEl) :
    els.zipWith (fun a x => accAddUnder p a x.contribution) (Vector.ofFn fun (i : Fin 1024) => e i.val) =
      Vector.ofFn fun (i : Fin 1024) => accAddUnder p (nth els i.val AccEl.zero) (e i.val).contribution := by
  ext i
  simp [nth]

/-! A refused operation of MA with a target (R206). -/

/-- The accumulators are as changed by marks of who holds them and of validity: accumulator n is invalid, its elements stand. -/
def Invalidated (n : Nat) (a b : Arch) : Prop :=
  (nth b.accs n (Acc.reset n)).invalid = true ∧ (nth b.accs n (Acc.reset n)).els = (nth a.accs n (Acc.reset n)).els

/-- What a refused operation with a target that is no MMA makes of its core's task-visible state. -/
theorem invalidated_refused {t : Trig} (a : Arch) (hop : t.opcode = 5 ∨ t.opcode = 6) :
    Invalidated (maAcc t) a ((maRelease t a).setAcc (maAcc t) fun x => { x with invalid := true }) := by
  have hn : maAcc t < 4 := Nat.mod_lt _ (by decide)
  have hnames : namesAcc t.opcode = true := by obtain h | h := hop <;> rw [h] <;> rfl
  have hmma : t.opcode ≠ 1 := by omega
  simp only [maRelease, hnames, hmma, if_true, if_false, Invalidated, Arch.setAcc, nth_updAt_self _ _ _ hn, and_self]

section
variable {s : State}

/-- A refused operation with a target: what it does to its core before its record is all it does to it. -/
theorem maRefused_core {t : Trig} (hc : t.core < 256) (ht : maTarget t.opcode = true) (hr : recordable s (dieOf t.core)) (check w : Nat) :
    ((maRefused t check w).run s).core t.core = (s.core t.core).updArch t.seq fun a =>
      (maRelease t a).setAcc (maAcc t) fun x => { x with invalid := true } := by
  simp only [maRefused, ht, if_true, Prog.run_all_cons, Prog.run_all_nil, Prog.run_get, setArchAt_run, apply_core_eq]
  generalize hs1 : withCore s t.core _ = s1
  have hr1 : recordable s1 (dieOf t.core) := hs1 ▸ hr
  have hrec := errorRecord_leaves (r := maRecord s1 t.core t.pc t.slot t.maSeq 0x12 (maInfo t check w) false 0) hr1
  rw [State.core, hrec.1, ← State.core, ← hs1]
  exact withCore_core _ _ _ hc

/-- MA halts where no operation waits for its start. -/
theorem maHalts_arch {c : Nat} (hc : c < 256) (h : nth (s.core c).captured 0 [] = []) (q : Nat) :
    (((maHalts c q).run s).core c).arch = { (s.core c).arch with maHalt := true } := by
  simp only [maHalts, Prog.run_get, h, List.filter_nil, Prog.run_all_cons, Prog.run_all_nil, Prog.run_each_nil, setArchAt_run,
    apply_core_eq, setCore, Prog.run_eff, withCore_core _ _ _ hc, updArch_arch]

/-- An ill-formed image's operation halts MA and marks its accumulator. -/
theorem maIllFormed_run (hc : s.cur.core < 256) (hop : s.cur.dest / 64 % 256 = 5 ∨ s.cur.dest / 64 % 256 = 6)
    (hcap : nth (s.core s.cur.core).captured 0 [] = []) (hr : recordable s (dieOf s.cur.core)) (check w : Nat) :
    let t := (maIllFormed (unitTrig s 19) check w).run s
    (t.core s.cur.core).arch.maHalt = true ∧
      Invalidated ((opA s).toNat % 4) (s.core s.cur.core).arch (t.core s.cur.core).arch := by
  have htarget : maTarget (unitTrig s 19).opcode = true := by
    obtain h | h := hop <;> rw [show (unitTrig s 19).opcode = _ from h] <;> rfl
  have hrefused := maRefused_core (t := unitTrig s 19) hc htarget hr check w
  have hinv := invalidated_refused (t := unitTrig s 19) (s.core s.cur.core).arch hop
  rw [maAcc_unitTrig] at hrefused hinv
  simp only [maIllFormed, Prog.run_all_cons, Prog.run_all_nil, setArchAt_run, apply_core_eq]
  generalize (maRefused (unitTrig s 19) check w).run s = s1 at hrefused ⊢
  generalize hs2 : withCore s1 s.cur.core _ = s2
  have hdone : s2.core s.cur.core = (s1.core s.cur.core).updArch s.cur.seq (·.engineDone 19) := hs2 ▸ withCore_core _ _ _ hc
  rw [hrefused] at hdone
  have hwaiting : nth (s2.core s.cur.core).captured 0 [] = [] := by
    rw [hdone]
    exact hcap
  rw [maHalts_arch hc hwaiting, hdone]
  exact ⟨rfl, hinv⟩
end

/-- A tile that fills keeps the buckle that it had while empty (R216). -/
theorem drainFills_eq (s : State) (a : Arch) : drainFills s a = a.setTile ((opA s).toNat / 2 ^ 8 % 64) fun x =>
    { x with state := .filling, filler := .matrix, buckle := if x.state = .empty then x.buckle else none } := by
  simp only [drainFills, Tile.fill, decide_eq_true_eq]

/-- Settles O35: each operation, its checks made and MA not halted, step by step; an image is taken where no element of it is
ill-formed, and refused otherwise. -/
theorem drainsAndAccumulatorImages : Obligations.DrainsAndAccumulatorImages := by
  unfold Obligations.DrainsAndAccumulatorImages
  intro s hc hchk hhalt c k n acc b done others
  refine ⟨?drain, ?save, ?image, ?illFormed⟩
  case drain =>
    intro tile x w f rm size rows out hwf hhold hroom hhand hpart hpoison hupsets
    obtain ⟨t, ht, harch, hmem, hlmem, hown, hflights⟩ := mdrain_fills hc hchk hhalt hwf hhold hroom hhand hpart ⟨hpoison, hupsets⟩
    rw [drainFills_eq] at hown
    exact ⟨t, ht, ⟨harch, hmem⟩, hlmem, hown, hflights⟩
  case save =>
    intro d a hhome hpoison hupsets
    obtain ⟨t, ht, harch, hmem, hlmem⟩ := exec_msave hchk hhalt ⟨hpoison, hupsets⟩ hhome
    exact ⟨t, ht, ⟨fun e _ => harch e, hmem⟩, hlmem, harch c⟩
  case image =>
    intro d a e hhome hroom hpoison hupsets hsound extra
    refine ⟨imageRead_run hchk hhalt hhome hroom ⟨hpoison, hupsets⟩ _ 40 _ hsound,
      (imageRead_run hchk hhalt hhome hroom ⟨hpoison, hupsets⟩ _ 48 _ hsound).trans ?_⟩
    simp only [zipWith_contribution]
    rfl
  case illFormed =>
    intro d a i hhome hroom hpoison hupsets hi hbad hop hcap hr
    obtain ⟨w, hload⟩ := imageRead_refused hchk hhalt hhome hroom ⟨hpoison, hupsets⟩ (maCheck (fun _ => []) true false) 40
      (fun els x => { x with els := els, invalid := false, bandA := 0x3F80, bandB := 0x3F80, lastProfile := 1 }) hi hbad
    obtain ⟨v, hadd⟩ := imageRead_refused hchk hhalt hhome hroom ⟨hpoison, hupsets⟩ (maCheck (fun _ => []) true false) 48
      (fun els x => { x with els := Vector.zipWith (fun a e => accAddUnder x.lastProfile a e.contribution) x.els els }) hi hbad
    exact ⟨⟨_, hload, maIllFormed_run hc hop hcap hr 10 w⟩, ⟨_, hadd, maIllFormed_run hc hop hcap hr 10 v⟩⟩

end Sys2Proof.Proofs


/-! PROOFS. Elements of vectors (O19 to O26): what an element-wise operation without a check lands, and integers in elements. -/

namespace Sys2Proof.Proofs
open Sys2Proof Sys2Proof.Machine Sys2Proof.Safety

section
variable (v : Vec) (w j : Nat)

theorem el_lt : el v w j < 2 ^ w := Nat.mod_lt _ (Nat.two_pow_pos w)

theorem el_mod : el v w j % 2 ^ w = el v w j := digit_mod ..
end

theorem tyWidth_pos (ty : ElemType) : 0 < tyWidth ty := by cases ty <;> decide

section
variable {s : State} {i : Instr} {u b w : Nat} {f : Trig → Nat → Nat}

/-- An operation without a check lands what it makes of its trigger. -/
theorem runOp_lands (s : State) (u b : Nat) (f : Trig → Vec) :
    runOp (opRun u always fun _ t => land t b (f t) []) s = .next (lands s u b (f (unitTrig s u))) := by
  rw [runOp_go _ s (.inr rfl)]
  exact congrArg _ (land_run ..)

/-- An operation without a check that makes each element of its result from its operands. -/
theorem lands_elements (he : exec i s = runOp (opRun u always fun _ t => land t b (vecOf (elCount w) w (f t)) []) s) :
    ∃ y, exec i s = .next (lands s u b y) ∧ ∀ j, j < 8192 / w → el y w j = f (unitTrig s u) j % 2 ^ w :=
  ⟨_, he.trans (runOp_lands ..), fun _ hj => digit_vecOf _ hj (Nat.mul_div_le 8192 w)⟩
end

/-! Integers in elements (R155, R163). -/

/-- The signed reading of the low bits is that of a word of their width. -/
theorem sint_eq_toInt (x : Nat) {w : Nat} (hw : 0 < w) : sint x w = (BitVec.ofNat w x).toInt := by
  have hhalf : 2 * (x % 2 ^ w) < 2 ^ w ↔ x % 2 ^ w < 2 ^ (w - 1) := by
    rw [← Nat.two_pow_pred_add_two_pow_pred hw]
    omega
  simp only [sint, BitVec.toInt, BitVec.toNat_ofNat, hhalf]
  push_cast
  rfl

theorem sint_emod (x w : Nat) : sint x w % 2 ^ w = ((x % 2 ^ w : Nat) : Int) := by
  have hself : ((x % 2 ^ w : Nat) : Int) % 2 ^ w = ((x % 2 ^ w : Nat) : Int) := by
    push_cast
    exact Int.emod_emod ..
  rw [sint]
  split
  · exact hself
  · rw [Int.sub_emod_right]
    exact hself

/-- The least and the greatest integer of a type. -/
def leastInt (ty : ElemType) : Int := if tySigned ty then -(2 ^ (tyWidth ty - 1)) else 0

/-- See leastInt. -/
def greatestInt (ty : ElemType) : Int := if tySigned ty then 2 ^ (tyWidth ty - 1) - 1 else 2 ^ tyWidth ty - 1

section
variable (ty : ElemType)

theorem tyClamp_eq (z : Int) : tyClamp ty z = max (leastInt ty) (min (greatestInt ty) z) := by
  unfold tyClamp leastInt greatestInt
  split <;> rw [min_comm]

theorem natCast_enc_mod (z : Int) (w : Nat) : ((enc z w % 2 ^ w : Nat) : Int) = z % 2 ^ w := by
  have hpos : (0 : Int) < 2 ^ w := by positivity
  rw [enc, Int.natCast_emod, Int.toNat_of_nonneg (Int.emod_nonneg z hpos.ne')]
  push_cast
  exact Int.emod_emod ..

/-- An integer result in its element: wrapped, or clamped to the type's range. -/
theorem natCast_intResult (sat : Bool) (z : Int) : ((intResult ty sat z % 2 ^ tyWidth ty : Nat) : Int) =
    (if sat then max (leastInt ty) (min (greatestInt ty) z) else z) % 2 ^ tyWidth ty := by
  rw [intResult, natCast_enc_mod, tyClamp_eq]

theorem tyInt_bounds (x : Nat) : leastInt ty ≤ tyInt ty x ∧ tyInt ty x ≤ greatestInt ty := by
  have hpos := tyWidth_pos ty
  unfold leastInt greatestInt tyInt
  cases tySigned ty with
  | true =>
    simp only [if_true, sint_eq_toInt x hpos]
    exact ⟨BitVec.le_toInt _, Int.le_sub_one_of_lt BitVec.toInt_lt⟩
  | false =>
    have hlt : x % 2 ^ tyWidth ty < 2 ^ tyWidth ty := Nat.mod_lt _ (Nat.two_pow_pos _)
    simp only [Bool.false_eq_true, if_false]
    exact ⟨Int.natCast_nonneg _, Int.le_sub_one_of_lt (by exact_mod_cast hlt)⟩

/-- The code of an integer is the integer modulo 2^w. -/
theorem tyInt_emod (x : Nat) : tyInt ty x % 2 ^ tyWidth ty = ((x % 2 ^ tyWidth ty : Nat) : Int) := by
  unfold tyInt
  split
  · exact sint_emod ..
  · push_cast
    exact Int.emod_emod ..

/-- Clamping leaves an element of the type as it is. -/
theorem natCast_element (sat : Bool) (x : Nat) : ((x % 2 ^ tyWidth ty : Nat) : Int) =
    (if sat then max (leastInt ty) (min (greatestInt ty) (tyInt ty x)) else tyInt ty x) % 2 ^ tyWidth ty := by
  obtain ⟨hlo, hhi⟩ := tyInt_bounds ty x
  rw [min_eq_right hhi, max_eq_right hlo, ite_self, tyInt_emod]

variable {ty} in
/-- The smaller of two integer elements. -/
theorem tyInt_pick_min (hty : tyFloat ty = false) (a b : Nat) : tyInt ty (pickElem ty false a b) = min (tyInt ty a) (tyInt ty b) := by
  by_cases h : tyInt ty a ≤ tyInt ty b <;> simp [pickElem, hty, h]
  omega

variable {ty} in
/-- The larger of two integer elements. -/
theorem tyInt_pick_max (hty : tyFloat ty = false) (a b : Nat) : tyInt ty (pickElem ty true a b) = max (tyInt ty a) (tyInt ty b) := by
  by_cases h : tyInt ty a ≤ tyInt ty b <;> simp [pickElem, hty, h]
  omega
end

/-- Settles O19: each element is an integer result, or one that the type's order picks, which clamping leaves as it is. -/
theorem vectorIntegerArithmetic : Obligations.VectorIntegerArithmetic := by
  unfold Obligations.VectorIntegerArithmetic
  intro s u sat ty hty w hi lo md A B C gives va
  have hsat : md.getLsbD 0 = sat := by
    have : ∀ x : Bool, (if x then (1 : BitVec 3) else 0).getLsbD 0 = x := by decide
    exact this sat
  have each : ∀ {i : Instr} {unit bound : Nat} {F : Trig → Nat → Nat} {f : Nat → Int},
      exec i s = runOp (opRun unit always fun _ t => land t bound (vecOf (elCount w) w (F t)) []) s →
      (∀ j, ((F (unitTrig s unit) j % 2 ^ w : Nat) : Int) = (if sat then max lo (min hi (f j)) else f j) % 2 ^ w) →
      gives i unit bound f := by
    intro i unit bound F f he hF
    obtain ⟨y, hy, hel⟩ := lands_elements he
    exact ⟨y, hy, fun j hj => by rw [hel j hj, hF]⟩
  have hresult : ∀ (z : Int) (n : Nat), ((if tyFloat ty then n else intResult ty sat z) % 2 ^ w : Nat) =
      (if sat then max lo (min hi z) else z) % 2 ^ w := fun z n => by
    simp only [hty, Bool.false_eq_true, if_false]
    exact natCast_intResult ty sat z
  refine ⟨each rfl fun j => ?_, each rfl fun j => ?_, each rfl fun j => ?_, each rfl fun j => natCast_intResult ty sat _,
    each rfl fun j => ?_, each rfl fun j => hresult _ _, each rfl fun j => ?_, each rfl fun j => ?_, each rfl fun j => ?_⟩
  · rw [hsat]; exact hresult _ _
  · rw [hsat]; exact hresult _ _
  · rw [hsat]; exact hresult _ _
  · rw [Int.abs_eq_natAbs]; exact hresult _ _
  · rw [← tyInt_pick_min hty]; exact natCast_element ty sat _
  · rw [← tyInt_pick_max hty]; exact natCast_element ty sat _
  · rw [hty, ← tyInt_pick_max hty, ← tyInt_pick_min hty]
    exact natCast_element ty sat _

end Sys2Proof.Proofs


/-! PROOFS. Float arithmetic and functions of VA and VM (O20): the order of floats and picks under it, and signs. -/

namespace Sys2Proof.Proofs
open Sys2Proof Sys2Proof.Machine Sys2Proof.Safety

/-! The order of floats with -0 below +0 (R164), as the order of a place: the rank of the value, then the sign. -/

def signPlace (x : Machine.Num) : (ℤ ×ₗ ℚ) ×ₗ ℕ := toLex (numRank x, (!x.neg?).toNat)

/-- x lies below y, -0 below +0 (R164). -/
def signBelow (x y : Machine.Num) : Bool := x.lt y || (x.eq y && x.neg? && !y.neg?)

section
variable {x y : Machine.Num} (hx : x.isNan = false) (hy : y.isNan = false)
include hx hy

theorem num_eq_iff : x.eq y = true ↔ numRank x = numRank y := by
  have hxy : x.lt y = false ↔ numRank y ≤ numRank x := by rw [← Bool.not_eq_true, num_lt_iff hx hy, not_lt]
  have hyx : y.lt x = false ↔ numRank x ≤ numRank y := by rw [← Bool.not_eq_true, num_lt_iff hy hx, not_lt]
  simp only [Machine.Num.eq, hx, hy, Bool.not_false, Bool.true_and, Bool.and_eq_true, Bool.not_eq_true', hxy, hyx]
  rw [and_comm, le_antisymm_iff]

theorem signBelow_iff : signBelow x y = true ↔ signPlace x < signPlace y := by
  rw [signBelow, signPlace, signPlace, Prod.Lex.toLex_lt_toLex, Bool.or_eq_true, num_lt_iff hx hy, Bool.and_eq_true, Bool.and_eq_true,
    num_eq_iff hx hy, and_assoc]
  refine or_congr_right (and_congr_right' ?_)
  cases x.neg? <;> cases y.neg? <;> simp
end

/-! A float code from its value and sign. -/

theorem numRank_inf_ne_fin (a b : Bool) (m : Nat) (e : Int) : numRank (.inf a) ≠ numRank (.fin b m e) := by
  cases a <;> simp [numRank]

theorem valueOf_eq_of_numRank {a b : Bool} {m n : Nat} {e g : Int} (h : numRank (.fin a m e) = numRank (.fin b n g)) :
    valueOf a m e = valueOf b n g := congrArg (fun x => (ofLex x).2) h

/-- Equal values of one sign, their exponents counted from one origin. -/
theorem mul_two_pow_eq_of_valueOf {neg : Bool} {m n a b : Nat} {k : Int} (h : valueOf neg m (a - k) = valueOf neg n (b - k)) :
    m * 2 ^ a = n * 2 ^ b := by
  have hscale : (2 : ℚ) ^ (-k) ≠ 0 := zpow_ne_zero _ two_ne_zero
  have hpow : ∀ i : Nat, (2 : ℚ) ^ ((i : Int) - k) = 2 ^ i * 2 ^ (-k) := fun i => by
    rw [sub_eq_add_neg, zpow_add₀ two_ne_zero, zpow_natCast]
  rw [valueOf, valueOf, hpow, hpow, ← mul_assoc, ← mul_assoc, mul_left_inj' hscale] at h
  cases neg with
  | false =>
    simp only [Bool.false_eq_true, if_false] at h
    exact_mod_cast h
  | true =>
    simp only [if_true, neg_mul, neg_inj] at h
    exact_mod_cast h

/-- Two significands below 2^(mb + 1) of one value have the same exponent field and fraction: above field 0 the hidden bit is 1 (R125). -/
theorem field_le_of_value_eq {mb x y m n : Nat} (hm : m < 2 ^ mb)
    (h : ((if x = 0 then 0 else 2 ^ mb) + m) * 2 ^ max x 1 = ((if y = 0 then 0 else 2 ^ mb) + n) * 2 ^ max y 1) : y ≤ x := by
  by_contra hlt
  have hy : y ≠ 0 := by omega
  rw [if_neg hy, max_eq_left (show 1 ≤ y by omega)] at h
  have hx : ((if x = 0 then 0 else 2 ^ mb) + m) * 2 ^ max x 1 < 2 ^ mb * 2 ^ y := by
    by_cases h0 : x = 0
    · rw [if_pos h0, h0, zero_add]
      exact Nat.mul_lt_mul_of_lt_of_le hm (Nat.pow_le_pow_right two_pos (by omega)) (by positivity)
    · rw [if_neg h0, max_eq_left (show 1 ≤ x by omega)]
      calc (2 ^ mb + m) * 2 ^ x < (2 ^ mb + 2 ^ mb) * 2 ^ x := by gcongr
        _ = 2 ^ mb * 2 ^ (x + 1) := by ring
        _ ≤ 2 ^ mb * 2 ^ y := by gcongr <;> omega
  rw [h, Nat.add_mul] at hx
  omega

theorem fields_eq_of_value_eq {mb x y m n : Nat} (hm : m < 2 ^ mb) (hn : n < 2 ^ mb)
    (h : ((if x = 0 then 0 else 2 ^ mb) + m) * 2 ^ max x 1 = ((if y = 0 then 0 else 2 ^ mb) + n) * 2 ^ max y 1) : x = y ∧ m = n := by
  obtain rfl : x = y := le_antisymm (field_le_of_value_eq hn h.symm) (field_le_of_value_eq hm h)
  exact ⟨rfl, Nat.add_left_cancel (Nat.eq_of_mul_eq_mul_right (by positivity) h)⟩

section
variable {f : Fmt} (hf : f = .f32 ∨ f = .bf16)

/-- Fraction bits of a format with an exponent. -/
def fracBits (f : Fmt) : Nat := f.layout.1

/-- Exponent field of a code (R125). -/
def expField (f : Fmt) (c : Nat) : Nat := c / 2 ^ fracBits f % 2 ^ (f.width - 1 - fracBits f)

/-- Sign bit of a code. -/
def signBit (f : Fmt) (c : Nat) : Bool := bit c (f.width - 1) = 1

include hf

/-- The value of an FP32 or BF16 code (R125). -/
theorem decode_float (c : Nat) : f.decode c =
    if expField f c = 255 then
      if c % 2 ^ fracBits f = 0 then .inf (signBit f c) else .nan (decide (bit (c % 2 ^ fracBits f) (fracBits f - 1) = 0))
    else .fin (signBit f c) ((if expField f c = 0 then 0 else 2 ^ fracBits f) + c % 2 ^ fracBits f)
      ((max (expField f c) 1 : Nat) - 127 - (fracBits f : Int)) := by
  rcases hf with rfl | rfl <;> simp [Fmt.decode, expField, signBit, fracBits, Fmt.layout, Fmt.width] <;> rfl

theorem code_eq_of_fields {c d : Nat} (hc : c < 2 ^ f.width) (hd : d < 2 ^ f.width) (hsign : signBit f c = signBit f d)
    (hexp : expField f c = expField f d) (hfrac : c % 2 ^ fracBits f = d % 2 ^ fracBits f) : c = d := by
  have hbit : bit c (f.width - 1) = 1 ↔ bit d (f.width - 1) = 1 := decide_eq_decide.1 hsign
  rcases hf with rfl | rfl <;> simp only [expField, fracBits, Fmt.layout, Fmt.width, bit] at * <;> omega

/-- A code that is no NaN is that of an infinity or of a finite value. -/
theorem decode_number {c : Nat} (h : (f.decode c).isNan = false) :
    expField f c = 255 ∧ c % 2 ^ fracBits f = 0 ∧ f.decode c = .inf (signBit f c) ∨
    f.decode c = .fin (signBit f c) ((if expField f c = 0 then 0 else 2 ^ fracBits f) + c % 2 ^ fracBits f)
      ((max (expField f c) 1 : Nat) - 127 - (fracBits f : Int)) := by
  rw [decode_float hf] at h ⊢
  by_cases hexp : expField f c = 255
  · by_cases hfrac : c % 2 ^ fracBits f = 0
    · exact .inl ⟨hexp, hfrac, by rw [if_pos hexp, if_pos hfrac]⟩
    · simp [hexp, hfrac, Machine.Num.isNan] at h
  · exact .inr (if_neg hexp)

/-- A code that is no NaN is known from its place: its sign, its class and, of a finite one, its value. -/
theorem code_eq_of_place {c d : Nat} (hc : c < 2 ^ f.width) (hd : d < 2 ^ f.width) (hcn : (f.decode c).isNan = false)
    (hdn : (f.decode d).isNan = false) (h : signPlace (f.decode c) = signPlace (f.decode d)) : c = d := by
  obtain ⟨hrank, hneg⟩ := Prod.mk.inj (toLex.injective h)
  have hsign : ∀ {c}, (f.decode c).isNan = false → (f.decode c).neg? = signBit f c := fun hcn => by
    obtain ⟨-, -, h⟩ | h := decode_number hf hcn <;> rw [h] <;> rfl
  replace hneg : signBit f c = signBit f d := by
    rw [hsign hcn, hsign hdn] at hneg
    revert hneg
    cases signBit f c <;> cases signBit f d <;> decide
  obtain ⟨hce, hcf, hcd⟩ | hcd := decode_number hf hcn <;> obtain ⟨hde, hdf, hdd⟩ | hdd := decode_number hf hdn <;>
    rw [hcd, hdd] at hrank
  · exact code_eq_of_fields hf hc hd hneg (hce.trans hde.symm) (hcf.trans hdf.symm)
  · exact (numRank_inf_ne_fin _ _ _ _ hrank).elim
  · exact (numRank_inf_ne_fin _ _ _ _ hrank.symm).elim
  · have hvalue := valueOf_eq_of_numRank hrank
    rw [hneg, sub_sub, sub_sub] at hvalue
    obtain ⟨hexp, hfrac⟩ := fields_eq_of_value_eq (Nat.mod_lt _ (by positivity)) (Nat.mod_lt _ (by positivity))
      (mul_two_pow_eq_of_valueOf hvalue)
    exact code_eq_of_fields hf hc hd hneg hexp hfrac
end

/-! Picks of two float elements (R164). -/

section
variable {ty : ElemType} (hty : tyFloat ty = true)
include hty

theorem pickElem_float (max_ : Bool) (p q : Nat) : pickElem ty max_ p q =
    if (tyNum ty p).isNan && (tyNum ty q).isNan then (tyFmt ty).nanCode else if (tyNum ty p).isNan then q
    else if (tyNum ty q).isNan then p else if signBelow (tyNum ty p) (tyNum ty q) then (if max_ then q else p) else if max_ then p else q := by
  rw [pickElem, if_pos hty]
  change (if _ then _ else if _ then _ else if _ then _ else if (signBelow (tyNum ty p) (tyNum ty q) != max_) = true then p else q) = _
  cases signBelow (tyNum ty p) (tyNum ty q) <;> cases max_ <;> rfl

theorem tyNum_float {p : Nat} (hp : p < 2 ^ tyWidth ty) : tyNum ty p = (tyFmt ty).decode p := by
  rw [tyNum, if_pos hty, Nat.mod_eq_of_lt hp]

/-- The larger of two elements does not depend on which comes first. -/
theorem pickElem_max_comm {p q : Nat} (hp : p < 2 ^ tyWidth ty) (hq : q < 2 ^ tyWidth ty) : pickElem ty true p q = pickElem ty true q p := by
  have hf : tyFmt ty = .f32 ∨ tyFmt ty = .bf16 := by revert hty; cases ty <;> decide
  have hw : (tyFmt ty).width = tyWidth ty := by revert hty; cases ty <;> decide
  rw [pickElem_float hty, pickElem_float hty, tyNum_float hty hp, tyNum_float hty hq]
  cases hpn : ((tyFmt ty).decode p).isNan with
  | true => cases hqn : ((tyFmt ty).decode q).isNan <;> simp
  | false => cases hqn : ((tyFmt ty).decode q).isNan with
    | true => simp
    | false =>
      have hbelow := signBelow_iff hpn hqn
      have habove := signBelow_iff hqn hpn
      rcases lt_trichotomy (signPlace ((tyFmt ty).decode p)) (signPlace ((tyFmt ty).decode q)) with h | h | h
      · simp [hbelow.2 h, Bool.eq_false_iff.2 (mt habove.1 h.not_gt)]
      · rw [code_eq_of_place hf (hw ▸ hp) (hw ▸ hq) hpn hqn h]
      · simp [habove.2 h, Bool.eq_false_iff.2 (mt hbelow.1 h.not_gt)]
end

/-! Bits of elements. -/

theorem testBit_el (v : Vec) {w i : Nat} (j : Nat) (hi : i < w) : (el v w j).testBit i = v.getLsbD (w * j + i) := by
  rw [← BitVec.testBit_toNat]
  exact (testBit_field v.toNat (w * j) w i).trans (by rw [decide_eq_true hi, Bool.true_and])

/-- VABS and VNEG of a float element: its sign bit changed, or the canonical NaN (R164). -/
theorem signFloat_el (ty : ElemType) (f : Bool → Bool) (v : Vec) (j : Nat) : signFloat ty f (el v (tyWidth ty) j) =
    if (tyNum ty (el v (tyWidth ty) j)).isNan then (tyFmt ty).nanCode
    else el v (tyWidth ty) j % 2 ^ (tyWidth ty - 1) +
      (f (v.getLsbD (tyWidth ty * j + tyWidth ty - 1))).toNat * 2 ^ (tyWidth ty - 1) := by
  have hpos : 1 ≤ tyWidth ty := tyWidth_pos ty
  have hbit : decide (bit (el v (tyWidth ty) j) (tyWidth ty - 1) = 1) = v.getLsbD (tyWidth ty * j + tyWidth ty - 1) := by
    rw [Nat.add_sub_assoc hpos, ← testBit_el v j (Nat.sub_lt hpos one_pos), Bool.eq_iff_iff, decide_eq_true_iff, bit_eq_one]
  rw [signFloat, hbit]

/-- Settles O20: each element is a result rounded once, one with its sign changed, or one that the order picks; of VCLAMP's bounds the
larger of x and lo does not depend on their order. -/
theorem vectorFloatArithmetic : Obligations.VectorFloatArithmetic := by
  unfold Obligations.VectorFloatArithmetic
  intro s u sat ty rm hty w A B C va lands_ gives sum sign
  have hrm : decide (rm.toNat = 3) = decide (rm = 3) := by revert rm; decide
  have each : ∀ {i : Instr} {unit bound : Nat} {F : Trig → Nat → Nat} {f : Nat → Nat},
      exec i s = runOp (opRun unit always fun _ t => land t bound (vecOf (elCount w) w (F t)) []) s →
      (∀ j, F (unitTrig s unit) j = f j) → lands_ i unit bound f := by
    intro i unit bound F f he hF
    obtain ⟨y, hy, hel⟩ := lands_elements he
    exact ⟨y, hy, fun j hj => by rw [hel j hj, hF]⟩
  have hfloat : ∀ (x : Machine.Num) (n : Nat), (if tyFloat ty then floatResult ty rm.toNat x else n) = roundIeee (tyFmt ty) rm.toNat x :=
    fun _ _ => if_pos hty
  refine ⟨each rfl fun j => ?_, each rfl fun j => ?_, each rfl fun j => hfloat _ _, each rfl fun j => ?_, each rfl fun j => ?_,
    each rfl fun j => ?_, each rfl fun _ => rfl, each rfl fun _ => rfl, each rfl fun _ => rfl, each rfl fun _ => rfl,
    each rfl fun _ => rfl, each rfl fun _ => rfl, each rfl fun _ => rfl, each rfl fun j => ?_, each rfl fun j => ?_, ?_⟩
  · exact (hfloat _ _).trans (by rw [hrm])
  · exact (hfloat _ _).trans (by rw [hrm])
  · rw [hrm]; rfl
  · rw [hrm]; rfl
  · rw [hrm]; rfl
  · exact (if_pos hty).trans (signFloat_el ty _ s.cur.b j)
  · exact (if_pos hty).trans (signFloat_el ty _ s.cur.b j)
  · intro nan below pick mn mx a b c
    have hmin : ∀ p q, pickElem ty false p q = mn p q := pickElem_float hty false
    have hmax : ∀ p q, pickElem ty true p q = mx p q := pickElem_float hty true
    refine ⟨each rfl fun j => hmin _ _, each rfl fun j => hmax _ _, each rfl fun j => ?_⟩
    have hswap : pickElem ty true (b j) (a j) = mx (a j) (b j) := (pickElem_max_comm hty (el_lt ..) (el_lt ..)).trans (hmax ..)
    rw [hty, ← hswap, ← hmin]
    rfl

end Sys2Proof.Proofs


/-! PROOFS. Logic, shifts, selection and comparisons of VA (O21): elements as words of their width. -/

namespace Sys2Proof.Proofs
open Sys2Proof Sys2Proof.Machine Sys2Proof.Safety

theorem extract_el (v : Vec) (w j : Nat) : v.extractLsb' (w * j) w = BitVec.ofNat w (el v w j) := by
  apply BitVec.eq_of_toNat_eq
  rw [BitVec.extractLsb'_toNat, BitVec.toNat_ofNat, el_mod, Nat.shiftRight_eq_div_pow]
  rfl

section
variable {w : Nat} (x n : Nat)

theorem ofNat_mul_two_pow : BitVec.ofNat w (x * 2 ^ n) = BitVec.ofNat w x <<< n := by
  apply BitVec.eq_of_toNat_eq
  simp [BitVec.toNat_shiftLeft, Nat.shiftLeft_eq]

theorem ofNat_div_two_pow (hx : x < 2 ^ w) : BitVec.ofNat w (x / 2 ^ n) = BitVec.ofNat w x >>> n := by
  apply BitVec.eq_of_toNat_eq
  rw [BitVec.toNat_ushiftRight, BitVec.toNat_ofNat, BitVec.toNat_ofNat, Nat.shiftRight_eq_div_pow, Nat.mod_eq_of_lt hx,
    Nat.mod_eq_of_lt ((Nat.div_le_self ..).trans_lt hx)]

theorem ofNat_enc_width (z : Int) : BitVec.ofNat w (enc z w) = BitVec.ofInt w z := by
  apply BitVec.eq_of_toNat_eq
  rw [BitVec.toNat_ofNat, BitVec.toNat_ofInt, Nat.mod_eq_of_lt (enc_lt z w), enc]
  push_cast
  rfl

/-- An element shifted to the right with its sign. -/
theorem ofNat_enc_sint_div (hw : 0 < w) : BitVec.ofNat w (enc (sint x w / 2 ^ n) w) = (BitVec.ofNat w x).sshiftRight n := by
  rw [ofNat_enc_width, sint_eq_toInt x hw, BitVec.sshiftRight, Int.shiftRight_eq_div_pow]
  push_cast
  rfl

/-- A signed reading is the bits below the sign, less the sign bit's weight. -/
theorem sint_succ (v : Nat) : sint x (v + 1) = ((x % 2 ^ v : Nat) : Int) - bit x v * 2 ^ v := by
  have hlow : x % 2 ^ v < 2 ^ v := Nat.mod_lt _ (by positivity)
  have hparts : x % 2 ^ (v + 1) = x % 2 ^ v + 2 ^ v * bit x v := Nat.mod_pow_succ ..
  simp only [sint, Nat.add_sub_cancel, hparts]
  rcases Nat.mod_two_eq_zero_or_one (x / 2 ^ v) with h | h <;> rw [bit, h]
  · simp [hlow]
  · rw [if_neg (by omega), pow_succ]
    push_cast
    ring

/-- The sign fill of an element: the shift by its width less one. -/
theorem signFill_eq (hw : 0 < w) : (if bit x (w - 1) = 1 then 2 ^ w - 1 else 0) = enc (sint x w / 2 ^ (w - 1)) w := by
  obtain ⟨v, rfl⟩ : ∃ v, w = v + 1 := ⟨w - 1, by omega⟩
  have hlow : x % 2 ^ v < 2 ^ v := Nat.mod_lt _ (by positivity)
  have hdiv : sint x (v + 1) / 2 ^ v = -(bit x v : Int) := by
    rw [sint_succ, sub_eq_add_neg, ← neg_mul, Int.add_mul_ediv_right _ _ (by positivity),
      Int.ediv_eq_zero_of_lt (by positivity) (by exact_mod_cast hlow), zero_add]
  rw [Nat.add_sub_cancel, hdiv]
  rcases Nat.mod_two_eq_zero_or_one (x / 2 ^ v) with h | h <;> rw [bit, h]
  · simp [enc]
  · have hpos : (0 : Int) < 2 ^ (v + 1) := by positivity
    rw [if_pos rfl, enc, Nat.cast_one, ← Int.add_emod_right, Int.emod_eq_of_lt (by omega) (by omega)]
    zify [Nat.one_le_two_pow]
    omega
end

/-- A comparison lands a bit in each element. -/
theorem lands_compare {s : State} {i : Instr} {u : Bool} {ty : ElemType} {ri : Int → Int → Bool} {rn : Machine.Num → Machine.Num → Bool}
    (he : exec i s = runOp (vaCompare u ty ri rn) s) : ∃ y, exec i s = .next (lands s (vaUnit u) 2 y) ∧ ∀ j, j < 8192 / tyWidth ty →
      (let p := el s.cur.a (tyWidth ty) j
       let q := el s.cur.b (tyWidth ty) j
       el y (tyWidth ty) j = (if tyFloat ty then rn (tyNum ty p) (tyNum ty q) else ri (tyInt ty p) (tyInt ty q)).toNat) := by
  have hw : 2 ^ 1 ≤ 2 ^ tyWidth ty := Nat.pow_le_pow_right two_pos (tyWidth_pos ty)
  obtain ⟨y, hy, hel⟩ := lands_elements he
  exact ⟨y, hy, fun j hj => (hel j hj).trans (Nat.mod_eq_of_lt ((Bool.toNat_lt _).trans_le hw))⟩

/-- Settles O21: of an element-wise result each element is a word, and a comparison's is a bit. -/
theorem vectorLogicAndComparisons : Obligations.VectorLogicAndComparisons := by
  unfold Obligations.VectorLogicAndComparisons
  refine ⟨fun s u ty => ?_, fun s u ty => ?_⟩
  · intro a b w gives each
    have hw : 0 < w := tyWidth_pos ty
    have word : ∀ {i : Instr} {F : Trig → Nat → Nat} {f : Nat → BitVec w},
        exec i s = runOp (opRun (vaUnit u) always fun _ t => land t 2 (vecOf (elCount w) w (F t)) []) s →
        (∀ j, BitVec.ofNat w (F (unitTrig s (vaUnit u)) j) = f j) → each i f := by
      intro i F f he hF
      obtain ⟨y, hy, hel⟩ := lands_elements he
      refine ⟨y, hy, fun j hj => ?_⟩
      rw [extract_el, hel j hj, ← hF]
      exact BitVec.eq_of_toNat_eq (by simp)
    have hfar : ∀ (n : Nat) (x y : Nat), BitVec.ofNat w (if n ≥ w then x else y) = if w ≤ n then BitVec.ofNat w x else BitVec.ofNat w y :=
      fun n x y => apply_ite ..
    refine ⟨runOp_lands s _ 2 fun t => t.a &&& t.b, runOp_lands s _ 2 fun t => t.a ||| t.b, runOp_lands s _ 2 fun t => t.a ^^^ t.b,
      runOp_lands s _ 2 fun t => t.a &&& ~~~t.b, word rfl fun j => ?_, word rfl fun j => ?_, word rfl fun j => ?_, word rfl fun j => rfl, ?_⟩
    · rw [extract_el, ← ofNat_mul_two_pow]
      exact hfar ..
    · rw [extract_el, ← ofNat_div_two_pow _ _ (el_lt ..)]
      exact hfar ..
    · rw [extract_el, ← ofNat_enc_sint_div _ _ hw]
      refine (hfar ..).trans ?_
      by_cases hn : w ≤ el b w j
      · rw [if_pos hn, min_eq_right (by omega)]
        exact congrArg _ (signFill_eq _ hw)
      · rw [if_neg hn, min_eq_left (by omega)]
    · obtain ⟨y, hy, hel⟩ := lands_elements (s := s) (i := .vsel u) rfl
      refine ⟨y, hy, fun l hl => (hel l hl).trans ?_⟩
      have hbit : bit (el s.cur.c 32 l) 0 = 1 ↔ s.cur.c.getLsbD (32 * l) = true := by
        rw [bit_eq_one, testBit_el _ _ (by decide), Nat.add_zero]
      simp only [hbit]
      split <;> exact el_mod ..
  · intro w gives
    exact ⟨lands_compare (i := .vceq u ty) rfl, lands_compare (i := .vcne u ty) rfl, lands_compare (i := .vclt u ty) rfl,
      lands_compare (i := .vcle u ty) rfl⟩

end Sys2Proof.Proofs


/-! PROOFS. Predicate operations (O22): numbers by their bits, and scalars of the passing lanes. -/

namespace Sys2Proof.Proofs
open Sys2Proof Sys2Proof.Machine Sys2Proof.Safety

theorem ofBits_succ (n : Nat) (f : Nat → Bool) : ofBits (n + 1) f = 2 * ofBits n (fun i => f (i + 1)) + (f 0).toNat := by
  rw [ofBits, List.range_succ_eq_map, List.foldr_cons, List.foldr_map, mul_comm]
  cases f 0 <;> rfl

theorem testBit_ofBits (n : Nat) (f : Nat → Bool) (i : Nat) : (ofBits n f).testBit i = (decide (i < n) && f i) := by
  induction n generalizing f i with
  | zero => simp [ofBits]
  | succ n ih =>
    rw [ofBits_succ]
    cases i with
    | zero => cases f 0 <;> simp [Nat.testBit_zero]
    | succ i =>
      have hhalf : (2 * ofBits n (fun i => f (i + 1)) + (f 0).toNat) / 2 = ofBits n fun i => f (i + 1) := by
        have := Bool.toNat_lt (f 0)
        omega
      rw [Nat.testBit_succ, hhalf, ih]
      simp

section
variable {s : State} {i : Instr} {u b : Nat}

/-- An operation without a check that makes each lane of its result. -/
theorem lands_lanes {f : Trig → Nat → Nat} (he : exec i s = runOp (opRun u always fun _ t => land t b (vecOf 256 32 (f t)) []) s) :
    ∃ y, exec i s = .next (lands s u b y) ∧ ∀ l, l < 256 → lane y l = f (unitTrig s u) l % 2 ^ 32 := lands_elements he

/-- An operation that lands a scalar of the passing lanes in every lane, and records it (R157, R158). -/
theorem laneScalar_lands {cr : Bool} {f : State → Trig → Nat} (he : exec i s = runOp (laneScalar u b cr always f) s)
    (ho : opOf i = some (laneScalar u b cr always f)) (h : admitted i s) {v : Nat} (hv : f (view s) (unitTrig s u) = v) :
    exec i s = .next (landsRecorded s u b cr (broadcast v) v) := by
  rw [he, runOp_go _ s (admitted_go h ho), ← hv]
  exact congrArg _ (record_land_run ..)
end

/-- The passing lanes in which a condition holds. -/
theorem filter_passing (s : State) (u : Nat) (p : Nat → Bool) :
    (passing (unitTrig s u)).filter p = (List.range 256).filter fun l => shown s l && p l := by
  have hpassing : passing (unitTrig s u) = (List.range 256).filter (shown s) := rfl
  simp only [hpassing, List.filter_filter, Bool.and_comm]

/-- Bit l of predicate n of those that VA reads at its bundle's start. -/
theorem bit_digit (x : Vec) (n : Nat) {l : Nat} (hl : l < 256) : decide (bit (digit x.toNat 256 n) l = 1) = x.getLsbD (256 * n + l) := by
  rw [Bool.eq_iff_iff, decide_eq_true_iff, bit_eq_one]
  exact Bool.eq_iff_iff.1 (testBit_el x n hl)

/-- Settles O22: lanes of bits, the list of the passing lanes that are hit, and numbers by their bits. -/
theorem predicateOperations : Obligations.PredicateOperations := by
  unfold Obligations.PredicateOperations
  intro s u cr hi a b va gives bitA bitB hits base rotp phys
  have each : ∀ {i : Instr} {p : Trig → Nat → Bool} {f : Nat → Bool}, exec i s = runOp (opRun va always fun _ t =>
      land t 2 (vecOf 256 32 fun l => (p t l).toNat) []) s → (∀ l, p (unitTrig s va) l = f l) → gives i f := by
    intro i p f he hp
    obtain ⟨y, hy, hlane⟩ := lands_lanes he
    refine ⟨y, hy, fun l hl => (hlane l hl).trans ?_⟩
    rw [hp, Nat.mod_eq_of_lt ((Bool.toNat_lt _).trans (by decide))]
  have hcount : (fun (_ : State) t => ((passing t).filter fun l => t.b.getLsbD (32 * l)).length) (view s) (unitTrig s va) = hits.length :=
    congrArg List.length (filter_passing s va bitB)
  have hfirst : (fun (_ : State) t => ((passing t).find? fun l => t.b.getLsbD (32 * l)).getD 256) (view s) (unitTrig s va) =
      hits.head?.getD 256 := by
    have : hits = _ := (filter_passing s va bitB).symm
    rw [this, List.head?_filter]
  refine ⟨each rfl fun _ => rfl, each rfl fun _ => rfl, each rfl fun _ => rfl, each rfl fun _ => rfl, each rfl fun _ => rfl,
    each rfl fun _ => rfl, fun h => laneScalar_lands rfl rfl h hcount,
    fun h => laneScalar_lands rfl rfl h hfirst, ?_, ?_⟩
  · obtain ⟨y, hy, hlane⟩ := lands_lanes (s := s) (i := .ppack u hi) (u := va) (b := 2) rfl
    refine ⟨y, hy, fun l j hl hj => ?_⟩
    rw [← testBit_el y l hj]
    refine (congrArg (Nat.testBit · j) (hlane l hl)).trans ?_
    rw [Nat.testBit_mod_two_pow, decide_eq_true hj, Bool.true_and, testBit_ofBits, bit_digit _ _ hl]
  · let value := fun j => BitVec.ofNat 256 (ofBits 256 fun l => b.getLsbD (32 * l + j))
    refine ⟨value, fun j l hl => ?_, ?_⟩
    · rw [BitVec.getLsbD_ofNat, testBit_ofBits]
      simp [hl]
    · have he : exec (.punpack u hi) s = runOp (opPunpack u hi) s := rfl
      have hphys : ∀ j ∈ List.range 8, (if base + j < 8 then base + j else 8 + (base + j - 8 + rotp) % 8) = phys j := by
        intro j hj
        have hj8 := List.mem_range.1 hj
        simp only [base, phys]
        cases hi
        · simp [hj8]
        · simp
      have hposts : ∀ j ∈ List.range 8, Post.pred (if base + j < 8 then base + j else 8 + (base + j - 8 + rotp) % 8) (value j) =
          .pred (phys j) (value j) := fun j hj => by rw [hphys j hj]
      rw [he, runOp_go _ s (.inr rfl), ← List.map_congr_left hphys, ← List.map_congr_left hposts]
      exact congrArg _ (addFlight_run s _)

end Sys2Proof.Proofs


/-! PROOFS. VCVT between types of one width (O23). -/

namespace Sys2Proof.Proofs
open Sys2Proof Sys2Proof.Machine Sys2Proof.Safety

/-- A VCVT from i32 to i32 whose quarter is 1, its check taken as made: no step leaves one so, since R165 gives 0x03 for a quarter beyond
the ratio of the widths, but the statement of O23 takes any operation whose bundle has checked it. Lane 0 of b holds 1. -/
def convertingBeyond : State := { State.reset with cur := { Trig.none with unit := 13, a := 16, b := 1, checked := true } }

/-- The operation converts the elements from element 256 of b on, which are none: lane 0 is zero. -/
theorem vcvt_convertingBeyond :
    ∃ t, exec (.vcvt false .i32 .i32) convertingBeyond = .next t ∧ (t.core 0).flights.map (fun f => lane f.y0 0) = [0] :=
  ⟨_, rfl, by decide +kernel⟩

/-- The only flight of a core that had none. -/
theorem withFlight_first {t : State} {c : Nat} (f : Flight) (hc : t.cur.core = c) (hlt : c < 256) (h : (t.core c).flights = []) :
    ((withFlight t f).core c).flights = [f] := by
  rw [withFlight_flights t f hc hlt]
  simp [putFlight, h]

/-- Refutes O23: between types of one width the statement takes the elements of b from the first, whatever the quarter, and the model
those that the quarter names, of which a vector has none but for quarter 0. -/
theorem not_vectorConversionsAndDots : ¬ Obligations.VectorConversionsAndDots := by
  intro h
  obtain ⟨t, ht, hlane⟩ := vcvt_convertingBeyond
  obtain ⟨y, hy, hel⟩ := (h convertingBeyond false .i32 .i32 .i32 0).1 (.inl rfl)
  obtain rfl : t = _ := Host.Outcome.next.inj (ht.symm.trans hy)
  have hone : lane y 0 = 1 := (hel 0 (by decide)).trans (by decide +kernel)
  have hy0 : lane y 0 = 0 := by
    rw [withFlight_first _ ?hcur (by decide) ?hnone] at hlane
    case hcur => decide +kernel
    case hnone => decide +kernel
    exact List.singleton_inj.1 hlane
  exact absurd (hone.symm.trans hy0) (by decide)

end Sys2Proof.Proofs


/-! PROOFS. Permutes, VEXPAND and VCOMPRESS of VP (O24): rotation, and the numbering of selected lanes. -/

namespace Sys2Proof.Proofs
open Sys2Proof Sys2Proof.Machine Sys2Proof.Safety

/-- A place less a distance, around n places. -/
theorem rotated_place {n j k : Nat} (hn : 0 < n) : (j + n - k % n) % n = (((j : Int) - k) % n).toNat := by
  have hk : k % n ≤ j + n := (Nat.mod_lt k hn).le.trans (Nat.le_add_left n j)
  have hsplit : ((j + n - k % n : Nat) : Int) = (j : Int) - k + n * ((k : Int) / n + 1) := by
    have := Int.mul_ediv_add_emod (k : Int) n
    push_cast [Nat.cast_sub hk]
    linarith
  rw [← Int.toNat_natCast ((j + n - k % n) % n), Int.natCast_emod, hsplit, Int.add_mul_emod_self_left]

/-! Selected lanes by number. -/

section
variable {p : Nat → Bool} {l n : Nat}

theorem count_below (h : l ≤ n) : (((List.range n).filter p).filter fun m => decide (m < l)).length = (List.range l).countP p := by
  rw [List.filter_comm, filter_range_lt h, List.countP_eq_length_filter]

/-- A selected lane stands among the selected ones at the place that those below it give. -/
theorem getElem?_filter_range (h : l < n) (hl : p l = true) : ((List.range n).filter p)[(List.range l).countP p]? = some l := by
  obtain ⟨k, rfl⟩ := Nat.exists_eq_add_of_lt h
  rw [Nat.add_assoc, List.range_add, List.filter_append, List.countP_eq_length_filter, List.getElem?_append_right le_rfl, Nat.sub_self,
    List.range_succ_eq_map, List.map_cons, Nat.add_zero, List.filter_cons_of_pos hl, List.getElem?_cons_zero]
end

/-- The lanes of a VCOMPRESS: the selected ones of a, then those of c. -/
def compressed (s : State) : Vec := vecOf 256 32 fun l => match (selected s.cur.b).toArray[l]? with
  | some m => lane s.cur.a m
  | none => lane s.cur.c l

theorem exec_vcompress {s : State} {cr : Bool} (h : admitted (.vcompress cr) s) : exec (.vcompress cr) s =
    .next (withFlight (reserving s cr) { flying s 16 4 with
      y0 := compressed s
      y1 := some (broadcast (selected s.cur.b).length)
      posts := if cr then [.record (selected s.cur.b).length 16 (s.cur.dest / 64 % 256)] else [] }) := by
  have he : exec (.vcompress cr) s = runOp (opVcompress cr) s := rfl
  rw [he, runOp_go _ s (admitted_go h rfl)]
  exact congrArg _ (record_land2_run ..)

theorem lane_compressed (s : State) {l : Nat} (hl : l < 256) : lane (compressed s) l =
    (((selected s.cur.b)[l]?).map (lane s.cur.a)).getD (lane s.cur.c l) := by
  rw [compressed, lane, digit_vecOf _ hl (by decide), List.getElem?_toArray]
  cases (selected s.cur.b)[l]? <;> exact digit_mod ..

/-- Settles O24. -/
theorem vectorPermutesAndExpansion : Obligations.VectorPermutesAndExpansion := by
  unfold Obligations.VectorPermutesAndExpansion
  refine ⟨fun s ty hi => ?_, fun s cr => ?_⟩
  · intro w n A B C k h o gives
    have hn : 0 < n := by simp only [n, w]; cases ty <;> decide
    have each : ∀ {i : Instr} {F : Trig → Nat → Nat} {f : Nat → Nat},
        exec i s = runOp (opRun 16 always fun _ t => land t 3 (vecOf (elCount w) w (F t)) []) s →
        (∀ j, F (unitTrig s 16) j % 2 ^ w = f j) → gives i f := by
      intro i F f he hF
      obtain ⟨y, hy, hel⟩ := lands_elements he
      exact ⟨y, hy, fun j hj => (hel j hj).trans (hF j)⟩
    have hmod : ∀ (c : Prop) [Decidable c] (v : Vec) (i : Nat), (if c then 0 else el v w i) % 2 ^ w = if c then 0 else el v w i := by
      intro c _ v i
      split
      · exact Nat.zero_mod _
      · exact el_mod ..
    refine ⟨each rfl fun j => hmod .., each rfl fun j => ?_, each rfl fun j => hmod .., ?_, ?_, each rfl fun j => ?_⟩
    · rw [← rotated_place hn]
      exact el_mod ..
    · obtain ⟨y, hy, hel⟩ := lands_elements (s := s) (i := .vzip ty hi) rfl
      replace hel : ∀ j, j < n → el y w j = (if j % 2 = 0 then A (j / 2 + h) else B (j / 2 + h)) % 2 ^ w := hel
      refine ⟨y, hy, fun i hi2 => ⟨?_, ?_⟩⟩
      · refine (hel (2 * i) (by omega)).trans ?_
        rw [if_pos (Nat.mul_mod_right 2 i), Nat.mul_div_cancel_left i two_pos]
        exact el_mod ..
      · refine (hel (2 * i + 1) (by omega)).trans ?_
        rw [if_neg (by omega), Nat.mul_add_div two_pos, Nat.div_eq_of_lt one_lt_two, Nat.add_zero]
        exact el_mod ..
    · obtain ⟨y, hy, hel⟩ := lands_elements (s := s) (i := .vunzip ty hi) rfl
      replace hel : ∀ j, j < n → el y w j = (if j < n / 2 then A (2 * j + o) else B (2 * (j - n / 2) + o)) % 2 ^ w := hel
      refine ⟨y, hy, fun i hi2 => ⟨?_, ?_⟩⟩
      · refine (hel i (by omega)).trans ?_
        rw [if_pos hi2]
        exact el_mod ..
      · refine (hel (n / 2 + i) (by omega)).trans ?_
        rw [if_neg (by omega), Nat.add_sub_cancel_left]
        exact el_mod ..
    · change (if j + k < n then A (j + k) else if j + k < 2 * n then C (j + k - n) else 0) % 2 ^ w = _
      split
      · exact el_mod ..
      · split
        · exact el_mod ..
        · exact Nat.zero_mod _
  · intro sel below k
    have hbelow : ∀ l, l ≤ 256 → ((selected s.cur.b).filter fun m => decide (m < l)).length = below l := fun l hl => count_below hl
    have hcount : (selected s.cur.b).length = k := List.countP_eq_length_filter.symm
    refine ⟨?_, fun hadm => ⟨compressed s, ?_, fun l hl hsel => ?_, fun l hk hl => ?_⟩⟩
    · obtain ⟨y, hy, hlane⟩ := lands_lanes (s := s) (i := .vexpand) rfl
      refine ⟨y, hy, fun l hl => (hlane l hl).trans ?_⟩
      change (if sel l = true then lane s.cur.a ((selected s.cur.b).filter fun m => decide (m < l)).length else lane s.cur.c l) % _ = _
      rw [hbelow l hl.le]
      split <;> exact digit_mod ..
    · rw [exec_vcompress hadm, hcount]
    · have hlt : below l < 256 := List.countP_le_length.trans_lt (by simpa using hl)
      rw [lane_compressed s hlt, selected, getElem?_filter_range hl hsel]
      rfl
    · rw [lane_compressed s hl, List.getElem?_eq_none (hcount.trans_le hk)]
      rfl

end Sys2Proof.Proofs


/-! PROOFS. Loads and stores of VL (O29): how they join the vector queue, and the elements of a strided access. -/

namespace Sys2Proof.Proofs
open Sys2Proof Sys2Proof.Machine Sys2Proof.Safety

section
variable {s : State} {i : Instr} {chk : State → Trig → Verdict}

/-- An admitted load is in flight, its result awaited, and its access stands in a queue. -/
theorem load_runs {b : State → Trig → Nat} {posts : State → Trig → List Post} {kind : AccessKind} {pieces : State → Trig → List Piece}
    (he : exec i s = runOp (opRun 17 chk fun s t => Prog.all [awaitLoad t (b s t) none (posts s t),
      queueAccess t pathV kind (pieces s t) (b s t - 1)]) s)
    (ho : opOf i = some (opRun 17 chk fun s t => Prog.all [awaitLoad t (b s t) none (posts s t),
      queueAccess t pathV kind (pieces s t) (b s t - 1)])) (h : admitted i s)
    {n : Nat} {p : List Post} {l : List Piece} (hb : b (view s) (unitTrig s 17) = n) (hp : posts (view s) (unitTrig s 17) = p)
    (hl : pieces (view s) (unitTrig s 17) = l) :
    exec i s = .next (withAccess (withFlight s { flying s 17 n with ready := false, posts := p }) pathV 17 kind l (n - 1)) := by
  rw [he, runOp_go _ s (admitted_go h ho)]
  simp only [opRun, hb, hp, hl, Prog.run_all_cons, Prog.run_all_nil]
  have hflight : (awaitLoad (unitTrig s 17) n none p).run s = withFlight s { flying s 17 n with ready := false, posts := p } :=
    addFlight_run s _
  rw [hflight]
  exact congrArg _ (queueAccess_run (withFlight s _) 17 pathV kind l (n - 1))

/-- An admitted store is complete after a cycle, and its access stands in a queue. -/
theorem store_runs {kind : State → Trig → AccessKind} {pieces : State → Trig → List Piece}
    (he : exec i s = runOp (opRun 17 chk fun s t => Prog.all [finish t 1 [], queueAccess t pathV (kind s t) (pieces s t) storeWait]) s)
    (ho : opOf i = some (opRun 17 chk fun s t => Prog.all [finish t 1 [], queueAccess t pathV (kind s t) (pieces s t) storeWait]))
    (h : admitted i s) {x : AccessKind} {l : List Piece} (hk : kind (view s) (unitTrig s 17) = x)
    (hl : pieces (view s) (unitTrig s 17) = l) : exec i s = .next (withAccess (completes s 17 1) pathV 17 x l storeWait) := by
  rw [he, runOp_go _ s (admitted_go h ho)]
  simp only [opRun, hk, hl, Prog.run_all_cons, Prog.run_all_nil, finish_run]
  exact congrArg _ (queueAccess_run (completes s 17 1) 17 pathV x l storeWait)
end

/-! The elements of a strided access (R340, R343). -/

theorem natCast_enc (z : Int) (w : Nat) : (enc z w : Int) = z % 2 ^ w := by
  have hpos : (0 : Int) < 2 ^ w := by positivity
  exact Int.toNat_of_nonneg (Int.emod_nonneg z hpos.ne')

theorem mem_stridedElems {s : State} {ty : ElemType} {p : Nat × Nat} (h : p ∈ stridedElems ty (unitTrig s 17)) :
    shown s (p.1 * tyWidth ty / 32) = true ∧ p.1 < 8192 / tyWidth ty ∧
      (p.2 : Int) = ((opA s).toNat + p.1 * (opC s).toInt) % 2 ^ 64 := by
  obtain ⟨j, hj, rfl⟩ := List.mem_map.1 h
  obtain ⟨hlt, hshown⟩ := List.mem_filter.1 hj
  exact ⟨hshown, List.mem_range.1 hlt, by rw [natCast_enc, sa_eq, sc_eq, sint_word]⟩

theorem stridedElems_places {s : State} {ty : ElemType} {j : Nat} (hj : j < 8192 / tyWidth ty)
    (h : shown s (j * tyWidth ty / 32) = true) : j ∈ (stridedElems ty (unitTrig s 17)).map (·.1) :=
  List.mem_map.2 ⟨_, List.mem_map_of_mem (List.mem_filter.2 ⟨List.mem_range.2 hj, h⟩), rfl⟩

theorem elemBound_eq (sp win gl : Nat) (g : Bool) (l : List (Nat × Nat)) : elemBound sp win gl g (l.map (·.2)) =
    if l = [] then sp else (l.map fun x => vlBound sp win gl (spaceClass g x.2)).foldl max 0 := by
  cases l <;> simp [elemBound, List.foldl_map]

/-- Settles O29. -/
theorem vectorLoadsAndStores : Obligations.VectorLoadsAndStores := by
  unfold Obligations.VectorLoadsAndStores
  intro s g ty hc c t n part x w reach homes elems size pieces bound stored
  have hsa : (unitTrig s 17).sa = (opA s).toNat := sa_eq s 17
  have hn : selTile (unitTrig s 17) = n := by rw [selTile, hsa]; simp [field, n]
  have hpart : selPart (unitTrig s 17) = part := by rw [selPart, hsa]; rfl
  have hhalf : selHalf (unitTrig s 17) = (opA s).toNat / 2 ^ 20 % 2 := by rw [selHalf, hsa]; rfl
  have htile : (tileAt (view s) c n).word.toNat = w := by rw [tileAt_view]
  have hvstt : admitted .vstt s → exec .vstt s = .next (Prog.run (
      let places := tileHomes (view s) c pathV true n (vsttSpan w part).1 (vsttSpan w part).2
      if tPlanes w then queueAccess t pathV (.planes (tFmt w) ((opA s).toNat / 2 ^ 20 % 2) s.cur.b s.cur.mask) (piecesFrom 0 places) storeWait
      else queueAccess t pathV (.store s.cur.b) (maskedPieces t places) storeWait) stored) := by
    intro h
    have he : exec .vstt s = runOp opVstt s := rfl
    rw [he, runOp_go _ s (admitted_go h rfl)]
    simp only [opVstt, opRun, hn, hpart, hhalf, tileAt_view, Prog.run_all_cons, Prog.run_all_nil, finish_run]
    rfl
  refine ⟨fun p => mem_stridedElems, fun j => stridedElems_places, fun h => ?_, fun h => ?_, fun h => ?_, fun h => ?_, fun h => ?_,
    fun h hplanes => ?_, fun h hplanes => ?_⟩
  · exact load_runs (i := .vld g) rfl rfl h (by rw [hsa]) rfl (by rw [hsa])
  · exact store_runs (i := .vst g) rfl rfl h rfl (by rw [hsa]; rfl)
  · exact load_runs (i := .vlds g ty) rfl rfl h (elemBound_eq ..) rfl rfl
  · exact store_runs (i := .vsts g ty) rfl rfl h rfl rfl
  · exact load_runs (i := .vldt) rfl rfl h (by rw [hn, htile]) (by rw [hn]) (by rw [hn, hpart, htile]; rfl)
  · rw [hvstt h]
    simp only [hplanes, vsttSpan, if_true]
    exact congrArg _ (queueAccess_run (completes s 17 1) ..)
  · rw [hvstt h]
    simp only [hplanes, vsttSpan, Bool.false_eq_true, if_false]
    exact congrArg _ (queueAccess_run (completes s 17 1) ..)

end Sys2Proof.Proofs


/-! PROOFS. Conversions that count their events (O25, O26), and VACCRD and VACCWR (O26). -/

namespace Sys2Proof.Proofs
open Sys2Proof Sys2Proof.Machine Sys2Proof.Safety

/-! A result whose elements are conversions, under stochastic rounding (R134, R138, R153). -/

theorem zipIdx_map_range {α : Type} (n : Nat) (f : Nat → α) : ((List.range n).map f).zipIdx = (List.range n).map fun j => (f j, j) :=
  List.ext_getElem (by simp) (by simp)

theorem lane_vecOfConv (f : Nat → Conv) {m : Nat} (hm : m < 256) :
    lane (vecOfConv 32 ((List.range 256).map f).toArray) m = (f m).code % 2 ^ 32 := by
  refine (digit_vecOf _ hm (by decide)).trans ?_
  simp [hm]

/-- The events of the conversions that a condition selects. -/
theorem convPost_filter (f : Nat → Conv) (p : Nat → Bool) :
    convPost ((((List.range 256).map f).zipIdx.filter fun x => p x.2).map (·.1)) =
      [.conv (((List.range 256).filter p).map fun j => (f j).sat).sum (((List.range 256).filter p).map fun j => (f j).flush).sum
        (((List.range 256).filter p).map fun j => (f j).nan).sum] := by
  rw [convPost_eq, zipIdx_map_range, List.filter_map]
  simp only [List.map_map]
  rfl

section
variable (s : State) (u : Nat) (sr : Bool)

theorem countSr_run : (countSr (unitTrig s u) sr).run s = countingSr s sr := by
  rw [countSr, Prog.run_when, countingSr]
  rfl

/-- Counting a stochastic rounding leaves the running operation and package time. -/
theorem countingSr_flying (b : Nat) : unitTrig (countingSr s sr) u = unitTrig s u ∧ flying (countingSr s sr) u b = flying s u b := by
  unfold countingSr
  split <;> exact ⟨rfl, rfl⟩

theorem countSr_land_run (b : Nat) (y : Vec) (l : List Post) : (Prog.all [countSr (unitTrig s u) sr, land (unitTrig s u) b y l]).run s =
    withFlight (countingSr s sr) { flying s u b with y0 := y, posts := l } := by
  obtain ⟨htrig, hfly⟩ := countingSr_flying s u sr b
  have hland := land_run (countingSr s sr) u b y l
  rw [hfly, htrig] at hland
  rw [Prog.run_all_cons, Prog.run_all_cons, Prog.run_all_nil, countSr_run]
  exact hland

theorem bitsFor_view (rm site tag i : Nat) : bitsFor (view s) (unitTrig s u) rm site tag i =
    if rm = 4 then randomBits s s.cur.core s.cur.srSeq site tag i else 0 := by
  rw [bitsFor, randomBits_view]
end

/-! VACCRD and VACCWR (R178, R179). -/

theorem accSel_unitTrig (s : State) (u : Nat) : accSel (unitTrig s u) = (s.cur.b.toNat % 4, s.cur.b.toNat / 16 % 16) := by
  simp only [accSel, param, field, Prod.mk.injEq]
  omega

theorem nth_default {α : Type} {n i : Nat} (v : Vector α n) (h : i < n) (d e : α) : nth v i d = nth v i e := by
  simp [nth, h]

/-- Elements written by their places from b up, each place once. -/
theorem nth_foldl_updAt {α : Type} {n b i : Nat} (g : Nat → Option α) (d : α) (hi : i < n) (l : List Nat) (hl : l.Nodup) (v : Vector α n) :
    nth ((l.map fun m => (b + m, g m)).foldl (fun v p => updAt v p.1 fun old => p.2.getD old) v) i d =
      if b ≤ i ∧ i - b ∈ l then (g (i - b)).getD (nth v i d) else nth v i d := by
  induction l generalizing v with
  | nil => simp
  | cons m l ih =>
    obtain ⟨hm, hl⟩ := List.nodup_cons.1 hl
    rw [List.map_cons, List.foldl_cons, ih hl]
    by_cases him : b + m = i
    · subst him
      simp [hm, nth_updAt_self _ _ _ hi]
    · have hne : ¬ (b ≤ i ∧ i - b = m) := by omega
      rw [nth_updAt_ne _ _ _ him]
      congr 1
      simp only [List.mem_cons, eq_iff_iff]
      tauto

/-- The elements of part q that a condition selects, written. -/
theorem nth_writePart {α : Type} {n z q i : Nat} (hz : 0 < z) (g : Nat → Option α) (p : Nat → Bool) (d : α) (hi : i < n) (v : Vector α n) :
    nth ((((List.range z).filter p).map fun m => (z * q + m, g m)).foldl (fun v p => updAt v p.1 fun old => p.2.getD old) v) i d =
      if i / z = q ∧ p (i % z) then (g (i % z)).getD (nth v i d) else nth v i d := by
  rw [nth_foldl_updAt g d hi _ (List.nodup_range.filter p)]
  by_cases hq : i / z = q
  · subst hq
    simp [← Nat.mod_def, Nat.mul_div_le, Nat.mod_lt i hz]
  · have hout : ¬ (z * q ≤ i ∧ i - z * q ∈ (List.range z).filter p) := fun ⟨hle, hmem⟩ => by
      have hlt := List.mem_range.1 (List.mem_filter.1 hmem).1
      exact hq (Nat.div_eq_of_lt_le (by rwa [mul_comm]) (by rw [Nat.add_one_mul, mul_comm q]; omega))
    rw [if_neg hout, if_neg fun h => hq h.1]

/-- The places of the elements that a VACCWR writes, and what it writes there. -/
def accWrites (s : State) (ty : ElemType) : List (Nat × Option AccEl) :=
  let q := s.cur.b.toNat / 16 % 16
  if ty = .ui32 then ((List.range 64).filter fun m => (List.range 4).all fun i => shown s (4 * m + i)).map fun m =>
    (64 * q + m, accOfImage (digit s.cur.a.toNat 128 m))
  else ((List.range 256).filter (shown s)).map fun m => (256 * q + m, some (accOfF32 (lane s.cur.a m)))

/-- One of them is ill-formed. -/
def accIllFormed (s : State) (ty : ElemType) : Bool := (accWrites s ty).any fun p => p.2.isNone

/-- An accumulator after a VACCWR. -/
def accWritten (s : State) (ty : ElemType) (x : Acc) : Acc :=
  let x := { x with busy := x.busy ++ [2 ^ 32 + s.cur.seq] }
  if accIllFormed s ty then { x with invalid := true }
  else { x with els := (accWrites s ty).foldl (fun v p => updAt v p.1 fun old => p.2.getD old) x.els }

theorem exec_vaccwr {s : State} {ty : ElemType} (h : admitted (.vaccwr ty) s) : exec (.vaccwr ty) s =
    .next (withFlight (withArch ((Eff.fresh 1).apply s) fun a => a.setAcc (s.cur.b.toNat % 4) (accWritten s ty)) { flying s 16 8 with
      lands := false
      posts := .accFree (s.cur.b.toNat % 4) (2 ^ 32 + s.cur.seq) ::
        if accIllFormed s ty then [.fault 0x12 (info (low (Config.freeVec (view s).fresh))) s.cur.slot] else [] }) := by
  have he : exec (.vaccwr ty) s = runOp (opVaccwr ty) s := rfl
  rw [he, runOp_go _ s (admitted_go h rfl)]
  have hfinish := finish_run (withArch ((Eff.fresh 1).apply s) fun a => a.setAcc (s.cur.b.toNat % 4) (accWritten s ty)) 16 8
    (.accFree (s.cur.b.toNat % 4) (2 ^ 32 + s.cur.seq) ::
      if accIllFormed s ty then [.fault 0x12 (info (low (Config.freeVec (view s).fresh))) s.cur.slot] else [])
  simp only [opVaccwr, opRun, accSel_unitTrig, Prog.run_all_cons, Prog.run_all_nil, setArch_run, Prog.run_eff]
  exact congrArg _ hfinish

section
variable {s : State} {ty : ElemType}

theorem image_lt (a : AccEl) : a.image < 2 ^ 128 := by
  obtain ⟨-, -, -, hhigh⟩ := image_fields a
  have hs := enc_lt a.s 96
  have he := enc_lt a.e 12
  have hc : a.cls.code < 4 := by cases a.cls <;> decide
  unfold AccEl.image
  omega

theorem exec_vaccrd_raw {rm : BitVec 3} (h : admitted (.vaccrd ty rm) s) (hraw : ty = .ui32) : exec (.vaccrd ty rm) s =
    .next (lands s 16 8 (vecOf 64 128 fun m =>
      (nth (accAt s s.cur.core (s.cur.b.toNat % 4)).els (64 * (s.cur.b.toNat / 16 % 16) + m) AccEl.zero).image)) := by
  have he : exec (.vaccrd ty rm) s = runOp (opVaccrd ty rm) s := rfl
  rw [he, runOp_go _ s (admitted_go h rfl)]
  simp only [opVaccrd, opRun, accSel_unitTrig, hraw, if_true, view_arch_accs]
  exact congrArg _ (land_run ..)

/-- Element m of the part that a VACCRD names, rounded with band scales of 1. -/
def accRounded (s : State) (ty : ElemType) (rm : BitVec 3) (m : Nat) : Conv :=
  let i := 256 * (s.cur.b.toNat / 16 % 16) + m
  drainEl (tyFmt ty) rm.toNat (if rm = 4 then randomBits s s.cur.core s.cur.srSeq 2 0 i else 0)
    (nth (accAt s s.cur.core (s.cur.b.toNat % 4)).els i AccEl.zero) 0x3F80 0x3F80

theorem exec_vaccrd {rm : BitVec 3} (h : admitted (.vaccrd ty rm) s) (hraw : ty ≠ .ui32) : exec (.vaccrd ty rm) s =
    .next (withFlight (countingSr s (rm = 4)) { flying s 16 8 with
      y0 := vecOfConv 32 ((List.range 256).map (accRounded s ty rm)).toArray
      posts := [.conv (((List.range 256).filter (shown s)).map fun m => (accRounded s ty rm m).sat).sum
        (((List.range 256).filter (shown s)).map fun m => (accRounded s ty rm m).flush).sum
        (((List.range 256).filter (shown s)).map fun m => (accRounded s ty rm m).nan).sum] }) := by
  have he : exec (.vaccrd ty rm) s = runOp (opVaccrd ty rm) s := rfl
  have hrm : rm.toNat = 4 ↔ rm = 4 := (BitVec.toNat_eq (y := 4)).symm
  rw [he, runOp_go _ s (admitted_go h rfl), ← convPost_filter]
  simp only [opVaccrd, opRun, accSel_unitTrig, hraw, if_false, view_arch_accs, bitsFor_view, hrm]
  exact congrArg _ (countSr_land_run ..)

theorem accIllFormed_raw (h : ty = .ui32) : accIllFormed s ty =
    (List.range 64).any fun m => ((List.range 4).all fun i => shown s (4 * m + i)) && (accOfImage (digit s.cur.a.toNat 128 m)).isNone := by
  simp only [accIllFormed, accWrites, h, if_true, List.any_map, List.any_filter, Function.comp_def]

theorem accIllFormed_f32 (h : ty ≠ .ui32) : accIllFormed s ty = false := by simp [accIllFormed, accWrites, h]

theorem accWritten_busy (x : Acc) : accWritten s ty x = { x with
    els := (accWritten s ty x).els, busy := x.busy ++ [2 ^ 32 + s.cur.seq], invalid := x.invalid || accIllFormed s ty } := by
  cases h : accIllFormed s ty <;> simp [accWritten, h]

/-- An element that a VACCWR names and whose lanes pass is the new one. -/
theorem accWritten_els (x : Acc) {i : Nat} (hi : i < 1024) : nth (accWritten s ty x).els i AccEl.zero =
    if accIllFormed s ty then nth x.els i AccEl.zero
    else if ty = .ui32 then
      (if i / 64 = s.cur.b.toNat / 16 % 16 ∧ ((List.range 4).all fun l => shown s (4 * (i % 64) + l)) then
        (accOfImage (digit s.cur.a.toNat 128 (i % 64))).getD (nth x.els i AccEl.zero) else nth x.els i AccEl.zero)
    else if i / 256 = s.cur.b.toNat / 16 % 16 ∧ shown s (i % 256) then accOfF32 (lane s.cur.a (i % 256)) else nth x.els i AccEl.zero := by
  by_cases hbad : accIllFormed s ty = true
  · simp only [accWritten, if_pos hbad]
  · rw [accWritten, if_neg hbad, if_neg hbad, accWrites]
    split
    · exact nth_writePart (by decide) _ _ _ hi _
    · exact nth_writePart (by decide) _ _ _ hi _
end

/-- Settles O26. -/
theorem accumulatorReadsAndWrites : Obligations.AccumulatorReadsAndWrites := by
  unfold Obligations.AccumulatorReadsAndWrites
  intro s ty rm hc c k n q acc at_ raw code seen image whole bad
  have hn : n < 4 := Nat.mod_lt _ (by decide)
  refine ⟨fun h hraw => ?_, fun h hraw => ?_, fun h => ?_⟩
  · exact ⟨_, exec_vaccrd_raw h (of_decide_eq_true hraw), fun m hm =>
      (digit_vecOf _ hm (by decide)).trans (Nat.mod_eq_of_lt (image_lt _))⟩
  · exact ⟨_, exec_vaccrd h (of_decide_eq_false hraw), fun m hm => lane_vecOfConv _ hm⟩
  · have hbad : accIllFormed s ty = bad := by
      by_cases hty : ty = .ui32
      · simp only [bad, raw, accIllFormed_raw hty, decide_eq_true hty, Bool.true_and]
        rfl
      · simp only [bad, raw, accIllFormed_f32 hty, decide_eq_false hty, Bool.false_and]
    let written := withArch ((Eff.fresh 1).apply s) fun a => a.setAcc n (accWritten s ty)
    have hcore : written.core c = { k with arch := k.arch.setAcc n (accWritten s ty) } := withCore_core _ _ _ hc
    have harch : (written.core c).arch = k.arch.setAcc n (accWritten s ty) := by rw [hcore]
    have hflights : (written.core c).flights = k.flights := by rw [hcore]
    have hacc : nth (k.arch.setAcc n (accWritten s ty)).accs n acc = accWritten s ty acc :=
      (nth_updAt_self _ _ _ hn).trans (congrArg _ (nth_default _ hn ..))
    refine ⟨_, exec_vaccwr h, ?_⟩
    rw [hbad]
    refine ⟨?_, ?_, ?_, ?_, ⟨info (low (Config.freeVec (view s).fresh)), ?_⟩, ?_, rfl, rfl⟩
    · rw [withFlight_arch, harch]
      rfl
    · intro m _ hm
      rw [withFlight_arch, harch]
      exact nth_updAt_ne _ _ _ hm.symm
    · rw [withFlight_arch, harch, hacc, ← hbad]
      exact accWritten_busy acc
    · intro i hi
      rw [withFlight_arch, harch, hacc, ← hbad]
      refine (accWritten_els acc hi).trans ?_
      simp only [raw, decide_eq_true_eq]
      rfl
    · exact (withFlight_flights (t := written) _ rfl hc).trans (putFlight_flights_congr _ hflights)
    · intro d hd
      exact (withCore_core_ne _ _ _ hd).trans (withCore_core_ne _ _ _ hd)

end Sys2Proof.Proofs


/-! PROOFS. VPACK, VUNPACK and VPLANE (O25). -/

namespace Sys2Proof.Proofs
open Sys2Proof Sys2Proof.Machine Sys2Proof.Safety

/-! Bits of a vector with bytes replaced. -/

theorem getLsbD_putBytes (v : Vec) (off size x : Nat) {i : Nat} (hi : i < 8192) : (putBytes v off size x).getLsbD i =
    if 8 * off ≤ i ∧ i < 8 * off + 8 * size then x.testBit (i - 8 * off) else v.getLsbD i := by
  rw [putBytes, BitVec.getLsbD_ofNat, decide_eq_true hi, Bool.true_and, testBit_insert, BitVec.testBit_toNat]

theorem testBit_ofDigits {n w i : Nat} (f : Nat → Nat) (hi : i < n * w) : (ofDigits n w f).testBit i = (f (i / w)).testBit (i % w) := by
  have hw : 0 < w := Nat.pos_of_mul_pos_left (hi.pos)
  have hmod := Nat.mod_lt i hw
  have hdigit := congrArg (Nat.testBit · (i % w)) (digit_ofDigits w f ((Nat.div_lt_iff_lt_mul hw).2 hi))
  have hplace := testBit_field (ofDigits n w f) (w * (i / w)) w (i % w)
  rw [Nat.div_add_mod, decide_eq_true hmod, Bool.true_and] at hplace
  rw [← hplace]
  refine hdigit.trans ?_
  rw [Nat.testBit_mod_two_pow, decide_eq_true hmod, Bool.true_and]

theorem ofDigits_congr {n w : Nat} {f g : Nat → Nat} (h : ∀ j, j < n → f j = g j) : ofDigits n w f = ofDigits n w g :=
  List.foldr_ext _ _ _ fun j hj _ => by rw [h j (List.mem_range.1 hj)]

/-- Of two conditions that exclude each other, one or the other. -/
theorem countP_or {α : Type} {p q : α → Bool} (h : ∀ x, p x = true → q x = false) (l : List α) :
    l.countP (fun x => p x || q x) = l.countP p + l.countP q := by
  induction l with
  | nil => rfl
  | cons x l ih =>
    rw [List.countP_cons, List.countP_cons, List.countP_cons, ih]
    cases hp : p x
    · simp only [Bool.false_or, Bool.false_eq_true, if_false]
      omega
    · simp only [h x hp, Bool.true_or, if_true, Bool.false_eq_true, if_false]
      omega

/-! The scales and the control word that VPACK and VUNPACK read (R174). -/

/-- No datum of the running operation's core is in error. -/
def coreSound (s : State) : Prop := (s.core s.cur.core).poison = [] ∧ (s.core s.cur.core).upsets = []

/-- The keeper that the control word names. -/
def packKeeper (s : State) : Keeper := nth (s.core s.cur.core).arch.keepers (s.cur.b.toNat % 2 ^ 32 % 64) Keeper.reset

/-- The scale byte of element j. -/
def packScale (s : State) (f : Fmt) (j : Nat) : Nat :=
  if f = .bf16 then 127 else digit (packKeeper s).bytes.toNat 8 (s.cur.b.toNat % 2 ^ 32 / 2 ^ 6 % 2 ^ 10 + j / blockSize f)

/-- The band scale. -/
def packBand (s : State) (f : Fmt) : Nat :=
  if f = .bsf4 then digit (packKeeper s).band.toNat 16 (s.cur.b.toNat % 2 ^ 32 / 2 ^ 23 % 16) else 0x3F80

section
variable {s : State}

theorem keeperErrors_sound {k : Core} (n : Nat) (h : k.poison = [] ∧ k.upsets = []) : keeperErrors k n = [] := by
  simp [keeperErrors, h.1, h.2]

theorem packCtl_param (s : State) : packCtl (param s.cur.b) = {
    keep := s.cur.b.toNat % 2 ^ 32 % 64
    soff := s.cur.b.toNat % 2 ^ 32 / 2 ^ 6 % 2 ^ 10
    rm := s.cur.b.toNat % 2 ^ 32 / 2 ^ 16 % 8
    ovf := s.cur.b.getLsbD 19
    part := s.cur.b.toNat % 2 ^ 32 / 2 ^ 20 % 8
    band := s.cur.b.toNat % 2 ^ 32 / 2 ^ 23 % 16 } := by
  have hovf : decide (bit (s.cur.b.toNat % 2 ^ 32) 19 = 1) = s.cur.b.getLsbD 19 := by
    rw [Bool.eq_iff_iff, decide_eq_true_iff, bit_eq_one, Nat.testBit_mod_two_pow, BitVec.testBit_toNat]
    simp
  unfold packCtl param
  rw [hovf]
  simp only [field, pow_zero, Nat.div_one]
  rfl

theorem packScales_sound (h : coreSound s) (u : Nat) (f : Fmt) (j : Nat) :
    packScales (view s) (unitTrig s u) f (packCtl (param s.cur.b)) j = (packScale s f j, packBand s f) := by
  have hkeeper : keeperNow (view s) s.cur.core (s.cur.b.toNat % 2 ^ 32 % 64) = packKeeper s := by
    rw [keeperNow, keeperErrors_sound _ (by simpa [coreSound] using h), view_arch_keepers]
    rfl
  simp only [packScales, packCtl_param, hkeeper, packScale, packBand]
  by_cases hf : f = .bf16 <;> simp [hf]

theorem packUse_sound (h : coreSound s) (u : Nat) (f : Fmt) (k : PackCtl) : (packUse (view s) (unitTrig s u) f k).run s = s := by
  have huse : (keeperUse ((unitTrig s u).who (view s)) k.keep
      ((k.soff, 256 / blockSize f) :: if f = .bsf4 then [(1024 + 2 * k.band, 2)] else [])).run s = s := by
    have herr : keeperErrors (s.core s.cur.core) k.keep = [] := keeperErrors_sound _ h
    simp only [keeperUse, Prog.run_get, Trig.who, herr, List.filter_nil]
    rfl
  rw [packUse, Prog.run_when, huse, ite_self]
end

/-! VUNPACK (R175). -/

/-- The random bits of element j. -/
def packRandom (s : State) (j : Nat) : Nat :=
  if s.cur.b.toNat % 2 ^ 32 / 2 ^ 16 % 8 = 4 then
    randomBits s s.cur.core s.cur.srSeq 2 0 (256 * (s.cur.b.toNat % 2 ^ 32 / 2 ^ 20 % 8) + j) else 0

theorem bitsFor_pack (s : State) (u j : Nat) : bitsFor (view s) (unitTrig s u) (packCtl (param s.cur.b)).rm 2 0
    (256 * (packCtl (param s.cur.b)).part + j) = packRandom s j := by
  rw [bitsFor_view, packCtl_param]
  rfl

/-- Element j of the part of a, decoded. -/
def unpacked (s : State) (f : Fmt) (j : Nat) : Conv :=
  convert .f32 (s.cur.b.toNat % 2 ^ 32 / 2 ^ 16 % 8) (packRandom s j) false (scaledValue f (packScale s f j) (packBand s f)
    (digit s.cur.a.toNat f.width (256 * (s.cur.b.toNat % 2 ^ 32 / 2 ^ 20 % 8) + j)))

section
variable {s : State} {fmt : BitVec 4}

theorem exec_vunpack (h : admitted (.vunpack fmt) s) (hs : coreSound s) :
    let one := unpacked s (Fmt.ofCode fmt.toNat)
    exec (.vunpack fmt) s = .next (withFlight (countingSr s (s.cur.b.toNat % 2 ^ 32 / 2 ^ 16 % 8 = 4)) { flying s 16 6 with
      y0 := vecOfConv 32 ((List.range 256).map one).toArray
      posts := [.conv (((List.range 256).filter (shown s)).map fun j => (one j).sat).sum
        (((List.range 256).filter (shown s)).map fun j => (one j).flush).sum
        (((List.range 256).filter (shown s)).map fun j => (one j).nan).sum] }) := by
  have he : exec (.vunpack fmt) s = runOp (opVunpack fmt) s := rfl
  intro one
  rw [he, runOp_go _ s (admitted_go h rfl), ← convPost_filter]
  simp only [opVunpack, opRun, packScales_sound hs, bitsFor_pack]
  rw [Prog.run_all_cons, packUse_sound hs]
  simp only [packCtl_param]
  exact congrArg _ (countSr_land_run ..)

/-! VPLANE (R177). -/

theorem exec_vplane (s : State) (fmt : BitVec 4) : exec (.vplane fmt) s = .next (lands s 16 4
    (putBytes s.cur.c (128 * field (param s.cur.b) 5 3) 128
      (ofBits 1024 fun r => planeBit (Fmt.ofCode fmt.toNat) (field (param s.cur.b) 0 5)
        (digit s.cur.a.toNat (Fmt.ofCode fmt.toNat).width r) = 1))) := runOp_lands s 16 4 _

theorem getLsbD_plane (v : Vec) (f : Nat → Bool) {q i : Nat} (hi : i < 8192) : (putBytes v (128 * q) 128 (ofBits 1024 f)).getLsbD i =
    if i / 1024 = q then f (i % 1024) else v.getLsbD i := by
  rw [getLsbD_putBytes v _ _ _ hi, testBit_ofBits]
  by_cases hq : i / 1024 = q
  · have hin : 8 * (128 * q) ≤ i ∧ i < 8 * (128 * q) + 8 * 128 := by omega
    have hplace : i - 8 * (128 * q) = i % 1024 := by omega
    rw [if_pos hin, if_pos hq, hplace, decide_eq_true (Nat.mod_lt i (by decide)), Bool.true_and]
  · have hout : ¬ (8 * (128 * q) ≤ i ∧ i < 8 * (128 * q) + 8 * 128) := by omega
    rw [if_neg hout, if_neg hq]
end


/-! VPACK (R136, R174). -/

/-- The case of element j's block. -/
def packMode (s : State) (f : Fmt) (j : Nat) : BlockMode :=
  if f = .bf16 then .plain
  else blockMode (f = .bsf4) (packScale s f j) (packBand s f)
    ((List.range (blockSize f)).map fun i => f32 (lane s.cur.a (j / blockSize f * blockSize f + i)))

/-- Element j of a, quantised. -/
def packed (s : State) (f : Fmt) (j : Nat) : Conv :=
  quantise f (packMode s f j) (packScale s f j) (packBand s f) (s.cur.b.toNat % 2 ^ 32 / 2 ^ 16 % 8) (packRandom s j)
    (s.cur.b.getLsbD 19) (f32 (lane s.cur.a j))

section
variable {s : State} {fmt : BitVec 4} {f : Fmt}

theorem blockSize_pos (f : Fmt) : 0 < blockSize f := by unfold blockSize; split <;> decide

theorem block_lt {j : Nat} (hj : j < 256) : j / blockSize f < 256 / blockSize f := by
  unfold blockSize
  split <;> omega

theorem take_drop_map_range {α : Type} (g : Nat → α) {b z n : Nat} (h : b * z + z ≤ n) :
    (((List.range n).map g).drop (b * z)).take z = (List.range z).map fun i => g (b * z + i) := by
  refine List.ext_getElem (by simp; omega) fun i _ _ => by simp

/-- The elements of a block are in one case. -/
theorem packMode_block (j : Nat) : packMode s f (j / blockSize f * blockSize f) = packMode s f j := by
  simp only [packMode, packScale, Nat.mul_div_cancel _ (blockSize_pos f)]

theorem packModes_eq : ((List.range (256 / blockSize f)).map fun b => if f = .bf16 then BlockMode.plain
    else blockMode (f = .bsf4) (packScale s f (b * blockSize f)) (packBand s f)
      ((((List.range 256).map fun j => f32 (lane s.cur.a j)).drop (b * blockSize f)).take (blockSize f))) =
    (List.range (256 / blockSize f)).map fun b => packMode s f (b * blockSize f) := by
  refine List.map_congr_left fun b hb => ?_
  have hroom : b * blockSize f + blockSize f ≤ 256 := by
    rw [← Nat.succ_mul]
    exact (Nat.le_div_iff_mul_le (blockSize_pos f)).1 (List.mem_range.1 hb)
  rw [take_drop_map_range _ hroom, packMode, Nat.mul_div_cancel _ (blockSize_pos f)]

theorem packCodes_eq : (((List.range 256).map fun j => f32 (lane s.cur.a j)).zipIdx.map fun x => quantise f
    (((List.range (256 / blockSize f)).map fun b => packMode s f (b * blockSize f)).toArray[x.2 / blockSize f]?.getD .plain)
    (packScale s f x.2) (packBand s f) (s.cur.b.toNat % 2 ^ 32 / 2 ^ 16 % 8) (packRandom s x.2) (s.cur.b.getLsbD 19) x.1) =
    (List.range 256).map (packed s f) := by
  rw [zipIdx_map_range, List.map_map]
  refine List.map_congr_left fun j hj => ?_
  have hblock : j / blockSize f < 256 / blockSize f := block_lt (List.mem_range.1 hj)
  simp [hblock, packMode_block, packed]

theorem filter_zipIdx_map_range {α : Type} (n : Nat) (g : Nat → α) (P : α × Nat → Bool) :
    ((List.range n).map g).zipIdx.filter P = ((List.range n).filter fun b => P (g b, b)).map fun b => (g b, b) := by
  rw [zipIdx_map_range, List.filter_map]
  rfl

/-- The events of the conversions that a condition selects, and further NaNs. -/
theorem convPost_nans (n : Nat) (g : Nat → Conv) (P : Nat → Bool) :
    convPost ({ code := 0, nan := n } :: (((List.range 256).map g).zipIdx.filter fun x => P x.2).map (·.1)) =
      [.conv (((List.range 256).filter P).map fun j => (g j).sat).sum (((List.range 256).filter P).map fun j => (g j).flush).sum
        (n + (((List.range 256).filter P).map fun j => (g j).nan).sum)] := by
  rw [convPost_eq, filter_zipIdx_map_range]
  simp only [List.map_cons, List.map_map, List.sum_cons, Nat.zero_add]
  rfl

theorem code_getElem?_map_range (g : Nat → Conv) {j : Nat} (hj : j < 256) :
    (Option.map (fun x => x.code) ((List.range 256).map g).toArray[j]?).getD 0 = (g j).code := by
  simp [hj]

/-- A result that lands after stochastic rounding is counted and, for a list that is not empty, a register is changed. -/
theorem counted_marked_land_run (u b : Nat) (sr : Bool) (bad : List Nat) (g : Arch → Arch) (y : Vec) (l : List Post) :
    (Prog.all [countSr (unitTrig s u) sr, Prog.when_ (!bad.isEmpty) (setArch s.cur.core g), land (unitTrig s u) b y l]).run s =
      withFlight (if bad = [] then countingSr s sr else withArch (countingSr s sr) g) { flying s u b with y0 := y, posts := l } := by
  obtain ⟨htrig, hfly⟩ := countingSr_flying s u sr b
  have hcore : s.cur.core = (countingSr s sr).cur.core := (congrArg Trig.core htrig).symm
  rw [Prog.run_all_cons, Prog.run_all_cons, Prog.run_all_cons, Prog.run_all_nil, countSr_run, ← htrig, ← hfly, hcore]
  cases bad with
  | nil => exact land_run (countingSr s sr) u b y l
  | cons n r => exact land_run (withArch (countingSr s sr) g) u b y l

/-- The vector c with the quantised elements of a as part p. -/
def packedVec (s : State) (f : Fmt) : Vec :=
  putBytes s.cur.c (s.cur.b.toNat % 2 ^ 32 / 2 ^ 20 % 8 * (32 * f.width)) (32 * f.width) (ofDigits 256 f.width fun j => (packed s f j).code)

theorem getLsbD_packedVec {i : Nat} (hi : i < 8192) : (packedVec s f).getLsbD i =
    let at_ := s.cur.b.toNat % 2 ^ 32 / 2 ^ 20 % 8 * (256 * f.width)
    if at_ ≤ i ∧ i < at_ + 256 * f.width then (packed s f ((i - at_) / f.width)).code.testBit ((i - at_) % f.width)
    else s.cur.c.getLsbD i := by
  have hat : 8 * (s.cur.b.toNat % 2 ^ 32 / 2 ^ 20 % 8 * (32 * f.width)) = s.cur.b.toNat % 2 ^ 32 / 2 ^ 20 % 8 * (256 * f.width) := by ring
  have hsize : 8 * (32 * f.width) = 256 * f.width := by ring
  rw [packedVec, getLsbD_putBytes _ _ _ _ hi, hat, hsize]
  dsimp only
  split
  · rename_i hin
    exact testBit_ofDigits _ (by omega)
  · rfl

/-- The blocks that hold a NaN. -/
def nanBlocks (s : State) (f : Fmt) : List Nat :=
  (List.range (256 / blockSize f)).filter fun b => packMode s f (b * blockSize f) = .nanBlock

/-- The blocks counted as a NaN: those that hold one, and those under a NaN scale of which a lane passes. -/
def nanCounted (s : State) (f : Fmt) : List Nat :=
  (List.range (256 / blockSize f)).filter fun b => packMode s f (b * blockSize f) = .nanBlock ||
    (packMode s f (b * blockSize f) = .nanScale &&
      (List.range (blockSize f)).any fun i => shown s (packLane f (s.cur.b.toNat % 2 ^ 32 / 2 ^ 20 % 8) (b * blockSize f + i)))

/-- The elements of which a lane passes. -/
def packShown (s : State) (f : Fmt) : List Nat :=
  (List.range 256).filter fun j => shown s (packLane f (s.cur.b.toNat % 2 ^ 32 / 2 ^ 20 % 8) j)

theorem exec_vpack (h : admitted (.vpack fmt) s) (hs : coreSound s) :
    let f := Fmt.ofCode fmt.toNat
    let p := s.cur.b.toNat % 2 ^ 32
    let bad := (nanBlocks s f).map fun b => p / 2 ^ 6 % 2 ^ 10 + b
    exec (.vpack fmt) s = .next (withFlight (if bad = [] then countingSr s (p / 2 ^ 16 % 8 = 4)
        else withArch (countingSr s (p / 2 ^ 16 % 8 = 4)) fun a => { a with
          keepers := updAt a.keepers (p % 64) fun x => { x with writes := x.writes + 1 } }) { flying s 16 6 with
      y0 := packedVec s f
      posts := .conv ((packShown s f).map fun j => (packed s f j).sat).sum ((packShown s f).map fun j => (packed s f j).flush).sum
          ((nanCounted s f).length + ((packShown s f).map fun j => (packed s f j).nan).sum) ::
        if bad = [] then [] else [.keeper (p % 64) (byteMask bad) (BitVec.allOnes 8192) 0 0 false] }) := by
  have he : exec (.vpack fmt) s = runOp (opVpack fmt) s := rfl
  intro f p bad
  rw [he, runOp_go _ s (admitted_go h rfl)]
  simp only [opVpack, opRun, packScales_sound hs, bitsFor_pack, packModes_eq]
  rw [Prog.run_all_cons, packUse_sound hs]
  simp only [packCtl_param]
  rw [packCodes_eq, convPost_nans _ _ fun j => passes (unitTrig s 16) (packLane f (p / 2 ^ 20 % 8) j), filter_zipIdx_map_range,
    filter_zipIdx_map_range, List.length_map, List.map_map]
  rw [ofDigits_congr fun j hj => code_getElem?_map_range (packed s (Fmt.ofCode fmt.toNat)) hj]
  simp only [List.isEmpty_iff]
  exact congrArg _ (counted_marked_land_run ..)
end

/-- Settles O25: each element's case is that of its block, and the NaN blocks and the blocks under a NaN scale are counted apart. -/
theorem packUnpackAndPlanes : Obligations.PackUnpackAndPlanes := by
  unfold Obligations.PackUnpackAndPlanes
  intro s fmt c f p keep soff rm part kp z scale band random x mode packed opened lane_ starts nans old counted sum size marked sound
  refine ⟨fun h hs => ?_, fun h hs => ?_, ?_⟩
  · have hnans : nans = (nanBlocks s f).map (· * z) := List.filter_map
    have hbad : ((nanBlocks s f).map fun b => soff + b) = nans.map fun j => soff + j / z := by
      rw [hnans, List.map_map]
      exact List.map_congr_left fun b _ => congrArg (soff + ·) (Nat.mul_div_cancel b (blockSize_pos f)).symm
    have hcount : (nanCounted s f).length = nans.length + old.length := by
      have hstarts : ∀ P : Nat → Bool, (starts.filter P).length = (List.range (256 / z)).countP fun b => P (b * z) := fun P =>
        List.countP_eq_length_filter.symm.trans List.countP_map
      rw [nanCounted, ← List.countP_eq_length_filter, hstarts, hstarts]
      exact countP_or (fun b hb => by rw [of_decide_eq_true hb]; rfl) _
    refine ⟨packedVec s f, ?_, fun i hi => getLsbD_packedVec hi⟩
    have hrun := exec_vpack h hs
    dsimp only at hrun
    rw [hcount, hbad] at hrun
    simp only [List.map_eq_nil_iff] at hrun
    exact hrun
  · exact ⟨_, exec_vunpack h hs, fun j hj => lane_vecOfConv _ hj⟩
  · refine ⟨_, exec_vplane s fmt, fun i hi => ?_⟩
    rw [getLsbD_plane _ _ hi]
    have hnp : field (param s.cur.b) 0 5 = p % 32 := by simp [field, param, p]
    rw [hnp]
    rfl

end Sys2Proof.Proofs


/-! PROOFS. Operations of MA: accumulator controls, and what a halt discards (O36). -/

namespace Sys2Proof.Proofs
open Sys2Proof Sys2Proof.Machine Sys2Proof.Safety

/-! Changes of core c beside records in the error rings and pending steps (R386). -/

/-- t is s but for what is pending and for records written; a ring that can take a record still can. -/
structure RecordsOnly (s t : State) : Prop where
  cores : t.cores = s.cores
  lmem : t.lmem = s.lmem
  time : t.time = s.time
  ring : ∀ d, recordable s d → recordable t d

theorem recordsOnly_frame : Frame RecordsOnly where
  refl _ := ⟨rfl, rfl, rfl, fun _ => id⟩
  trans _ _ _ h h' := ⟨h'.cores.trans h.cores, h'.lmem.trans h.lmem, h'.time.trans h.time, fun d => h'.ring d ∘ h.ring d⟩

theorem recordsOnly_of_queuesOnly {s t : State} (h : QueuesOnly s t) : RecordsOnly s t := by
  obtain ⟨a, l, e, rfl⟩ := h
  exact ⟨rfl, rfl, rfl, fun _ => id⟩

theorem recordable_withDie {s : State} {d e : Nat} {f : Die → Die} (hf : ∀ y, (f y).linkUp = y.linkUp ∧ (f y).stopped = y.stopped)
    (h : recordable s e) : recordable (withDie s d f) e := by
  have hdie : ∀ i, ((withDie s d f).die i).linkUp = (s.die i).linkUp ∧ ((withDie s d f).die i).stopped = (s.die i).stopped := by
    intro i
    obtain rfl | hi := eq_or_ne d i
    · by_cases hd : d < 2
      · have hself : (withDie s d f).die d = f (s.die d) := nth_updAt_self _ _ _ hd
        exact hself ▸ hf _
      · have hpast : withDie s d f = s := by rw [withDie, updAt_past _ _ (Nat.not_lt.1 hd)]
        rw [hpast]
        exact ⟨rfl, rfl⟩
    · have hne : (withDie s d f).die i = s.die i := nth_updAt_ne _ _ _ hi
      rw [hne]
      exact ⟨rfl, rfl⟩
  refine ⟨fun i hi => ⟨(h.1 i hi).1, ?_⟩, h.2⟩
  rw [← (h.1 i hi).2]
  simp only [homeCut, linkDown, hdie]
  rfl

/-- A record that the ring can take changes no core and no array. -/
theorem recordsOnly_errorRecord {s : State} {r : ErrRec} (h : recordable s r.die) : RecordsOnly s ((errorRecord r).run s) := by
  obtain ⟨hcores, hlmem, htime⟩ := errorRecord_leaves h
  refine ⟨hcores, hlmem, htime, fun d hd => ?_⟩
  rw [errorRecord_run h.2]
  by_cases hfull : ((s.die r.die).errWp - (s.die r.die).errRp).toNat = 4096
  · rw [putRecord, Prog.run_get]
    simp only [if_pos hfull, Prog.run_eff]
    exact recordable_withDie (fun _ => ⟨rfl, rfl⟩) hd
  · rw [putRecord_run (fun h => hfull (by rw [h]; rfl)) h]
    exact recordable_withDie (s := (Eff.gput ..).apply s) (fun _ => ⟨rfl, rfl⟩) hd

section
variable {s t : State} {c : Nat} {f : Core → Core}

theorem RecordsOnly.onCore (h : RecordsOnly s t) (c : Nat) (f : Core → Core) :
    RecordsOnly (withCore s c f) (withCore t c f) :=
  ⟨congrArg (updAt · c f) h.cores, h.lmem, h.time, h.ring⟩

/-- A change of core c with records leaves the others and the arrays. -/
theorem RecordsOnly.others (h : RecordsOnly (withCore s c f) t) : (∀ d, d ≠ c → t.core d = s.core d) ∧ t.lmem = s.lmem :=
  ⟨fun d hd => (congrArg (nth · d Core.reset) h.cores).trans (withCore_core_ne s c f hd), h.lmem⟩

theorem RecordsOnly.self (h : RecordsOnly (withCore s c f) t) (hc : c < 256) : t.core c = f (s.core c) :=
  (congrArg (nth · c Core.reset) h.cores).trans (withCore_core s c f hc)

/-- Two changes of core c in turn. -/
theorem RecordsOnly.andThen {u : State} {g : Core → Core} (h : RecordsOnly (withCore s c f) t)
    (h' : RecordsOnly (withCore t c g) u) : RecordsOnly (withCore s c fun k => g (f k)) u := by
  rw [← withCore_withCore]
  exact recordsOnly_frame.trans _ _ _ (h.onCore c g) h'
end

/-! What an operation of MA gives back, and what a refused one leaves (R200, R206). -/

section
variable (a : Arch) (l : List Nat) (f : Nat → Nat)

/-- A part of the task-visible state without tiles is left by taking or giving back tiles. -/
theorem holdTiles_part {α : Type} (p : Arch → α) (hp : ∀ (a : Arch) (v : Vector Tile 64), p { a with tiles := v } = p a) :
    p (a.holdTiles l f) = p a :=
  List.foldlRecOn (motive := fun b => p b = p a) l _ rfl fun b hb _ _ => (hp b _).trans hb

/-- A part without keepers is left by taking or giving back keepers. -/
theorem readKeepers_part {α : Type} (p : Arch → α) (hp : ∀ (a : Arch) (v : Vector Keeper 64), p { a with keepers := v } = p a) :
    p (a.readKeepers l f) = p a := by
  refine List.foldlRecOn (motive := fun b => p b = p a) l _ rfl fun b hb k _ => ?_
  split
  · exact hb
  · exact (hp b _).trans hb

@[simp] theorem holdTiles_accs : (a.holdTiles l f).accs = a.accs := holdTiles_part a l f _ fun _ _ => rfl
@[simp] theorem holdTiles_maHalt : (a.holdTiles l f).maHalt = a.maHalt := holdTiles_part a l f _ fun _ _ => rfl
@[simp] theorem readKeepers_accs : (a.readKeepers l f).accs = a.accs := readKeepers_part a l f _ fun _ _ => rfl
@[simp] theorem readKeepers_maHalt : (a.readKeepers l f).maHalt = a.maHalt := readKeepers_part a l f _ fun _ _ => rfl
end

section
variable (t : Trig) (a : Arch)

theorem maRelease_accs : (maRelease t a).accs = if namesAcc t.opcode then
    updAt a.accs (maAcc t) (fun x => { x with busy := x.busy.filter (· ≠ t.maSeq.toNat) }) else a.accs := by
  unfold maRelease
  cases namesAcc t.opcode <;> by_cases h : t.opcode = 1 <;> simp [h, Arch.setAcc]

@[simp] theorem maRelease_maHalt : (maRelease t a).maHalt = a.maHalt := by
  unfold maRelease
  cases namesAcc t.opcode <;> by_cases h : t.opcode = 1 <;> simp [h, Arch.setAcc]

/-- What a refused operation makes of its core's task-visible state. -/
def refusedArch : Arch :=
  if maTarget t.opcode then (maRelease t a).setAcc (maAcc t) fun x => { x with invalid := true } else maRelease t a

@[simp] theorem refusedArch_maHalt : (refusedArch t a).maHalt = a.maHalt := by
  unfold refusedArch
  split <;> simp [Arch.setAcc]

/-- A refused operation frees its accumulator and, that being a target, marks it invalid; its elements stand. -/
theorem refusedArch_acc (h : maTarget t.opcode = true) : nth (refusedArch t a).accs (maAcc t) (Acc.reset (maAcc t)) =
    { nth a.accs (maAcc t) (Acc.reset (maAcc t)) with
      invalid := true, busy := (nth a.accs (maAcc t) (Acc.reset (maAcc t))).busy.filter (· ≠ t.maSeq.toNat) } := by
  have hn : maAcc t < 4 := Nat.mod_lt _ (by decide)
  have hnames : namesAcc t.opcode = true := by
    simp only [maTarget, Bool.and_eq_true] at h
    exact h.1.1
  simp only [refusedArch, h, if_true, Arch.setAcc, maRelease_accs, hnames, nth_updAt_self _ _ _ hn]

variable {t} in
/-- A refused operation changes its core and writes a record. -/
theorem maRefused_recordsOnly {s : State} (hr : recordable s (dieOf t.core)) (check w : Nat) :
    RecordsOnly (withCore s t.core fun k => k.updArch t.seq (refusedArch t)) ((maRefused t check w).run s) := by
  simp only [maRefused, Prog.run_all_cons, Prog.run_all_nil, Prog.run_get, setArchAt_run, apply_core_eq]
  exact recordsOnly_errorRecord hr
end

theorem engineDone_accs (a : Arch) (u : Nat) : (a.engineDone u).accs = a.accs := by
  unfold Arch.engineDone
  split <;> rfl

theorem engineDone_maHalt (a : Arch) (u : Nat) : (a.engineDone u).maHalt = a.maHalt := by
  unfold Arch.engineDone
  split <;> rfl

/-- While MA is halted, an operation other than MCLR is discarded, its checks made (R206). -/
theorem maRun_halted {s : State} (hchk : s.cur.checked = true) (hhalt : (s.core s.cur.core).arch.maHalt = true)
    (hop : s.cur.dest / 64 % 256 ≠ 8) (chk : State → Trig → Verdict) (body : State → Trig → Prog) :
    runOp (maRun chk body) s = .next (((maDiscarded (unitTrig s 19)).andThen
      (setArchAt s.cur.core s.cur.seq (·.engineDone 19))).run s) := by
  have htaken : maTaken (view s) (unitTrig s 19) = unitTrig s 19 := if_pos hchk
  have hmclr : ((unitTrig s 19).opcode != 8) = true := bne_iff_ne.2 hop
  rw [runOp_go _ s (.inl hchk)]
  simp only [maRun, opRun, htaken, hchk, Bool.not_true, Prog.run_all_cons, Prog.run_all_nil, Prog.run_when_false, Prog.run_get, hhalt,
    hmclr, Bool.and_self, if_true]

/-- MCLR runs also where MA is halted (R207). -/
theorem maRun_mclr {s : State} (hchk : s.cur.checked = true) (hop : s.cur.dest / 64 % 256 = 8) (chk : State → Trig → Verdict)
    (body : State → Trig → Prog) : runOp (maRun chk body) s = .next ((body (view s) (unitTrig s 19)).run s) := by
  have htaken : maTaken (view s) (unitTrig s 19) = unitTrig s 19 := if_pos hchk
  have hmclr : ((unitTrig s 19).opcode != 8) = false := bne_eq_false_iff_eq.2 hop
  rw [runOp_go _ s (.inl hchk)]
  simp only [maRun, opRun, htaken, hchk, Bool.not_true, Prog.run_all_cons, Prog.run_all_nil, Prog.run_when_false, Prog.run_get,
    hmclr, Bool.and_false, Bool.false_eq_true, if_false]
  rfl

section
variable {s : State} (hchk : s.cur.checked = true)
include hchk

/-- MCLR (R207). -/
theorem exec_mclr (hop : s.cur.dest / 64 % 256 = 8) : exec .mclr s =
    .next (withFlight (withArchAt s fun a => { a with maHalt := false }) { flying s 19 1 with lands := false }) := by
  have he : exec .mclr s = runOp opMclr s := rfl
  rw [he, opMclr, maRun_mclr hchk hop]
  exact congrArg Host.Outcome.next (finish_run (withArchAt s fun a => { a with maHalt := false }) 19 1 [])

variable (hhalt : (s.core s.cur.core).arch.maHalt = false)
include hhalt

/-- An operation of MA that changes its accumulator alone (R213). -/
theorem maRun_setAcc (chk : State → Trig → Verdict) (g : State → Trig → Acc → Acc) (b : Nat) :
    runOp (maRun chk fun v t => Prog.all [setArchAt t.core t.seq (fun a => a.setAcc (maAcc t) (g v t)), maFinish t b []]) s =
      .next (withFlight (withArchAt s fun a => a.setAcc ((opA s).toNat % 4) (g (view s) (unitTrig s 19)))
        { flying s 19 b with lands := false, posts := [.accFree ((opA s).toNat % 4) s.cur.maSeq.toNat] }) := by
  rw [maRun_run hchk hhalt, maAcc_unitTrig]
  exact congrArg Host.Outcome.next (maFinish_run (s := s) (t := withArchAt s _) rfl rfl b [])

/-- MCHK (R213). -/
theorem exec_mchk : exec .mchk s = .next (withFlight s { flying s 19 40 with
    y0 := wide (accDigest (accAt s s.cur.core ((opA s).toNat % 4))), posts := [.accFree ((opA s).toNat % 4) s.cur.maSeq.toNat] }) := by
  have he : exec .mchk s = runOp opMchk s := rfl
  rw [he, opMchk, maRun_run hchk hhalt, maAcc_unitTrig, accAt_view]
  exact congrArg Host.Outcome.next (land_run s 19 40 _ _)
end

/-- The digest counts the elements that are not finite (R213). -/
theorem accDigest_eq (a : Acc) : accDigest a = crc32c 16384 (ofDigits 1024 128 fun i => (nth a.els i AccEl.zero).image) +
    (List.range 1024).countP (fun i => (nth a.els i AccEl.zero).cls != .fin) * 2 ^ 32 := by
  rw [accDigest, List.countP_eq_length_filter]
  rfl

section
variable {s : State}

/-- The accumulator of a refused operation that has it as its target, where nothing after the refusal changed it. -/
theorem accAt_refused {t : State} (hop : maTarget (unitTrig s 19).opcode = true)
    (h : (t.core s.cur.core).arch.accs = (refusedArch (unitTrig s 19) (s.core s.cur.core).arch).accs) :
    accAt t s.cur.core ((opA s).toNat % 4) = { accAt s s.cur.core ((opA s).toNat % 4) with
      invalid := true
      busy := (accAt s s.cur.core ((opA s).toNat % 4)).busy.filter (· ≠ s.cur.maSeq.toNat) } := by
  have hacc := refusedArch_acc (unitTrig s 19) (s.core s.cur.core).arch hop
  rw [maAcc_unitTrig] at hacc
  rw [accAt, h, hacc]
  rfl

/-- A discarded operation of MA is refused, and the engine no longer runs it (R206). -/
theorem maDiscarded_recordsOnly (hr : recordable s (dieOf s.cur.core)) :
    RecordsOnly (withCore s s.cur.core fun k => (k.updArch s.cur.seq (refusedArch (unitTrig s 19))).updArch s.cur.seq (·.engineDone 19))
      (((maDiscarded (unitTrig s 19)).andThen (setArchAt s.cur.core s.cur.seq (·.engineDone 19))).run s) := by
  rw [Prog.run_andThen]
  exact (maRefused_recordsOnly (t := unitTrig s 19) hr 0 _).andThen (g := fun k => k.updArch s.cur.seq (·.engineDone 19))
    (recordsOnly_frame.refl _)
end

/-- Settles O36: an operation with its checks made changes its accumulator alone, and a halted MA refuses all but MCLR. -/
theorem accumulatorControls : Obligations.AccumulatorControls := by
  unfold Obligations.AccumulatorControls
  intro s hc hchk c k n acc image special done
  refine ⟨fun hhalt => ⟨?_, ?_, ?_⟩, fun hop => exec_mclr hchk hop, fun hhalt hop hr => ?_⟩
  · exact maRun_setAcc hchk hhalt _ (fun _ _ x => { x with
      els := Vector.replicate 1024 AccEl.zero, invalid := false, bandA := 0x3F80, bandB := 0x3F80, lastProfile := 1 }) 2
  · refine (maRun_setAcc hchk hhalt _ (fun _ t x => { x with tag := BitVec.ofNat 16 t.sb }) 1).trans ?_
    simp only [sb_eq]
    rfl
  · rw [exec_mchk hchk hhalt, accDigest_eq]
  · have htarget : maTarget (unitTrig s 19).opcode = true := by
      rw [show (unitTrig s 19).opcode = 4 from hop]
      rfl
    have hrun := maDiscarded_recordsOnly hr
    have hown := congrArg Core.arch (hrun.self hc)
    simp only [updArch_arch] at hown
    have hacc := accAt_refused htarget (by rw [hown, engineDone_accs])
    refine ⟨_, maRun_halted hchk hhalt (by omega) _ _, ?_, congrArg Acc.invalid hacc, (congrArg Acc.els hacc).trans rfl, hrun.others⟩
    rw [hown, engineDone_maHalt, refusedArch_maHalt, hhalt]

end Sys2Proof.Proofs


/-! PROOFS. An MMA: its command checks, its pass over the array, its end and its replay (O34). -/

namespace Sys2Proof.Proofs
open Sys2Proof Sys2Proof.Machine Sys2Proof.Safety

theorem toNat_coreBV {c : Nat} (h : c < 256) : (coreBV c).toNat = c := by
  rw [coreBV, BitVec.toNat_ofNat, Nat.mod_eq_of_lt h]

/-! Changes of core c beside pending steps. -/

section
variable {s t : State} {c : Nat} {f : Core → Core}

theorem QueuesOnly.mem (h : QueuesOnly s t) : t.mem = s.mem := by
  obtain ⟨a, l, e, rfl⟩ := h
  rfl

/-- Two changes of core c in turn. -/
theorem QueuesOnly.andThen {u : State} {g : Core → Core} (h : QueuesOnly (withCore s c f) t) (h' : QueuesOnly (withCore t c g) u) :
    QueuesOnly (withCore s c fun k => g (f k)) u := by
  obtain ⟨a, l, e, rfl⟩ := h
  obtain ⟨a', l', e', rfl⟩ := h'
  rw [← withCore_withCore]
  exact ⟨a', l', e', rfl⟩

/-- A change of core c beside pending steps leaves the other cores and the memories. -/
theorem QueuesOnly.others (h : QueuesOnly (withCore s c f) t) :
    ((∀ d, d ≠ c → t.core d = s.core d) ∧ t.lmem = s.lmem) ∧ t.mem = s.mem :=
  ⟨(recordsOnly_of_queuesOnly h).others, h.mem⟩

theorem QueuesOnly.self (h : QueuesOnly (withCore s c f) t) (hc : c < 256) : t.core c = f (s.core c) :=
  (recordsOnly_of_queuesOnly h).self hc
end

theorem queuesOnly_postAt (n p : Nat) (i : Instr) : Within QueuesOnly (postAt n p i) := fun _ => ⟨_, _, _, rfl⟩

theorem queuesOnly_scheduleArray (c : Nat) : Within QueuesOnly (scheduleArray c) := fun s => by
  rw [scheduleArray, Prog.run_get]
  dsimp only
  split
  · exact queuesOnly_frame.refl s
  · exact queuesOnly_postAt _ _ _ s

/-! The command (R205, R206, R209). -/

/-- The keeper that the running MMA's trigger has taken for side i, as its number plus one (R225). -/
def mmaKeep (s : State) (i : Nat) : Nat := s.cur.aux.toNat / 2 ^ (64 * i) % 2 ^ 64

/-- What the running MMA reads. -/
def mmaCommand (s : State) : MmaIn :=
  ⟨s.cur.core, pcwOf (opB s).toNat, (opA s).toNat / 2 ^ 8 % 64, (opA s).toNat / 2 ^ 16 % 64, mmaKeep s 0 - 1, mmaKeep s 1 - 1⟩

/-- The running MMA as it joins the array's queue of its core k. -/
def mmaQueued (s : State) (k : Core) : MmaOp where
  seq := s.cur.seq
  slot := s.cur.slot
  pc := s.cur.pc
  maSeq := s.cur.maSeq
  inTrap := s.cur.inTrap
  acc := (opA s).toNat % 4
  tileA := (opA s).toNat / 2 ^ 8 % 64
  tileB := (opA s).toNat / 2 ^ 16 % 64
  pcw := (opB s).toNat % 2 ^ 32
  start := s.time
  bufs := []
  began := none
  complete := 0
  lastAcc := 0
  tilesHeld := true
  keeps := [mmaKeep s 0, mmaKeep s 1]
  before := none
  limit := field (k.arch.sr 15).toNat 0 4
  replays := 0
  marked := false
  digits := []
  mr := 0
  mc := 0
  badBlock := 0

theorem maTileA_unitTrig (s : State) (u : Nat) : maTileA (unitTrig s u) = (opA s).toNat / 2 ^ 8 % 64 := by simp [maTileA, sa_eq, field]
theorem maTileB_unitTrig (s : State) (u : Nat) : maTileB (unitTrig s u) = (opA s).toNat / 2 ^ 16 % 64 := by simp [maTileB, sa_eq, field]

section
variable {s : State} (hchk : s.cur.checked = true) (hhalt : (s.core s.cur.core).arch.maHalt = false)
include hchk hhalt

/-- An MMA joins the array's queue, or is ill-formed (R206). -/
theorem exec_mma : exec .mma s = .next ((
    let bad := (mmaCommand s).failing (view s) (accAt s s.cur.core ((opA s).toNat % 4))
    if bad != 0 then maIllFormed (unitTrig s 19) bad (opB s).toNat
    else Prog.all [
      setCore s.cur.core fun k => { k with maQ := k.maQ ++ [mmaQueued s k] },
      scheduleArray s.cur.core]).run s) := by
  have he : exec .mma s = runOp opMma s := rfl
  rw [he, opMma, maRun_run hchk hhalt]
  simp only [maTileA_unitTrig, maTileB_unitTrig, maAcc_unitTrig, sb_eq, accAt_view]
  rfl

theorem exec_mma_refused {bad : Nat} (h : (mmaCommand s).failing (view s) (accAt s s.cur.core ((opA s).toNat % 4)) = bad)
    (hbad : bad ≠ 0) : exec .mma s = .next ((maIllFormed (unitTrig s 19) bad (opB s).toNat).run s) := by
  rw [exec_mma hchk hhalt]
  dsimp only
  rw [h, if_pos (bne_iff_ne.2 hbad)]

theorem exec_mma_queues (h : (mmaCommand s).failing (view s) (accAt s s.cur.core ((opA s).toNat % 4)) = 0) :
    ∃ t, exec .mma s = .next t ∧ QueuesOnly (withCore s s.cur.core fun k => { k with maQ := k.maQ ++ [mmaQueued s k] }) t := by
  refine ⟨_, exec_mma hchk hhalt, ?_⟩
  simp only [h, bne_self_eq_false, Bool.false_eq_true, if_false, Prog.run_all_cons, Prog.run_all_nil, setCore_run, apply_core_eq]
  exact queuesOnly_scheduleArray _ _
end

/-- A core's MA halts: its waiting operations but MCLR go (R198, R206). -/
def maHalted (q : Nat) (k : Core) : Core :=
  { k.updArch q (fun a => { a with maHalt := true }) with captured := updAt k.captured 0 fun l => l.filter fun t => t.opcode = 8 }

theorem maHalted_accs (q : Nat) (k : Core) : (maHalted q k).arch.accs = k.arch.accs := rfl

theorem maHalts_run {s : State} {c : Nat} (h : nth (s.core c).captured 0 [] = []) (q : Nat) :
    (maHalts c q).run s = withCore s c (maHalted q) := by
  simp only [maHalts, Prog.run_get, h, List.filter_nil, Prog.run_all_cons, Prog.run_all_nil, Prog.run_each_nil, setArchAt_run,
    setCore_run, apply_core_eq, withCore_withCore]
  rfl

/-- An ill-formed command where no operation of MA waits for its start (R206). -/
theorem maIllFormed_recordsOnly {s : State} (hc : s.cur.core < 256) (hcap : nth (s.core s.cur.core).captured 0 [] = [])
    (hr : recordable s (dieOf s.cur.core)) (check w : Nat) :
    RecordsOnly (withCore s s.cur.core fun k =>
        maHalted s.cur.seq ((k.updArch s.cur.seq (refusedArch (unitTrig s 19))).updArch s.cur.seq (·.engineDone 19)))
      ((maIllFormed (unitTrig s 19) check w).run s) := by
  have hrefused := maRefused_recordsOnly (t := unitTrig s 19) hr check w
  have hdone := hrefused.andThen (g := fun k => k.updArch s.cur.seq (·.engineDone 19)) (recordsOnly_frame.refl _)
  simp only [maIllFormed, Prog.run_all_cons, Prog.run_all_nil, setArchAt_run, apply_core_eq]
  have hwaiting := hdone.self hc
  rw [maHalts_run (by rw [hwaiting]; exact hcap)]
  exact hdone.andThen (recordsOnly_frame.refl _)

/-! A pass over the array (R195, R197). -/

/-- An MMA's pass from cycle `from_` on, its digits known and no check cell in error. -/
def mmaPassed (m : MmaOp) (ds : List Nat) (from_ : Nat) : MmaOp :=
  { m with
    complete := from_ + 24 + 2 * ds.foldl (· + ·) 0 + (if (pcwOf m.pcw).check then 2 else 0)
    digits := ds
    marked := false
    mr := 0
    mc := 0
    badBlock := 0 }

/-- A pass where no check cell is in error. -/
theorem mmaPass_sound {s : State} {c : Nat} {m x : MmaOp} {ds : List Nat} {from_ : Nat}
    (hcells : (s.core c).cellFaults = []) (hq : (s.core c).maQ = [x]) (hseq : x.seq = m.seq) (hpcw : x.pcw = m.pcw) :
    QueuesOnly (withCore s c fun k => { k with arrayFree := (mmaPassed x ds from_).complete - 24, maQ := [mmaPassed x ds from_] })
      ((mmaPass c m ds from_).run s) := by
  have hpass : ∀ b : Bool, (if b then checkCells ds [] 0 [] none else ([], none, [])) = ([], none, []) := by
    intro b
    cases b <;> rfl
  rw [mmaPass, Prog.run_get]
  simp only [hcells, List.map_nil, hpass, Prog.run_all_cons, Prog.run_all_nil, Prog.run_each_nil, setCore_run, apply_core_eq]
  refine queuesOnly_frame.trans _ _ _ ?_ (queuesOnly_postAt _ _ _ _)
  rw [withCore_congr]
  · exact queuesOnly_frame.refl _
  · simp [hq, hseq, hcells, mmaPassed, hpcw]

/-- Records of one die that its ring can take, one after another. -/
theorem recordsOnly_each {α : Type} {d : Nat} {r : α → State → ErrRec} (hd : ∀ x u, (r x u).die = d) (l : List α) {s : State}
    (hr : recordable s d) : RecordsOnly s ((Prog.each l fun x => .get fun u => errorRecord (r x u)).run s) := by
  induction l generalizing s with
  | nil => exact recordsOnly_frame.refl s
  | cons x l ih =>
    have hone := recordsOnly_errorRecord (s := s) (r := r x s) (by rwa [hd])
    rw [Prog.run_each_cons, Prog.run_get]
    exact recordsOnly_frame.trans _ _ _ hone (ih (hone.ring _ hr))

/-- A pass changes its core alone, beside the records of repairs. -/
theorem mmaPass_recordsOnly {s : State} {c : Nat} (hr : recordable s (dieOf c)) (m : MmaOp) (ds : List Nat) (from_ : Nat) :
    ∃ f, RecordsOnly (withCore s c f) ((mmaPass c m ds from_).run s) := by
  rw [mmaPass, Prog.run_get]
  simp only [Prog.run_all_cons, Prog.run_all_nil, setCore_run, apply_core_eq]
  exact ⟨_, recordsOnly_frame.trans _ _ _ (recordsOnly_each (d := dieOf c) (fun _ _ => rfl) _ hr)
    (recordsOnly_of_queuesOnly (queuesOnly_postAt _ _ _ _))⟩

/-! Changes of a core's task-visible state and of its array's queue. -/

theorem updArch_updArch (k : Core) (q : Nat) (f g : Arch → Arch) : (k.updArch q f).updArch q g = k.updArch q fun a => g (f a) := by
  cases hseg : k.seg with
  | none => simp [Core.updArch, hseg]
  | some x => by_cases hq : q < x.first <;> simp [Core.updArch, hseg, hq]

/-- Core k with its task-visible state changed by f for the operation of trigger q, and l as the array's queue. -/
def withMaQ (q : Nat) (f : Arch → Arch) (l : List MmaOp) (k : Core) : Core := { k.updArch q f with maQ := l }

section
variable (q : Nat) (f g : Arch → Arch) (l l' : List MmaOp) (k : Core)

@[simp] theorem withMaQ_arch : (withMaQ q f l k).arch = f k.arch := rfl
@[simp] theorem withMaQ_maQ : (withMaQ q f l k).maQ = l := rfl

theorem withMaQ_withMaQ : withMaQ q g l' (withMaQ q f l k) = withMaQ q (fun a => g (f a)) l' k := by
  have harch : withMaQ q g l' (withMaQ q f l k) = { (k.updArch q f).updArch q g with maQ := l' } := rfl
  rw [harch, updArch_updArch]
  rfl

variable {l k} in
theorem withMaQ_self (h : k.maQ = l) : withMaQ q id l k = k := by
  rw [withMaQ, updArch_id, ← h]
end

/-- The operation of a trigger in a queue that holds it alone. -/
theorem map_own (x : MmaOp) (g : MmaOp → MmaOp) {n : Nat} (h : x.seq = n) : [x].map (fun y => if y.seq = n then g y else y) = [g x] := by
  rw [List.map_singleton, if_pos h]

section
variable {s : State} {c : Nat} {l : List MmaOp} (hq : (s.core c).maQ = l) (q : Nat) (f : Arch → Arch) (g : List MmaOp → List MmaOp)
include hq

theorem setArchAt_setMaQ : (setCore c fun k => { k with maQ := g k.maQ }).run ((setArchAt c q f).run s) =
    withCore s c (withMaQ q f (g l)) := by
  rw [setCore_run, setArchAt_run, apply_core_eq, apply_core_eq, withCore_withCore]
  refine withCore_congr s c ?_
  rw [← hq]
  rfl

theorem setMaQ_setArchAt : (setArchAt c q f).run ((setCore c fun k => { k with maQ := g k.maQ }).run s) =
    withCore s c (withMaQ q f (g l)) := by
  rw [← setArchAt_setMaQ hq q f g]
  simp only [setCore_run, setArchAt_run, apply_core_eq, withCore_withCore]
  rfl
end

/-! The array start (R188, R195, R196). -/

/-- What an MMA in the queue reads at its array start. -/
def mmaReads (c : Nat) (m : MmaOp) : MmaIn :=
  ⟨c, pcwOf m.pcw, m.tileA, m.tileB, m.keeps.getD 0 0 - 1, m.keeps.getD 1 0 - 1⟩

/-- The product of an MMA that starts, and the digits charged to its block-rows (R188). -/
def mmaProduct (s : State) (c : Nat) (m : MmaOp) : Vector AccEl 1024 × List Nat :=
  (mmaReads c m).product (asOf s c m.seq) (accAt s c m.acc)

/-- The cycle from which a queued MMA runs (R196, R464). -/
def mmaFrom (s : State) (c : Nat) (m : MmaOp) : Nat := throttledUntil s c (max m.start (s.core c).arrayFree)

/-- An MMA as it begins on the array. -/
def mmaBegun (s : State) (c : Nat) (m : MmaOp) : MmaOp :=
  { m with
    began := some (mmaFrom s c m)
    lastAcc := mmaFrom s c m + 24 + 2 * (mmaProduct s c m).2.foldl (· + ·) 0
    before := some (accAt s c m.acc)
    bufs := if (mmaReads c m).pcw.check then (mmaReads c m).residues (asOf s c m.seq) (accAt s c m.acc) else m.bufs }

/-- The operation y begins as x did. -/
def mmaBegins (x y : MmaOp) : MmaOp := { y with began := x.began, lastAcc := x.lastAcc, before := x.before, bufs := x.bufs }

/-- Its accumulator takes the product and the band pair (R188, R210). -/
def mmaAccumulates (s : State) (c : Nat) (m : MmaOp) (a : Acc) : Acc :=
  let x := mmaReads c m
  let bands := if x.pcw.accmode = 1 then x.bands (asOf s c m.seq) else ((accAt s c m.acc).bandA, (accAt s c m.acc).bandB)
  { a with els := (mmaProduct s c m).1, bandA := bands.1, bandB := bands.2, lastProfile := x.pcw.profile }

/-- What the array start of the MMA m does (R195, R196), m being the first that has not begun. -/
def mmaStarts (s : State) (c : Nat) (m : MmaOp) : Prog :=
  let x := mmaReads c m
  let v := asOf s c m.seq
  let begun := mmaBegun s c m
  let who : Who := { core := c, ctx := ctxId v c, seq := m.seq, slot := m.slot, inTrap := m.inTrap, acc := some m.acc }
  Prog.all [
    setCore c (fun k => { k with maQ := k.maQ.map fun y => if y.seq = m.seq then mmaBegins begun y else y }),
    setArchAt c m.seq (fun a => a.setAcc m.acc (mmaAccumulates s c m)),
    mmaPass c { m with bufs := begun.bufs } (mmaProduct s c m).2 (mmaFrom s c m),
    Prog.each (x.bad v) (fun p => consumeError who p.at_ p.n),
    Prog.when_ (x.pcw.af ≤ 7) (Prog.all [
      keeperUse who x.keepA (keepSpans x.pcw.af (x.wordA v)), keeperUse who x.keepB (keepSpans x.pcw.af (x.wordA v))]),
    postAt (mmaFrom s c m + 24) 2 (.mmaComplete (coreBV c)),
    postAt (begun.lastAcc + 1) 2 (.mmaComplete (coreBV c)),
    scheduleArray c]

/-- The operand buffers are kept for the check cells alone. -/
theorem bufs_ite (p : Prop) [Decidable p] (m : MmaOp) (b : List (List (List Nat) × List (List Nat))) :
    (if p then { m with bufs := b } else m) = { m with bufs := if p then b else m.bufs } := by
  split <;> rfl

theorem keeperUse_sound {s : State} {w : Who} (h : Clean s w.core) (n : Nat) (spans : List (Nat × Nat)) :
    (keeperUse w n spans).run s = s := by
  rw [keeperUse, Prog.run_get, keeperErrors_sound n h]
  rfl

theorem keeperUses_sound {s : State} {c : Nat} (b : Bool) {w : Who} (hw : w.core = c) (h : Clean s c) (n n' : Nat)
    (l l' : List (Nat × Nat)) : (Prog.when_ b (Prog.all [keeperUse w n l, keeperUse w n' l'])).run s = s := by
  subst hw
  rw [Prog.run_when, Prog.run_all_cons, Prog.run_all_cons, Prog.run_all_nil, keeperUse_sound h, keeperUse_sound h, ite_self]

section
variable {s : State} {c : Nat} {m : MmaOp} (hq : (s.core c).maQ = [m]) (hbegan : m.began = none) (hmark : m.marked = false)
  (hfrom : mmaFrom s c m ≤ s.time)
include hq hbegan hmark hfrom

/-- The one MMA in the queue starts once it may. -/
theorem arrayStart_run : (arrayStart c).run s = (mmaStarts s c m).run s := by
  have hfind : (s.core c).maQ.find? (·.began.isNone) = some m := by simp [hq, hbegan]
  have hmarked : (s.core c).maQ.any (·.marked) = false := by simp [hq, hmark]
  have hnow : ¬ s.time < throttledUntil s c (max m.start (s.core c).arrayFree) := Nat.not_lt.2 hfrom
  rw [arrayStart, Prog.run_get]
  dsimp only
  rw [hfind]
  dsimp only
  rw [hmarked, if_neg Bool.false_ne_true, if_neg hnow, bufs_ite]
  rfl

/-- It starts where no datum of its core and no check cell is in error. -/
theorem arrayStart_queuesOnly (hc : c < 256) (hcells : (s.core c).cellFaults = []) (hclean : Clean s c)
    (hbad : (mmaReads c m).bad (asOf s c m.seq) = []) :
    let passed := mmaPassed (mmaBegun s c m) (mmaProduct s c m).2 (mmaFrom s c m)
    QueuesOnly (withCore s c fun k => { withMaQ m.seq (·.setAcc m.acc (mmaAccumulates s c m)) [passed] k with
      arrayFree := passed.complete - 24 }) ((arrayStart c).run s) := by
  intro passed
  obtain ⟨s1, hs1⟩ : ∃ s1, s1 = withCore s c (withMaQ m.seq (·.setAcc m.acc (mmaAccumulates s c m)) [mmaBegun s c m]) := ⟨_, rfl⟩
  have hown : s1.core c = withMaQ m.seq (·.setAcc m.acc (mmaAccumulates s c m)) [mmaBegun s c m] (s.core c) :=
    hs1 ▸ withCore_core _ _ _ hc
  have hset := setMaQ_setArchAt hq m.seq (·.setAcc m.acc (mmaAccumulates s c m))
    (·.map fun y => if y.seq = m.seq then mmaBegins (mmaBegun s c m) y else y)
  have hbegun : mmaBegins (mmaBegun s c m) m = mmaBegun s c m := rfl
  rw [map_own m _ rfl, hbegun, ← hs1] at hset
  have hpass := mmaPass_sound (s := s1) (c := c) (m := { m with bufs := (mmaBegun s c m).bufs }) (x := mmaBegun s c m)
    (ds := (mmaProduct s c m).2) (from_ := mmaFrom s c m) (by rw [hown]; exact hcells) (by rw [hown]; rfl) rfl rfl
  have hafter := hpass.self hc
  rw [arrayStart_run hq hbegan hmark hfrom, mmaStarts]
  simp only [Prog.run_all_cons, Prog.run_all_nil, hset, hbad, Prog.run_each_nil]
  generalize (mmaPass _ _ _ _).run s1 = s2 at hpass hafter ⊢
  have hsound : Clean s2 c := by
    rw [Clean, hafter, hown]
    exact hclean
  rw [keeperUses_sound _ rfl hsound]
  have hposts := queuesOnly_frame.trans _ _ _ (queuesOnly_postAt (mmaFrom s c m + 24) 2 (.mmaComplete (coreBV c)) s2)
    (queuesOnly_frame.trans _ _ _ (queuesOnly_postAt ((mmaBegun s c m).lastAcc + 1) 2 (.mmaComplete (coreBV c)) _)
      (queuesOnly_scheduleArray c _))
  rw [hs1] at hpass
  exact queuesOnly_frame.trans _ _ _ ((queuesOnly_frame.refl (withCore s c _)).andThen hpass) hposts
end

/-! The end of an MMA, and its replay (R195, R198, R200, R225). -/

/-- The task-visible state as an MMA leaves the array: its tiles and keepers are given back, and its accumulator is changed by f and free
of it. -/
def mmaLeaves (m : MmaOp) (f : Acc → Acc) (a : Arch) : Arch :=
  let a := if m.tilesHeld then a.holdTiles [m.tileA, m.tileB] (· - 1) else a
  let a := a.readKeepers m.keeps (· - 1)
  (a.setAcc m.acc fun x => { f x with busy := x.busy.filter (· ≠ m.maSeq.toNat) }).engineDone 19

/-- Its accumulator then. -/
theorem mmaLeaves_acc {m : MmaOp} (h : m.acc < 4) (f : Acc → Acc) (a : Arch) : nth (mmaLeaves m f a).accs m.acc (Acc.reset m.acc) =
    { f (nth a.accs m.acc (Acc.reset m.acc)) with busy := (nth a.accs m.acc (Acc.reset m.acc)).busy.filter (· ≠ m.maSeq.toNat) } := by
  have haccs : ∀ b : Bool, (if b = true then a.holdTiles [m.tileA, m.tileB] (· - 1) else a).accs = a.accs := by
    intro b
    cases b <;> simp
  rw [mmaLeaves, engineDone_accs, Arch.setAcc]
  dsimp only
  rw [nth_updAt_self _ _ _ h, readKeepers_accs, haccs]

section
variable {s : State} {c : Nat} {m : MmaOp}

theorem mmaLeave_run (hq : (s.core c).maQ = [m]) (f : Acc → Acc) :
    (mmaLeave c m f).run s = withCore s c (withMaQ m.seq (mmaLeaves m f) []) := by
  have hrun := setMaQ_setArchAt hq m.seq (mmaLeaves m f) (·.filter fun y => y.seq != m.seq)
  have hgone : [m].filter (fun y => y.seq != m.seq) = [] := by simp
  rw [hgone] at hrun
  rw [mmaLeave, Prog.run_all_cons, Prog.run_all_cons, Prog.run_all_nil]
  exact hrun

/-- An MMA that has given back its keepers and its tiles. -/
def mmaReleased (m : MmaOp) : MmaOp := { m with keeps := [], tilesHeld := false }

/-- The first 24 cycles are over: the keepers have been read (R225). -/
theorem keepersRead_run (hq : (s.core c).maQ = [m]) :
    (Prog.when_ (m.keeps != []) (Prog.all [
      setArchAt c m.seq (fun a => a.readKeepers m.keeps (· - 1)),
      setCore c fun k => { k with maQ := k.maQ.map fun y => if y.seq = m.seq then { y with keeps := [] } else y }])).run s =
    withCore s c (withMaQ m.seq (·.readKeepers m.keeps (· - 1)) [{ m with keeps := [] }]) := by
  by_cases hk : m.keeps = []
  · have hm : { m with keeps := [] } = m := by rw [← hk]
    have hid : (·.readKeepers m.keeps (· - 1)) = (id : Arch → Arch) := by rw [hk]; rfl
    rw [hid, hm, hk]
    exact (withCore_self s c (withMaQ_self m.seq hq)).symm
  · rw [bne_iff_ne.2 hk, Prog.run_when_true, Prog.run_all_cons, Prog.run_all_cons, Prog.run_all_nil, setArchAt_setMaQ hq,
      map_own m (fun y => { y with keeps := [] }) rfl]

/-- The last accumulate is over: the tiles are free (R200). -/
theorem tilesFree_run (hq : (s.core c).maQ = [{ m with keeps := [] }]) :
    (Prog.when_ m.tilesHeld (Prog.all [
      setArchAt c m.seq (fun a => a.holdTiles [m.tileA, m.tileB] (· - 1)),
      setCore c fun k => { k with maQ := k.maQ.map fun y => if y.seq = m.seq then { y with tilesHeld := false } else y }])).run s =
    withCore s c (withMaQ m.seq (fun a => if m.tilesHeld then a.holdTiles [m.tileA, m.tileB] (· - 1) else a)
      [mmaReleased m]) := by
  cases ht : m.tilesHeld
  · have hm : mmaReleased m = { m with keeps := [] } := by rw [mmaReleased, ← ht]
    rw [hm]
    exact (withCore_self s c (withMaQ_self m.seq hq)).symm
  · rw [Prog.run_when_true, Prog.run_all_cons, Prog.run_all_cons, Prog.run_all_nil, setArchAt_setMaQ hq,
      map_own { m with keeps := [] } (fun y => { y with tilesHeld := false }) rfl]
    rfl

/-- An MMA leaves, having given back its keepers and tiles before (R200, R225). -/
def mmaEnds (m : MmaOp) (a : Arch) : Arch :=
  let a := a.readKeepers m.keeps (· - 1)
  let a := if m.tilesHeld then a.holdTiles [m.tileA, m.tileB] (· - 1) else a
  (a.setAcc m.acc fun x => { x with busy := x.busy.filter (· ≠ m.maSeq.toNat) }).engineDone 19

section
variable {b : Nat} (hc : c < 256) (hq : (s.core c).maQ = [m]) (hbegan : m.began = some b) (hmark : m.marked = false)
  (h24 : b + 24 ≤ s.time) (hlast : m.lastAcc + 1 ≤ s.time) (hdone : m.complete + 1 ≤ s.time)
include hc hq hbegan hmark h24 hlast hdone

/-- An unmarked MMA whose last cycle is over gives back all that it holds. -/
theorem mmaDue_run : (mmaDue c m).run s = withCore s c (withMaQ m.seq (mmaEnds m) []) := by
  obtain ⟨s1, hs1⟩ : ∃ s1, s1 =
    withCore s c (withMaQ m.seq (·.readKeepers m.keeps (· - 1)) [{ m with keeps := [] }]) := ⟨_, rfl⟩
  have hq1 : (s1.core c).maQ = [{ m with keeps := [] }] := by rw [hs1, withCore_core _ _ _ hc]; rfl
  obtain ⟨s2, hs2⟩ : ∃ s2, s2 = withCore s1 c (withMaQ m.seq
    (fun a => if m.tilesHeld then a.holdTiles [m.tileA, m.tileB] (· - 1) else a) [mmaReleased m]) := ⟨_, rfl⟩
  have hq2 : (s2.core c).maQ = [mmaReleased m] := by rw [hs2, withCore_core _ _ _ hc]; rfl
  have hfind : (s2.core c).maQ.find? (fun y => y.seq = m.seq) = some (mmaReleased m) := by
    simp [hq2, mmaReleased]
  have hdue : (decide ((mmaReleased m).complete + 1 ≤ s2.time) && !(mmaReleased m).marked) = true := by
    simp [mmaReleased, hs2, hs1, hdone, hmark]
  rw [mmaDue, Prog.run_get, hbegan]
  simp only [h24, hlast, decide_true, Bool.true_and]
  rw [Prog.run_all_cons, keepersRead_run hq, ← hs1, Prog.run_all_cons, tilesFree_run hq1, ← hs2, Prog.run_all_cons, Prog.run_all_nil,
    Prog.run_get, hfind]
  dsimp only
  rw [hdue, Prog.run_when_true, mmaLeave_run hq2, hs2, hs1, withCore_withCore, withCore_withCore]
  have hseq : (mmaReleased m).seq = m.seq := rfl
  simp only [hseq, withMaQ_withMaQ]
  rfl

theorem exec_mmaComplete : exec (.mmaComplete (coreBV c)) s = .next (withCore s c (withMaQ m.seq (mmaEnds m) [])) := by
  have hrun : exec (.mmaComplete (coreBV c)) s =
      .next ((Prog.each (s.core (coreBV c).toNat).maQ (mmaDue (coreBV c).toNat)).run s) := rfl
  rw [hrun, toNat_coreBV hc, hq, Prog.run_each_cons, Prog.run_each_nil, mmaDue_run hc hq hbegan hmark h24 hlast hdone]
end

/-- An MMA that its checks marked, as its next pass begins (R198). -/
def mmaAgain (m : MmaOp) : MmaOp := { m with marked := false, replays := m.replays + 1 }

section
variable (hq : (s.core c).maQ = [m]) (hmark : m.marked = true) (hdone : m.complete + 1 ≤ s.time)
  (hr : recordable s (dieOf c))
include hq hmark hdone hr

/-- A marked MMA with replays left: a record, and another pass from the cycle after the last (R198). -/
theorem mmaRerun_again (hlim : m.replays < m.limit) : ∃ u, RecordsOnly (withCore s c (withMaQ m.seq id [mmaAgain m])) u ∧
    (mmaRerun c).run s = (scheduleArray c).run ((mmaPass c m m.digits m.complete).run u) := by
  have hfind : (s.core c).maQ.find? (·.marked) = some m := by simp [hq, hmark]
  have hrecord := recordsOnly_errorRecord (s := s)
    (r := maRecord s c m.pc m.slot m.maSeq 0x11 (m.badBlock % 2 ^ 16 + 2 ^ 16) true (m.mr + m.mc * 2 ^ 32)) hr
  rw [mmaRerun, Prog.run_get, hfind]
  simp only [if_neg (Nat.not_lt.2 hdone), if_pos hlim, Prog.run_all_cons, Prog.run_all_nil]
  generalize (errorRecord _).run s = s1 at hrecord ⊢
  have hcore1 : s1.core c = s.core c := congrArg (nth · c Core.reset) hrecord.cores
  have hset := setArchAt_setMaQ (hcore1 ▸ hq) m.seq id (·.map fun y => if y.seq = m.seq then
    { y with marked := false, replays := y.replays + 1 } else y)
  rw [setArchAt_run, apply_core_eq, withCore_self s1 c (updArch_id _ _), map_own m _ rfl] at hset
  exact ⟨_, hrecord.onCore c (withMaQ m.seq id [mmaAgain m]), by rw [hset]; rfl⟩

theorem mmaRerun_again_recordsOnly (hlim : m.replays < m.limit) : ∃ f, RecordsOnly (withCore s c f) ((mmaRerun c).run s) := by
  obtain ⟨u, hagain, hrun⟩ := mmaRerun_again hq hmark hdone hr hlim
  obtain ⟨f, hpass⟩ := mmaPass_recordsOnly (hagain.ring _ hr) m m.digits m.complete
  rw [hrun]
  exact ⟨_, recordsOnly_frame.trans _ _ _ (hagain.andThen hpass) (recordsOnly_of_queuesOnly (queuesOnly_scheduleArray c _))⟩

/-- That pass meets no error of a check cell. -/
theorem mmaRerun_again_sound (hc : c < 256) (hlim : m.replays < m.limit) (hcells : (s.core c).cellFaults = []) :
    RecordsOnly (withCore s c fun k => { withMaQ m.seq id [mmaPassed (mmaAgain m) m.digits m.complete] k with
      arrayFree := (mmaPassed (mmaAgain m) m.digits m.complete).complete - 24 }) ((mmaRerun c).run s) := by
  obtain ⟨u, hagain, hrun⟩ := mmaRerun_again hq hmark hdone hr hlim
  have hown := hagain.self hc
  have hpass := mmaPass_sound (m := m) (x := mmaAgain m) (ds := m.digits) (from_ := m.complete) (by rw [hown]; exact hcells)
    (by rw [hown]; rfl) rfl rfl
  rw [hrun]
  exact recordsOnly_frame.trans _ _ _ (hagain.andThen (recordsOnly_of_queuesOnly hpass))
    (recordsOnly_of_queuesOnly (queuesOnly_scheduleArray c _))

/-- A marked MMA with none left restores its accumulator, marks it invalid and halts MA (R198). -/
theorem mmaRerun_spent (hc : c < 256) (hcap : nth (s.core c).captured 0 [] = []) (hlim : m.limit ≤ m.replays) :
    RecordsOnly (withCore s c fun k =>
      maHalted m.seq (withMaQ m.seq (mmaLeaves m fun x => { m.before.getD x with invalid := true }) [] k)) ((mmaRerun c).run s) := by
  have hfind : (s.core c).maQ.find? (·.marked) = some m := by simp [hq, hmark]
  have hrecord := recordsOnly_errorRecord (s := s)
    (r := maRecord s c m.pc m.slot m.maSeq 0x11 (m.badBlock % 2 ^ 16 + 2 ^ 16) false (m.mr + m.mc * 2 ^ 32)) hr
  rw [mmaRerun, Prog.run_get, hfind]
  simp only [if_neg (Nat.not_lt.2 hdone), if_neg (Nat.not_lt.2 hlim), Prog.run_all_cons, Prog.run_all_nil]
  generalize (errorRecord _).run s = s1 at hrecord ⊢
  have hcore1 : s1.core c = s.core c := congrArg (nth · c Core.reset) hrecord.cores
  rw [mmaLeave_run (hcore1 ▸ hq)]
  have hleave := hrecord.onCore c (withMaQ m.seq (mmaLeaves m fun x => { m.before.getD x with invalid := true }) [])
  generalize withCore s1 c _ = s2 at hleave ⊢
  rw [maHalts_run (by rw [hleave.self hc]; exact hcap)]
  exact recordsOnly_frame.trans _ _ _ (hleave.andThen (recordsOnly_frame.refl _))
    (recordsOnly_of_queuesOnly (queuesOnly_scheduleArray c _))
end
end

theorem exec_mmaReplay {s : State} {c : Nat} (hc : c < 256) : exec (.mmaReplay (coreBV c)) s = .next ((mmaRerun c).run s) := by
  have hrun : exec (.mmaReplay (coreBV c)) s = .next ((mmaRerun (coreBV c).toNat).run s) := rfl
  rw [hrun, toNat_coreBV hc]

theorem exec_mmaArrayStart {s : State} {c : Nat} (hc : c < 256) :
    exec (.mmaArrayStart (coreBV c)) s = .next ((arrayStart c).run s) := by
  have hrun : exec (.mmaArrayStart (coreBV c)) s = .next ((arrayStart (coreBV c).toNat).run s) := rfl
  rw [hrun, toNat_coreBV hc]

/-- The accumulator of an MMA that has started. -/
theorem mmaAccumulates_eq (s : State) (c : Nat) (m : MmaOp) : mmaAccumulates s c m (accAt s c m.acc) =
    let x := mmaReads c m
    let old := accAt s c m.acc
    { old with
      els := (mmaProduct s c m).1, lastProfile := x.pcw.profile
      bandA := if x.pcw.accmode = 1 then (x.bands (asOf s c m.seq)).1 else old.bandA
      bandB := if x.pcw.accmode = 1 then (x.bands (asOf s c m.seq)).2 else old.bandB } := by
  unfold mmaAccumulates
  by_cases h : (mmaReads c m).pcw.accmode = 1 <;> simp [h]

/-- Settles O34: each step of an MMA is a change of its core beside records and pending steps. -/
theorem mmaRunsOnTheArray : Obligations.MmaRunsOnTheArray := by
  unfold Obligations.MmaRunsOnTheArray
  intro s hc c core k a n sum acc keep input others
  refine ⟨?queued, ?illFormed, ?start, ?complete, ?replay⟩
  case queued =>
    intro hchk hhalt hpasses
    obtain ⟨t, ht, hrun⟩ := exec_mma_queues hchk hhalt hpasses
    obtain ⟨hothers, hmem⟩ := hrun.others
    have hown := hrun.self hc
    have hq : (t.core c).maQ = k.maQ ++ [mmaQueued s k] := congrArg Core.maQ hown
    refine ⟨t, ht, hothers, hmem, hown.trans (by rw [hq]), mmaQueued s k, hq, ?_⟩
    simp [mmaQueued, field, mmaKeep, keep, input, a, n]
  case illFormed =>
    intro hchk hop hhalt hfails hcap hr
    have hrun := maIllFormed_recordsOnly hc hcap hr (input.failing (view s) acc) (opB s).toNat
    have hown := congrArg Core.arch (hrun.self hc)
    have htarget : maTarget (unitTrig s 19).opcode = true := by
      rw [show (unitTrig s 19).opcode = 1 from hop]
      rfl
    have hacc := accAt_refused htarget (congrArg Arch.accs hown |>.trans (engineDone_accs _ 19))
    exact ⟨_, exec_mma_refused hchk hhalt rfl hfails, hrun.others, congrArg Arch.maHalt hown, congrArg Acc.invalid hacc,
      (congrArg Acc.els hacc).trans rfl, (congrArg Acc.busy hacc).trans rfl⟩
  case start =>
    intro m hq hbegan hmark hacc hcells hpoison hupsets from_ x v old r hfrom hbad
    have hrun := arrayStart_queuesOnly hq hbegan hmark hfrom hc hcells ⟨hpoison, hupsets⟩ hbad
    obtain ⟨hothers, hmem⟩ := hrun.others
    have hown := hrun.self hc
    refine ⟨_, exec_mmaArrayStart hc, hothers, hmem, ?_, ?_, congrArg Core.arrayFree hown⟩
    · rw [accAt, hown]
      exact (nth_updAt_self _ _ _ hacc).trans (mmaAccumulates_eq s c m)
    · have hmarked : mmaPassed (mmaBegun s c m) (mmaProduct s c m).2 (mmaFrom s c m) =
          { mmaPassed (mmaBegun s c m) (mmaProduct s c m).2 (mmaFrom s c m) with marked := m.marked } := by rw [hmark]; rfl
      exact (congrArg Core.maQ hown).trans (congrArg (fun y => [y]) hmarked)
  case complete =>
    intro m b hq hbegan hmark h24 hlast hdone
    have hrun := queuesOnly_frame.refl (withCore s c (withMaQ m.seq (mmaEnds m) []))
    obtain ⟨hothers, hmem⟩ := hrun.others
    have hown := hrun.self hc
    exact ⟨_, exec_mmaComplete hc hq hbegan hmark h24 hlast hdone, hothers, hmem, congrArg Core.maQ hown, congrArg Core.arch hown⟩
  case replay =>
    intro m hq hmark hdone hcap hr
    refine ⟨_, exec_mmaReplay hc, ?_, fun hlim hcells => ?_, fun hlim hacc => ?_⟩
    · by_cases hlim : m.replays < m.limit
      · obtain ⟨f, hrun⟩ := mmaRerun_again_recordsOnly hq hmark hdone hr hlim
        exact hrun.others
      · exact (mmaRerun_spent hq hmark hdone hr hc hcap (Nat.not_lt.1 hlim)).others
    · have hown := (mmaRerun_again_sound hq hmark hdone hr hc hlim hcells).self hc
      rw [hown]
      exact ⟨rfl, rfl⟩
    · have hown := (mmaRerun_spent hq hmark hdone hr hc hcap hlim).self hc
      have haccs : accAt ((mmaRerun c).run s) c m.acc = { m.before.getD (accAt s c m.acc) with
          invalid := true, busy := (accAt s c m.acc).busy.filter (· ≠ m.maSeq.toNat) } := by
        rw [accAt, hown, maHalted_accs, withMaQ_arch]
        exact mmaLeaves_acc hacc _ _
      rw [haccs, hown]
      exact ⟨rfl, rfl, rfl, rfl⟩

end Sys2Proof.Proofs


/-! PROOFS. Buffer handles, unit TT (O40): an abandoned TTAKE. -/

namespace Sys2Proof.Proofs
open Sys2Proof Sys2Proof.Machine Sys2Proof.Safety

/-- On core 0 a TTAKE comes again with a handle of its own core waiting, its operation abandoned. -/
def takingAbandoned : State :=
  { State.reset with
    cur := { Trig.none with unit := 21, stage := 1, checked := true }
    cores := updAt State.reset.cores 0 fun k => { k with
      flights := [{ abandonedFlight 21 with ready := false }], inbound := [0] } }

theorem ttake_takingAbandoned :
    ∃ t, exec .ttake takingAbandoned = .next t ∧ (t.core 0).flights.map (·.lands) = [false] :=
  ⟨_, rfl, by decide +kernel⟩

/-- Refutes O40: the flight of an abandoned TTAKE, taken as one that would land, settles as one that lands nothing (`putFlight`). -/
theorem not_bufferHandles : ¬ Obligations.BufferHandles := by
  intro h
  obtain ⟨u, hu, hlands⟩ := ttake_takingAbandoned
  obtain ⟨-, -, -, -, htake⟩ := h takingAbandoned (by decide)
  obtain ⟨t, ht, -, hflights, -⟩ := (htake 0 [] { abandonedFlight 21 with ready := false } rfl (by decide) (by decide +kernel)
    (by decide +kernel) rfl rfl rfl).1 (.inl (by decide +kernel))
  obtain rfl : t = u := Host.Outcome.next.inj (ht.symm.trans hu)
  change (t.core 0).flights = _ at hflights
  simp [hflights, abandonedFlight_lands] at hlands

end Sys2Proof.Proofs


/-! PROOFS. Keeper operations, unit KP (O37, O38): their control word, their turn, and keepers as they find them. -/

namespace Sys2Proof.Proofs
open Sys2Proof Sys2Proof.Machine Sys2Proof.Safety

/-! The fields of the control word and of the extension word (R226). -/

/-- A field of a lane-0 parameter is that of its port. -/
theorem field_param (v : Vec) {lo len : Nat} (h : lo + len ≤ 32) : field (param v) lo len = v.toNat / 2 ^ lo % 2 ^ len := by
  refine Nat.eq_of_testBit_eq fun i => ?_
  rw [testBit_field, ← field, testBit_field, param, Nat.testBit_mod_two_pow]
  by_cases hi : i < len
  · rw [decide_eq_true (show lo + i < 32 by omega), Bool.true_and]
  · rw [decide_eq_false hi, Bool.false_and, Bool.false_and]

section
variable (s : State) (u : Nat)

theorem kD_eq : kD (unitTrig s u) = s.cur.b.toNat % 64 := (field_param s.cur.b (by decide)).trans (by simp)
theorem kS_eq : kS (unitTrig s u) = s.cur.b.toNat / 64 % 64 := field_param s.cur.b (by decide)
theorem kOff_eq : kOff (unitTrig s u) = s.cur.b.toNat / 2 ^ 12 % 2 ^ 10 := field_param s.cur.b (by decide)
theorem kCnt_eq : kCnt (unitTrig s u) = s.cur.b.toNat / 2 ^ 22 % 2 ^ 10 + 1 := congrArg (· + 1) (field_param s.cur.b (by decide))
theorem kAddr_eq : kAddr (unitTrig s u) = s.cur.c.toNat % 2 ^ 32 % 2 ^ 22 := by simp [kAddr, field, param]
theorem kDest_eq : kDest (unitTrig s u) = s.cur.c.toNat / 2 ^ 8 % 2 ^ 10 := field_param s.cur.c (by decide)
theorem kFmt_eq : kFmt (unitTrig s u) = s.cur.c.toNat / 2 ^ 8 % 16 := field_param s.cur.c (by decide)

/-- The rounding code of KCVT and KFOLD. -/
theorem kRound_eq : field (param s.cur.c) 0 3 = s.cur.c.toNat % 8 := (field_param s.cur.c (by decide)).trans (by simp)

/-- The band entry of KFOLD and KAMAX. -/
theorem kBand_eq : field (param s.cur.c) 3 4 = s.cur.c.toNat / 8 % 16 := field_param s.cur.c (by decide)

/-- The ceiling mode of KAMAX (R232). -/
theorem kCeil_eq : bit (param s.cur.c) 0 = s.cur.c.toNat % 2 := by
  rw [bit, pow_zero, Nat.div_one]
  exact Nat.mod_mod_of_dvd _ (by decide)

/-- The second keeper of KMAX and KMIN. -/
theorem kOther_eq : param s.cur.c % 64 = s.cur.c.toNat % 64 := Nat.mod_mod_of_dvd _ (by decide)

theorem kPasses_eq : kPasses (unitTrig s u) = shown s 0 := rfl
end

/-! A KP operation under way (R225). -/

/-- One more write of keeper d of a core is pending. -/
def writingCore (d : Nat) (k : Core) : Core :=
  { k with arch := { k.arch with keepers := updAt k.arch.keepers d fun x => { x with writes := x.writes + 1 } } }

/-- One more write of KD is pending. -/
def writing (s : State) : State := withCore s s.cur.core (writingCore (s.cur.b.toNat % 64))

theorem beginWrite_run (s : State) (u : Nat) : (beginWrite (unitTrig s u)).run s = writing s := by
  rw [beginWrite, kD_eq]
  rfl

/-- Every earlier KP operation has read what it reads, and the running one comes for the first time. -/
def KpTurn (s : State) : Prop :=
  s.cur.stage = 0 ∧ ∀ f ∈ (s.core s.cur.core).flights, f.unit = 20 → f.seq < s.cur.seq → f.ready = true

/-- With its turn an operation has its effect. -/
theorem kpTurn_run {s t : State} (h : KpTurn s) (hf : (t.core s.cur.core).flights = (s.core s.cur.core).flights) (b : Nat) (lands : Bool)
    (body : Prog) : (kpTurn (unitTrig s 20) b lands body).run t = body.run t := by
  have hnone : ((t.core s.cur.core).flights.any fun f => f.unit = 20 && f.seq < s.cur.seq && !f.ready) = false := by
    rw [hf, List.any_eq_false]
    intro f hm
    by_cases hu : f.unit = 20 ∧ f.seq < s.cur.seq
    · simp [h.2 f hm hu.1 hu.2]
    · simpa using fun h1 h2 => absurd ⟨h1, h2⟩ hu
  rw [kpTurn, Prog.run_get]
  exact congrArg (fun p => Prog.run p t) (if_neg (by rw [hnone]; exact Bool.false_ne_true))

/-! A keeper as a KP operation finds it (R14, R225). -/

/-- A keeper after a pending effect of an operation under way. -/
def postedKeeper (n : Nat) (x : Keeper) (p : Post) : Keeper :=
  match p with
  | .keeper m bm b dm bd _ =>
    if m = n then { x with bytes := mergeBytes bm b x.bytes, band := mergeBand dm bd x.band, gen := x.gen + 1 } else x
  | _ => x

theorem keeperView_eq (k : Core) (n : Nat) : keeperView k n = ((k.flights.filter fun f => f.unit = 20).flatMap (·.posts)).foldl
    (postedKeeper n) ((nth k.arch.keepers n Keeper.reset).blank (keeperErrors k n)) := rfl

theorem postedKeeper_writes (n w : Nat) (x : Keeper) (p : Post) :
    postedKeeper n { x with writes := w } p = { postedKeeper n x p with writes := w } := by
  unfold postedKeeper
  split
  · split <;> rfl
  · rfl

theorem blank_writes (x : Keeper) (w : Nat) (l : List Nat) : { x with writes := w }.blank l = { x.blank l with writes := w } := by
  unfold Keeper.blank
  split <;> rfl

theorem keeperView_writingCore {d : Nat} (hd : d < 64) (n : Nat) (k : Core) :
    ∃ w, keeperView (writingCore d k) n = { keeperView k n with writes := w } := by
  have hkeeper : ∃ w, nth (writingCore d k).arch.keepers n Keeper.reset = { nth k.arch.keepers n Keeper.reset with writes := w } := by
    by_cases hn : d = n
    · subst hn
      exact ⟨_, nth_updAt_self _ _ _ hd⟩
    · exact ⟨_, nth_updAt_ne _ _ _ hn⟩
  obtain ⟨w, hw⟩ := hkeeper
  refine ⟨w, ?_⟩
  rw [keeperView_eq, keeperView_eq, hw, blank_writes]
  exact List.foldl_hom (fun x : Keeper => { x with writes := w }) fun x p => postedKeeper_writes n w x p

/-- Counting one more pending write leaves what an operation finds in a keeper. -/
theorem keeperView_writing (s : State) (n : Nat) :
    ∃ w, keeperView ((writing s).core s.cur.core) n = { keeperView (s.core s.cur.core) n with writes := w } :=
  withCore_core_of (P := fun k l => ∃ w, keeperView l n = { keeperView k n with writes := w }) s s.cur.core _ _
    (fun _ => ⟨_, rfl⟩) (keeperView_writingCore (Nat.mod_lt _ (by decide)) n)

/-! Cores without a datum in error. -/

/-- The words that an operation reads are none in error. -/
theorem keeperUses_clean {t : State} {w : Who} (h : Clean t w.core) (l : List (Nat × Nat × Nat)) :
    (Prog.each l fun p => keeperUse w p.1 [p.2]).run t = t := by
  induction l with
  | nil => rfl
  | cons p l ih => rw [Prog.run_each_cons, keeperUse_sound h, ih]

theorem Clean.withCore {s : State} {c d : Nat} {f : Core → Core} (h : Clean s d)
    (hf : ∀ k, (f k).poison = k.poison ∧ (f k).upsets = k.upsets) : Clean (withCore s c f) d :=
  withCore_core_of (P := fun k l => (k.poison = [] ∧ k.upsets = []) → (l.poison = [] ∧ l.upsets = [])) s c f d
    (fun _ h => h) (fun k h => by rwa [(hf k).1, (hf k).2]) h

theorem Clean.withFlight {s : State} {c : Nat} (h : Clean s c) (f : Flight) : Clean (withFlight s f) c :=
  h.withCore (c := s.cur.core) (f := (putFlight · f)) fun k => by rw [putFlight_eq]; exact ⟨rfl, rfl⟩

theorem Clean.withAccess {s : State} {c : Nat} (h : Clean s c) (path u : Nat) (kind : AccessKind) (l : List Piece) (w : Nat) :
    Clean (withAccess s path u kind l w) c := h.withCore (c := s.cur.core) fun _ => ⟨rfl, rfl⟩

/-! The operations that write a keeper. -/

section
variable {s : State} {bound : Nat} {chk : State → Trig → Verdict} {reads : Trig → List (Nat × Nat × Nat)}
  {posts : State → Trig → List Post}

/-- An operation without effect only takes its place in trigger order (R226). -/
theorem kp_completes {body : State → Trig → Prog} {b : Nat} (hchk : chk (view s) (unitTrig s 20) = .go)
    (hbody : body (view s) (unitTrig s 20) = finish (unitTrig s 20) b []) :
    runOp (opRun 20 chk body) s = .next (completes s 20 b) := by
  rw [runOp_go _ s (.inr hchk), ← finish_completes, ← hbody]
  rfl

/-- One whose guard fails in lane 0 only takes its place in trigger order (R226). -/
theorem kWrite_fails (h : shown s 0 = false) : runOp (kWrite bound chk reads posts) s = .next (completes s 20 bound) :=
  kp_completes (if_neg (by rw [kPasses_eq, h]; decide)) (if_pos (by rw [kPasses_eq, h]; rfl))

/-- One that passes is in flight with its effects, one more write of its keeper pending. -/
theorem kWrite_runs (hgo : s.cur.checked = true ∨ (kWrite bound chk reads posts).chk (view s) (unitTrig s 20) = .go)
    (hs : shown s 0 = true) (hturn : KpTurn s) (hclean : Clean s s.cur.core) : runOp (kWrite bound chk reads posts) s =
      .next (withFlight (writing s) { flying s 20 bound with lands := false, posts := posts (writing s) (unitTrig s 20) }) := by
  have hbody : (kWrite bound chk reads posts).body (view s) (unitTrig s 20) = Prog.all [
      Prog.when_ ((unitTrig s 20).stage = 0) (beginWrite (unitTrig s 20)),
      kpTurn (unitTrig s 20) bound false (.get fun s' => Prog.all [
        finish (unitTrig s 20) bound (posts s' (unitTrig s 20)),
        Prog.each (reads (unitTrig s 20)) fun p => keeperUse ((unitTrig s 20).who s') p.1 [p.2]])] :=
    if_neg (by rw [kPasses_eq, hs]; decide)
  have hstage : decide ((unitTrig s 20).stage = 0) = true := decide_eq_true hturn.1
  have hflights : ((writing s).core s.cur.core).flights = (s.core s.cur.core).flights :=
    withCore_core_of (P := fun k l => l.flights = k.flights) s s.cur.core _ _ (fun _ => rfl) (fun _ => rfl)
  have hclean' : Clean (writing s) s.cur.core := hclean.withCore fun _ => ⟨rfl, rfl⟩
  have hfinish : (finish (unitTrig s 20) bound (posts (writing s) (unitTrig s 20))).run (writing s) =
      withFlight (writing s) { flying s 20 bound with lands := false, posts := posts (writing s) (unitTrig s 20) } :=
    finish_run (writing s) 20 bound _
  rw [runOp_go _ s hgo]
  change Host.Outcome.next (((kWrite bound chk reads posts).body (view s) (unitTrig s 20)).run s) = _
  rw [hbody, Prog.run_all_cons, hstage, Prog.run_when_true, beginWrite_run, Prog.run_all_cons, Prog.run_all_nil,
    kpTurn_run hturn hflights, Prog.run_get, Prog.run_all_cons, Prog.run_all_cons, Prog.run_all_nil, hfinish,
    keeperUses_clean (hclean'.withFlight _)]
end

end Sys2Proof.Proofs


/-! PROOFS. Codes of keeper entries (R130, R131, R134): each fits its entry. -/

namespace Sys2Proof.Proofs
open Sys2Proof Sys2Proof.Machine Sys2Proof.Safety

/-- Bits of an entry of an encoding: band entries have 16 (R221). -/
def entryWidth (enc : Nat) : Nat := if enc = 2 then 16 else 8

theorem entryWidth_byte {enc : Nat} (h : enc ≠ 2) : entryWidth enc = 8 := if_neg h

theorem kEntry_lt (enc : Nat) (x : Keeper) (i : Nat) : kEntry enc x i < 2 ^ entryWidth enc := by
  unfold kEntry entryWidth
  split
  · exact Nat.mod_lt _ (by decide)
  · exact Nat.mod_lt _ (by decide)

theorem convert_bf16_lt (rm : Nat) (x : Machine.Num) : (convert .bf16 rm 0 false x).code < 2 ^ 16 := by
  have hsgn : ∀ (neg : Bool) (c : Nat), c < 2 ^ 15 → (if neg then c + 2 ^ 15 else c) < 2 ^ 16 := fun neg c h => by
    cases neg <;> simp <;> omega
  cases x with
  | nan _ => exact show 0x7FC0 < 2 ^ 16 by decide
  | inf neg => exact hsgn neg 0x7F80 (by decide)
  | fin neg m e =>
    unfold convert
    dsimp only
    split
    · exact hsgn neg 0 (by decide)
    · generalize roundCode _ _ _ _ _ _ _ = c
      obtain ⟨c, ex⟩ := c
      dsimp only
      by_cases hc : c > Fmt.bf16.maxCode
      · rw [if_pos hc]
        exact hsgn neg _ (by decide)
      · rw [if_neg hc]
        split
        · exact hsgn neg 0 (by decide)
        · exact hsgn neg c (Nat.lt_of_le_of_lt (not_lt.1 hc) (by decide))

theorem convE3m5_lt (rm : Nat) (x : Machine.Num) : (convE3m5 rm x).code < 2 ^ 8 := by
  unfold convE3m5
  split
  · decide
  · split <;> decide
  · dsimp only
    generalize roundCode _ _ _ _ _ _ _ = c
    obtain ⟨c, ex⟩ := c
    dsimp only
    split
    · decide
    · split
      · decide
      · split
        · split <;> decide
        · split
          · decide
          · change c - 32 < 2 ^ 8
            omega

/-- An E8M0 code made of an exponent that clamps. -/
theorem clampedExp_lt (v : Int) : (if v < 0 then 0 else if v > 254 then 254 else v.toNat) < 2 ^ 8 := by
  split
  · decide
  · split
    · decide
    · omega

theorem convE8m0_lt (rm : Nat) (x : Machine.Num) : (convE8m0 rm x).code < 2 ^ 8 := by
  have hclamp : ∀ c : Int, (if c > 254 then { code := 254, sat := 1 } else if c < 0 then { code := 0, sat := 1 }
      else { code := c.toNat } : Conv).code < 2 ^ 8 := fun c => by
    split
    · decide
    · split
      · decide
      · change c.toNat < 2 ^ 8
        omega
  unfold convE8m0
  split
  · decide
  · split <;> decide
  · dsimp only
    split
    · decide
    · exact hclamp _

theorem entryConv_lt {enc : Nat} (h : enc < 3) (rm : Nat) (x : Machine.Num) : (entryConv enc rm x).code < 2 ^ entryWidth enc := by
  obtain rfl | rfl | rfl : enc = 0 ∨ enc = 1 ∨ enc = 2 := by omega
  · exact convE8m0_lt rm x
  · exact convE3m5_lt rm x
  · exact convert_bf16_lt rm x

theorem kConvert_lt {denc : Nat} (h : denc < 3) (enc rm x : Nat) : (kConvert enc denc rm x).code < 2 ^ entryWidth denc := by
  unfold kConvert
  split
  · exact Nat.two_pow_pos _
  · split
    · rename_i hband
      obtain rfl : denc = 2 := by simp at hband; omega
      decide
    · exact entryConv_lt h rm _

theorem kFoldByte_lt {enc : Nat} (h : enc < 2) (rm beta x : Nat) : (kFoldByte enc rm beta x).code < 2 ^ 8 := by
  unfold kFoldByte
  dsimp only
  split
  · decide
  · split
    · split <;> decide
    · split
      · decide
      · exact entryWidth_byte (show enc ≠ 2 by omega) ▸ entryConv_lt (by omega) rm _

theorem amaxE8m0_lt (f : Fmt) (ceil : Bool) (x : Machine.Num) : (amaxE8m0 f ceil x).code < 2 ^ 8 := by
  unfold amaxE8m0
  split
  · decide
  · decide
  · split
    · decide
    · dsimp only
      exact clampedExp_lt _

theorem amaxE3m5_lt (beta : Nat) (x : Machine.Num) : (amaxE3m5 beta x).code < 2 ^ 8 := by
  unfold amaxE3m5
  dsimp only
  split
  · decide
  · exact convE3m5_lt 2 _

theorem pickElem_bf16_lt (max_ : Bool) {x y : Nat} (hx : x < 2 ^ 16) (hy : y < 2 ^ 16) : pickElem .bf16 max_ x y < 2 ^ 16 := by
  rw [pickElem_float rfl]
  split
  · decide
  · split
    · exact hy
    · split
      · exact hx
      · split <;> split <;> assumption

theorem kPick_lt {enc : Nat} (max_ : Bool) {x y : Nat} (hx : x < 2 ^ entryWidth enc) (hy : y < 2 ^ entryWidth enc) :
    (kPick enc max_ x y).code < 2 ^ entryWidth enc := by
  unfold kPick
  split
  · rename_i henc
    subst henc
    split
    · decide
    · exact pickElem_bf16_lt max_ hx hy
  · rename_i henc
    rw [entryWidth_byte henc] at *
    split
    · decide
    · cases max_
      · exact Nat.lt_of_le_of_lt (Nat.min_le_left x y) hx
      · exact Nat.max_lt.2 ⟨hx, hy⟩

theorem addExp_lt {enc : Nat} (henc : enc < 3) {n : Int} {x : Nat} {r : Conv} (h : addExp enc n x = some r) :
    r.code < 2 ^ entryWidth enc := by
  obtain rfl | rfl | rfl : enc = 0 ∨ enc = 1 ∨ enc = 2 := by omega
  · simp only [addExp] at h
    split at h
    · cases h
    · cases h
      exact clampedExp_lt _
  · simp only [addExp] at h
    split at h
    · cases h
    · split at h
      · cases h
        decide
      · split at h
        · cases h
          decide
        · cases h
          change _ * 32 + x % 32 < 2 ^ 8
          omega
  · cases h
    exact convert_bf16_lt 0 _

end Sys2Proof.Proofs


/-! PROOFS. KMOV, KADDE, KMAX, KMIN, KCVT, KFOLD and KAMAX (O37): keeper writes read back entry by entry. -/

namespace Sys2Proof.Proofs
open Sys2Proof Sys2Proof.Machine Sys2Proof.Safety

/-! The edits of n entries from `off` on (R226). -/

/-- The edits that g makes. -/
def edits (off n : Nat) (g : Nat → Option Conv) : List KeeperEdit :=
  (List.range n).filterMap fun i => (g (off + i)).map fun r => ⟨off + i, r⟩

theorem kEdits_eq (s : State) (u : Nat) (g : Nat → Option Conv) : kEdits (unitTrig s u) g =
    edits (s.cur.b.toNat / 2 ^ 12 % 2 ^ 10) (s.cur.b.toNat / 2 ^ 22 % 2 ^ 10 + 1) g := by
  rw [kEdits, kOff_eq, kCnt_eq]
  rfl

/-- Edits numbered from 0 on. -/
theorem edits_map (off n : Nat) (g : Nat → Conv) :
    ((List.range n).map fun i => (⟨off + i, g i⟩ : KeeperEdit)) = edits off n fun j => some (g (j - off)) := by
  simp only [edits, Option.map_some, Nat.add_sub_cancel_left]
  exact List.filterMap_eq_map.symm ▸ rfl

/-- The edit of entry j. -/
theorem find_edits (off n : Nat) (g : Nat → Option Conv) (j : Nat) : (edits off n g).find? (fun x => x.at_ = j) =
    if off ≤ j ∧ j < off + n then (g j).map fun r => ⟨j, r⟩ else none := by
  induction n with
  | zero =>
    rw [if_neg (by omega)]
    rfl
  | succ n ih =>
    have hlast : edits off (n + 1) g = edits off n g ++ ((g (off + n)).map fun r => (⟨off + n, r⟩ : KeeperEdit)).toList := by
      rw [edits, List.range_succ, List.filterMap_append]
      cases h : g (off + n) <;> simp [edits, h]
    rw [hlast, List.find?_append, ih]
    by_cases hj : j = off + n
    · subst hj
      rw [if_neg (by omega), if_pos (by omega)]
      cases g (off + n) <;> simp
    · have hnone : ((g (off + n)).map fun r => (⟨off + n, r⟩ : KeeperEdit)).toList.find? (fun x => x.at_ = j) = none := by
        cases g (off + n) <;> simp [Ne.symm hj]
      rw [hnone, Option.or_none]
      by_cases hin : off ≤ j ∧ j < off + n
      · rw [if_pos hin, if_pos (by omega)]
      · rw [if_neg hin, if_neg (by omega)]

section
variable {off n : Nat} {g : Nat → Option Conv} {f : Nat → Option Nat} (hf : ∀ j, off ≤ j → (g j).map (·.code) = f j)
include hf

/-- The codes that the edits give. -/
theorem edits_codes (j : Nat) : ((edits off n g).find? fun x => x.at_ = j).map (·.res.code) =
    if off ≤ j ∧ j < off + n then f j else none := by
  rw [find_edits]
  split
  · rename_i hj
    rw [← hf j hj.1, Option.map_map]
    rfl
  · rfl

theorem edits_codes_lt {w : Nat} (hlt : ∀ j c, g j = some c → c.code < 2 ^ w) (j v : Nat)
    (hv : (if off ≤ j ∧ j < off + n then f j else none) = some v) : v < 2 ^ w := by
  by_cases hj : off ≤ j ∧ j < off + n
  · rw [if_pos hj, ← hf j hj.1] at hv
    obtain ⟨c, hc, rfl⟩ := Option.map_eq_some_iff.1 hv
    exact hlt j c hc
  · rw [if_neg hj] at hv
    cases hv
end

/-! The keeper write that edits make (R221, R226). -/

/-- Which of n entries are edited. -/
def editMask (n : Nat) (l : List KeeperEdit) : BitVec n := BitVec.ofNat n (ofBits n fun i => (l.toArray.find? fun x => x.at_ = i).isSome)

/-- The codes that the edits give to n entries of w bits. -/
def editCodes (m n w : Nat) (l : List KeeperEdit) : BitVec m :=
  BitVec.ofNat m (ofDigits n w fun i => (l.toArray.find? fun x => x.at_ = i).elim 0 (·.res.code))

/-- The counts of the edits' events. -/
def editCounts (l : List KeeperEdit) : Post :=
  .conv ((l.map (·.res)).foldl (fun n x => n + x.sat) 0) ((l.map (·.res)).foldl (fun n x => n + x.flush) 0)
    ((l.map (·.res)).foldl (fun n x => n + x.nan) 0)

theorem editPosts_bytes {enc : Nat} (h : enc ≠ 2) (k : Nat) (r : Bool) (l : List KeeperEdit) :
    editPosts k enc r l = [.keeper k (editMask 1024 l) (editCodes 8192 1024 8 l) 0 0 r, editCounts l] := by
  simp only [editPosts, if_neg h, editMask, editCodes, editCounts, convPost]

theorem editPosts_band (k : Nat) (r : Bool) (l : List KeeperEdit) :
    editPosts k 2 r l = [.keeper k 0 0 (editMask 16 l) (editCodes 256 16 16 l) r, editCounts l] := by
  simp only [editPosts, if_true, editMask, editCodes, editCounts, convPost]

section
variable {l : List KeeperEdit} {f : Nat → Option Nat} (hf : ∀ j, (l.find? fun x => x.at_ = j).map (·.res.code) = f j)
include hf

theorem getLsbD_editMask {n j : Nat} (hj : j < n) : (editMask n l).getLsbD j = (f j).isSome := by
  rw [editMask, BitVec.getLsbD_ofNat, testBit_ofBits, decide_eq_true hj, Bool.true_and, Bool.true_and, List.find?_toArray, ← hf,
    Option.isSome_map]

theorem digit_editCodes {m n w j v : Nat} (hj : j < n) (hm : w * n ≤ m) (hv : f j = some v) (hlt : v < 2 ^ w) :
    digit (editCodes m n w l).toNat w j = v := by
  obtain ⟨x, hx, rfl⟩ := Option.map_eq_some_iff.1 ((hf j).trans hv)
  rw [editCodes, digit_toNat_ofDigits _ hj hm, List.find?_toArray, hx]
  exact Nat.mod_eq_of_lt hlt
end

/-- What O37 says of a keeper write: the entries of an encoding that f gives become what it says, and no others change; with `fold` the
band entry that c names becomes 1.0. -/
def WritesEntries (s : State) (r : Bool) (i : Instr) (bound : Nat) (enc : BitVec 2) (fold : Bool) (f : Nat → Option Nat) : Prop :=
  ∃ bm bytes dm band conv,
    exec i s = .next (withFlight (writing s)
      { flying s 20 bound with lands := false, posts := [.keeper (s.cur.b.toNat % 64) bm bytes dm band r, conv] }) ∧
    (enc ≠ 2 → dm = if fold then BitVec.twoPow 16 (s.cur.c.toNat / 8 % 16) else 0) ∧
    (fold = true → band.toNat / 2 ^ (16 * (s.cur.c.toNat / 8 % 16)) % 2 ^ 16 = 0x3F80) ∧
    ∀ j, j < (if enc = 2 then 16 else 1024) →
      (if enc = 2 then dm.getLsbD j = (f j).isSome ∧ bm = 0 else bm.getLsbD j = (f j).isSome) ∧
      ∀ v, f j = some v → (if enc = 2 then band.toNat / 2 ^ (16 * j) % 2 ^ 16 else bytes.toNat / 2 ^ (8 * j) % 2 ^ 8) = v

/-- Band entry b as 1.0 (R231). -/
theorem bandOne_toNat {b : Nat} (hb : b < 16) :
    (BitVec.ofNat 256 (0x3F80 * 2 ^ (16 * b))).toNat / 2 ^ (16 * b) % 2 ^ 16 = 0x3F80 := by
  have hlt : 0x3F80 * 2 ^ (16 * b) < 2 ^ 256 := calc
    0x3F80 * 2 ^ (16 * b) < 2 ^ 16 * 2 ^ (16 * b) := Nat.mul_lt_mul_of_pos_right (by decide) (Nat.two_pow_pos _)
    _ = 2 ^ (16 + 16 * b) := (Nat.pow_add ..).symm
    _ ≤ 2 ^ 256 := Nat.pow_le_pow_right (by decide) (by omega)
  rw [BitVec.toNat_ofNat, Nat.mod_eq_of_lt hlt, Nat.mul_div_cancel _ (Nat.two_pow_pos _)]
  rfl

section
variable {s : State} {r : Bool} {i : Instr} {bound : Nat} {enc : BitVec 2} {l : List KeeperEdit} {f : Nat → Option Nat}
  (hf : ∀ j, (l.find? fun x => x.at_ = j).map (·.res.code) = f j) (hlt : ∀ j v, f j = some v → v < 2 ^ entryWidth enc.toNat)
include hf hlt

/-- Edits write the entries that they name. -/
theorem writesEntries_edits (hrun : exec i s = .next (withFlight (writing s)
      { flying s 20 bound with lands := false, posts := editPosts (s.cur.b.toNat % 64) enc.toNat r l })) :
    WritesEntries s r i bound enc false f := by
  by_cases henc : enc = 2
  · subst henc
    rw [show (2 : BitVec 2).toNat = 2 from rfl, editPosts_band] at hrun
    refine ⟨_, _, _, _, _, hrun, fun h => absurd rfl h, fun h => absurd h (by decide), fun j hj => ?_⟩
    rw [if_pos rfl] at hj ⊢
    refine ⟨⟨getLsbD_editMask hf hj, rfl⟩, fun v hv => ?_⟩
    rw [if_pos rfl]
    exact digit_editCodes hf hj (by decide) hv (hlt j v hv)
  · have hn : enc.toNat ≠ 2 := fun h => henc (BitVec.eq_of_toNat_eq h)
    rw [editPosts_bytes hn] at hrun
    rw [entryWidth_byte hn] at hlt
    refine ⟨_, _, _, _, _, hrun, fun _ => rfl, fun h => absurd h (by decide), fun j hj => ?_⟩
    rw [if_neg henc] at hj ⊢
    refine ⟨getLsbD_editMask hf hj, fun v hv => ?_⟩
    rw [if_neg henc]
    exact digit_editCodes hf hj (by decide) hv (hlt j v hv)

/-- Edits of bytes beside a band entry that becomes 1.0 (R231). -/
theorem writesEntries_folded (henc : enc ≠ 2) (hrun : exec i s = .next (withFlight (writing s)
      { flying s 20 bound with lands := false, posts := [.keeper (s.cur.b.toNat % 64) (editMask 1024 l) (editCodes 8192 1024 8 l)
        (BitVec.ofNat 16 (2 ^ (s.cur.c.toNat / 8 % 16))) (BitVec.ofNat 256 (0x3F80 * 2 ^ (16 * (s.cur.c.toNat / 8 % 16)))) r,
        editCounts l] })) :
    WritesEntries s r i bound enc true f := by
  have hn : enc.toNat ≠ 2 := fun h => henc (BitVec.eq_of_toNat_eq h)
  rw [entryWidth_byte hn] at hlt
  refine ⟨_, _, _, _, _, hrun, fun _ => ?_, fun _ => ?_, fun j hj => ?_⟩
  · exact BitVec.eq_of_toNat_eq (by rw [if_pos rfl, BitVec.toNat_twoPow, BitVec.toNat_ofNat])
  · exact bandOne_toNat (Nat.mod_lt _ (by decide))
  · rw [if_neg henc] at hj ⊢
    refine ⟨getLsbD_editMask hf hj, fun v hv => ?_⟩
    rw [if_neg henc]
    exact digit_editCodes hf hj (by decide) hv (hlt j v hv)
end

/-! The operations. -/

theorem sint_param (v : Vec) : sint (param v) 9 = sint v.toNat 9 := by
  rw [sint, sint, param, Nat.mod_mod_of_dvd _ (by decide)]

theorem kEntry_writing (s : State) (enc n i : Nat) :
    kEntry enc (kView (writing s) (unitTrig s 20) n) i = kEntry enc (keeperView (s.core s.cur.core) n) i := by
  obtain ⟨w, hw⟩ := keeperView_writing s n
  rw [show kView (writing s) (unitTrig s 20) n = _ from hw]
  rfl

theorem byte_writing (s : State) (n i : Nat) :
    (kView (writing s) (unitTrig s 20) n).byte i = (keeperView (s.core s.cur.core) n).byte i := kEntry_writing s 0 n i

theorem bandAt_writing (s : State) (n i : Nat) :
    (kView (writing s) (unitTrig s 20) n).bandAt i = (keeperView (s.core s.cur.core) n).bandAt i := kEntry_writing s 2 n i

/-- An entry as O37 writes it. -/
theorem entry_eq (enc : BitVec 2) (x : Keeper) (i : Nat) : (if enc = 2 then x.band.toNat / 2 ^ (16 * i) % 2 ^ 16
    else x.bytes.toNat / 2 ^ (8 * i) % 2 ^ 8 : Nat) = kEntry enc.toNat x i := by
  by_cases h : enc = 2
  · subst h
    rfl
  · have hn : enc.toNat ≠ 2 := fun hn => h (BitVec.eq_of_toNat_eq hn)
    rw [kEntry, if_neg h, if_neg hn]
    rfl

section
variable {s : State} {r : Bool} (hs : shown s 0 = true) (hturn : KpTurn s) (hclean : Clean s s.cur.core)
include hs hturn hclean

/-- An admitted operation is in flight with the effects p, one more write of KD pending. -/
theorem exec_kWrite {i : Instr} {bound : Nat} {chk : State → Trig → Verdict} {reads : Trig → List (Nat × Nat × Nat)}
    {posts : State → Trig → List Post} (he : exec i s = runOp (kWrite bound chk reads posts) s)
    (ho : opOf i = some (kWrite bound chk reads posts)) (h : admitted i s) {p : List Post}
    (hp : posts (writing s) (unitTrig s 20) = p) :
    exec i s = .next (withFlight (writing s) { flying s 20 bound with lands := false, posts := p }) := by
  rw [he, kWrite_runs (admitted_go h ho) hs hturn hclean, hp]

theorem exec_kmov (h : admitted (.kmov r) s) : exec (.kmov r) s = .next (withFlight (writing s) { flying s 20 4 with
    lands := false
    posts := [.keeper (s.cur.b.toNat % 64) (BitVec.allOnes 1024) (keeperView (s.core s.cur.core) (s.cur.b.toNat / 64 % 64)).bytes
      (BitVec.allOnes 16) (keeperView (s.core s.cur.core) (s.cur.b.toNat / 64 % 64)).band r] }) := by
  obtain ⟨w, hw⟩ := keeperView_writing s (s.cur.b.toNat / 64 % 64)
  refine exec_kWrite hs hturn hclean rfl rfl h ?_
  dsimp only
  rw [kS_eq, kD_eq, kView, hw]

section
variable {i : Instr} {bound : Nat} {chk : State → Trig → Verdict} {reads : Trig → List (Nat × Nat × Nat)}
  {posts : State → Trig → List Post} {enc : BitVec 2} {off n : Nat} {g : Nat → Option Conv} {f : Nat → Option Nat}
  (he : exec i s = runOp (kWrite bound chk reads posts) s) (ho : opOf i = some (kWrite bound chk reads posts)) (h : admitted i s)
  (hlt : ∀ j c, g j = some c → c.code < 2 ^ entryWidth enc.toNat)
  (hf : ∀ j, off ≤ j → (g j).map (·.code) = f j)
include he ho h hlt hf

/-- The entries that an operation's edits write are those of its range. -/
theorem kWrite_writes (hp : posts (writing s) (unitTrig s 20) = editPosts (s.cur.b.toNat % 64) enc.toNat r (edits off n g)) :
    WritesEntries s r i bound enc false fun j => if off ≤ j ∧ j < off + n then f j else none :=
  writesEntries_edits (edits_codes hf) (edits_codes_lt hf hlt) (exec_kWrite hs hturn hclean he ho h hp)

theorem kWrite_folds (henc : enc ≠ 2) (hp : posts (writing s) (unitTrig s 20) =
      [.keeper (s.cur.b.toNat % 64) (editMask 1024 (edits off n g)) (editCodes 8192 1024 8 (edits off n g))
        (BitVec.ofNat 16 (2 ^ (s.cur.c.toNat / 8 % 16))) (BitVec.ofNat 256 (0x3F80 * 2 ^ (16 * (s.cur.c.toNat / 8 % 16)))) r,
        editCounts (edits off n g)]) :
    WritesEntries s r i bound enc true fun j => if off ≤ j ∧ j < off + n then f j else none :=
  writesEntries_folded (edits_codes hf) (edits_codes_lt hf hlt) henc (exec_kWrite hs hturn hclean he ho h hp)
end
end

/-! The entries as O37 writes them. -/

/-- KADDE's sum of exponents (R228). -/
def addedExp (e : BitVec 2) (n : Int) (v : Nat) : Option Nat :=
  if e = 0 then (if v = 255 then none else some (max 0 (min 254 (v + n))).toNat)
  else if e = 1 then (if v = 0 ∨ v = 255 then none else
    let u := ((v / 32 : Nat) : Int) + n
    some (if 7 < u then 0xFE else if u < 0 then 0 else u.toNat * 32 + v % 32))
  else some (convert .bf16 0 0 false (Machine.Num.mul (Fmt.bf16.decode v) (.fin false 1 n))).code

theorem addExp_code {e : BitVec 2} (he : e ≠ 3) (n : Int) (v : Nat) : (addExp e.toNat n v).map (·.code) = addedExp e n v := by
  obtain rfl | rfl | rfl : e = 0 ∨ e = 1 ∨ e = 2 := by revert e; decide
  · change (if v = 255 then none else some _ : Option Conv).map _ = if v = 255 then none else some _
    split
    · rfl
    · refine congrArg some ?_
      change (if (v : Int) + n < 0 then 0 else if (v : Int) + n > 254 then 254 else ((v : Int) + n).toNat) = _
      split
      · omega
      · split <;> omega
  · change (if v = 0 ∨ v = 255 then none else _ : Option Conv).map _ = if v = 0 ∨ v = 255 then none else some _
    split
    · rfl
    · split
      · rfl
      · split <;> rfl
  · rfl

theorem kPick_code (e : BitVec 2) (max_ : Bool) (u v : Nat) : (kPick e.toNat max_ u v).code =
    if e = 2 then (if (Fmt.bf16.decode u).isNan || (Fmt.bf16.decode v).isNan then 0x7FC0 else pickElem .bf16 max_ u v)
    else if u = 255 ∨ v = 255 then 255 else if max_ then max u v else min u v := by
  by_cases h : e = 2
  · subst h
    rw [kPick, if_pos (show (2 : BitVec 2).toNat = 2 from rfl), if_pos rfl]
    split <;> rfl
  · have hn : e.toNat ≠ 2 := fun hn => h (BitVec.eq_of_toNat_eq hn)
    rw [kPick, if_neg hn, if_neg h]
    split <;> rfl

/-- Settles O37: each operation is a keeper write of its edits, and an edit's code is what the statement says of its entry. -/
theorem keeperArithmetic : Obligations.KeeperArithmetic := by
  unfold Obligations.KeeperArithmetic
  intro s r e x hc c ctl w d off cnt kept entry fails writes range addTo pick beta amax he hx
  have hentry : ∀ (enc : BitVec 2) n i, entry enc (kept n) i = kEntry enc.toNat (kept n) i := fun enc n i => entry_eq enc _ i
  have he3 : e.toNat < 3 := by revert e; decide
  have hx3 : x.toNat < 3 := by revert x; decide
  refine ⟨⟨kWrite_fails, kWrite_fails, kWrite_fails, kWrite_fails, kWrite_fails, kWrite_fails, kWrite_fails⟩,
    fun hs hstage hpoison hupsets hready => ?_⟩
  have hturn : KpTurn s := ⟨hstage, hready⟩
  have hclean : Clean s c := ⟨hpoison, hupsets⟩
  have hpick : ∀ {i : Instr} (max_ : Bool), exec i s = runOp (kExtreme max_ r e.toNat) s → opOf i = some (kExtreme max_ r e.toNat) →
      admitted i s → writes i 4 e false (range off cnt (pick max_)) := fun {i} max_ hi ho h => by
    refine kWrite_writes (g := fun j => some (kPick e.toNat max_ (kEntry e.toNat (kept (ctl / 64 % 64)) j) (kEntry e.toNat (kept (w % 64)) j)))
      hs hturn hclean hi ho h (fun j c hj => ?_) (fun j _ => ?_) ?_
    · cases hj
      exact kPick_lt max_ (kEntry_lt ..) (kEntry_lt ..)
    · exact congrArg some (kPick_code ..) |>.trans (by rw [← hentry, ← hentry])
    · simp only [kEntry_writing, kEdits_eq, kD_eq, kS_eq, kOther_eq]
      rfl
  refine ⟨exec_kmov hs hturn hclean, fun h => ?kadde, fun h => ?kmax, fun h => ?kmin, fun _ h => ?kcvt, fun he2 h => ?kfold,
    fun he2 h => ?kamax⟩
  case kadde =>
    refine kWrite_writes (g := fun j => addExp e.toNat (sint w 9) (kEntry e.toNat (kept d) j)) hs hturn hclean rfl rfl h
      (fun j c hj => addExp_lt he3 hj) (fun j _ => ?_) ?_
    · exact (addExp_code he _ _).trans (congrArg _ (hentry e d j).symm)
    · simp only [kEntry_writing, kEdits_eq, kD_eq, sint_param]
      rfl
  case kmax => exact hpick true rfl rfl h
  case kmin => exact hpick false rfl rfl h
  case kcvt =>
    refine kWrite_writes (g := fun j => some (kConvert e.toNat x.toNat (w % 8)
      (kEntry e.toNat (kept (ctl / 64 % 64)) (off + (j - w / 2 ^ 8 % 2 ^ 10))))) hs hturn hclean rfl rfl h (fun j c hj => ?_) (fun j _ => ?_) ?_
    · cases hj
      exact kConvert_lt hx3 ..
    · rw [hentry]
      rfl
    · simp only [kEntry_writing, kD_eq, kS_eq, kOff_eq, kCnt_eq, kDest_eq, kRound_eq]
      exact congrArg (editPosts _ _ _) (edits_map ..)
  case kfold =>
    have hn : e.toNat ≠ 2 := fun hn => he2 (BitVec.eq_of_toNat_eq hn)
    refine kWrite_folds (g := fun j => some (kFoldByte e.toNat (w % 8) beta ((kept d).byte j))) hs hturn hclean rfl rfl h
      (fun j c hj => ?_) (fun j _ => ?_) he2 ?_
    · cases hj
      rw [entryWidth_byte hn]
      exact kFoldByte_lt (by omega) ..
    · rw [hentry, kEntry, if_neg hn]
      rfl
    · simp only [byte_writing, bandAt_writing, kEdits_eq, kD_eq, kRound_eq, kBand_eq, editPosts_bytes hn]
      rfl
  case kamax =>
    have hn : e.toNat ≠ 2 := fun hn => he2 (BitVec.eq_of_toNat_eq hn)
    have h0 : e.toNat = 0 ↔ e = 0 := ⟨fun h => BitVec.eq_of_toNat_eq h, fun h => h ▸ rfl⟩
    refine kWrite_writes (g := fun j => some (if e = 0 then amaxE8m0 (Fmt.ofCode (w / 2 ^ 8 % 16)) (w % 2 = 1) (amax j)
      else amaxE3m5 beta (amax j))) hs hturn hclean rfl rfl h (fun j c hj => ?_) (fun j _ => rfl) ?_
    · cases hj
      rw [entryWidth_byte hn]
      split
      · exact amaxE8m0_lt ..
      · exact amaxE3m5_lt ..
    · simp only [bandAt_writing, kD_eq, kOff_eq, kCnt_eq, kFmt_eq, kBand_eq, kCeil_eq, h0]
      exact congrArg (editPosts _ _ _) (edits_map ..)

end Sys2Proof.Proofs


/-! PROOFS. KBIND, KUNBIND, KREBIND, KGEN, KLD and KST (O38): bindings, and the image of a keeper on the V path. -/

namespace Sys2Proof.Proofs
open Sys2Proof Sys2Proof.Machine Sys2Proof.Safety

/-! What the view of the running operation shares with the state. -/

@[simp] theorem keeperView_view (s : State) (d n : Nat) : keeperView ((view s).core d) n = keeperView (s.core d) n :=
  view_part (keeperView · n) (fun _ _ _ _ => rfl) s d

@[simp] theorem keeperNow_view (s : State) (d n : Nat) : keeperNow (view s) d n = keeperNow s d n :=
  view_part (fun k => (nth k.arch.keepers n Keeper.reset).blank (keeperErrors k n)) (fun _ _ _ _ => rfl) s d

@[simp] theorem fenceHold_view (s : State) (d path : Nat) : fenceHold (view s) d path = fenceHold s d path := by
  simp only [fenceHold, view_core_fences, pathsDone_view]

/-- A keeper none of whose words is in error is read as it stands. -/
theorem keeperNow_clean {s : State} {c : Nat} (h : Clean s c) (n : Nat) :
    keeperNow s c n = nth (s.core c).arch.keepers n Keeper.reset := by
  rw [keeperNow, keeperErrors_sound n h]
  rfl

/-! Verdicts that wait for nothing. -/

theorem final_need (ok : Bool) (code i : Nat) : Final (need ok code i) := by
  cases ok
  · exact .inr ⟨_, _, rfl⟩
  · exact .inl rfl

theorem need_failed {p : Prop} [Decidable p] (h : ¬ p) (code i : Nat) : need (decide p) code i = .bad code (info i) :=
  if_neg (by rwa [decide_eq_true_eq])

theorem final_and {v w : Verdict} (hv : Final v) (hw : Final w) : Final (v.and w) := by
  obtain rfl | ⟨code, i, rfl⟩ := hv
  · exact hw
  · exact .inr ⟨code, i, bad_and_final hw code i⟩

theorem final_tileFree {x : Tile} (h : x.busy = 0) (n : Nat) : Final (tileFree x n) := .inl (if_pos h)

theorem final_keeperFree {a : Arch} {n : Nat} (h : (nth a.keepers n Keeper.reset).writes = 0) : Final (keeperFree a n) := .inl (if_pos h)

/-! The operations. -/

section
variable {s : State}

/-- The fault of a KP operation names no tile (R384). -/
theorem kp_faults {o : Op} {code i : Nat} (hu : s.cur.checked = false) (hcode : code ≠ 0x20 ∧ code ≠ 0x0C)
    (h : o.chk (view s) (unitTrig s o.unit) = .bad code (info i)) : runOp o s = .next (faults s code (BitVec.ofNat 64 i)) := by
  rw [runOp_bad o s code _ hu h hcode.1, tileFault_ne hcode.2]
  rfl

/-! Bindings (R233). -/

section
variable {rebind : Bool} {buckle : State → Trig → Option (Nat × BitVec 16)}

theorem kBinding_fails (hs : shown s 0 = false) : runOp (kBinding rebind buckle) s = .next (completes s 20 2) := by
  have hchk : (kBinding rebind buckle).chk (view s) (unitTrig s 20) = .go := if_pos (by rw [kPasses_eq, hs]; rfl)
  rw [runOp_go _ s (.inr hchk)]
  simp only [kBinding, opRun, kPasses_eq, hs, Bool.false_and, Prog.run_all_cons, Prog.run_when_false, Prog.run_all_nil]
  exact congrArg _ (finish_completes s 20 2)

theorem kBinding_runs (hgo : s.cur.checked = true ∨ (kBinding rebind buckle).chk (view s) (unitTrig s 20) = .go) (hs : shown s 0 = true)
    {b : Option (Nat × BitVec 16)} (hb : buckle (view s) (unitTrig s 20) = b) (hclean : b.isSome = true → Clean s s.cur.core) :
    runOp (kBinding rebind buckle) s = .next (withFlight s { flying s 20 2 with
      lands := false, posts := [.bind (s.cur.c.toNat % 2 ^ 32 % 64) b] }) := by
  rw [runOp_go _ s hgo]
  simp only [kBinding, opRun, kPasses_eq, hs, hb, Bool.true_and, if_true, Prog.run_all_cons, Prog.run_all_nil, Prog.run_when]
  refine congrArg _ ?_
  have hfinish := finish_run s 20 2 [.bind (kTile (unitTrig s 20)) b]
  split
  · rename_i hsome
    rw [hfinish, keeperUse_sound ((hclean hsome).withFlight _)]
    rfl
  · exact hfinish

/-- A tile number of 64 or more is the fault 0x03, nothing holding the bundle. -/
theorem kBinding_faults (hs : shown s 0 = true) (hu : s.cur.checked = false) (h64 : 64 ≤ s.cur.c.toNat % 2 ^ 32)
    (hbusy : (tileAt s s.cur.core (s.cur.c.toNat % 2 ^ 32 % 64)).busy = 0)
    (hwrites : (nth (s.core s.cur.core).arch.keepers (s.cur.b.toNat % 64) Keeper.reset).writes = 0) :
    runOp (kBinding rebind buckle) s = .next (faults s 0x03 (BitVec.ofNat 64 (s.cur.c.toNat % 2 ^ 32))) := by
  refine kp_faults hu (by decide) ?_
  change bindCheck rebind (view s) (unitTrig s 20) = _
  rw [← kD_eq s 20, ← view_arch_keepers] at hwrites
  rw [← tileAt_view] at hbusy
  have hbad : need (decide (param s.cur.c < 64)) 0x03 (param s.cur.c) = .bad 0x03 (info (s.cur.c.toNat % 2 ^ 32)) :=
    need_failed (Nat.not_lt.2 h64) ..
  unfold bindCheck
  rw [kPasses_eq, hs, if_neg (by decide)]
  dsimp only
  rw [hbad]
  refine bad_and_final (final_and (final_need ..) (final_and (final_tileFree hbusy _) (final_and (final_keeperFree hwrites) ?_))) ..
  split
  · exact final_need ..
  · exact .inl rfl
end

/-! The generation (R234). -/

theorem exec_kgen {cr : Bool} (hc : s.cur.core < 256) (h : admitted (.kgen cr) s) (hturn : KpTurn s) (hclean : Clean s s.cur.core) :
    exec (.kgen cr) s = .next (landsRecorded s 20 2 cr
      (broadcast (keeperView (s.core s.cur.core) (s.cur.b.toNat % 64)).gen.toNat)
      (keeperView (s.core s.cur.core) (s.cur.b.toNat % 64)).gen.toNat) := by
  have he : exec (.kgen cr) s = runOp (opKgen cr) s := rfl
  have hparts : ((reserving s cr).core s.cur.core).flights = (s.core s.cur.core).flights ∧ Clean (reserving s cr) s.cur.core ∧
      keeperView ((reserving s cr).core s.cur.core) (s.cur.b.toNat % 64) = keeperView (s.core s.cur.core) (s.cur.b.toNat % 64) := by
    unfold reserving
    split
    · rw [Clean, withCore_core _ _ _ hc]
      exact ⟨rfl, hclean, rfl⟩
    · exact ⟨rfl, hclean, rfl⟩
  obtain ⟨hflights, hclean', hview⟩ := hparts
  have hland := record_land_run s 20 2 cr (broadcast (keeperView (s.core s.cur.core) (s.cur.b.toNat % 64)).gen.toNat)
      (keeperView (s.core s.cur.core) (s.cur.b.toNat % 64)).gen.toNat
  rw [Prog.run_all_cons, Prog.run_all_cons, Prog.run_all_nil, reserveRecord_run] at hland
  rw [he, runOp_go _ s (admitted_go h rfl)]
  refine congrArg _ ?_
  simp only [opKgen, opRun]
  rw [Prog.run_all_cons, decide_eq_true (show (unitTrig s 20).stage = 0 from hturn.1), Prog.run_when_true, reserveRecord_run,
    Prog.run_all_cons, Prog.run_all_nil, kpTurn_run hturn hflights, Prog.run_get]
  rw [kView, kD_eq, hview, Prog.run_all_cons, Prog.run_all_cons, Prog.run_all_nil, hland]
  exact keeperUse_sound (hclean'.withFlight _) ..

/-! The image (R227). -/

theorem queueAccess_here {t : State} (hcur : t.cur = s.cur) (path : Nat) (kind : AccessKind) (l : List Piece) (w : Nat) :
    (queueAccess (unitTrig s 20) path kind l w).run t = withAccess t path 20 kind l w := by
  rw [unitTrig, ← hcur]
  exact queueAccess_run t 20 path kind l w

/-- The image's bytes from `off` on. -/
def imagePart (s : State) (write : Bool) (off n : Nat) : List Piece :=
  piecesFrom 0 (accessHomes (view s) s.cur.core pathV false write false (s.cur.c.toNat % 2 ^ 32 % 2 ^ 22 + off) n)

theorem exec_kld {r : Bool} (h : admitted (.kld r) s) (hs : shown s 0 = true) : exec (.kld r) s = .next (withAccess
    (withFlight (writing s) { flying s 20 16 with lands := false, ready := false })
    pathV 20 (.keeper (s.cur.b.toNat % 64) r) (imagePart s false 0 1056) 15) := by
  have he : exec (.kld r) s = runOp (opKld r) s := rfl
  have hbegin := beginWrite_run s 20
  rw [he, runOp_go _ s (admitted_go h rfl)]
  refine congrArg _ ?_
  simp only [opKld, opRun, kPasses_eq, hs, Bool.not_true, if_neg Bool.false_ne_true]
  rw [Prog.run_all_cons, hbegin, Prog.run_all_cons, Prog.run_all_cons, Prog.run_all_nil, kD_eq, kAddr_eq]
  rw [show (await_ (unitTrig s 20) 16 false 1).run (writing s) = _ from await_run (writing s) 20 16 false 1]
  exact queueAccess_here rfl ..

theorem exec_kst (h : admitted .kst s) (hs : shown s 0 = true) (hturn : KpTurn s) (hclean : Clean s s.cur.core) :
    let x := keeperView (s.core s.cur.core) (s.cur.b.toNat % 64)
    exec .kst s = .next (withAccess
      (withAccess (completes s 20 16) pathV 20 (.store x.bytes) (imagePart s true 0 1024) storeWait)
      pathV 20 (.store (x.band.setWidth 8192)) (imagePart s true 1024 32) storeWait) := by
  intro x
  have he : exec .kst s = runOp opKst s := rfl
  rw [he, runOp_go _ s (admitted_go h rfl)]
  refine congrArg _ ?_
  simp only [opKst, opRun, kPasses_eq, hs, Bool.not_true, if_neg Bool.false_ne_true]
  rw [kpTurn_run hturn rfl, Prog.run_get]
  change (Prog.all [finish (unitTrig s 20) 16 [],
    queueAccess (unitTrig s 20) pathV (.store (kView (view s) (unitTrig s 20) (kD (unitTrig s 20))).bytes)
      (piecesFrom 0 (accessHomes (view s) s.cur.core pathV false true false (kAddr (unitTrig s 20) + 0) 1024)) storeWait,
    queueAccess (unitTrig s 20) pathV (.store (BitVec.ofNat 8192 (kView (view s) (unitTrig s 20) (kD (unitTrig s 20))).band.toNat))
      (piecesFrom 0 (accessHomes (view s) s.cur.core pathV false true false (kAddr (unitTrig s 20) + 1024) 32)) storeWait,
    keeperUse ((unitTrig s 20).who (view s)) (kD (unitTrig s 20)) [(0, 1056)]]).run s = _
  rw [kView, keeperView_view, kD_eq, kAddr_eq, BitVec.ofNat_toNat, Prog.run_all_cons, Prog.run_all_cons, Prog.run_all_cons,
    Prog.run_all_cons, Prog.run_all_nil, finish_completes,
    queueAccess_here (s := s) (t := completes s 20 16) rfl, queueAccess_here (s := s)]
  · exact keeperUse_sound (((hclean.withFlight _).withAccess ..).withAccess ..) ..
  · rfl
/-- Where lane 0 of the guard fails the image stays where it is. -/
theorem image_fails {i : Instr} {chk : State → Trig → Verdict} {body : State → Trig → Prog} (hs : shown s 0 = false)
    (he : exec i s = runOp (opRun 20 (fun s t => if kPasses t then chk s t else .go) fun s t =>
      if !kPasses t then finish t 16 [] else body s t) s) : exec i s = .next (completes s 20 16) := by
  rw [he]
  refine kp_completes ?_ ?_
  · exact if_neg (by rw [kPasses_eq, hs]; decide)
  · exact if_pos (by rw [kPasses_eq, hs]; rfl)

section
variable (hmis : s.cur.c.toNat % 2 ^ 32 % 2 ^ 22 % 32 ≠ 0) (hfence : fenceHold s s.cur.core pathV = false)
include hmis hfence

theorem imageAddrCheck_misaligned (write : Bool) : imageAddrCheck write (view s) (unitTrig s 20) =
    .bad 0x08 (info (s.cur.c.toNat % 2 ^ 32 % 2 ^ 22)) := by
  have hgo : fenceCheck (view s) s.cur.core pathV = .go := if_neg (by rw [fenceHold_view, hfence]; decide)
  unfold imageAddrCheck
  rw [hgo, kAddr_eq, need_failed hmis]
  exact bad_and_final (final_and (final_need ..) final_accessCheck_local) ..

variable (hs : shown s 0 = true) (hu : s.cur.checked = false)
include hs hu

theorem exec_kst_misaligned : exec .kst s = .next (faults s 0x08 (BitVec.ofNat 64 (s.cur.c.toNat % 2 ^ 32 % 2 ^ 22))) :=
  kp_faults (o := opKst) hu (by decide) ((if_pos (by rw [kPasses_eq, hs])).trans (imageAddrCheck_misaligned hmis hfence true))

theorem exec_kld_misaligned (r : Bool)
    (hreaders : (nth (s.core s.cur.core).arch.keepers (s.cur.b.toNat % 64) Keeper.reset).readers = 0) :
    exec (.kld r) s = .next (faults s 0x08 (BitVec.ofNat 64 (s.cur.c.toNat % 2 ^ 32 % 2 ^ 22))) := by
  have hgo : keeperUnread ((view s).core s.cur.core).arch (kD (unitTrig s 20)) = .go := if_pos (by rwa [view_arch_keepers, kD_eq])
  refine kp_faults (o := opKld r) hu (by decide) ((if_pos (by rw [kPasses_eq, hs])).trans ?_)
  exact (congrArg (Verdict.and · _) hgo).trans (imageAddrCheck_misaligned hmis hfence false)
end
end

/-- Settles O38: each operation by its own lemma; a buckle is made of KD's generation as it stands, no word of it being in error. -/
theorem keeperBindingsAndImages : Obligations.KeeperBindingsAndImages := by
  unfold Obligations.KeeperBindingsAndImages
  intro s cr r hc c d w kept gen at_ bound turn pieces sound
  have hbuckle : sound → kBuckle (view s) (unitTrig s 20) = some (d, gen) := fun h => by
    rw [kBuckle, kD_eq, keeperNow_view, keeperNow_clean h]
  refine ⟨fun h hturn hsound => exec_kgen hc h hturn hsound,
    fun hs => ⟨kBinding_fails hs, kBinding_fails hs, kBinding_fails hs, image_fails hs rfl, image_fails hs rfl⟩,
    fun hs => ⟨fun h hsound => ?_, fun h hsound => ?_, fun h => ?_, fun h => exec_kld h hs, fun h hturn hsound => exec_kst h hs hturn hsound,
      fun hu h64 hbusy hwrites => ?_, fun hu hmis hfence hreaders => ?_⟩⟩
  · exact kBinding_runs (admitted_go h rfl) hs (hbuckle hsound) fun _ => hsound
  · exact kBinding_runs (admitted_go h rfl) hs (hbuckle hsound) fun _ => hsound
  · exact kBinding_runs (admitted_go h rfl) hs rfl fun h => absurd h (by decide)
  · exact ⟨kBinding_faults hs hu h64 hbusy hwrites, kBinding_faults hs hu h64 hbusy hwrites, kBinding_faults hs hu h64 hbusy hwrites⟩
  · exact ⟨exec_kld_misaligned hmis hfence hs hu r hreaders, exec_kst_misaligned hmis hfence hs hu⟩

end Sys2Proof.Proofs


/-! PROOFS. Operations that settle a flight (O32, O42): an abandoned one, and one that stands beside an abandoned one. -/

namespace Sys2Proof.Proofs
open Sys2Proof Sys2Proof.Machine Sys2Proof.Safety

/-- The load of 64 bytes of core 0's own scratchpad that VL has queued. -/
def vectorLoad : Access := ⟨pathV, 0, 17, 0, .load 1024 false [], [⟨.arr 0 0, 64, 0⟩], 0, false, []⟩

/-- On core 0 that load is due, its operation abandoned. -/
def vectorLoadAbandoned : State :=
  { State.reset with
    cores := updAt State.reset.cores 0 fun k => { k with flights := [abandonedFlight 17], accesses := [vectorLoad] } }

theorem accessPerformed_vectorLoadAbandoned :
    ∃ t, exec (.accessPerformed 0) vectorLoadAbandoned = .next t ∧ (t.core 0).flights.map (·.lands) = [false] :=
  ⟨_, rfl, by decide +kernel⟩

/-- Refutes O32: the flight of an abandoned vector load, taken as one that would land, settles as one that lands nothing (`putFlight`).
The statement takes any flight of the access, an abandoned one among them. -/
theorem not_performedVectorAccesses : ¬ Obligations.PerformedVectorAccesses := by
  intro h
  obtain ⟨u, hu, hlands⟩ := accessPerformed_vectorLoadAbandoned
  obtain ⟨-, harray⟩ := h 0 vectorLoadAbandoned vectorLoad (abandonedFlight 17) 0 0 64 (by decide +kernel) rfl (by decide +kernel)
    (by decide +kernel)
  obtain ⟨hload, -⟩ := harray rfl (by decide) (by decide) (by decide) (by decide +kernel) (by decide +kernel) (by decide +kernel) rfl rfl
  obtain ⟨t, ht, -, -, -, hflights⟩ := hload rfl
  obtain rfl : t = u := Host.Outcome.next.inj (ht.symm.trans hu)
  change (t.core 0).flights = _ at hflights
  simp [hflights, abandonedFlight_lands] at hlands

/-- On core 0 a RAWAIT of the ring object at 0, whose bytes are zero, runs with two flights of its unit and trigger number under way, the
first one abandoned. No step leaves two flights of one operation, since `putFlight` replaces the one that stands, but the statement takes
any state. -/
def awaitingTwice : State :=
  { State.reset with
    cur := { Trig.none with unit := 22, checked := true }
    cores := updAt State.reset.cores 0 fun k => { k with
      flights := [(flightOf { Trig.none with unit := 22 } 0 20).drop, flightOf { Trig.none with unit := 22 } 0 20] } }

theorem awaitingTwice_intact : intact awaitingTwice := intact_of_lists (by decide +kernel) rfl rfl

/-- The await puts the operation's flight in the place of both, abandoned where the old one was; the ring's misuse settles the first of
them, and so the operation as an abandoned one. -/
theorem rawait_awaitingTwice :
    ∃ t, exec (.rawait false) awaitingTwice = .next t ∧ (t.core 0).flights.map (·.lands) = [false, false] :=
  ⟨_, rfl, by decide +kernel⟩

/-- Refutes O42: of two flights of one RAWAIT the statement has the one that is not abandoned land its fault, and the operation settles
both by the first one, as abandoned. -/
theorem not_ringsAndSeals : ¬ Obligations.RingsAndSeals := by
  intro h
  obtain ⟨u, hu, hlands⟩ := rawait_awaitingTwice
  obtain ⟨-, hawait, -⟩ := h awaitingTwice false (.arr 0 0) 0 (by decide) awaitingTwice_intact
  obtain ⟨-, -, hbad⟩ := hawait (.inl rfl) rfl (by decide +kernel) (by decide +kernel)
  have ht := hbad (by decide +kernel)
  rw [← Host.Outcome.next.inj (ht.symm.trans hu)] at hlands
  exact absurd hlands (by decide +kernel)

end Sys2Proof.Proofs


/-! PROOFS. Gathers and scatters of VL (O30): the lanes that reach an element, and how their accesses join the vector queue. -/

namespace Sys2Proof.Proofs
open Sys2Proof Sys2Proof.Machine Sys2Proof.Safety

/-- The lanes of the running operation whose index selects an element of descriptor d, each with that element's address. -/
def reachingLanes (s : State) (d : Nat) (idx : Vec) : List (Nat × Nat) :=
  (List.range 256).filterMap fun l =>
    if shown s l then (indexed d (sint (lane idx l) 32)).map fun i => (l, elemAddr d (offsetOf d i)) else none

/-- How many of its lanes select none. -/
def missingLanes (s : State) (d : Nat) (idx : Vec) : Nat :=
  (List.range 256).countP fun l => shown s l && (indexed d (sint (lane idx l) 32)).isNone

/-- The descriptor of a gather or scatter: what its bundle has read, or what stands at port a's address. -/
def gatherDesc (s : State) (g : Bool) : Nat :=
  if s.cur.checked then s.cur.head.toNat else descAt (view s) s.cur.core pathV g (opA s).toNat

/-- The pieces of an access to the elements of some lanes. -/
def lanePieces (s : State) (d : Nat) (write amo : Bool) (l : List (Nat × Nat)) : List Piece :=
  elemPieces (view s) s.cur.core (!dLocal d) write amo (tyWidth (gatherType d) / 8) (l.map fun x => (32 * x.1, x.2))

section
variable (s : State) (d : Nat) (idx : Vec)

theorem gatherElems_eq : gatherElems d idx (unitTrig s 17) = reachingLanes s d idx := by
  simp only [gatherElems, gatherLanes, passing, List.filterMap_map, List.filterMap_filter, reachingLanes]
  rfl

theorem outCount_eq : outCount d idx (unitTrig s 17) = missingLanes s d idx := by
  rw [outCount, gatherLanes, passing, List.filter_map, List.length_map, List.filter_filter, ← List.countP_eq_length_filter, missingLanes]
  exact congrArg (List.countP · _) (funext fun l => Bool.and_comm ..)

theorem gDesc_eq (g : Bool) : gDesc (view s) g (unitTrig s 17) = gatherDesc s g := by
  rw [gDesc, sa_eq]
  rfl
end

section
variable {s t : State}

theorem queueAccess_from (hcur : t.cur = s.cur) (u path : Nat) (kind : AccessKind) (l : List Piece) (w : Nat) :
    (queueAccess (unitTrig s u) path kind l w).run t = withAccess t path u kind l w :=
  (congrArg (fun g : Trig => (queueAccess { g with unit := u } path kind l w).run t) hcur.symm).trans (queueAccess_run t u path kind l w)

/-- Accesses that join a queue one after another. -/
theorem each_queueAccess {α : Type} (l : List α) (hcur : t.cur = s.cur) (u path : Nat) (kind : AccessKind) (pieces : α → List Piece)
    (w : Nat) : (Prog.each l fun a => queueAccess (unitTrig s u) path kind (pieces a) w).run t =
      l.foldl (fun v a => withAccess v path u kind (pieces a) w) t := by
  induction l generalizing t with
  | nil => rfl
  | cons a l ih =>
    rw [Prog.run_each_cons, queueAccess_from hcur]
    exact ih (t := withAccess t path u kind (pieces a) w) hcur

theorem reserving_cur (cr : Bool) : (reserving s cr).cur = s.cur := by
  unfold reserving
  split <;> rfl

theorem withFlight_cur (hcur : t.cur = s.cur) (f : Flight) : (withFlight t f).cur = s.cur := hcur

/-- A load that finishes a completion record, its result awaited. -/
theorem record_awaitLoad_run (u b : Nat) (cr : Bool) (y1 : Option Vec) (v : Nat) :
    (Prog.all [reserveRecord (unitTrig s u) cr, awaitLoad (unitTrig s u) b y1 (recordPost (unitTrig s u) cr v)]).run s =
      withFlight (reserving s cr) { flying s u b with
        ready := false, y1 := y1, posts := if cr then [.record v u (s.cur.dest / 64 % 256)] else [] } := by
  obtain ⟨htrig, hfly⟩ := reserving_flying (s := s) cr u b
  have hload : (awaitLoad (unitTrig (reserving s cr) u) b y1 (recordPost (unitTrig s u) cr v)).run (reserving s cr) =
      withFlight (reserving s cr) { flying (reserving s cr) u b with
        ready := false, y1 := y1, posts := recordPost (unitTrig s u) cr v } := addFlight_run _ _
  rw [hfly, htrig] at hload
  rw [Prog.run_all_cons, Prog.run_all_cons, Prog.run_all_nil, reserveRecord_run]
  exact hload

theorem exec_vgath {g cr : Bool} (h : admitted (.vgath g cr) s) :
    let d := gatherDesc s g
    let l := reachingLanes s d s.cur.b
    let bound := elemBound 16 48 900 (!dLocal d) (l.map (·.2))
    exec (.vgath g cr) s = .next (withAccess
      (withFlight (reserving s cr) { flying s 17 bound with
        ready := false
        y1 := some (broadcast (missingLanes s d s.cur.b))
        posts := if cr then [.record (missingLanes s d s.cur.b) 17 (s.cur.dest / 64 % 256)] else [] })
      pathV 17 (.load 1024 false []) (lanePieces s d false false l) (bound - 1)) := by
  intro d l bound
  refine (runOp_go _ s (admitted_go h rfl)).trans (congrArg _ ?_)
  simp only [opVgath, opRun, gDesc_eq, gatherElems_eq, outCount_eq]
  have hload := record_awaitLoad_run (s := s) 17 bound cr (some (broadcast (missingLanes s d s.cur.b))) (missingLanes s d s.cur.b)
  rw [Prog.run_all_cons, Prog.run_all_cons, Prog.run_all_nil] at hload
  rw [Prog.run_all_cons, Prog.run_all_cons, Prog.run_all_cons, Prog.run_all_nil, hload]
  exact queueAccess_from (withFlight_cur (reserving_cur cr) _) ..

/-- What a scatter lands before its accesses join their queue: the count of the lanes that select no element. -/
theorem scatter_runs {g cr : Bool} {i : Instr} {chk : State → Trig → Verdict} {stores : State → Trig → Prog}
    (ho : opOf i = some (opRun 17 chk fun s t => Prog.all [reserveRecord t cr,
      land t 4 (broadcast (outCount (gDesc s g t) t.aux t)) (recordPost t cr (outCount (gDesc s g t) t.aux t)), stores s t]))
    (he : exec i s = runOp (opRun 17 chk fun s t => Prog.all [reserveRecord t cr,
      land t 4 (broadcast (outCount (gDesc s g t) t.aux t)) (recordPost t cr (outCount (gDesc s g t) t.aux t)), stores s t]) s)
    (h : admitted i s) :
    let n := missingLanes s (gatherDesc s g) s.cur.aux
    exec i s = .next ((stores (view s) (unitTrig s 17)).run (landsRecorded s 17 4 cr (broadcast n) n)) := by
  intro n
  rw [he, runOp_go _ s (admitted_go h ho)]
  simp only [opRun, gDesc_eq, outCount_eq]
  have hland := record_land_run (s := s) 17 4 cr (broadcast n) n
  rw [Prog.run_all_cons, Prog.run_all_cons, Prog.run_all_nil] at hland
  rw [Prog.run_all_cons, Prog.run_all_cons, Prog.run_all_cons, Prog.run_all_nil, hland]
  rfl

theorem exec_vscat {g cr : Bool} (h : admitted (.vscat g cr) s) :
    let d := gatherDesc s g
    let n := missingLanes s d s.cur.aux
    exec (.vscat g cr) s = .next (withAccess (landsRecorded s 17 4 cr (broadcast n) n) pathV 17 (.store s.cur.b)
      (lanePieces s d true false (reachingLanes s d s.cur.aux)) storeWait) := by
  intro d n
  refine (scatter_runs (g := g) (i := .vscat g cr) rfl rfl h).trans (congrArg _ ?_)
  rw [gDesc_eq, gatherElems_eq]
  exact queueAccess_from (withFlight_cur (reserving_cur cr) _) ..

theorem exec_vscatadd {g cr : Bool} (h : admitted (.vscatadd g cr) s) :
    let d := gatherDesc s g
    let n := missingLanes s d s.cur.aux
    let l := reachingLanes s d s.cur.aux
    exec (.vscatadd g cr) s = .next ((l.map (·.2)).dedup.foldl (fun u a =>
      withAccess u pathV 17 (.scatAdd (gatherType d) s.cur.b) (lanePieces s d true true (l.filter fun x => x.2 = a)) storeWait)
      (landsRecorded s 17 4 cr (broadcast n) n)) := by
  intro d n l
  refine (scatter_runs (g := g) (i := .vscatadd g cr) rfl rfl h).trans (congrArg _ ?_)
  rw [gDesc_eq, gatherElems_eq]
  exact each_queueAccess _ (withFlight_cur (reserving_cur cr) _) ..
end

/-- Settles O30: each operation lands its count and queues the accesses of the lanes that reach an element. -/
theorem gathersAndScatters : Obligations.GathersAndScatters := by
  unfold Obligations.GathersAndScatters
  intro s g cr c d ty lanes out pieces record landed reach bound
  refine ⟨fun h => ?_, exec_vscat, exec_vscatadd⟩
  have hbound : elemBound 16 48 900 (!dLocal d) ((lanes s.cur.b).map (·.2)) = bound := elemBound_eq ..
  have hrun := exec_vgath h
  rwa [← hbound]

end Sys2Proof.Proofs


/-! PROOFS. Writes where no datum is in error (O50): bytes and owner tags change, and nothing else (R257, R258). -/

namespace Sys2Proof.Proofs
open Sys2Proof Sys2Proof.Machine Sys2Proof.Safety

/-- t is s but for bytes of memory and owner tags. -/
def Overwritten (s t : State) : Prop :=
  (∃ k l m, t = { s with cores := k, lmem := l, mem := m }) ∧ ∀ d, ∃ g, t.core d = { s.core d with tags := g }

theorem overwritten_frame : Frame Overwritten where
  refl s := ⟨⟨_, _, _, rfl⟩, fun _ => ⟨_, rfl⟩⟩
  trans := by
    rintro s _ _ ⟨⟨k, l, m, rfl⟩, h⟩ ⟨⟨k', l', m', rfl⟩, h'⟩
    refine ⟨⟨k', l', m', rfl⟩, fun d => ?_⟩
    obtain ⟨g, hg⟩ := h d
    obtain ⟨g', hg'⟩ := h' d
    exact ⟨g', by rw [hg', hg]⟩

section
variable {s t : State}

/-- A part of a core that does not hold its owner tags. -/
theorem Overwritten.part (h : Overwritten s t) {α : Type} (p : Core → α) (hp : ∀ (k : Core) g, p { k with tags := g } = p k) (d : Nat) :
    p (t.core d) = p (s.core d) := by
  obtain ⟨g, hg⟩ := h.2 d
  rw [hg, hp]

theorem Overwritten.sameArch (h : Overwritten s t) : SameArch s t := h.part (·.arch) fun _ _ => rfl

theorem Overwritten.intact (h : Overwritten s t) (hs : intact s) : intact t := by
  obtain ⟨hcores, hpoison, hupsets⟩ := hs
  refine ⟨fun d => ?_, ?_⟩
  · rw [h.part (·.poison) (fun _ _ => rfl), h.part (·.upsets) (fun _ _ => rfl)]
    exact hcores d
  · obtain ⟨⟨k, l, m, rfl⟩, -⟩ := h
    exact ⟨hpoison, hupsets⟩

variable (hs : intact s)
include hs

/-- A write puts its bytes at their home. -/
theorem writeLoc_intact (l : Loc) (n v id : Nat) (w : Option Who) :
    Overwritten s ((writeLoc l n v id w).run s) ∧ SameMemory (memPutAt s l n v) ((writeLoc l n v id w).run s) := by
  obtain ⟨hcores, hpoison, hupsets⟩ := hs
  have physical (a : Nat) : Overwritten s { s with mem := memPut s.mem a n v } := ⟨⟨_, _, _, rfl⟩, fun _ => ⟨_, rfl⟩⟩
  cases l with
  | arr c a =>
    obtain ⟨hp, hu⟩ := hcores c
    simp only [writeLoc, Prog.run_get, hp, hu, List.isEmpty_nil, Bool.and_self, Bool.not_true, Bool.false_and, Bool.false_eq_true,
      if_false, Prog.run_all_cons, Prog.run_all_nil, Prog.run_eff, setCore_run]
    refine ⟨⟨⟨_, _, _, rfl⟩, fun d => ?_⟩, rfl, rfl⟩
    refine withCore_core_of (P := fun k l => k.poison = [] ∧ k.upsets = [] → ∃ g, l = { k with tags := g })
      ((Eff.lput c a n v).apply s) c _ d (fun _ _ => ⟨_, rfl⟩) (fun k ⟨hp, hu⟩ => ?_) (hcores d)
    exact ⟨(unitsOf a n 64).foldl (fun t ln => assocSet t ln (id % 65536)) k.tags, by simp [hp, hu, healUpsets]⟩
  | pa a =>
    rw [writeLoc_pa_run s a n v id w hpoison hupsets]
    exact ⟨physical a, rfl, rfl⟩
  | expand a =>
    have hrun : (writeLoc (.expand a) n v id w).run s = { s with mem := memPut s.mem a n v } :=
      writeLoc_pa_run s a n v id w hpoison hupsets
    rw [hrun]
    exact ⟨physical a, rfl, rfl⟩

theorem overwritten_writePieces (l : List (Loc × Nat × Nat)) (v id : Nat) (w : Option Who) :
    Overwritten s ((writePieces l v id w).run s) := by
  unfold writePieces
  induction l generalizing s with
  | nil => exact overwritten_frame.refl s
  | cons p l ih =>
    rw [Prog.run_each_cons]
    have hone := (writeLoc_intact hs p.1 p.2.2 (v / 2 ^ (8 * p.2.1) % 2 ^ (8 * p.2.2)) id w).1
    exact overwritten_frame.trans _ _ _ hone (ih (hone.intact hs))

/-- An engine's write that is given up where it cannot be made. -/
theorem overwritten_enginePutIn (u : State) (x : Ctx) (a : EAddr) (raw : Bool) (n v d : Nat) :
    Overwritten s ((enginePutIn u x a raw n v (fun _ => .done) d).run s) := by
  unfold enginePutIn
  split
  · exact overwritten_frame.refl s
  · split
    · exact overwritten_frame.refl s
    · exact overwritten_writePieces hs ..

/-- An engine's write that reaches one home. -/
theorem enginePutIn_one {u : State} {x : Ctx} {a : EAddr} {raw : Bool} {n d : Nat} {l : Loc} (v : Nat) (bad : Bad → Prog)
    (ha : engineAccess u x a true raw n = .ok [(l, 0, n)]) (hl : homeCut u d l = false) (hv : v < 2 ^ (8 * n)) :
    let t := (enginePutIn u x a raw n v bad d).run s
    Overwritten s t ∧ SameMemory (memPutAt s l n v) t := by
  have hrun : (enginePutIn u x a raw n v bad d).run s = (writeLoc l n v x.id (some (x.who 0))).run s := by
    simp only [enginePutIn, ha, List.any_cons, hl, List.any_nil, Bool.or_self, Bool.false_eq_true, if_false]
    rw [writePieces_one, Nat.mod_eq_of_lt hv]
  intro t
  rw [show t = _ from hrun]
  exact writeLoc_intact hs ..

/-- What writes replace in full is in error no more: nothing is to mend. -/
theorem healWhole_intact (l : List MaskedWrite) : (healWhole l).run s = s := by
  obtain ⟨hcores, hpoison, hupsets⟩ := hs
  simp [healWhole, hcores, hpoison, hupsets]
end

end Sys2Proof.Proofs


/-! PROOFS. What the steps of a copy engine's channel share (O50): its record, its view, the pages it needs, and its halt. -/

namespace Sys2Proof.Proofs
open Sys2Proof Sys2Proof.Machine Sys2Proof.Safety

/-- A core with other channels. -/
def withChans (v : Vector Channel 4) (k : Core) : Core := { k with chans := v }

/-- The state with one channel as given. -/
def withChannel (s : State) (c n : Nat) (y : Channel) : State := withCore s c fun k => withChans (updAt k.chans n fun _ => y) k

section
variable (s : State) (c n : Nat)

theorem setChan_run (f : Channel → Channel) : (setChan c n f).run s = withChannel s c n (f (chanAt s c n)) :=
  withCore_congr (g := fun k => withChans (updAt k.chans n fun _ => f (chanAt s c n)) k) s c
    (congrArg (withChans · (s.core c)) (updAt_congr Channel.reset rfl))

theorem withChannel_withChannel (y z : Channel) : withChannel (withChannel s c n y) c n z = withChannel s c n z := by
  rw [withChannel, withChannel, withCore_withCore]
  exact withCore_congr s c (congrArg (withChans · (s.core c)) (updAt_updAt (s.core c).chans n (fun _ => y) fun _ => z))

/-- A part of a core that does not hold its channels. -/
theorem withChannel_part {α : Type} (p : Core → α) (hp : ∀ k v, p (withChans v k) = p k) (y : Channel) (d : Nat) :
    p ((withChannel s c n y).core d) = p (s.core d) :=
  withCore_core_of (P := fun k l => p l = p k) s c _ d (fun _ => rfl) fun k => hp k _

theorem withChannel_sameArch (y : Channel) : SameArch s (withChannel s c n y) := withChannel_part s c n (·.arch) (fun _ _ => rfl) y

theorem withChannel_intact {s : State} (h : intact s) (y : Channel) : intact (withChannel s c n y) := by
  refine ⟨fun d => ?_, h.2⟩
  rw [withChannel_part s c n (·.poison) (fun _ _ => rfl), withChannel_part s c n (·.upsets) (fun _ _ => rfl)]
  exact h.1 d

variable {c n}

theorem chanAt_withChannel (hc : c < 256) (hn : n < 4) (y : Channel) : chanAt (withChannel s c n y) c n = y := by
  rw [chanAt, withChannel, withCore_core _ _ _ hc]
  exact nth_updAt_self _ _ _ hn
end

section
variable {s t : State}

/-- Where no task has moved, the same contexts run or are saved. -/
theorem ctxLive_congr (hctx : ∀ d, (t.core d).ctx = (s.core d).ctx) (hdisp : t.disp = s.disp) (x : Ctx) : ctxLive t x = ctxLive s x := by
  simp only [ctxLive, runsOn, hctx, hdisp]

/-- The view of a channel's running chain differs from the state in the chain's core alone (R235). -/
theorem chanView_cores (s : State) (c n : Nat) : ∃ k, chanView s c n = { s with cores := k } := by
  unfold chanView
  split <;> exact ⟨_, rfl⟩

theorem chanAt_chanView (s : State) (c n d m : Nat) : chanAt (chanView s c n) d m = chanAt s d m := by
  unfold chanView
  split
  · refine congrArg (nth · m Channel.reset) (withCore_core_of (P := fun k l => l.chans = k.chans) s _ _ d (fun _ => rfl) fun k => ?_)
    split <;> rfl
  · rfl
end

/-! The pages that a step of a channel needs (R255). -/

theorem covers_page (e : TlbEntry) (a : Nat) : e.covers (a / 65536 * 65536) = e.covers a := by
  unfold TlbEntry.covers
  split
  · rw [show a / 65536 * 65536 / 2 ^ 29 = a / 2 ^ 29 by omega]
  · rw [show a / 65536 * 65536 / 2 ^ 16 = a / 2 ^ 16 by omega]

section
variable {s : State} {c n : Nat}

/-- Pages that the TLB holds are not fetched. -/
theorem translateFor_held {l : List Nat} (h : ∀ a ∈ l, (s.core c).tlb.any (·.covers a) = true) : (translateFor c l).run s = s := by
  unfold translateFor
  induction l with
  | nil => rfl
  | cons a l ih =>
    rw [Prog.run_each_cons, Prog.run_get, if_pos (h a List.mem_cons_self), Prog.run_done]
    exact ih fun b hb => h b (List.mem_cons_of_mem _ hb)

/-- The TLB of core c holds the pages that the next step of its channel n translates. -/
def PagesHeld (s : State) (c n : Nat) : Prop := ∀ a ∈ chanVas (chanView s c n) c n, (s.core c).tlb.any (·.covers a) = true

theorem chanStep_stalls (hd : s.pkg.draining = true) (hg : chanGlobal s c n = true) (i : Instr) (p : Prog) :
    (chanStep c n i p).run s = posted s 16 2 i := by
  rw [chanStep, chanStalled, Prog.run_get, hd, hg]
  simp [posted, Eff.apply]

/-- A step of a channel that does not stall fetches its pages first. -/
theorem chanStep_run (hd : s.pkg.draining = false) (i : Instr) (p : Prog) : (chanStep c n i p).run s =
    p.run ((translateFor c (((chanVas (chanView s c n) c n).map (· / 65536)).dedup.map (· * 65536))).run s) := by
  rw [chanStep, chanStalled, Prog.run_get, hd, Bool.false_and, if_neg Bool.false_ne_true, Prog.run_get, Prog.run_andThen]

theorem chanStep_held (hd : s.pkg.draining = false) (h : PagesHeld s c n) (i : Instr) (p : Prog) : (chanStep c n i p).run s = p.run s := by
  rw [chanStep_run hd, translateFor_held fun a ha => ?_]
  obtain ⟨b, hb, rfl⟩ := List.mem_map.1 ha
  obtain ⟨e, he, rfl⟩ := List.mem_map.1 (List.mem_dedup.1 hb)
  simp only [covers_page]
  exact h e he

/-- The state in which both TLBs of core c's cluster hold a translation (R255; notes/assumptions/12.md). -/
def withPage (s : State) (c : Nat) (e : TlbEntry) : State :=
  withDie (withCore s c fun k => { k with tlb := (e :: k.tlb.filter (· ≠ e)).take 192 }) (c / 128) fun d => { d with
    tlb2 := ((clusterOf c, e) :: (d.tlb2.filter (·.1 = clusterOf c)).filter (· ≠ (clusterOf c, e))).take 4096 ++
      d.tlb2.filter (·.1 ≠ clusterOf c) }

theorem tlbKeep_run (e : TlbEntry) : (tlbKeep c e).run s = withPage s c e := rfl

/-- A walk gives a translation of the address. -/
theorem walked_covers {a : Nat} {e : TlbEntry} (h : walked s c a = some e) : e.covers a = true := by
  unfold walked at h
  cases hfind : (s.die (dieOf c)).tlb2.find? fun p => p.1 = clusterOf c && p.2.covers a with
  | some p =>
    obtain rfl : p.2 = e := by simpa [hfind] using h
    have hp := List.find?_some hfind
    exact (Bool.and_eq_true_iff.1 hp).2
  | none =>
    cases htab : walkTables s a with
    | none => simp [hfind, htab] at h
    | some w =>
      simp only [hfind, htab] at h
      split at h
      · cases h
      · obtain rfl := Option.some.inj h
        exact decide_eq_true rfl

/-- Before its transfer, the pages that a channel needs are those of its own record. -/
theorem chanVas_congr {t : State} (h : chanAt t c n = chanAt s c n) (hs : (chanAt s c n).stage ≠ .transfer) :
    chanVas t c n = chanVas s c n := by
  simp only [chanVas, h]
  generalize chanAt s c n = k at hs
  cases hk : k.stage with
  | transfer => exact absurd hk hs
  | idle | reading | prewait | claim | ending | halted => cases k.owner <;> rfl

/-- A step whose one page the TLB lacks runs as from the state in which both TLBs hold it. -/
theorem chanStep_fetches {a : Nat} {e : TlbEntry} (hc : c < 256) (hd : s.pkg.draining = false) (hs : (chanAt s c n).stage ≠ .transfer)
    (hvas : chanVas (chanView s c n) c n = [a]) (hmiss : (s.core c).tlb.any (·.covers (a / 65536 * 65536)) = false)
    (hwalk : walked s c (a / 65536 * 65536) = some e) (i : Instr) (p : Prog) :
    (chanStep c n i p).run s = (chanStep c n i p).run (withPage s c e) := by
  have hcore : (withPage s c e).core c = { s.core c with tlb := (e :: (s.core c).tlb.filter (· ≠ e)).take 192 } := withCore_core s c _ hc
  have hchan : chanAt (withPage s c e) c n = chanAt s c n := by rw [chanAt, hcore, chanAt]
  have hvas' : chanVas (chanView (withPage s c e) c n) c n = [a] := by
    rw [chanVas_congr (s := chanView s c n) (by rw [chanAt_chanView, chanAt_chanView, hchan]) (by rwa [chanAt_chanView]), hvas]
  have hheld : PagesHeld (withPage s c e) c n := fun b hb => by
    rw [hvas', List.mem_singleton] at hb
    rw [hb, hcore, List.any_eq_true]
    exact ⟨e, by simp, by rw [← covers_page]; exact walked_covers hwalk⟩
  rw [chanStep_held (s := withPage s c e) hd hheld, chanStep_run hd, hvas]
  have hfetch : (translateFor c [a / 65536 * 65536]).run s = withPage s c e := by
    rw [translateFor, Prog.run_each_cons, Prog.run_get, if_neg (by rw [hmiss]; exact Bool.false_ne_true), hwalk]
    exact tlbKeep_run e
  exact congrArg p.run hfetch
end

/-! A record that cannot be carried out (R298). -/

/-- From s to t channel n of core c has halted with a code and one error record, and its chains stand. -/
structure Halts (s : State) (c n code : Nat) (t : State) : Prop where
  stage : (chanAt t c n).stage = .halted
  code : (chanAt t c n).code = code
  heads : (chanAt t c n).heads = (chanAt s c n).heads
  counted : (t.die (c / 128)).errWp = (s.die (c / 128)).errWp + 1
  arch : SameArch s t
  ctrs : t.ctrs = s.ctrs

/-- The record of a channel that halts finds room in its die's ring, and its context runs or is saved. -/
structure CanHalt (s : State) (c : Nat) (x : Ctx) : Prop where
  live : ctxLive s x = true
  room : (s.die (c / 128)).errWp - (s.die (c / 128)).errRp ≠ 4096
  ring : recordable s (c / 128)

section
variable {s : State} {c n : Nat} {x : Ctx}

theorem endWaits_run : (endWaits c n).run s = { s with
    waiters := s.waiters.filter fun w => w.ev != .cePrewaitMet (coreBV c) (BitVec.ofNat 2 n)
    agenda := s.agenda.filter fun i => !decide (i.what = .ev (.ceWaitTimeout (coreBV c) (BitVec.ofNat 2 n))) } := rfl

theorem recordable_congr {t : State} (hpkg : t.pkg = s.pkg) (hdies : t.dies = s.dies) {d : Nat} (h : recordable s d) : recordable t d := by
  simpa only [recordable, populated, homeCut, linkDown, State.die, hpkg, hdies] using h

/-- An error that no datum in memory and no lost link has caused asks for nothing but its record. -/
theorem engineError_none {b : Bad} (hhome : b.home = none) (hlink : b.code ≠ 0x1E) : (engineError x b).run s = s := by
  rw [engineError, Prog.run_get, hhome]
  exact Prog.run_when .. |>.trans (if_neg (by simpa using hlink))

theorem haltChannel_halts (hs : intact s) (hc : c < 256) (hn : n < 4) (hx : (chanAt s c n).owner = some x)
    (hf : (chanAt s c n).filling = false) (h : CanHalt s c x) {b : Bad} (hhome : b.home = none) (hlink : b.code ≠ 0x1E) :
    Halts s c n b.code ((haltChannel c n b).run s) := by
  obtain ⟨k, hk⟩ : ∃ k, k = chanAt s c n := ⟨_, rfl⟩
  obtain ⟨y, hy⟩ : ∃ y : Channel, y = { k with stage := .halted, code := b.code, filling := false } := ⟨_, rfl⟩
  obtain ⟨s1, hs1⟩ : ∃ s1, s1 = withChannel ((endWaits c n).run s) c n y := ⟨_, rfl⟩
  obtain ⟨s2, hs2⟩ : ∃ s2, s2 = (enginePutIn (chanView s c n) x (k.recAddr.plus 49) false 1 b.code fun _ => .done).run s1 := ⟨_, rfl⟩
  obtain ⟨r, hr⟩ : ∃ r, r = engineRecord s x 2 n (c / 128) k.recAddr.addr b := ⟨_, rfl⟩
  obtain ⟨s3, hs3⟩ : ∃ s3, s3 = (putRecord r).run s2 := ⟨_, rfl⟩
  have hintact : intact s1 := hs1 ▸ withChannel_intact c n (s := (endWaits c n).run s) hs y
  have hover : Overwritten s1 s2 := hs2 ▸ overwritten_enginePutIn hintact (chanView s c n) x (k.recAddr.plus 49) false 1 b.code _
  obtain ⟨hpkg, hdies, hdisp, hctrs⟩ : s2.pkg = s.pkg ∧ s2.dies = s.dies ∧ s2.disp = s.disp ∧ s2.ctrs = s.ctrs := by
    obtain ⟨⟨_, _, _, h2⟩, -⟩ := hover
    rw [h2, hs1]
    exact ⟨rfl, rfl, rfl, rfl⟩
  have hput := hs3.trans (putRecord_run (s := s2) (r := r) (by rw [hr, State.die, hdies]; exact h.room)
    (by rw [hr]; exact recordable_congr hpkg hdies h.ring))
  have hcores : ∀ d, s3.core d = s2.core d := fun d => by rw [hput]; rfl
  have hpart : ∀ {α : Type} (p : Core → α), (∀ k g, p { k with tags := g } = p k) → (∀ k v, p (withChans v k) = p k) →
      ∀ d, p (s3.core d) = p (s.core d) := fun p htags hchans d => by
    rw [hcores, hover.part p htags, hs1]
    exact withChannel_part _ c n p hchans y d
  have hlive : ctxLive s3 x = true :=
    (ctxLive_congr (s := s) (hpart (·.ctx) (fun _ _ => rfl) fun _ _ => rfl) (by rw [hput]; exact hdisp) x).trans h.live
  have hrun : (haltChannel c n b).run s = s3 := by
    rw [haltChannel, Prog.run_get, ← hk]
    have hx' : k.owner = some x := hk ▸ hx
    have hf' : k.filling = false := hk ▸ hf
    simp only [hx']
    rw [Prog.run_all_cons, Prog.run_all_cons, Prog.run_all_cons, Prog.run_all_cons, Prog.run_all_cons, Prog.run_all_cons,
      Prog.run_all_cons, Prog.run_all_nil, hf', Prog.run_when_false, setChan_run]
    have hchan : chanAt ((endWaits c n).run s) c n = k := hk.symm
    rw [hchan, ← hy, ← hs1, ← hs2, errorRecord_run (by rw [hpkg]; exact h.ring.2)]
    rw [show dieOf c = c / 128 from rfl, ← hr, ← hs3, engineError_none hhome hlink, Prog.run_get, if_pos hlive]
    rfl
  have hend : chanAt s3 c n = y := by
    rw [chanAt, hcores, hover.part (·.chans) fun _ _ => rfl, hs1]
    exact chanAt_withChannel _ hc hn y
  have hdie : r.die = c / 128 := hr ▸ rfl
  rw [hrun]
  refine ⟨hend ▸ hy ▸ rfl, hend ▸ hy ▸ rfl, hend ▸ hy ▸ hk ▸ rfl, ?_, hpart (·.arch) (fun _ _ => rfl) fun _ _ => rfl, ?_⟩
  · rw [hput, hdie, die_apply_die_self _ _ (by omega)]
    exact congrArg (fun v => (nth v (c / 128) Die.reset).errWp + 1) hdies
  · rw [hput]
    exact hctrs

/-- What has happened to a channel before it halts does not show, but for the record it read. -/
theorem Halts.of_withChannel {t : State} {y : Channel} {code : Nat} (hc : c < 256) (hn : n < 4) (hy : y.heads = (chanAt s c n).heads)
    (h : Halts (withChannel s c n y) c n code t) : Halts s c n code t :=
  ⟨h.stage, h.code, h.heads.trans ((congrArg (·.heads) (chanAt_withChannel s hc hn y)).trans hy), h.counted,
    fun d => (h.arch d).trans (withChannel_sameArch s c n y d), h.ctrs⟩
end

end Sys2Proof.Proofs


/-! PROOFS. A channel's record and its waits (O50): the record read, the pre-wait, the ring claim and their limit. -/

namespace Sys2Proof.Proofs
open Sys2Proof Sys2Proof.Machine Sys2Proof.Safety

/-- The address of a channel's next record (R289). -/
def nextRecord (k : Channel) : EAddr := if k.stage = .idle then (k.heads.head?.map (·.addr)).getD ⟨false, 0⟩ else k.recAddr

/-- The channel once it has read a record. -/
def readRecord (k : Channel) (q : Nat) : Channel := { k with stage := .reading, recAddr := nextRecord k, record := BitVec.ofNat 1024 q }

/-- The counter of a record's pre-wait has reached its threshold (R296). -/
def Reached (s : State) (q : Nat) : Prop := field q 256 64 ≤ ctrValue s.ctrs (field q 192 17)

/-- What is found ill-formed when a record is read. -/
def illRead (s : State) (x : Ctx) (q : Nat) : Bool := recordIll s x q || boxTooBig s x q

/-- A record's transfer, or its ring claim from now on, and the event that goes on with it (R289). -/
def goOn (s : State) (k : Channel) (q : Nat) : Channel :=
  if cDkind q = 2 then { k with stage := .claim, since := s.time } else { k with stage := .transfer, filling := false }

/-- See goOn. -/
def goOnStep (v : BitVec 8) (h : BitVec 2) (q : Nat) : Instr := if cDkind q = 2 then .ceRingClaim v h else .ceRecordComplete v h

theorem ctrHome_field (q lo : Nat) : ctrHome (field q lo 32) = field q lo 17 := Nat.mod_mod_of_dvd _ (by decide)

theorem cPreen_eq (q : Nat) : cPreen q = q.testBit 56 := by
  rw [cPreen, Bool.eq_iff_iff, decide_eq_true_iff, bit_eq_one]

/-- The counter of a record's pre-wait is still below its threshold. -/
def below (s : State) (q : Nat) : Bool := decide (ctrValue s.ctrs (ctrHome (field q 192 32)) < field q 256 64)

theorem below_iff (s : State) (q : Nat) : below s q = true ↔ ¬ Reached s q := by
  rw [below, decide_eq_true_iff, ctrHome_field, Reached, Nat.not_le]

section
variable {s : State} {v : BitVec 8} {h : BitVec 2} {x : Ctx}

theorem CanHalt.withChannel {c : Nat} (hh : CanHalt s c x) (n : Nat) (y : Channel) : CanHalt (withChannel s c n y) c x :=
  ⟨(ctxLive_congr (withChannel_part s c n (·.ctx) (fun _ _ => rfl) y) rfl x).trans hh.live, hh.room, hh.ring⟩

/-- The view of a running chain shares all but cores with the state. -/
theorem chanView_ctrs (s : State) (c n : Nat) : (chanView s c n).ctrs = s.ctrs := by
  obtain ⟨k, hk⟩ := chanView_cores s c n
  rw [hk]

theorem chanView_time (s : State) (c n : Nat) : (chanView s c n).time = s.time := by
  obtain ⟨k, hk⟩ := chanView_cores s c n
  rw [hk]

theorem chanView_pkg (s : State) (c n : Nat) : (chanView s c n).pkg = s.pkg := by
  obtain ⟨k, hk⟩ := chanView_cores s c n
  rw [hk]

/-- Where a record does not wait for a counter, its transfer or its ring claim comes next, the claim with a limit (R289, R296). -/
theorem afterPrewait_run (k : Channel) (q : Nat) (hk : chanAt s v.toNat h.toNat = k) : (afterPrewait v.toNat h.toNat q).run s =
    posted (if cDkind q = 2 then (match k.owner with
        | none => withChannel s v.toNat h.toNat (goOn s k q)
        | some x => posted (withChannel s v.toNat h.toNat (goOn s k q)) (waitLimit x) 3 (.ceWaitTimeout v h))
      else withChannel s v.toNat h.toNat (goOn s k q)) 1 2 (goOnStep v h q) := by
  rw [afterPrewait, Prog.run_get, goOn, goOnStep]
  split
  · rw [Prog.run_all_cons, Prog.run_all_cons, Prog.run_all_cons, Prog.run_all_nil, setChan_run, hk, coreBV_toNat, BitVec.ofNat_toNat,
      BitVec.setWidth_eq, postEv_posted _ _ _ (by decide)]
    cases k.owner with
    | none => rfl
    | some x => exact congrArg (posted · 1 2 _) (postEv_posted _ (waitLimit x) _ (by decide))
  · rw [Prog.run_all_cons, Prog.run_all_cons, Prog.run_all_nil, setChan_run, hk, coreBV_toNat, BitVec.ofNat_toNat, BitVec.setWidth_eq,
      postEv_posted _ _ _ (by decide)]

/-- The wait for a record's counter begins (R296). -/
def waitsFrom (s : State) (c n : Nat) (x : Ctx) (q : Nat) : Prog := Prog.all [
  endWaits c n,
  setChan c n fun k => { k with stage := .prewait, since := s.time },
  .eff (.waiters fun l => l ++ [⟨field q 192 32, field q 256 64, .cePrewaitMet (coreBV c) (BitVec.ofNat 2 n)⟩]),
  postAt (s.time + waitLimit x) 3 (.ceWaitTimeout (coreBV c) (BitVec.ofNat 2 n))]

section
variable {c n : Nat} (hc : c < 256) (hn : n < 4) (hd : s.pkg.draining = false) (hx : (chanAt s c n).owner = some x)
include hc hn hd hx

theorem ceRead_run (hstage : (chanAt s c n).stage = .idle ∨ (chanAt s c n).stage = .reading) {q : Nat}
    (hq : engineGet (chanView s c n) x (nextRecord (chanAt s c n)) false 128 = .ok q) : (ceRead c n).run s =
      (if illRead (chanView s c n) x q then haltChannel c n ⟨0x12, 0, none⟩
        else if cPreen q && below s q then waitsFrom s c n x q else afterPrewait c n q).run
      (withChannel s c n (readRecord (chanAt s c n) q)) := by
  have hread : ((chanAt s c n).stage != .idle && (chanAt s c n).stage != .reading) = false := by
    rcases hstage with h | h <;> rw [h] <;> rfl
  rw [ceRead, Prog.run_get]
  simp only [chanAt_chanView, hx, hread, Bool.false_eq_true, if_false]
  unfold nextRecord at hq
  simp only [hq, chanView_pkg, hd, Bool.false_and, Bool.false_eq_true, if_false, chanView_ctrs, chanView_time]
  rw [Prog.run_all_cons, Prog.run_all_cons, Prog.run_all_cons, Prog.run_all_nil, setChan_run, setChan_run,
    chanAt_withChannel _ hc hn, withChannel_withChannel]
  rfl
end
end

/-- Channel n of core c serves a context whose pages are at hand, and no curry slot drains (R255, R289, R332). -/
structure Owned (s : State) (c n : Nat) (x : Ctx) : Prop where
  flows : s.pkg.draining = false
  owner : (chanAt s c n).owner = some x
  held : PagesHeld s c n

/-- Channel n of core c reads the record q next. -/
structure Reads (s : State) (c n : Nat) (x : Ctx) (q : Nat) : Prop where
  owned : Owned s c n x
  stage : (chanAt s c n).stage = .idle ∨ (chanAt s c n).stage = .reading
  got : engineGet (chanView s c n) x (nextRecord (chanAt s c n)) false 128 = .ok q

section
variable {s : State} {v : BitVec 8} {h : BitVec 2} {x : Ctx} {q : Nat}

theorem waits_iff (s : State) (q : Nat) : (cPreen q && below s q) = true ↔ q.testBit 56 = true ∧ ¬ Reached s q := by
  rw [Bool.and_eq_true, below_iff, cPreen_eq]

/-- A step of a channel that serves a context. -/
theorem Owned.step (ho : Owned s v.toNat h.toNat x) (i : Instr) (p : Prog) : (chanStep v.toNat h.toNat i p).run s = p.run s :=
  chanStep_held ho.flows ho.held i p

theorem Reads.run (hr : Reads s v.toNat h.toNat x q) : exec (.ceRecordRead v h) s = .next (
    (if illRead (chanView s v.toNat h.toNat) x q then haltChannel v.toNat h.toNat ⟨0x12, 0, none⟩
      else if cPreen q && below s q then waitsFrom s v.toNat h.toNat x q else afterPrewait v.toNat h.toNat q).run
    (withChannel s v.toNat h.toNat (readRecord (chanAt s v.toNat h.toNat) q))) :=
  congrArg Host.Outcome.next <| (hr.owned.step ..).trans <|
    ceRead_run v.isLt h.isLt hr.owned.flows hr.owned.owner hr.stage hr.got

/-- An ill-formed record halts its channel (R289, R298). -/
theorem Reads.halts (hr : Reads s v.toNat h.toNat x q) (hs : intact s) (hill : illRead (chanView s v.toNat h.toNat) x q = true)
    (hf : (chanAt s v.toNat h.toNat).filling = false) (hh : CanHalt s (v.toNat) x) :
    ∃ t, exec (.ceRecordRead v h) s = .next t ∧ Halts s v.toNat h.toNat 0x12 t := by
  rw [hr.run, if_pos hill]
  refine ⟨_, rfl, Halts.of_withChannel v.isLt h.isLt (y := readRecord (chanAt s v.toNat h.toNat) q) rfl ?_⟩
  have hchan := chanAt_withChannel s v.isLt h.isLt (readRecord (chanAt s v.toNat h.toNat) q)
  exact haltChannel_halts (b := ⟨0x12, 0, none⟩) (withChannel_intact _ _ hs _) v.isLt h.isLt (by rw [hchan]; exact hr.owned.owner)
    (by rw [hchan]; exact hf) (hh.withChannel _ _) rfl (by decide)

/-- A record that waits for no counter goes on (R289). -/
theorem Reads.goes_on (hr : Reads s v.toNat h.toNat x q) (hill : illRead (chanView s v.toNat h.toNat) x q = false)
    (hgo : q.testBit 56 = false ∨ Reached s q) : exec (.ceRecordRead v h) s =
    let y := withChannel s v.toNat h.toNat (goOn s (readRecord (chanAt s v.toNat h.toNat) q) q)
    .next (posted (if cDkind q = 2 then posted y (waitLimit x) 3 (.ceWaitTimeout v h) else y) 1 2 (goOnStep v h q)) := by
  have hwaits : ¬ (cPreen q && below s q) = true := fun hw => by
    obtain ⟨h1, h2⟩ := (waits_iff s q).1 hw
    rcases hgo with hgo | hgo
    · rw [h1] at hgo
      cases hgo
    · exact h2 hgo
  rw [hr.run, hill, if_neg Bool.false_ne_true, if_neg hwaits, afterPrewait_run _ _ (chanAt_withChannel s v.isLt h.isLt _),
    withChannel_withChannel]
  have howner : (readRecord (chanAt s v.toNat h.toNat) q).owner = some x := hr.owned.owner
  simp only [howner]
  rfl

theorem Reads.to_transfer (hr : Reads s v.toNat h.toNat x q) (hill : illRead (chanView s v.toNat h.toNat) x q = false)
    (hgo : q.testBit 56 = false ∨ Reached s q) (hdk : cDkind q ≠ 2) : exec (.ceRecordRead v h) s = .next (posted (withChannel s v.toNat
      h.toNat { readRecord (chanAt s v.toNat h.toNat) q with stage := .transfer, filling := false }) 1 2 (.ceRecordComplete v h)) := by
  simp only [hr.goes_on hill hgo, goOn, goOnStep, if_neg hdk]

theorem Reads.to_claim (hr : Reads s v.toNat h.toNat x q) (hill : illRead (chanView s v.toNat h.toNat) x q = false)
    (hgo : q.testBit 56 = false ∨ Reached s q) (hdk : cDkind q = 2) : exec (.ceRecordRead v h) s = .next (posted (posted (withChannel s
      v.toNat h.toNat { readRecord (chanAt s v.toNat h.toNat) q with stage := .claim, since := s.time }) (waitLimit x) 3
      (.ceWaitTimeout v h)) 1 2 (.ceRingClaim v h)) := by
  simp only [hr.goes_on hill hgo, goOn, goOnStep, if_pos hdk]

/-- A record whose counter is below its threshold waits, with a limit (R296). -/
theorem Reads.waits (hr : Reads s v.toNat h.toNat x q) (hill : illRead (chanView s v.toNat h.toNat) x q = false)
    (hpre : q.testBit 56 = true) (hbelow : ¬ Reached s q) : ∃ t, exec (.ceRecordRead v h) s = .next t ∧
    t.cores = (withChannel s v.toNat h.toNat { readRecord (chanAt s v.toNat h.toNat) q with stage := .prewait, since := s.time }).cores ∧
    t.waiters = s.waiters.filter (fun w => w.ev ≠ .cePrewaitMet v h) ++ [⟨field q 192 32, field q 256 64, .cePrewaitMet v h⟩] ∧
    (⟨s.time + waitLimit x, 3, .ev (.ceWaitTimeout v h)⟩ : Item) ∈ t.agenda ∧ SameMemory s t := by
  rw [hr.run, hill, if_neg Bool.false_ne_true, if_pos ((waits_iff s q).2 ⟨hpre, hbelow⟩)]
  obtain ⟨k, hk⟩ : ∃ k, k = readRecord (chanAt s v.toNat h.toNat) q := ⟨_, rfl⟩
  rw [← hk]
  have hchan : chanAt ((endWaits v.toNat h.toNat).run (withChannel s v.toNat h.toNat k)) v.toNat h.toNat = k :=
    chanAt_withChannel s v.isLt h.isLt k
  rw [waitsFrom, Prog.run_all_cons, Prog.run_all_cons, Prog.run_all_cons, Prog.run_all_cons, Prog.run_all_nil, setChan_run, hchan,
    coreBV_toNat, BitVec.ofNat_toNat, BitVec.setWidth_eq]
  refine ⟨_, rfl, ?_, ?_, ?_, rfl, rfl⟩
  · change (withChannel (withChannel s v.toNat h.toNat k) v.toNat h.toNat _).cores = _
    rw [withChannel_withChannel]
  · simp [endWaits_run, withChannel, withCore, Eff.apply, coreBV_toNat]
    rfl
  · rw [postAt_run, Eff.apply_post_agenda, mem_insertItem]
    exact .inl (congrArg (Item.mk · 3 _) (Nat.max_eq_left (Nat.le_add_right ..)).symm)
end

end Sys2Proof.Proofs


/-! PROOFS. A channel waits, claims a ring slot and begins its transfer (O50). -/

namespace Sys2Proof.Proofs
open Sys2Proof Sys2Proof.Machine Sys2Proof.Safety

section
variable {s : State} {v : BitVec 8} {h : BitVec 2} {x : Ctx}

theorem cePrewait_waits (hstage : (chanAt s v.toNat h.toNat).stage = .prewait)
    (hbelow : ¬ Reached s (chanAt s v.toNat h.toNat).record.toNat) : exec (.cePrewaitMet v h) s = .next s := by
  have hlt : ctrValue s.ctrs (ctrHome (field (chanAt s v.toNat h.toNat).record.toNat 192 32)) <
      field (chanAt s v.toNat h.toNat).record.toNat 256 64 := of_decide_eq_true ((below_iff s _).2 hbelow)
  refine congrArg Host.Outcome.next ?_
  rw [cePrewait, Prog.run_get]
  simp [hstage, hlt]

/-- Once the counter has reached the threshold, the channel goes on and its wait is over (R296). -/
theorem cePrewait_met (hstage : (chanAt s v.toNat h.toNat).stage = .prewait)
    (hreached : Reached s (chanAt s v.toNat h.toNat).record.toNat) :
    let k := chanAt s v.toNat h.toNat
    ∃ t, exec (.cePrewaitMet v h) s = .next t ∧
      t.cores = (withChannel s v.toNat h.toNat (goOn s k k.record.toNat)).cores ∧
      (⟨s.time + 1, 2, .ev (goOnStep v h k.record.toNat)⟩ : Item) ∈ t.agenda ∧
      t.waiters = s.waiters.filter (fun w => w.ev ≠ .cePrewaitMet v h) ∧ SameMemory s t := by
  intro k
  have hle : ¬ ctrValue s.ctrs (ctrHome (field k.record.toNat 192 32)) < field k.record.toNat 256 64 := fun hlt =>
    (below_iff s _).1 (decide_eq_true hlt) hreached
  have hrun : exec (.cePrewaitMet v h) s =
      .next ((afterPrewait v.toNat h.toNat k.record.toNat).run ((endWaits v.toNat h.toNat).run s)) := by
    refine congrArg Host.Outcome.next ?_
    rw [cePrewait, Prog.run_get]
    simp [hstage, k, hle]
  obtain ⟨u, hu⟩ : ∃ u, u = (endWaits v.toNat h.toNat).run s := ⟨_, rfl⟩
  have hcores : u.cores = s.cores := hu ▸ rfl
  have htime : u.time = s.time := hu ▸ rfl
  have hlmem : u.lmem = s.lmem := hu ▸ rfl
  have hmem : u.mem = s.mem := hu ▸ rfl
  have hwaiters : u.waiters = s.waiters.filter (fun w => w.ev ≠ .cePrewaitMet v h) := by
    rw [hu, endWaits_run, coreBV_toNat, BitVec.ofNat_toNat, BitVec.setWidth_eq]
    exact List.filter_congr fun w _ => (decide_not ..).symm
  rw [hrun, ← hu, afterPrewait_run k k.record.toNat (by rw [chanAt, State.core, hcores]; rfl)]
  have hgo : goOn u k k.record.toNat = goOn s k k.record.toNat := by rw [goOn, goOn, htime]
  have hchan : (withChannel u v.toNat h.toNat (goOn s k k.record.toNat)).cores =
      (withChannel s v.toNat h.toNat (goOn s k k.record.toNat)).cores := by rw [withChannel, withChannel, withCore, withCore, hcores]
  rw [hgo]
  have hitem : ∀ l, (⟨s.time + 1, 2, .ev (goOnStep v h k.record.toNat)⟩ : Item) ∈
      insertItem ⟨u.time + 1, 2, .ev (goOnStep v h k.record.toNat)⟩ l := fun l => mem_insertItem.2 (.inl (by rw [htime]))
  refine ⟨_, rfl, ?_⟩
  cases k.owner <;> split <;> exact ⟨hchan, hitem _, hwaiters, hlmem, hmem⟩

/-! The claim of a ring slot (R302, R303). -/

/-- The ring object's address that a channel's record names. -/
def ringAt (k : Channel) : EAddr := cAddr k.record.toNat 448

/-- Channel n of core c claims a slot of the ring object o. -/
structure Claims (s : State) (c n : Nat) (x : Ctx) (o : Nat) : Prop where
  owned : Owned s c n x
  stage : (chanAt s c n).stage = .claim
  got : engineGet (chanView s c n) x (ringAt (chanAt s c n)) false 64 = .ok o

theorem Claims.run {o : Nat} (hr : Claims s v.toNat h.toNat x o) : exec (.ceRingClaim v h) s = .next (
    (match claimSlot (chanView s v.toNat h.toNat) x (ringAt (chanAt s v.toNat h.toNat)) with
      | .error b => haltChannel v.toNat h.toNat b
      | .ok none => postEv 8 2 (.ceRingClaim v h)
      | .ok (some (slot, _, eff)) => Prog.all [
          endWaits v.toNat h.toNat, eff,
          setChan v.toNat h.toNat (fun k => { k with stage := .transfer, slot := slot, filling := false }),
          postEv 1 2 (.ceRecordComplete v h)]).run s) := by
  refine congrArg Host.Outcome.next <| (hr.owned.step ..).trans ?_
  rw [ceClaim, Prog.run_get]
  simp only [chanAt_chanView, hr.owned.owner, hr.stage, bne_self_eq_false, Bool.false_eq_true, if_false, coreBV_toNat, BitVec.ofNat_toNat,
    BitVec.setWidth_eq]
  rfl

/-- A ring that is misused halts the channel. -/
theorem Claims.halts {o : Nat} (hr : Claims s v.toNat h.toNat x o) (hs : intact s) (hbad : ringBad o = true)
    (hf : (chanAt s v.toNat h.toNat).filling = false) (hh : CanHalt s v.toNat x) :
    ∃ t, exec (.ceRingClaim v h) s = .next t ∧ Halts s v.toNat h.toNat 0x23 t := by
  have hclaim : claimSlot (chanView s v.toNat h.toNat) x (ringAt (chanAt s v.toNat h.toNat)) =
      .error ⟨0x23, (ringAt (chanAt s v.toNat h.toNat)).addr, none⟩ := by rw [claimSlot, hr.got]; exact if_pos hbad
  rw [hr.run, hclaim]
  exact ⟨_, rfl, haltChannel_halts (b := ⟨0x23, (ringAt (chanAt s v.toNat h.toNat)).addr, none⟩) hs v.isLt h.isLt hr.owned.owner hf hh
    rfl (by simp)⟩

/-- A full ring is looked at again. -/
theorem Claims.waits {o : Nat} (hr : Claims s v.toNat h.toNat x o) (hok : ringBad o = false) (hfull : ringIsFull o = true) :
    exec (.ceRingClaim v h) s = .next (posted s 8 2 (.ceRingClaim v h)) := by
  have hclaim : claimSlot (chanView s v.toNat h.toNat) x (ringAt (chanAt s v.toNat h.toNat)) = .ok none := by
    rw [claimSlot, hr.got]
    simp [hok, hfull]
  rw [hr.run, hclaim]
  exact congrArg Host.Outcome.next (postEv_posted s 8 _ (by decide))

/-- A claim takes the slot CLAIM, which goes up by one. -/
theorem Claims.claims {o : Nat} {l : Loc} (hr : Claims s v.toNat h.toNat x o) (hs : intact s) (hok : ringBad o = false)
    (hfull : ringIsFull o = false)
    (hhome : engineAccess (chanView s v.toNat h.toNat) x ((ringAt (chanAt s v.toNat h.toNat)).plus 16) true false 8 = .ok [(l, 0, 8)])
    (hcut : homeCut s (x.core / 128) l = false) : ∃ t, exec (.ceRingClaim v h) s = .next t ∧
      chanAt t v.toNat h.toNat = { chanAt s v.toNat h.toNat with stage := .transfer, slot := rClaim o, filling := false } ∧
      SameMemory (memPutAt s l 8 (rWrp o + (rClaim o + 1) % 2 ^ 32 * 2 ^ 32)) t ∧ SameArch s t ∧
      (⟨s.time + 1, 2, .ev (.ceRecordComplete v h)⟩ : Item) ∈ t.agenda := by
  obtain ⟨w, hw⟩ : ∃ w, w = rWrp o + (rClaim o + 1) % 2 ^ 32 * 2 ^ 32 := ⟨_, rfl⟩
  have hlt : w < 2 ^ (8 * 8) := by
    have h1 : rWrp o < 2 ^ 32 := Nat.mod_lt _ (by decide)
    have h2 : (rClaim o + 1) % 2 ^ 32 < 2 ^ 32 := Nat.mod_lt _ (by decide)
    omega
  have hclaim : claimSlot (chanView s v.toNat h.toNat) x (ringAt (chanAt s v.toNat h.toNat)) = .ok (some (rClaim o, o,
      enginePutIn (chanView s v.toNat h.toNat) x ((ringAt (chanAt s v.toNat h.toNat)).plus 16) false 8 w fun _ => .done)) := by
    rw [claimSlot, hr.got]
    simp [hok, hfull, hhome, hw]
  rw [hr.run, hclaim]
  simp only [Prog.run_all_cons, Prog.run_all_nil]
  obtain ⟨u, hu⟩ : ∃ u, u = (endWaits v.toNat h.toNat).run s := ⟨_, rfl⟩
  have hcutIn : homeCut (chanView s v.toNat h.toNat) (dieOf x.core) l = false := by
    obtain ⟨k, hk⟩ := chanView_cores s v.toNat h.toNat
    rw [hk]
    exact hcut
  have hput := enginePutIn_one (s := u) (hu ▸ hs) w (fun _ => .done) hhome hcutIn hlt
  rw [← hu]
  generalize (enginePutIn (chanView s v.toNat h.toNat) x ((ringAt (chanAt s v.toNat h.toNat)).plus 16) false 8 w fun _ => .done).run u = t
    at hput
  obtain ⟨hover, hmem⟩ := hput
  have htime : t.time = s.time := by
    obtain ⟨⟨_, _, _, rfl⟩, -⟩ := hover
    rw [hu]
    rfl
  have hchan : chanAt t v.toNat h.toNat = chanAt s v.toNat h.toNat := by
    rw [chanAt, hover.part (·.chans) (fun _ _ => rfl), hu]
    rfl
  rw [setChan_run, hchan, postEv_posted _ _ _ (by decide)]
  refine ⟨_, rfl, chanAt_withChannel t v.isLt h.isLt _, ?_, fun d => ?_, mem_insertItem.2 (.inl (by rw [← htime]; rfl))⟩
  · rw [← hw]
    have hsame : SameMemory (memPutAt s l 8 w) (memPutAt u l 8 w) := by
      rw [hu]
      cases l <;> exact ⟨rfl, rfl⟩
    exact ⟨hmem.1.trans hsame.1, hmem.2.trans hsame.2⟩
  · have harch := hover.sameArch d
    rw [hu] at harch
    exact (withChannel_sameArch t v.toNat h.toNat _ d).trans harch

/-! The limit of a wait (R296). -/

section
variable (howner : (chanAt s v.toNat h.toNat).owner = some x)
  (hstage : (chanAt s v.toNat h.toNat).stage = .prewait ∨ (chanAt s v.toNat h.toNat).stage = .claim)
include howner hstage

theorem ceTimeout_run : exec (.ceWaitTimeout v h) s = .next (
    (if s.time < (chanAt s v.toNat h.toNat).since + waitLimit x then
        postAt ((chanAt s v.toNat h.toNat).since + waitLimit x) 3 (.ceWaitTimeout v h)
      else haltChannel v.toNat h.toNat ⟨0x12, 0, none⟩).run s) := by
  have hwaits : ((chanAt s v.toNat h.toNat).stage != .prewait && (chanAt s v.toNat h.toNat).stage != .claim) = false := by
    rcases hstage with h | h <;> rw [h] <;> rfl
  refine congrArg Host.Outcome.next ?_
  rw [ceTimeout, Prog.run_get]
  simp only [howner, hwaits, Bool.false_eq_true, if_false, coreBV_toNat, BitVec.ofNat_toNat, BitVec.setWidth_eq]

theorem ceTimeout_before (hlt : s.time < (chanAt s v.toNat h.toNat).since + waitLimit x) : exec (.ceWaitTimeout v h) s =
    .next { s with agenda := insertItem ⟨(chanAt s v.toNat h.toNat).since + waitLimit x, 3, .ev (.ceWaitTimeout v h)⟩ s.agenda } := by
  rw [ceTimeout_run howner hstage, if_pos hlt, postAt_run, Eff.apply, Nat.max_eq_left hlt.le]

theorem ceTimeout_halts (hge : (chanAt s v.toNat h.toNat).since + waitLimit x ≤ s.time) (hs : intact s)
    (hf : (chanAt s v.toNat h.toNat).filling = false) (hh : CanHalt s v.toNat x) :
    ∃ t, exec (.ceWaitTimeout v h) s = .next t ∧ Halts s v.toNat h.toNat 0x12 t := by
  rw [ceTimeout_run howner hstage, if_neg (Nat.not_lt.2 hge)]
  exact ⟨_, rfl, haltChannel_halts (b := ⟨0x12, 0, none⟩) hs v.isLt h.isLt howner hf hh rfl (by decide)⟩
end

/-! The beginning of a transfer (R216, R289). -/

/-- Channel n of core c transfers from one side to another. -/
structure Transfers (s : State) (c n : Nat) (x : Ctx) (src dst : Side) : Prop where
  owned : Owned s c n x
  stage : (chanAt s c n).stage = .transfer
  source : sourceOf (chanView s c n) x (chanAt s c n).record.toNat = .ok src
  dest : destOf (chanView s c n) x (chanAt s c n).record.toNat (chanAt s c n).slot = .ok dst

section
variable {src dst : Side} (ht : Transfers s v.toNat h.toNat x src dst)
include ht

/-- A box whose sides do not fit together halts the channel (R291, R298). -/
theorem Transfers.halts (hill : boxIll (chanAt s v.toNat h.toNat).record.toNat src dst = true) (hs : intact s)
    (hf : (chanAt s v.toNat h.toNat).filling = false) (hh : CanHalt s v.toNat x) :
    ∃ t, exec (.ceRecordComplete v h) s = .next t ∧ Halts s v.toNat h.toNat 0x12 t := by
  have hrun : exec (.ceRecordComplete v h) s = .next ((haltChannel v.toNat h.toNat ⟨0x12, 0, none⟩).run s) := by
    refine congrArg Host.Outcome.next <| (ht.owned.step ..).trans ?_
    rw [ceComplete, Prog.run_get]
    simp [chanAt_chanView, ht.owned.owner, ht.stage, ht.source, ht.dest, hill]
  rw [hrun]
  exact ⟨_, rfl, haltChannel_halts (b := ⟨0x12, 0, none⟩) hs v.isLt h.isLt ht.owned.owner hf hh rfl (by decide)⟩

variable (hill : boxIll (chanAt s v.toNat h.toNat).record.toNat src dst = false) (hf : (chanAt s v.toNat h.toNat).filling = false)
include hill hf

theorem Transfers.begin_run : exec (.ceRecordComplete v h) s = .next (
    (if boxWaits (archOf (chanView s v.toNat h.toNat) x) (chanAt s v.toNat h.toNat).record.toNat then postEv 8 2 (.ceRecordComplete v h)
      else Prog.all [
        setArchOf x (boxBegin (chanAt s v.toNat h.toNat).record.toNat),
        setChan v.toNat h.toNat (fun k => { k with filling := true }),
        postEv (24 + boxCount (boxExt (chanAt s v.toNat h.toNat).record.toNat src) * src.bits / 512) 2 (.ceRecordComplete v h)]).run s) := by
  refine congrArg Host.Outcome.next <| (ht.owned.step ..).trans ?_
  rw [ceComplete, Prog.run_get]
  simp only [chanAt_chanView, ht.owned.owner, ht.stage, ht.source, ht.dest, hill, hf, reduceCtorEq, bne_self_eq_false, Bool.false_eq_true,
    if_false, Bool.not_false, if_true, coreBV_toNat, BitVec.ofNat_toNat, BitVec.setWidth_eq]

/-- A transfer waits while its tiles or its keeper are in use (R216, R225). -/
theorem Transfers.waits (hwaits : boxWaits (archOf (chanView s v.toNat h.toNat) x) (chanAt s v.toNat h.toNat).record.toNat = true) :
    exec (.ceRecordComplete v h) s = .next (posted s 8 2 (.ceRecordComplete v h)) := by
  rw [ht.begin_run hill hf, if_pos hwaits]
  exact congrArg Host.Outcome.next (postEv_posted s 8 _ (by decide))

/-- A transfer begins (R216, R289). -/
theorem Transfers.begins (hfree : boxWaits (archOf (chanView s v.toNat h.toNat) x) (chanAt s v.toNat h.toNat).record.toNat = false)
    (hruns : runsOn s x = some v.toNat) (hseg : (s.core v.toNat).seg = none) : exec (.ceRecordComplete v h) s =
      .next (posted (withCore s v.toNat fun j => { j with
        arch := boxBegin (chanAt s v.toNat h.toNat).record.toNat j.arch
        chans := updAt j.chans h.toNat fun _ => { chanAt s v.toNat h.toNat with filling := true } })
        (24 + boxCount (boxExt (chanAt s v.toNat h.toNat).record.toNat src) * src.bits / 512) 2 (.ceRecordComplete v h)) := by
  obtain ⟨r, hr⟩ : ∃ r, r = (chanAt s v.toNat h.toNat).record.toNat := ⟨_, rfl⟩
  have harch : (setArchOf x (boxBegin r)).run s = withCore s v.toNat fun j => { j with arch := boxBegin r j.arch } := by
    rw [setArchOf, Prog.run_get, hruns]
    exact withCore_congr s v.toNat (by rw [Core.updArch, hseg]; rfl)
  have hchan : chanAt (withCore s v.toNat fun j => { j with arch := boxBegin r j.arch }) v.toNat h.toNat = chanAt s v.toNat h.toNat := by
    rw [chanAt, withCore_core _ _ _ v.isLt]
    rfl
  rw [ht.begin_run hill hf, if_neg (by rw [hfree]; exact Bool.false_ne_true), ← hr, Prog.run_all_cons, Prog.run_all_cons, Prog.run_all_cons,
    Prog.run_all_nil, harch, setChan_run, hchan, postEv_posted _ _ _ (by decide), withChannel, withCore_withCore]
  rfl
end
end

end Sys2Proof.Proofs


/-! PROOFS. Bytes of a core's arrays under a channel's accesses (O50): one byte read, a run of bytes copied. -/

namespace Sys2Proof.Proofs
open Sys2Proof Sys2Proof.Machine Sys2Proof.Safety

/-! Bytes of canonical memory. -/

theorem memByte_cons (x : Host.Cell) (m : Memory) (a : Nat) : memByte (x :: m) a = if x.1 = a then x.2 else memByte m a := by
  by_cases h : x.1 = a <;> simp [memByte, h]

/-- The number read at an address is its byte. -/
theorem memRead_byte {m : Memory} (h : Memory.wf m) (a : Nat) : memRead m a 1 = (memByte m a).toNat := by
  suffices hfold : ∀ acc, m.foldl (fun acc x => if a ≤ x.1 ∧ x.1 < a + 1 then acc + x.2.toNat * 2 ^ (8 * (x.1 - a)) else acc) acc =
      acc + (memByte m a).toNat from (hfold 0).trans (Nat.zero_add _)
  obtain ⟨hsorted, -⟩ := h
  induction m with
  | nil => exact fun acc => rfl
  | cons x m ih =>
    intro acc
    obtain ⟨hx, hm⟩ := List.pairwise_cons.1 hsorted
    rw [List.foldl_cons, memByte_cons]
    by_cases ha : x.1 = a
    · have hrest : ∀ y ∈ m, ¬ (a ≤ y.1 ∧ y.1 < a + 1) := fun y hy => by
        have := hx y hy
        omega
      rw [memRead_fold_outside hrest, if_pos (by omega), if_pos ha, ha, Nat.sub_self, Nat.mul_zero, pow_zero, Nat.mul_one]
    · rw [if_neg (by omega), ih hm, if_neg ha]

/-- A write puts its number byte by byte. -/
theorem memByte_memPut {m : Memory} (h : Memory.wf m) (a n v b : Nat) :
    memByte (memPut m a n v) b = if a ≤ b ∧ b < a + n then BitVec.ofNat 8 (v / 2 ^ (8 * (b - a))) else memByte m b := by
  split
  · next hb =>
    have hin := memByte_memPut_in h (a := a) (v := v) (n := n) (i := b - a) (by omega)
    rw [Nat.add_sub_cancel' hb.1] at hin
    rw [hin, digit]
    exact BitVec.eq_of_toNat_eq (by simp)
  · exact memByte_memPut_ne h (by omega)

/-- Memory m with n bytes from one address on copied to another, one by one, as they stood in m. -/
def copied (m : Memory) (src dst n : Nat) : Memory := (List.range n).foldl (fun u i => memPut u (dst + i) 1 (memRead m (src + i) 1)) m

theorem copied_succ (m : Memory) (src dst n : Nat) :
    copied m src dst (n + 1) = memPut (copied m src dst n) (dst + n) 1 (memRead m (src + n) 1) := by
  rw [copied, List.range_succ, List.foldl_append]
  rfl

theorem copied_bytes {m : Memory} (h : Memory.wf m) (src dst n : Nat) : Memory.wf (copied m src dst n) ∧ ∀ a,
    memByte (copied m src dst n) a = if dst ≤ a ∧ a < dst + n then memByte m (a - dst + src) else memByte m a := by
  induction n with
  | zero => exact ⟨h, fun a => (if_neg (by omega)).symm⟩
  | succ n ih =>
    obtain ⟨hwf, hbytes⟩ := ih
    rw [copied_succ]
    refine ⟨memPut_wf hwf .., fun a => ?_⟩
    rw [memByte_memPut hwf, hbytes, memRead_byte h]
    by_cases ha : a = dst + n
    · rw [if_pos (by omega), if_pos (by omega), ha, show dst + n - dst + src = src + n by omega, Nat.sub_self, Nat.mul_zero, pow_zero,
        Nat.div_one, BitVec.ofNat_toNat, BitVec.setWidth_eq]
    · rw [if_neg (by omega)]
      simp only [show (dst ≤ a ∧ a < dst + (n + 1)) ↔ (dst ≤ a ∧ a < dst + n) by omega]

/-! A channel's accesses to the arrays of its context's own core. -/

/-- n bytes stand in the arrays of the core whose addresses a context uses. -/
structure Mine (u : State) (x : Ctx) (a n : Nat) : Prop where
  home : localHome u x.core 3 true (x.spadk * 1024) a n = .ok (.arr x.core a)
  inside : a + n ≤ 0x440000

theorem chanView_intact {s : State} (h : intact s) (c n : Nat) : intact (chanView s c n) := by
  unfold chanView
  split
  · refine ⟨fun d => ?_, h.2⟩
    refine withCore_core_of (P := fun k l => k.poison = [] ∧ k.upsets = [] → l.poison = [] ∧ l.upsets = []) s _ _ d (fun _ => id)
      (fun k hk => ?_) (h.1 d)
    split
    · exact hk
    · exact hk
  · exact h

theorem homeCut_own (u : State) (c a : Nat) : homeCut u (dieOf c) (.arr c a) = false := by simp [homeCut, linkDown]

/-- The bytes of scratchpad and scalar memory, which no register window covers. -/
theorem readLoc_arr {u : State} {c a n : Nat} (h : a < 0x480000) : readLoc u (.arr c a) n = memRead (nth u.lmem c []) a n := by
  have hports : ¬ (0x480000 ≤ a ∧ a < 0x480100) := by omega
  have hwindow : ¬ 0x500000 ≤ a := by omega
  unfold readLoc
  exact (if_neg hports).trans (if_neg hwindow)

section
variable {u : State} {x : Ctx} {a n : Nat} (hm : Mine u x a n)
include hm

/-- Reads go where writes go. -/
theorem Mine.access (w raw : Bool) : engineAccess u x ⟨false, a⟩ w raw n = .ok [(.arr x.core a, 0, n)] := by
  obtain ⟨hhome, hin⟩ := hm
  have hsame : localHome u x.core 3 w (x.spadk * 1024) a n = localHome u x.core 3 true (x.spadk * 1024) a n := by
    unfold localHome
    split
    · rfl
    · by_cases h4 : 0x400000 ≤ a
      · simp only [h4, hin, and_self, if_true]
      · simp only [h4, show ¬ 0x480000 ≤ a by omega, show ¬ 0x500000 ≤ a by omega, show ¬ 0x800000 ≤ a by omega, false_and, if_false]
  simp only [engineAccess, Bool.not_false, if_true, hsame, hhome]

theorem Mine.get (hu : intact u) (raw : Bool) : engineGet u x ⟨false, a⟩ raw n = .ok (memRead (nth u.lmem x.core []) a n) := by
  obtain ⟨hp, hups⟩ := hu.1 x.core
  have hin := hm.inside
  have herror : readError u (.arr x.core a) n = none := by simp [readError, hp, hups]
  have hread : readPieces u [(.arr x.core a, 0, n)] = memRead (nth u.lmem x.core []) a n := by
    rw [readPieces, List.foldl_cons, List.foldl_nil, readLoc_arr (by omega), Nat.mul_zero, pow_zero, Nat.mul_one, Nat.zero_add]
  have hexpand : expandFault u (.arr x.core a) = none := rfl
  simp only [engineGet, hm.access, homeCut_own, List.any_cons, List.any_nil, Bool.or_self, Bool.false_eq_true, if_false, List.find?_cons,
    List.find?_nil, hexpand, herror, Option.isSome_none, hread]
end

end Sys2Proof.Proofs


/-! PROOFS. A one-dimensional box of bytes between local descriptors (O50): its elements, their codes and its writes. -/

namespace Sys2Proof.Proofs
open Sys2Proof Sys2Proof.Machine Sys2Proof.Safety

/-- A record that moves a box from descriptor to descriptor and asks for nothing else (R290). -/
structure PlainRecord (r : Nat) : Prop where
  tileSrc : cTileSrc r = false
  dkind : cDkind r = 0
  split : cSsplit r = false
  expand : cExpand r = false
  post : cPosten r = false

theorem plain_of_field {r : Nat} (h : field r 49 9 = 0) : PlainRecord r := by
  unfold field at h
  exact ⟨decide_eq_false (by unfold bit; omega), by unfold cDkind field; omega, decide_eq_false (by unfold bit; omega),
    decide_eq_false (by unfold bit; omega), decide_eq_false (by unfold bit; omega)⟩

/-- Two one-dimensional byte descriptors in local memory and a box of z bytes inside both: i of the one goes to i of the other. -/
structure ByteBox (r d e : Nat) : Prop where
  plain : PlainRecord r
  fits : boxIll r (.desc d) (.desc e) = false
  fmt : dFmt d = 0
  bits : dBits d = 8
  rank : dRank d = 1
  step : dStride d 0 = 1 ∧ dStride e 0 = 1
  near : dLocal d = true ∧ dLocal e = true
  first : 0 ≤ cSorg r 0
  inSrc : (cSorg r 0).toNat + cExt r 0 ≤ dSize d 0
  inDst : cDorg r 0 + cExt r 0 ≤ dSize e 0

/-- Element i of such a box. -/
def byteEl (r i : Nat) : BoxEl := ⟨i, [i], [cSorg r 0 + (i : Int)], true, [((cDorg r 0 + i : Nat) : Int)]⟩

/-- Where the box begins in its source and in its destination. -/
def fromAt (r d : Nat) : Nat := dBase d + (cSorg r 0).toNat

/-- See fromAt. -/
def toAt (r e : Nat) : Nat := dBase e + cDorg r 0

theorem descOffset_one (d : Nat) (i : Int) (h : dStride d 0 = 1) : descOffset d [i] = i := by simp [descOffset, h]

/-- Byte i from an address on. -/
theorem bytesFor_byte {b i : Nat} (h : b + i < 2 ^ 64) : bytesFor (⟨false, b⟩, (i : Int) * 8) 8 = (⟨false, b + i⟩, 0, 1) := by
  have henc : enc ((b : Int) + i) 64 = b + i := by
    unfold enc
    omega
  simp [bytesFor, henc]

/-- A list built one entry after another, no step of which fails. -/
theorem foldl_append_ok {α β ε : Type} (f : Except ε (List β) → α → Except ε (List β)) (g : α → β) (l : List α)
    (h : ∀ a ∈ l, ∀ acc, f (.ok acc) a = .ok (acc ++ [g a])) (acc : List β) : l.foldl f (.ok acc) = .ok (acc ++ l.map g) := by
  induction l generalizing acc with
  | nil => simp
  | cons a l ih =>
    rw [List.foldl_cons, h a List.mem_cons_self, ih fun b hb => h b (List.mem_cons_of_mem _ hb), List.map_cons, List.append_assoc]
    rfl

section
variable {r d e : Nat} (hb : ByteBox r d e)
include hb

theorem ByteBox.rankDst : dRank e = 1 := by
  have h := hb.fits
  have hlen : (Side.desc d).sizes.length = 1 := by simp [Side.sizes, dDims, hb.rank]
  simp only [boxIll, hlen, Bool.or_eq_false_iff, bne_eq_false_iff_eq] at h
  exact h.2.2

theorem ByteBox.ext : boxExt r (.desc d) = [cExt r 0] := by simp [boxExt, Side.sizes, dDims, hb.rank]

theorem ByteBox.els : boxEls r (.desc d) (.desc e) = (List.range (cExt r 0)).map (byteEl r) := by
  have hfirst := hb.first
  have hsrc := hb.inSrc
  have hdst := hb.inDst
  have hel : ∀ n ∈ List.range (cExt r 0), (⟨n, boxIndex [cExt r 0] n, (srcIndex r (.desc d) (boxIndex [cExt r 0] n)).1,
      (srcIndex r (.desc d) (boxIndex [cExt r 0] n)).2,
      (boxIndex [cExt r 0] n).zipIdx.map fun p => ((cDorg r p.2 + p.1 : Nat) : Int)⟩ : BoxEl) = byteEl r n := fun n hn => by
    have hn := List.mem_range.1 hn
    have hix : boxIndex [cExt r 0] n = [n] := by simp [boxIndex, Nat.mod_eq_of_lt hn]
    have hlow : 0 ≤ cSorg r 0 + (n : Int) := by omega
    have hhigh : cSorg r 0 + (n : Int) < dSize d 0 := by omega
    simp [hix, srcIndex, Side.sizes, dDims, hb.rank, byteEl, hlow, hhigh]
  have hin : ∀ y ∈ (List.range (cExt r 0)).map (byteEl r), ((y.data || cPaden r) &&
      (y.dst.zip ((dDims e).map (dSize e))).all fun p => decide (p.1 < (p.2 : Int))) = true := fun y hy => by
    obtain ⟨n, hn, rfl⟩ := List.mem_map.1 hy
    have hn := List.mem_range.1 hn
    have hlt : ((cDorg r 0 + n : Nat) : Int) < dSize e 0 := by omega
    simp only [byteEl, dDims, hb.rankDst, Bool.true_or, Bool.true_and]
    simpa using hlt
  have hdata : ∀ y ∈ (List.range (cExt r 0)).map (byteEl r), y.data = true := List.forall_mem_map.2 fun _ _ => rfl
  have hcount : boxCount [cExt r 0] = cExt r 0 := by simp [boxCount]
  simp only [boxEls, hb.ext, hcount]
  rw [List.map_congr_left hel, List.filter_eq_self.2 hin, List.filter_eq_self.2 hdata,
    List.filter_eq_nil_iff.2 fun y hy => by simp [hdata y hy], List.nil_append]

/-- No scale moves with plain bytes. -/
theorem ByteBox.scales (u : State) (x : Ctx) (l : List BoxEl) : boxScales u x r (.desc d) (.desc e) l = .ok [] := by
  simp [boxScales, Side.fmt, hb.fmt, scaledFmt]

section
variable {u : State} {x : Ctx}

/-- The code of element i is byte i of the source. -/
theorem ByteBox.codes (hu : intact u) (hm : ∀ i, i < cExt r 0 → Mine u x (fromAt r d + i) 1) :
    boxCodes u x r (.desc d) ((List.range (cExt r 0)).map (byteEl r)) = .ok ((List.range (cExt r 0)).map fun i =>
      (byteEl r i, memRead (nth u.lmem x.core []) (fromAt r d + i) 1 % 2 ^ 8)) := by
  have helem : ∀ i ∈ List.range (cExt r 0), readElem u x (.desc d) (byteEl r i).src =
      .ok (memRead (nth u.lmem x.core []) (fromAt r d + i) 1 % 2 ^ 8) := fun i hi => by
    have hmine := hm i (List.mem_range.1 hi)
    have hin := hmine.inside
    rw [fromAt, Nat.add_assoc] at hin
    have hoff : cSorg r 0 + (i : Int) = (((cSorg r 0).toNat + i : Nat) : Int) := by
      have := hb.first
      omega
    have hplace : bitPlace (.desc d) (byteEl r i).src 0 = (⟨false, dBase d⟩, (((cSorg r 0).toNat + i : Nat) : Int) * 8) := by
      simp only [bitPlace, byteEl, descOffset_one d _ hb.step.1, hb.bits, hb.near.1, hoff]
      rfl
    have hbits : (Side.desc d).bits = 8 := hb.bits
    simp only [readElem, hplace, hbits, bytesFor_byte (show dBase d + ((cSorg r 0).toNat + i) < 2 ^ 64 by omega)]
    rw [← Nat.add_assoc, ← fromAt, hmine.get hu, pow_zero]
    simp only [Nat.div_one]
  simp only [boxCodes, hb.plain.expand, Bool.false_eq_true, if_false]
  refine (foldl_append_ok _ (fun y => (y, memRead (nth u.lmem x.core []) (fromAt r d + y.n) 1 % 2 ^ 8)) _ (fun y hy acc => ?_) []).trans ?_
  · obtain ⟨i, hi, rfl⟩ := List.mem_map.1 hy
    have hdata : (!(byteEl r i).data) = false := rfl
    simp only [hdata, Bool.false_eq_true, if_false, helem i hi]
    rfl
  · rw [List.nil_append, List.map_map]
    rfl

/-- The write of byte i. -/
def byteMove (x : Ctx) (to_ : Nat) (p : BoxEl × Nat) : Move :=
  ([(.arr x.core (to_ + p.1.n), 0, 1)], (2 ^ 8 - 1) * 2 ^ 0, fun old => withBits old 0 8 p.2)

theorem ByteBox.moves (code : Nat → Nat) (hm : ∀ i, i < cExt r 0 → Mine u x (toAt r e + i) 1) :
    boxMoves u x (.desc d) (.desc e) ((List.range (cExt r 0)).map fun i => (byteEl r i, code i)) [] =
      .ok (((List.range (cExt r 0)).map fun i => (byteEl r i, code i)).map (byteMove x (toAt r e))) := by
  have hbits : (Side.desc d).bits = 8 := hb.bits
  simp only [boxMoves, hbits, List.foldl_nil]
  refine (foldl_append_ok _ (byteMove x (toAt r e)) _ (fun p hp acc => ?_) []).trans (by rw [List.nil_append])
  obtain ⟨i, hi, rfl⟩ := List.mem_map.1 hp
  have hmine := hm i (List.mem_range.1 hi)
  have hin := hmine.inside
  rw [toAt, Nat.add_assoc] at hin
  have hplace : descOffset e (byteEl r i).dst * ((8 : Nat) : Int) = ((cDorg r 0 + i : Nat) : Int) * 8 := by
    rw [byteEl, descOffset_one e _ hb.step.2]
    rfl
  simp only [hplace, hb.near.2, Bool.not_true, bytesFor_byte (show dBase e + (cDorg r 0 + i) < 2 ^ 64 by omega)]
  rw [← Nat.add_assoc, ← toAt, hmine.access]
  rfl
end
end

end Sys2Proof.Proofs


/-! PROOFS. The transfer of a byte box and its completion (O50). -/

namespace Sys2Proof.Proofs
open Sys2Proof Sys2Proof.Machine Sys2Proof.Safety

/-- From s to t the arrays of core c have come to hold m; but for owner tags nothing else is written. -/
structure Stored (s : State) (c : Nat) (m : Memory) (t : State) : Prop where
  wrote : Overwritten s t
  mem : t.mem = s.mem
  lmem : t.lmem = updAt s.lmem c fun _ => m

theorem stored_refl (s : State) (c : Nat) : Stored s c (nth s.lmem c []) s :=
  ⟨overwritten_frame.refl s, rfl, (updAt_self [] rfl).symm⟩

/-- A record's STATUS, BYTES and OWN are written back (R297). -/
def writtenBack (m : Memory) (p r z : Nat) : Memory := memPut (memPut (memPut m (p + 49) 1 0) (p + 124) 4 z) (p + 6) 1 (field r 48 8 / 2 * 2)

section
variable {s t u : State} {x : Ctx} {m : Memory} (hs : intact s)
include hs

theorem Stored.writeLoc (ht : Stored s x.core m t) (a n v id : Nat) (w : Option Who) :
    Stored s x.core (memPut m a n v) ((writeLoc (.arr x.core a) n v id w).run t) := by
  obtain ⟨hover, hlmem, hmem⟩ := writeLoc_intact (ht.wrote.intact hs) (.arr x.core a) n v id w
  refine ⟨overwritten_frame.trans _ _ _ ht.wrote hover, hmem.trans ht.mem, hlmem.trans ?_⟩
  rw [memPutAt, ht.lmem, updAt_updAt]

theorem Stored.put {a n v : Nat} (ht : Stored s x.core m t) (hm : Mine u x a n) (hv : v < 2 ^ (8 * n)) (raw : Bool) (bad : Bad → Prog) :
    Stored s x.core (memPut m a n v) ((enginePutIn u x ⟨false, a⟩ raw n v bad).run t) := by
  obtain ⟨hover, hlmem, hmem⟩ := enginePutIn_one (ht.wrote.intact hs) v bad (hm.access true raw) (homeCut_own u x.core a) hv
  refine ⟨overwritten_frame.trans _ _ _ ht.wrote hover, hmem.trans ht.mem, hlmem.trans ?_⟩
  rw [memPutAt, ht.lmem, updAt_updAt]

/-- The bytes of a box are written one by one. -/
theorem Stored.moves (ht : Stored s x.core m t) (to_ : Nat) (l : List (BoxEl × Nat)) :
    Stored s x.core (l.foldl (fun m p => memPut m (to_ + p.1.n) 1 (p.2 % 2 ^ 8)) m) ((doMoves x (l.map (byteMove x to_))).run t) := by
  rw [doMoves, Prog.run_andThen, healWhole_intact (ht.wrote.intact hs)]
  induction l generalizing t m with
  | nil => exact ht
  | cons p l ih =>
    rw [List.map_cons, Prog.run_each_cons]
    refine ih ?_
    have hval : ∀ old, withBits old 0 8 p.2 % 2 ^ (8 * 1) = p.2 % 2 ^ 8 := fun old => by
      unfold withBits field
      omega
    rw [Prog.run_get, byteMove, writePieces_one, hval]
    exact ht.writeLoc hs ..

/-- The record's bytes are written back in turn. -/
theorem Stored.writeBack {p r z : Nat} (ht : Stored s x.core m t) (hz : z < 2 ^ 32) (hstatus : Mine u x (p + 49) 1)
    (hbytes : Mine u x (p + 124) 4) (hown : Mine u x (p + 6) 1) :
    Stored s x.core (writtenBack m p r z) ((writeBack u x ⟨false, p⟩ r z).run t) := by
  have hflags : field r 48 8 / 2 * 2 < 2 ^ (8 * 1) := by
    have := field_lt r 48 8
    omega
  rw [Machine.writeBack, Prog.run_all_cons, Prog.run_all_cons, Prog.run_all_cons, Prog.run_all_nil]
  exact ((ht.put hs hstatus (by decide) false _).put hs hbytes hz false _).put hs hown hflags false _
end

/-- The bytes of memory after a box has been moved to a place beside its record, and the record written back. -/
theorem writtenBack_bytes {m : Memory} (h : Memory.wf m) {p r z to_ from_ : Nat} (hd : to_ + z ≤ p ∨ p + 128 ≤ to_) (a : Nat) :
    memByte (writtenBack (copied m from_ to_ z) p r z) a = if to_ ≤ a ∧ a < to_ + z then memByte m (a - to_ + from_)
      else if a = p + 49 then 0 else if p + 124 ≤ a ∧ a < p + 128 then BitVec.ofNat 8 (z / 2 ^ (8 * (a - p - 124)))
      else if a = p + 6 then BitVec.ofNat 8 (field r 48 8 / 2 * 2) else memByte m a := by
  obtain ⟨hwf, hbytes⟩ := copied_bytes h from_ to_ z
  have hwf1 := memPut_wf hwf (p + 49) 1 0
  have hwf2 := memPut_wf hwf1 (p + 124) 4 z
  rw [writtenBack, memByte_memPut hwf2, memByte_memPut hwf1, memByte_memPut hwf, hbytes]
  by_cases hbox : to_ ≤ a ∧ a < to_ + z
  · rw [if_neg (by omega), if_neg (by omega), if_neg (by omega), if_pos hbox, if_pos hbox]
  · rw [if_neg hbox, if_neg hbox]
    by_cases hstatus : a = p + 49
    · rw [if_neg (by omega), if_neg (by omega), if_pos (by omega), if_pos hstatus, Nat.zero_div]
      rfl
    · rw [if_neg hstatus]
      by_cases hcount : p + 124 ≤ a ∧ a < p + 128
      · rw [if_neg (by omega), if_pos (by omega), if_pos hcount, Nat.sub_sub]
      · by_cases hown : a = p + 6
        · rw [if_pos (by omega), if_neg hcount, if_pos hown, hown, Nat.sub_self, Nat.mul_zero, pow_zero, Nat.div_one]
        · rw [if_neg (by omega), if_neg hcount, if_neg (by omega), if_neg hcount, if_neg hown]

/-! What a plain record leaves alone, and the next record (R289). -/

/-- A context whose task-visible state is given back as it is. -/
theorem setArchOf_same (s : State) (x : Ctx) {f : Arch → Arch} (hf : f = id) : (setArchOf x f).run s = s := by
  subst hf
  rw [setArchOf, Prog.run_get]
  split
  · rw [setArchAt_run, apply_core_eq]
    exact withCore_self s _ (updArch_id _ 0)
  · have hsaved : (s.disp.saved.map fun y => if y.ctx.id = x.id then { y with core := y.core.updArch 0 id } else y) = s.disp.saved := by
      refine (List.map_congr_left fun y _ => ?_).trans (List.map_id _)
      split
      · rw [updArch_id]
        rfl
      · rfl
    simp only [Prog.run_eff, Eff.apply, hsaved]

theorem noteEvents_nil (s : State) (id : Nat) : (noteEvents id []).run s = s := by simp [noteEvents]

/-- The channel as it goes on with the record's NEXT, or with the next head (R289). -/
def nextChannel (k : Channel) : Channel :=
  if field k.record.toNat 0 48 = 0 then { k with heads := k.heads.tail, stage := .idle, filling := false }
  else { k with stage := .reading, recAddr := cAddr k.record.toNat 0, filling := false }

theorem ceNext_run {u : State} {v : BitVec 8} {h : BitVec 2} {k : Channel} (hk : chanAt u v.toNat h.toNat = k) :
    ∃ g, (ceNext v.toNat h.toNat).run u = { withChannel u v.toNat h.toNat (nextChannel k) with agenda := g } ∧
      (⟨u.time + 1, 2, .ev (.ceRecordRead v h)⟩ : Item) ∈ g := by
  have hpost : ∀ w : State, (postEv 1 2 (.ceRecordRead (coreBV v.toNat) (BitVec.ofNat 2 h.toNat))).run w =
      posted w 1 2 (.ceRecordRead v h) := fun w => by
    rw [coreBV_toNat, BitVec.ofNat_toNat, BitVec.setWidth_eq, postEv_posted _ _ _ (by decide)]
  rw [ceNext, Prog.run_get, Prog.run_all_cons, Prog.run_all_cons, Prog.run_all_nil, hpost, hk, nextChannel]
  split
  · rw [Prog.run_all_cons, Prog.run_all_cons, Prog.run_all_nil, setChan_run, hk]
    cases k.owner with
    | none => exact ⟨_, rfl, mem_insertItem.2 (.inl rfl)⟩
    | some x => exact ⟨_, rfl, mem_insertItem.2 (.inl rfl)⟩
  · rw [setChan_run, hk]
    exact ⟨_, rfl, mem_insertItem.2 (.inl rfl)⟩

/-! The transfer of a byte box. -/

/-- What a byte box's transfer writes: each byte's element with the code read for it. -/
def byteCodes (m : Memory) (r d : Nat) : List (BoxEl × Nat) :=
  (List.range (cExt r 0)).map fun i => (byteEl r i, memRead m (fromAt r d + i) 1 % 2 ^ 8)

/-- The accesses of a byte box reach their places: its record, the bytes written back there, and each byte moved. -/
structure BoxMine (u : State) (x : Ctx) (p r d e : Nat) : Prop where
  record : Mine u x p 128
  status : Mine u x (p + 49) 1
  bytes : Mine u x (p + 124) 4
  own : Mine u x (p + 6) 1
  moved : ∀ i, i < cExt r 0 → Mine u x (fromAt r d + i) 1 ∧ Mine u x (toAt r e + i) 1

theorem byteCodes_copied {m : Memory} (h : Memory.wf m) (r d to_ : Nat) :
    (byteCodes m r d).foldl (fun u p => memPut u (to_ + p.1.n) 1 (p.2 % 2 ^ 8)) m = copied m (fromAt r d) to_ (cExt r 0) := by
  have hbyte : ∀ a, memRead m a 1 % 2 ^ 8 = memRead m a 1 := fun a => by
    rw [memRead_byte h]
    exact Nat.mod_eq_of_lt (memByte m a).isLt
  rw [byteCodes, copied, List.foldl_map]
  simp only [hbyte]
  rfl

section
variable {s u : State} {v : BitVec 8} {h : BitVec 2} {x : Ctx} {k : Channel} {r d e : Nat}

/-- A plain record holds no tile that its transfer would give back. -/
theorem PlainRecord.release (hp : PlainRecord r) (x : Ctx) (w : State) : (chanRelease x r false).run w = w :=
  setArchOf_same w x (by funext a; simp [hp.tileSrc])

/-- It fills no tile. -/
theorem PlainRecord.land (hp : PlainRecord r) (x : Ctx) (w : State) : (setArchOf x (boxLand r)).run w = w :=
  setArchOf_same w x (by funext a; simp [boxLand, hp.dkind])

theorem PlainRecord.scaleLand (hp : PlainRecord r) (x : Ctx) (l : List (Nat × BoxEl × Nat)) : scaleLand x r l = .done := by
  simp [Machine.scaleLand, hp.dkind]

/-- It adds to no counter and publishes no slot. -/
theorem PlainRecord.ending (hp : PlainRecord r) (c n : Nat) (x : Ctx) (slot : Nat) : ceEnding c n x r slot = ceNext c n := by
  simp [ceEnding, hp.post, hp.dkind]

/-- Local data stand in no frame. -/
theorem ByteBox.frames (hb : ByteBox r d e) (u : State) (x : Ctx) (l : List BoxEl) : boxFrames u x (.desc d) l = [] := by
  simp [boxFrames, Side.vas, Side.glob, hb.near.1]

/-- BYTES of a byte box is its extent. -/
theorem ByteBox.size (hb : ByteBox r d e) :
    ((((List.range (cExt r 0)).map (byteEl r)).filter (·.data)).length * (Side.desc d).bits + 7) / 8 = cExt r 0 := by
  have hdata : ∀ y ∈ (List.range (cExt r 0)).map (byteEl r), y.data = true := List.forall_mem_map.2 fun _ _ => rfl
  have hbits : (Side.desc d).bits = 8 := hb.bits
  rw [List.filter_eq_self.2 hdata, List.length_map, List.length_range, hbits]
  omega

/-- The state once a byte box has been moved and its record written back. -/
def boxMoved (s u : State) (x : Ctx) (p r d e : Nat) : State :=
  (writeBack u x ⟨false, p⟩ r (cExt r 0)).run
    ((doMoves x ((byteCodes (nth u.lmem x.core []) r d).map (byteMove x (toAt r e)))).run s)

/-- The transfer writes the bytes, then its record; of what a record may ask for beyond that it does nothing. -/
theorem ByteBox.run (hb : ByteBox r d e) (hs : intact s) (ht : Transfers s v.toNat h.toNat x (.desc d) (.desc e))
    (hu : chanView s v.toNat h.toNat = u) (hk : chanAt s v.toNat h.toNat = k) (hr : k.record.toNat = r) (hf : k.filling = true)
    (hglob : k.recAddr.glob = false) (hm : BoxMine u x k.recAddr.addr r d e) :
    exec (.ceRecordComplete v h) s = .next ((ceNext v.toNat h.toNat).run ((setChan v.toNat h.toNat fun k =>
      { k with stage := .ending, filling := false }).run (boxMoved s u x k.recAddr.addr r d e))) := by
  obtain ⟨howned, hstage, hsource, hdest⟩ := ht
  have hrun := howned.step (.ceRecordComplete v h) (ceComplete v.toNat h.toNat)
  have howner := howned.owner
  have hview := chanAt_chanView s v.toNat h.toNat v.toNat h.toNat
  have hintact : intact u := hu ▸ chanView_intact hs v.toNat h.toNat
  rw [hk] at hstage hsource hdest howner hview
  rw [hu, hr] at hsource hdest
  rw [hu] at hview
  have hcodes := hb.codes hintact fun i hi => (hm.moved i hi).1
  have hmoves := hb.moves (fun i => memRead (nth u.lmem x.core []) (fromAt r d + i) 1 % 2 ^ 8) fun i hi => (hm.moved i hi).2
  have hrec : k.recAddr = ⟨false, k.recAddr.addr⟩ := by rw [← hglob]
  have haccess : engineAccess u x k.recAddr true false 128 = .ok [(.arr x.core k.recAddr.addr, 0, 128)] := by
    rw [hrec]
    exact hm.record.access true false
  refine congrArg Host.Outcome.next (hrun.trans ?_)
  rw [ceComplete, Prog.run_get]
  simp only [hu, hview, howner, hstage, hr, hsource, hdest, hb.fits, hf, hb.els, hcodes, hb.scales, hmoves, haccess, hb.plain.expand,
    hb.frames, hb.size, hb.plain.scaleLand, hb.plain.ending, reduceCtorEq, bne_self_eq_false, Bool.false_eq_true, Bool.not_true, if_false]
  rw [Prog.run_all_cons, Prog.run_all_cons, Prog.run_all_cons, Prog.run_all_cons, Prog.run_all_cons, Prog.run_all_cons, Prog.run_all_cons,
    Prog.run_all_cons, Prog.run_all_cons, Prog.run_all_nil, noteEvents_nil, hb.plain.release,
    hb.plain.land, hrec]
  rfl

/-- A byte box is moved, its record is written back, and the chain goes on. -/
theorem ByteBox.completes (hb : ByteBox r d e) (hs : intact s) (hx : x.core < 256)
    (ht : Transfers s v.toNat h.toNat x (.desc d) (.desc e))
    (hu : chanView s v.toNat h.toNat = u) (hk : chanAt s v.toNat h.toNat = k) (hr : k.record.toNat = r) (hf : k.filling = true)
    (hglob : k.recAddr.glob = false) (hm : BoxMine u x k.recAddr.addr r d e) (hwf : Memory.wf (nth s.lmem x.core [])) :
    ∃ t, exec (.ceRecordComplete v h) s = .next t ∧
      nth t.lmem x.core [] = writtenBack (copied (nth s.lmem x.core []) (fromAt r d) (toAt r e) (cExt r 0)) k.recAddr.addr r (cExt r 0) ∧
      (∀ d, d ≠ x.core → nth t.lmem d [] = nth s.lmem d []) ∧ t.mem = s.mem ∧ SameArch s t ∧
      chanAt t v.toNat h.toNat = nextChannel { k with stage := .ending, filling := false } ∧
      (⟨s.time + 1, 2, .ev (.ceRecordRead v h)⟩ : Item) ∈ t.agenda := by
  have hlmem : u.lmem = s.lmem := by
    obtain ⟨_, hview⟩ := chanView_cores s v.toNat h.toNat
    rw [← hu, hview]
  have hmoves := (stored_refl s x.core).moves hs (toAt r e) (byteCodes (nth u.lmem x.core []) r d)
  rw [hlmem, byteCodes_copied hwf] at hmoves
  have hstored := hmoves.writeBack hs (p := k.recAddr.addr) (r := r) (field_lt r 832 32) hm.status hm.bytes hm.own
  rw [← hlmem] at hstored
  rw [hb.run hs ht hu hk hr hf hglob hm]
  change Stored s x.core _ (boxMoved s u x k.recAddr.addr r d e) at hstored
  generalize boxMoved s u x k.recAddr.addr r d e = w at hstored
  obtain ⟨hwrote, hmem, hbytes⟩ := hstored
  have htime : w.time = s.time := by
    obtain ⟨⟨_, _, _, rfl⟩, -⟩ := hwrote
    rfl
  have hchan : chanAt w v.toNat h.toNat = k := by
    rw [← hk, chanAt, hwrote.part (·.chans) fun _ _ => rfl]
    rfl
  rw [setChan_run, hchan]
  obtain ⟨g, hnext, hitem⟩ := ceNext_run (chanAt_withChannel w v.isLt h.isLt { k with stage := .ending, filling := false })
  rw [hnext, withChannel_withChannel]
  refine ⟨_, rfl, ?_, fun d hd => ?_, hmem, fun d => ?_, chanAt_withChannel w v.isLt h.isLt _, by rw [← htime]; exact hitem⟩
  · rw [← hlmem]
    exact (congrArg (nth · x.core []) hbytes).trans (nth_updAt_self _ _ _ hx)
  · exact (congrArg (nth · d []) hbytes).trans (nth_updAt_ne _ _ _ hd.symm)
  · exact (withChannel_sameArch w v.toNat h.toNat _ d).trans (hwrote.sameArch d)
end

end Sys2Proof.Proofs


/-! PROOFS. The runs of a copy engine's channel (O50). -/

namespace Sys2Proof.Proofs
open Sys2Proof Sys2Proof.Machine Sys2Proof.Safety

section
variable {s : State} {v : BitVec 8} {h : BitVec 2} {x : Ctx}

/-- A halt where its record finds room, its parts one by one. -/
theorem halts_parts {i : Instr} {c n code : Nat}
    (hh : (chanAt s c n).filling = false → CanHalt s c x → ∃ t, exec i s = .next t ∧ Halts s c n code t)
    (hf : (chanAt s c n).filling = false) (hlive : ctxLive s x = true)
    (hroom : (s.die (c / 128)).errWp - (s.die (c / 128)).errRp ≠ 4096) (hring : recordable s (c / 128)) : ∃ t, exec i s = .next t ∧
      (chanAt t c n).stage = .halted ∧ (chanAt t c n).code = code ∧ (chanAt t c n).heads = (chanAt s c n).heads ∧
      (t.die (c / 128)).errWp = (s.die (c / 128)).errWp + 1 ∧ SameArch s t ∧ t.ctrs = s.ctrs := by
  obtain ⟨t, ht, hhalts⟩ := hh hf ⟨hlive, hroom, hring⟩
  exact ⟨t, ht, hhalts.stage, hhalts.code, hhalts.heads, hhalts.counted, hhalts.arch, hhalts.ctrs⟩

/-- The three steps of a channel that go through its pages and stall. -/
theorem channel_steps {i : Instr} (hi : i ∈ [Instr.ceRecordRead v h, .ceRingClaim v h, .ceRecordComplete v h]) :
    ∃ p, ∀ s, exec i s = .next ((chanStep v.toNat h.toNat i p).run s) := by
  simp only [List.mem_cons, List.not_mem_nil, or_false] at hi
  obtain rfl | rfl | rfl := hi
  · exact ⟨_, fun _ => rfl⟩
  · exact ⟨_, fun _ => rfl⟩
  · exact ⟨_, fun _ => rfl⟩
end

/-- Settles O50: each step of a channel, from the page it fetches to the record it completes. -/
theorem copyEngineRuns : Obligations.CopyEngineRuns := by
  unfold Obligations.CopyEngineRuns
  intro s v h x hs hx c n k r see withChan reached limit cached owned room halts at_ reads mine
  have owns : owned → Owned s c n x := fun ⟨hd, hown, hheld⟩ => ⟨hd, hown, hheld⟩
  refine ⟨?_, ?_, ?_, cePrewait_waits, cePrewait_met, ?_, ?_, ?_, ?_⟩
  · intro hd hg i hi
    obtain ⟨p, hp⟩ := channel_steps hi
    rw [hp, chanStep_stalls hd hg]
  · intro a e hd hstage hvas hc page hmiss hwalk i hi
    obtain ⟨p, hp⟩ := channel_steps hi
    rw [hp, hp]
    exact congrArg Host.Outcome.next (chanStep_fetches hc hd hstage hvas hmiss hwalk i p)
  · intro q _ ⟨ho, hstage⟩ hgot y ill
    have hr : Reads s c n x q := ⟨owns ho, hstage, hgot⟩
    exact ⟨fun hill => halts_parts (hr.halts hs hill), hr.to_transfer, hr.to_claim, hr.waits⟩
  · intro o ho hstage hgot next
    have hr : Claims s c n x o := ⟨owns ho, hstage, hgot⟩
    exact ⟨fun hbad => halts_parts (hr.halts hs hbad), fun hok hfull => ⟨_, hr.waits hok (decide_eq_true hfull), rfl, ⟨rfl, rfl⟩,
      mem_insertItem.2 (.inl rfl)⟩, fun l hok hfull hhome hcut => hr.claims hs hok (decide_eq_false hfull) hhome hcut⟩
  · intro ⟨_, hown, _⟩ hstage
    exact ⟨ceTimeout_before hown hstage, fun hge => halts_parts (ceTimeout_halts hown hstage hge hs)⟩
  · intro src dst ho hstage hsrc hdst
    have ht : Transfers s c n x src dst := ⟨owns ho, hstage, hsrc, hdst⟩
    exact ⟨fun hill => halts_parts (ht.halts hill hs), ht.waits, ht.begins⟩
  · intro d e ho hstage hf hplain hlocal hglob hsrc hdst hfits hfmt hbits hrank hd1 he1 hdl hel p z from_ to_ m hwf hfirst hin hout hapart
      hrec hone hbytes hmoved
    have hb : ByteBox r d e := ⟨plain_of_field hplain, hfits, hfmt, hbits, hrank, ⟨hd1, he1⟩, ⟨hdl, hel⟩, hfirst, hin, hout⟩
    have hmine : ∀ {a n}, mine a n → Mine see x a n := fun ⟨h1, h2⟩ => ⟨h1, h2⟩
    obtain ⟨t, ht, hmem, hlmem, hdev, harch, hchan, hitem⟩ := hb.completes hs hx ⟨owns ho, hstage, hsrc, hdst⟩ rfl rfl rfl hf hglob
      ⟨hmine hrec, hmine (hone 49 (.inr rfl)), hmine hbytes, hmine (hone 6 (.inl rfl)),
        fun i hi => ⟨hmine (hmoved i hi).1, hmine (hmoved i hi).2⟩⟩ hwf
    refine ⟨t, ht, fun a => ?_, hlmem, hdev, harch, hchan.trans ?_, hitem⟩
    · change memByte (nth t.lmem x.core []) a = _
      rw [hmem]
      exact writtenBack_bytes hwf hapart a
    · have hnext : cAddr r 0 = ⟨false, field r 0 48⟩ := by rw [cAddr, hlocal]; rfl
      rw [← hnext]
      rfl

end Sys2Proof.Proofs
